-- ==== Sys2Proof/Word.lean ====
section
/-! DEFINITION. The words of the OH96: the widths that spec/ uses for text words, register values, tile rows and bytes (R8 to R10, R28). -/

namespace Sys2Proof

/-- A 32-bit text word or scalar (R28, R66). -/
abbrev Word := BitVec 32

/-- A 64-bit address or constant register value (R28). -/
abbrev Dword := BitVec 64

/-- One byte. -/
abbrev Byte := BitVec 8

/-- One 256-byte tile row, operand row, weir row or runnel entry (R28, R170): byte j is bits 8j to 8j+7. -/
abbrev Row := BitVec 2048

/-- One accumulator value of 128 bits, read as FX128 or EF128 (R28, R147, R148). -/
abbrev Acc := BitVec 128

end Sys2Proof
end

