-- ==== Sys2Proof/Syntax.lean ====
section
/-! DEFINITION. The instructions and agent steps of the OH96: one constructor of Instr for each row of the opcode table.
An instruction of the text carries the fields of its encoding (R66 to R94), raw: legality of an operand value is judged by its meaning.
A step of an agent (R209, R233, R286, R344 ...) carries what selects the agent and what the world outside the device supplies. -/

namespace Sys2Proof

/-- The four strands of a core (R25, R40). -/
inductive Strand where
  | x | a | v | m
  deriving DecidableEq, Repr

/-- The engines with a command queue fed by A (R31, R233). -/
inductive Engine where
  | copy | sluice | confluence | gather | chain
  deriving DecidableEq, Repr

/-- The ILL causes (R95), in the order of the table: of several faults of one word the one highest in the table is reported. -/
inductive IllCause where
  | brokenWord | patchTag | landing | reservedTag | orphanGroup | unassigned | selLength
  | reservedField | reservedValue | operand | templateValue | demand | execModel | otherUse
  deriving DecidableEq, Repr

/-- The number that the cause field of a trap record holds (R95). -/
def IllCause.code : IllCause → Nat
  | .brokenWord => 1 | .patchTag => 2 | .landing => 3 | .reservedTag => 4 | .orphanGroup => 5
  | .unassigned => 6 | .selLength => 7 | .reservedField => 8 | .reservedValue => 9 | .operand => 10
  | .templateValue => 11 | .demand => 12 | .execModel => 13 | .otherUse => 14

/-- The word that may stand before an instruction of the same tag and modify it (R80): RS with a rounding mode and a saturate bit,
TK with the tokens it signals and waits for, EXT with an upper immediate. -/
inductive Modifier where
  | rs (mode : BitVec 3) (sat : Bool)
  | tk (sig wait : Option (BitVec 4))
  | ext (upper : BitVec 20)
  deriving DecidableEq, Repr

/-- The fields of an FV word (R71, R76, R79). -/
structure FV where
  dst : BitVec 13
  min : BitVec 2
  ty : BitVec 4
  s3v : BitVec 1
  s3i : BitVec 3
  src2 : BitVec 13
  src1 : BitVec 13
  deriving DecidableEq, Repr

/-- The word-0 fields of an FE word (R71). -/
structure FE where
  scope : BitVec 3
  rel : BitVec 1
  acq : BitVec 1
  as2 : BitVec 5
  as1 : BitVec 5
  ad : BitVec 5
  deriving DecidableEq, Repr

/-- The fields of a FW row transfer (R125). -/
structure RowOp where
  index : BitVec 6
  base : BitVec 6
  desc : BitVec 13
  deriving DecidableEq, Repr

/-- The four fields of WAIT (R60). -/
structure WaitF where
  t : BitVec 5
  c : BitVec 5
  s : BitVec 5
  l : BitVec 5
  deriving DecidableEq, Repr

/-- The fields of MDRAIN (R218). -/
structure Drain where
  fn : BitVec 2
  clr : BitVec 1
  afmt : BitVec 1
  part : BitVec 2
  drow0 : BitVec 6
  dreg : BitVec 4
  dkind : BitVec 2
  nrm1 : BitVec 6
  crow0 : BitVec 6
  acc : BitVec 1
  tfmt : BitVec 4
  deriving DecidableEq, Repr

/-- Where an uncorrectable internal fault struck (R300). -/
inductive HwFault where
  | core (c : Nat)
  | basin (b : Nat)
  | link (router dir : Nat)
  deriving DecidableEq, Repr

/-- What a packet whose header is found uncorrectable was (R335): a request or a reply of the outstanding request that carries a tag. -/
inductive PacketKind where
  | request (tag : Nat)
  | reply (tag : Nat)
  deriving DecidableEq, Repr

/-- A memory request of the host through BAR2 (R269, R338). -/
inductive HostAccess where
  | read (offset : Nat) (len : Nat)
  | write (offset : Nat) (data : List Byte)
  deriving DecidableEq, Repr

/-- A message of a peer (R256, R274, R341), a request with its requester's tag: a read or write of this device's HBM; an update by the peer's confluence
with its operation and type (R244), its value and, for a compare, the new value; the acknowledgement of a result; a store of the peer
into its own memory, which this device sees through the aperture; the times of a line of that memory; and that the peer has received the
PEER_JOIN of one of its partitions with one of this device. -/
inductive PeerMsg where
  | read (tag offset : Nat) (len : Nat)
  | write (tag offset : Nat) (data : List Byte)
  | update (tag offset : Nat) (opc : BitVec 3) (ty : BitVec 4) (value new : Nat)
  | ack (tag : Nat)
  | own (offset : Nat) (data : List Byte)
  | times (offset write lease : Nat)
  | join (peerPart part : Nat)
  deriving DecidableEq, Repr

/-- Data that reaches where it goes (R261, R275, R335): the reply of a stash line, whose payload may be marked uncorrectable; a payload flit so marked of
the reply of another request, by its tag; and one of the data that a request itself carries to its home, for a line of 128 bytes by its virtual
number. -/
inductive DataReply where
  | line (line : Nat) (marked : Bool)
  | marked (tag : Nat)
  | spoilt (tag line : Nat)
  deriving DecidableEq, Repr

/-- A recall of a stash line, with the tag of the reply that it follows (R261). -/
structure Recall where
  line : Nat
  tag : Nat
  deriving DecidableEq, Repr

/-- The control and status registers of a format window, as FMTWIN sets them (R166). -/
structure WindowCtl where
  ctl : BitVec 64
  stat : BitVec 64
  deriving DecidableEq, Repr

/-- What the sensors report at a control interval (R351, R352): the thermal level, and for each rail its current level and its canary count. -/
structure Readings where
  thermal : Nat
  current : List Nat
  canary : List Nat
  deriving DecidableEq, Repr

/-- One engine's four cycle counts of a counter record (R354). -/
structure EngineCounts where
  idle : BitVec 16
  qfull : BitVec 16
  ostall : BitVec 16
  busy : BitVec 16
  deriving DecidableEq, Repr

/-- What a decoder finds when it opens the next slice of a stream (R307, R310): whether its access unit is a key frame, and whether the stream decodes
or uses an unsupported feature. -/
inductive SliceHead where
  | ok (key : Bool)
  | unsupported (code : Nat) (key : Bool)
  deriving DecidableEq, Repr

/-- What a decoder reports at the end of a turn (R308): the slice goes on, the slice ended, or it ended the access unit. -/
inductive SliceOut where
  | sliceOnly
  | accessUnit
  deriving DecidableEq, Repr

/-- The vector that the codec gives an 8 x 8 luma block, in quarter-pel (R312): that of the prediction unit of its top-left sample, to the
previous displayed frame; `away` where the codec's convention points the other way. -/
structure MotionVec where
  x : Int
  y : Int
  away : Bool
  deriving DecidableEq, Repr

/-- The residual of an 8 x 8 luma block (R313): intra-coded, skipped, or its 64 samples after the inverse transform. -/
inductive Residual where
  | intra
  | skipped
  | samples (d : List Int)
  deriving DecidableEq, Repr

/-- An 8 x 8 luma block as the codec decodes it (R312, R313). It has no vector where it is intra-coded, uses global or warped motion or predicts
from no reference that is the previous displayed frame. -/
structure BlockData where
  resid : Residual
  vec : Option MotionVec
  deriving DecidableEq, Repr

/-- A decoded frame as the codec delivers it (R307, R310 to R313): the luma samples of its own width and height; for each pair of columns and rows
of the even size its Cb and its Cr; the blocks in raster order. -/
structure FrameData where
  width : Nat
  height : Nat
  bits : Nat
  key : Bool
  damaged : Bool
  luma : List Nat
  chroma : List Nat
  blocks : List BlockData
  deriving DecidableEq, Repr

/-- What the self-tests of a boot find (R26, R29, R359), and the size that the host has given BAR2, as the power of two of its bytes (R337). -/
structure BootReport where
  romOk : Bool
  flashOk : Bool
  hbmOk : Bool
  bar2 : Nat
  withdrawn : List (Nat × Nat)
  bankmap : List (Nat × BitVec 4)
  deriving DecidableEq, Repr

/-- The parameters of PART_CFG (R344). -/
structure PartParams where
  part : Nat
  quads : BitVec 64
  ptbase : BitVec 64
  lease : BitVec 32
  saveBase : BitVec 64
  saveSize : BitVec 64
  capUs : Nat
  frBase : BitVec 64
  frN : Nat
  spillBase : BitVec 64
  spillSize : Nat
  refBase : BitVec 64
  refSize : Nat
  deriving DecidableEq, Repr

/-- The parameters of CAMERA_CFG (R306, R344): the seven writable registers of the entry and the ingress buffer's size in bytes. -/
structure CameraParams where
  ctl : BitVec 64
  dim : BitVec 64
  fbase : BitVec 64
  slot : BitVec 64
  kbase : BitVec 64
  task : BitVec 64
  tstrm : BitVec 64
  ingress : Nat
  deriving DecidableEq, Repr

/-- The parameters of CCSET (R316): a preset (0 BT.601, 1 BT.709, 2 BT.2020; full or limited range) or values. -/
inductive CcParams where
  | preset (std : Nat) (full : Bool)
  | values (ctl : BitVec 32) (m off mean scl : List (BitVec 32))
  deriving DecidableEq, Repr

/-- The parameters of CLK_CFG (R344, R347, R350): per partition floors and defaults by domain, pacing floors by engine, MAXLEVEL by rail. -/
structure ClkParams where
  part : Nat
  floors : List Nat
  defaults : List Nat
  pacing : List Nat
  maxLevel : List Nat
  deriving DecidableEq, Repr

/-- The instructions and agent steps of the opcode table. -/
inductive Instr where
  /-- ADD (R101): X adds S1 and S2 into D, wrapping unless an RS prefix sets saturation. -/
  | add (d a b : BitVec 6)
  /-- SUB (R101): X subtracts S2 from S1 into D, wrapping unless an RS prefix sets saturation. -/
  | sub (d a b : BitVec 6)
  /-- ADDI (R101): X adds a sign-extended immediate to S1 into D; an EXT prefix widens the immediate to simm28. -/
  | addi (d a : BitVec 6) (imm : BitVec 8)
  /-- MUL (R101): X writes the low 32 bits of S1 times S2 into D. -/
  | mul (d a b : BitVec 6)
  /-- MULH (R101): X writes the high 32 bits of the signed product into D. -/
  | mulh (d a b : BitVec 6)
  /-- MULHZ (R101): X writes the high 32 bits of the unsigned product into D. -/
  | mulhz (d a b : BitVec 6)
  /-- DIV (R103): X writes the signed quotient into D, with fixed results for division by zero and overflow. -/
  | div (d a b : BitVec 6)
  /-- DIVZ (R103): X writes the unsigned quotient into D, never trapping. -/
  | divz (d a b : BitVec 6)
  /-- REM (R103): X writes the signed remainder into D, taking the sign of S1. -/
  | rem (d a b : BitVec 6)
  /-- REMZ (R103): X writes the unsigned remainder into D. -/
  | remz (d a b : BitVec 6)
  /-- AND (R101): X writes the bitwise AND of S1 and S2 into D. -/
  | and_ (d a b : BitVec 6)
  /-- OR (R101): X writes the bitwise OR of S1 and S2 into D. -/
  | or_ (d a b : BitVec 6)
  /-- XOR (R101): X writes the bitwise XOR of S1 and S2 into D. -/
  | xor (d a b : BitVec 6)
  /-- ANDN (R101): X writes S1 AND NOT S2 into D. -/
  | andn (d a b : BitVec 6)
  /-- SHL (R104): X shifts S1 left by the unsigned count S2, giving 0 for counts of 32 or more. -/
  | shl (d a b : BitVec 6)
  /-- SHR (R104): X shifts S1 right logically by the unsigned count S2. -/
  | shr (d a b : BitVec 6)
  /-- SRA (R104): X shifts S1 right arithmetically by the unsigned count S2. -/
  | sra (d a b : BitVec 6)
  /-- MIN (R101): X writes the signed minimum of S1 and S2 into D. -/
  | min (d a b : BitVec 6)
  /-- MAX (R101): X writes the signed maximum of S1 and S2 into D. -/
  | max (d a b : BitVec 6)
  /-- MINZ (R101): X writes the unsigned minimum of S1 and S2 into D. -/
  | minz (d a b : BitVec 6)
  /-- MAXZ (R101): X writes the unsigned maximum of S1 and S2 into D. -/
  | maxz (d a b : BitVec 6)
  /-- CLZ (R101): X writes the number of leading zero bits of S1 into D. -/
  | clz (d a : BitVec 6)
  /-- POPC (R101): X writes the number of one bits of S1 into D. -/
  | popc (d a : BitVec 6)
  /-- EXTB (R101): X extends the low byte of S1 into D, by sign or, with FN 1, by zeros. -/
  | extb (z : BitVec 1) (d a : BitVec 6)
  /-- EXTH (R101): X extends the low half-word of S1 into D, by sign or, with FN 1, by zeros. -/
  | exth (z : BitVec 1) (d a : BitVec 6)
  /-- BFX (R105): X extracts a bit field of S1 into D, zero- or sign-extended. -/
  | bfx (sx : BitVec 1) (d a : BitVec 6) (pos wm1 : BitVec 5)
  /-- BFI (R105): X inserts the low bits of S2 into a bit field of S1 and writes the result into D. -/
  | bfi (d a b : BitVec 6) (pos wm1 : BitVec 5)
  /-- CMP (R106): X compares S1 with S2 under a condition and writes the result into one of its predicates p4 to p7. -/
  | cmp (u : BitVec 1) (cond pred : BitVec 3) (a b : BitVec 6)
  /-- SEL (R106): X writes S1 or S2 into D according to predicate p(4+FN). -/
  | sel (n : BitVec 2) (d a b : BitVec 6)
  /-- MOV (R101): X copies S1 into D. -/
  | mov (d a : BitVec 6)
  /-- LI (R107): X loads a 32-bit immediate into D. -/
  | li (d : BitVec 6) (imm : BitVec 32)
  /-- ADD64 (R107): X adds two 64-bit register pairs, with optional saturation. -/
  | add64 (d a b : BitVec 6)
  /-- SUB64 (R107): X subtracts two 64-bit register pairs, with optional saturation. -/
  | sub64 (d a b : BitVec 6)
  /-- SHL64 (R107): X shifts a register pair left by a 32-bit count. -/
  | shl64 (d a b : BitVec 6)
  /-- SHR64 (R107): X shifts a register pair right logically by a 32-bit count. -/
  | shr64 (d a b : BitVec 6)
  /-- SRA64 (R107): X shifts a register pair right arithmetically by a 32-bit count. -/
  | sra64 (d a b : BitVec 6)
  /-- CMP64 (R107): X compares two register pairs into a predicate p4 to p7. -/
  | cmp64 (u : BitVec 1) (cond pred : BitVec 3) (a b : BitVec 6)
  /-- MOV64 (R107): X copies a register pair. -/
  | mov64 (d a : BitVec 6)
  /-- LI64 (R107): X loads a sign-extended 32-bit immediate into a register pair. -/
  | li64 (d : BitVec 6) (imm : BitVec 32)
  /-- WAIT_X (R60): X stalls until the selected outstanding counters fall to their limits. -/
  | waitX (f : WaitF)
  /-- SIG_X (R61): X adds one to a token counter, waiting while the counter holds 255. -/
  | sigX (tk : BitVec 4)
  /-- AWAIT_X (R61): X stalls until a token counter is non-zero and then takes one unit. -/
  | awaitX (tk : BitVec 4)
  /-- QBIND_BIND (R110): X binds an outbound runnel queue to an li queue on a gang member, once the lo is empty. -/
  | qbindBind (lo li : BitVec 6) (coord : BitVec 9)
  /-- QBIND_UNBIND (R110): X unbinds an outbound runnel queue once it is empty. -/
  | qbindUnbind (lo : BitVec 6)
  /-- QDEPTH (R109): X reads the occupancy and the binding state of a runnel queue into D. -/
  | qdepth (d : BitVec 6) (idx : BitVec 8)
  /-- SPAWN (R111): X waits for its stores and copies, releases at DEV scope, and enqueues a task record into a stream, stalling while the stream is full. -/
  | spawn (d a b : BitVec 6)
  /-- SPAWN_NB (R111): X enqueues a task record, or returns 0 with p4 true when the stream is full. -/
  | spawnNb (d a b : BitVec 6)
  /-- TSTAT (R112): X reads the state and effective priority of a task into D. -/
  | tstat (d a : BitVec 6)
  /-- TRAP (R116): X raises a trap of class TRAP with a 14-bit code. -/
  | trap (code : BitVec 14)
  /-- BRK (R116): X raises a trap of class BRK with a 14-bit code. -/
  | brk (code : BitVec 14)
  /-- RDCAP (R32): X reads a capability register into D. -/
  | rdcap (d : BitVec 6) (idx : BitVec 8)
  /-- RDSYS (R113): X reads a system register into D as it stood at one instant. -/
  | rdsys (d : BitVec 6) (idx : BitVec 8)
  /-- TIMEL_READ (R37): A read of TIMEL latches the high half of the same instant for TIMEH. -/
  | timelRead (d : BitVec 6)
  /-- WRSYS (R113): X writes S1 into a system register, subject to the access and reserved-bit checks. -/
  | wrsys (a : BitVec 6) (idx : BitVec 8)
  /-- SLIPW_WRITE (R35): A write to SLIPW sets the slip window from the next walked word, stalling the strands ahead until the gap fits. -/
  | slipwWrite (a : BitVec 6)
  /-- NEVCFG_WRITE (R164): A write to NEVCFG restarts the event window, clearing ELAPSED and CROSSW and keeping the counts. -/
  | nevcfgWrite (a : BitVec 6)
  /-- NEVCNT_WRITE (R164): A write to an event counter sets its count without firing any action. -/
  | nevcntWrite (n : BitVec 3) (a : BitVec 6)
  /-- NEVSTAT_CLEAR (R163): A write of ones to NEVSTAT clears the matching sticky bits. -/
  | nevstatClear (a : BitVec 6)
  /-- CLKDIV (R348): X requests a new divisor for one clock domain and receives GRANTED, DEFERRED, DENIED_FLOOR or DENIED_CAP. -/
  | clkdiv (d : BitVec 6) (div : BitVec 4) (dom : BitVec 2)
  /-- PACE (R115): X sets an engine's pacing gap, raised to the floor when it is below the floor, and reports in p4. -/
  | pace (a : BitVec 6) (idx : BitVec 8)
  /-- AADD (R117): A adds two 64-bit operands into D, with optional saturation to the address range. -/
  | aadd (d a b : BitVec 6)
  /-- ASUB (R117): A subtracts two 64-bit operands into D, with optional saturation. -/
  | asub (d a b : BitVec 6)
  /-- AADDI (R117): A adds a sign-extended immediate to S1 into D. -/
  | aaddi (d a : BitVec 6) (imm : BitVec 8)
  /-- AMULI (R117): A multiplies S1 by a sign-extended immediate into D. -/
  | amuli (d a : BitVec 6) (imm : BitVec 8)
  /-- ASHL (R117): A shifts S1 left by an immediate count into D. -/
  | ashl (d a : BitVec 6) (imm : BitVec 8)
  /-- ASHR (R117): A shifts S1 right logically by an immediate count into D. -/
  | ashr (d a : BitVec 6) (imm : BitVec 8)
  /-- AAND (R117): A writes the bitwise AND of S1 and S2 into D. -/
  | aand (d a b : BitVec 6)
  /-- AMOV (R117): A copies S1 into D. -/
  | amov (d a : BitVec 6)
  /-- ALI (R117): A loads a sign-extended 32-bit immediate into D. -/
  | ali (d : BitVec 6) (imm : BitVec 32)
  /-- ALIH (R117): A writes a 32-bit immediate into the high half of D and keeps the low half. -/
  | alih (d : BitVec 6) (imm : BitVec 32)
  /-- ACMP (R117): A compares two 64-bit operands into one of its predicates p4 to p7. -/
  | acmp (u : BitVec 1) (cond pred : BitVec 3) (a b : BitVec 6)
  /-- APOP (R119): A pops two entries of an xa queue into one 64-bit register. -/
  | apop (d a : BitVec 6)
  /-- APUSH (R119): A pushes both halves of a 64-bit operand into an ax queue, low half first. -/
  | apush (d a : BitVec 6)
  /-- ACOORD (R120): A forms the remote scratchpad window address of a gang member's core plus an offset. -/
  | acoord (d a : BitVec 6) (coord : BitVec 9)
  /-- LDZ8 (R121): A loads one byte, zero-extended, into a register or an ax queue. -/
  | ldz8 (d a : BitVec 6) (imm : BitVec 8)
  /-- LDS8 (R121): A loads one byte, sign-extended. -/
  | lds8 (d a : BitVec 6) (imm : BitVec 8)
  /-- LDZ16 (R121): A loads two bytes, zero-extended. -/
  | ldz16 (d a : BitVec 6) (imm : BitVec 8)
  /-- LDS16 (R121): A loads two bytes, sign-extended. -/
  | lds16 (d a : BitVec 6) (imm : BitVec 8)
  /-- LD32 (R121): A loads four bytes. -/
  | ld32 (d a : BitVec 6) (imm : BitVec 8)
  /-- LD64 (R121): A loads eight bytes into a register, or into two ax entries with the low half first. -/
  | ld64 (d a : BitVec 6) (imm : BitVec 8)
  /-- ST8 (R121): A stores the low byte of its data source. -/
  | st8 (d a : BitVec 6) (imm : BitVec 8)
  /-- ST16 (R121): A stores the low two bytes of its data source. -/
  | st16 (d a : BitVec 6) (imm : BitVec 8)
  /-- ST32 (R121): A stores the low four bytes of its data source. -/
  | st32 (d a : BitVec 6) (imm : BitVec 8)
  /-- ST64 (R121): A stores eight bytes of its data source, popping two xa entries when the source is xa. -/
  | st64 (d a : BitVec 6) (imm : BitVec 8)
  /-- LOAD_DELIVERY (R59): A load's data arrives in its register or queue and the loads counter falls. -/
  | loadDelivery (core : Nat)
  /-- STORE_PERFORMED (R59): A store is performed at its target and the stores counter falls. -/
  | storePerformed (core : Nat)
  /-- LDROW (R125): A starts the load of a 256-byte row from memory into a tile or operand row and marks the row busy. -/
  | ldrow (r : RowOp)
  /-- ROW_LOAD_LANDED (R126): All 256 bytes of an LDROW land, the row is written, its busy bit clears and the loads counter falls. -/
  | rowLoadLanded (core : Nat)
  /-- STROW (R126): A waits while the row is busy, reads the whole row and stores it to memory. -/
  | strow (r : RowOp)
  /-- LDFE (R127): A requests an 8-byte load that waits for its scratchpad line to be full and empties it. -/
  | ldfe (d a : BitVec 6) (imm : BitVec 8)
  /-- STFE (R127): A requests an 8-byte store that waits for its scratchpad line to be empty and fills it. -/
  | stfe (d a : BitVec 6) (imm : BitVec 8)
  /-- LDRFE (R127): A requests a row load that waits for both lines to be full and empties them together. -/
  | ldrfe (r : RowOp)
  /-- STRFE (R127): A requests a row store that waits for both lines to be empty and fills them together. -/
  | strfe (r : RowOp)
  /-- FULL_EMPTY_PERFORM (R128): At the target scratchpad, a waiting full/empty operation finds its lines in the required state and in one step transfers the data and flips the bits. -/
  | fullEmptyPerform (core : Nat)
  /-- PROBE (R129): A tests a range for translation, writes fault records for failing pages and suspends the context if any page fails. -/
  | probe (w : BitVec 1) (a b : BitVec 6)
  /-- FAULT_RING_POLL (R298): While a PROBE stalls on a full fault ring, the device reads CONS again at least once every 1,024 reference cycles. -/
  | faultRingPoll (core : Nat)
  /-- COPY (R238): A issues a copy or fill of bytes to the copy engine. -/
  | copy (f : FE) (fill : BitVec 1)
  /-- COPYM (R239): A issues a copy of rows into a tile register whose follow-on patch word then goes to the matrix side port. -/
  | copym (f : FE) (patch : BitVec 32)
  /-- MCAST (R240): A issues a write of the same bytes into the scratchpads of a rectangle of gang members. -/
  | mcast (f : FE) (coord : BitVec 9) (hm1 : BitVec 3) (wm1 : BitVec 4)
  /-- TFETCH (R241): A issues a stream of strided rows from global memory into fq and pins their lines. -/
  | tfetch (f : FE) (nrm1 : BitVec 5)
  /-- SLUICE_ROW_FILL (R241): The sluice enters a fetched row into fq once fq has room. -/
  | sluiceRowFill (core : Nat)
  /-- SACC (R244): A issues an index and value stream to the confluence for windowed scatter-accumulate. -/
  | sacc (f : FE) (opc : BitVec 3) (vtype : BitVec 4) (nm1 : BitVec 16) (wm1 : BitVec 6)
  /-- GATH (R243): A issues a gather of units by an INT32 index array. -/
  | gath (f : FE) (nm1 : BitVec 16) (um1 : BitVec 8) (ty : BitVec 4)
  /-- SCAT (R243): A issues a scatter of units by an INT32 index array. -/
  | scat (f : FE) (nm1 : BitVec 16) (um1 : BitVec 8) (ty : BitVec 4)
  /-- GATHMC (R326): A issues a motion-compensated gather of reused tiles from the previous activation plane. -/
  | gathmc (f : FE) (ntx : BitVec 8) (nty : BitVec 8) (tszm1 : BitVec 6) (ty : BitVec 4)
  /-- CHAIN (R246): A opens a chain of element-wise operations whose command enters the chain unit at its last CHOP. -/
  | chain (f : FE) (ty : BitVec 4) (dtype : BitVec 4) (rm : BitVec 3) (sat : BitVec 1) (buse : BitVec 1) (ncm1 : BitVec 3) (nm1 : BitVec 16)
  /-- CHOP (R247): A adds one operation to the open chain, and the last CHOP enters the command. -/
  | chop (d a b : BitVec 6)
  /-- CMASK (R322): A issues a change-mask decision of every tile of one layer to the skimmer. -/
  | cmask (f : FE) (force : BitVec 1)
  /-- TLIST (R324): A issues a command that turns a state array into a compute list and a reuse list. -/
  | tlist (f : FE)
  /-- TOKZ (R319): A issues a longest-match tokenization of text by a dictionary trie. -/
  | tokz (f : FE) (dict : BitVec 2) (capm1 : BitVec 16)
  /-- CCVT (R317): A issues a colour conversion of a frame rectangle into normalised tiles. -/
  | ccvt (f : FE) (ntx : BitVec 8) (nty : BitVec 8) (cset : BitVec 4) (ofmt : BitVec 2)
  /-- ENGINE_COMMAND_START (R233): An engine dequeues the next command under its pacing gap, performs its acquire and executes it. -/
  | engineCommandStart (core : Nat) (eng : Engine)
  /-- ENGINE_COMMAND_COMPLETE (R233): An engine finishes a command with its release, lowers the copies counter, frees its scoreboard entry and signals its token. -/
  | engineCommandComplete (core : Nat) (eng : Engine)
  /-- WAIT_A (R60): A stalls until the selected outstanding counters fall to their limits. -/
  | waitA (f : WaitF)
  /-- SIG_A (R61): A adds one to a token counter. -/
  | sigA (tk : BitVec 4)
  /-- AWAIT_A (R61): A stalls until a token counter is non-zero and then takes one unit. -/
  | awaitA (tk : BitVec 4)
  /-- VADD (R181): V adds two rows lane by lane, rounding once. -/
  | vadd (f : FV)
  /-- VSUB (R181): V subtracts two rows lane by lane. -/
  | vsub (f : FV)
  /-- VMUL (R181): V multiplies two rows lane by lane. -/
  | vmul (f : FV)
  /-- VFMA (R181): V computes a times b plus the destination lane with one rounding. -/
  | vfma (f : FV)
  /-- VFMS (R181): V computes a times b minus the destination lane with one rounding. -/
  | vfms (f : FV)
  /-- VMIN (R181): V writes the lane-wise minimum of two rows. -/
  | vmin (f : FV)
  /-- VMAX (R181): V writes the lane-wise maximum of two rows. -/
  | vmax (f : FV)
  /-- VABS (R181): V writes the absolute value of each lane. -/
  | vabs (f : FV)
  /-- VNEG (R181): V writes the negation of each lane. -/
  | vneg (f : FV)
  /-- VRCP (R182): V writes the correctly rounded reciprocal of each lane. -/
  | vrcp (f : FV)
  /-- VRSQ (R182): V writes the reciprocal square root of each lane. -/
  | vrsq (f : FV)
  /-- VSQRT (R182): V writes the correctly rounded square root of each lane. -/
  | vsqrt (f : FV)
  /-- VEXP (R182): V writes e to the power of each lane. -/
  | vexp (f : FV)
  /-- VLOG (R182): V writes the natural logarithm of each lane. -/
  | vlog (f : FV)
  /-- VTANH (R182): V writes the hyperbolic tangent of each lane. -/
  | vtanh (f : FV)
  /-- VSIGM (R182): V writes the logistic sigmoid of each lane. -/
  | vsigm (f : FV)
  /-- VCVT (R183): V converts lanes from TYPE into DTYPE, one part of the wider side at a time. -/
  | vcvt (f : FV)
  /-- VCMP (R184): V writes a lane mask of a comparison of two rows. -/
  | vcmp (f : FV)
  /-- VSEL (R185): V selects each lane from SRC1 or SRC2 by a mask in an operand row, copying bits. -/
  | vsel (f : FV)
  /-- VAND (R187): V writes the bitwise AND of two raw rows. -/
  | vand (f : FV)
  /-- VOR (R187): V writes the bitwise OR of two raw rows. -/
  | vor (f : FV)
  /-- VXOR (R187): V writes the bitwise XOR of two raw rows. -/
  | vxor (f : FV)
  /-- VNOT (R187): V writes the bitwise NOT of a raw row. -/
  | vnot (f : FV)
  /-- VSHL (R187): V shifts raw lanes left by per-lane counts. -/
  | vshl (f : FV)
  /-- VSHR (R187): V shifts raw lanes right logically by per-lane counts. -/
  | vshr (f : FV)
  /-- VSRA (R187): V shifts raw lanes right arithmetically by per-lane counts. -/
  | vsra (f : FV)
  /-- VADD64 (R187): V adds 64-bit raw lanes modulo 2^64. -/
  | vadd64 (f : FV)
  /-- VSUB64 (R187): V subtracts 64-bit raw lanes modulo 2^64. -/
  | vsub64 (f : FV)
  /-- VCMP64 (R184): V writes a mask of a comparison of 64-bit raw lanes. -/
  | vcmp64 (f : FV)
  /-- VSHL64 (R187): V shifts 64-bit raw lanes left. -/
  | vshl64 (f : FV)
  /-- VSHR64 (R187): V shifts 64-bit raw lanes right, logically or arithmetically. -/
  | vshr64 (f : FV)
  /-- VMOV (R188): V copies a row, or accumulator lanes with their counts, as bits. -/
  | vmov (f : FV)
  /-- VBCAST (R188): V writes one lane of SRC1 into every lane of the destination. -/
  | vbcast (f : FV)
  /-- VRED (R191): V reduces the present lanes of a row by sum, minimum or maximum into lane 0 or vx. -/
  | vred (f : FV)
  /-- VSCAN (R192): V writes inclusive, exclusive, maximum or minimum prefixes of a row with a carry. -/
  | vscan (f : FV)
  /-- VMERGE (R193): V merges two sorted pair rows into the destination and lr. -/
  | vmerge (f : FV)
  /-- VCOMPACT (R194): V moves the present lanes of a row to the low lanes and fills the rest with absent. -/
  | vcompact (f : FV)
  /-- VEXPAND (R194): V spreads the low lanes of SRC1 into the present positions of SRC2. -/
  | vexpand (f : FV)
  /-- VPERM (R195): V permutes the lanes of SRC1 by per-lane indices. -/
  | vperm (f : FV)
  /-- VROT (R195): V rotates or shifts lanes by an immediate amount. -/
  | vrot (f : FV)
  /-- VISAB (R186): V writes a mask of the absent lanes of a row. -/
  | visab (f : FV)
  /-- VMKAB (R186): V writes absent into the lanes that a mask selects and copies the others. -/
  | vmkab (f : FV)
  /-- VCNT (R191): V counts the present lanes of a range of a row into lane 0 or vx. -/
  | vcnt (f : FV)
  /-- VSETI (R189): V fills every lane with an immediate, or sets a row counter. -/
  | vseti (f : FV)
  /-- VIOTA (R190): V writes the lane index plus a base into each lane. -/
  | viota (f : FV)
  /-- WAIT_V (R60): V stalls until the selected outstanding counters fall to their limits. -/
  | waitV (f : WaitF)
  /-- SIG_V (R61): V adds one to a token counter. -/
  | sigV (tk : BitVec 4)
  /-- AWAIT_V (R61): V stalls until a token counter is non-zero and then takes one unit. -/
  | awaitV (tk : BitVec 4)
  /-- LICENCE_GRANT (R201): A released licence is granted to the twin's pending MLIC.ACQ in the next reference cycle. -/
  | licenceGrant (pair : Nat)
  /-- TPLLD (R207): M loads a template from a 16-byte segment of an operand row. -/
  | tplld (tpl : BitVec 6) (row : BitVec 3) (seg : BitVec 4)
  /-- MX (R208): M copies a template, patches one field, checks the command and the licence, and enters it into the matrix queue. -/
  | mx (tpl : BitVec 6) (fsel : BitVec 5) (val : BitVec 16)
  /-- SIDE_PORT_COMMAND (R210): The copy engine presents a COPYM follow-on patch word, which is formed, checked and entered into the matrix queue. -/
  | sidePortCommand (core : Nat)
  /-- MZERO (R217): M enters a command that clears an accumulator into the matrix queue. -/
  | mzero (acc : BitVec 1)
  /-- MDRAIN (R218): M enters a command that drains accumulator rows into a tile register, lo queue or weir. -/
  | mdrain (f : Drain)
  /-- MMA_EXECUTE (R213): The array multiplies operand blocks into an accumulator, counting present contributors and advancing the watermark. -/
  | mmaExecute (core : Nat)
  /-- MXPOSE_EXECUTE (R215): The array writes the transpose of a block into a tile register. -/
  | mxposeExecute (core : Nat)
  /-- MZERO_EXECUTE (R217): The array sets every element of an accumulator to value 0 and count 0 and clears its saturation flag. -/
  | mzeroExecute (core : Nat)
  /-- MDRAIN_EXECUTE (R219): The array converts accumulator rows in RAW, NORM or COUNT mode and writes or pushes them. -/
  | mdrainExecute (core : Nat)
  /-- ARRAY_COMMAND_COMPLETE (R209): A matrix command's writes are made, the tile-operations counter falls, tokens are signalled and events are counted. -/
  | arrayCommandComplete (core : Nat)
  /-- WAIT_M (R60): M stalls until the selected outstanding counters fall to their limits. -/
  | waitM (f : WaitF)
  /-- SIG_M (R61): M adds one to a token counter. -/
  | sigM (tk : BitVec 4)
  /-- AWAIT_M (R61): M stalls until a token counter is non-zero and then takes one unit. -/
  | awaitM (tk : BitVec 4)
  /-- LOOP (R52): Each strand pushes a loop level and runs the body with stage predicates, rotation and trip-count bits. -/
  | loop (trip : BitVec 32) (rot : BitVec 1) (tsrc sm1 : BitVec 2) (klen : BitVec 14)
  /-- STAGE (R54): A marker opens a stage block of the enclosing loop body. -/
  | stage (s : BitVec 2)
  /-- BR (R130): The decider evaluates its predicate and pushes the outcome to the other strands, which pop it and branch. -/
  | br (decA inv : BitVec 1) (pred : BitVec 2) (off : BitVec 16)
  /-- J (R131): Each strand jumps by a signed word offset. -/
  | j (off : BitVec 16)
  /-- CALL (R131): Each strand pushes its return address and jumps. -/
  | call (off : BitVec 16)
  /-- BAR (R58): Every strand stalls at the barrier word until its core's arrival is released. -/
  | bar (cnt : BitVec 8) (slot : BitVec 3) (coord : BitVec 9)
  /-- RUNNEL_ROW_SEND (R249): A row leaves a bound lo queue once its li has a free credit. -/
  | runnelRowSend (core : Nat) (lo : BitVec 2)
  /-- RUNNEL_ROW_ARRIVE (R249): A row in flight arrives in its li queue and is accepted. -/
  | runnelRowArrive (core : Nat) (lo : BitVec 2)
  /-- RUNNEL_CREDIT_RETURN (R249): The sender learns of a slot that a pop of li freed. -/
  | runnelCreditReturn (core : Nat) (lo : BitVec 2)
  /-- NEV_WINDOW_END (R164): The numeric event window expires and clears the counts and crossing bits. -/
  | nevWindowEnd (core : Nat)
  /-- GANG_TRAP_STOP (R292): Every member of a trapping gang stops, a stop save is taken and the trap record is written to the handler or the task fails. -/
  | gangTrapStop (task : Nat)
  /-- HANDLER_DISPOSITION (R292): After a handler completes, the fountainhead reads DISP and resumes or fails the trapped task. -/
  | handlerDisposition (task : Nat)
  /-- FATAL_CONTEXT_ERROR (R294): The whole gang ends, waiting engine work is abandoned and a failed completion record is produced. -/
  | fatalContextError (task : Nat)
  /-- HOLD_REACHED (R290): When every member holds at its iteration boundary, each completes its engine work, saves its image and releases its licence as owed. -/
  | holdReached (task : Nat)
  /-- ITERATION_LIMIT_EXPIRY (R290): The iteration limit passes before the hold is complete and the gang ends with kind 5. -/
  | iterationLimitExpiry (task : Nat)
  /-- TASK_READY (R283): A task whose dependences and stream order are satisfied enters the ready pool. -/
  | taskReady (task : Nat)
  /-- STREAM_AGED (R284): A stream's head stands ready longer than AGE and receives a priority boost. -/
  | streamAged (stream : Nat)
  /-- COMPLETION_RECORD_WRITE (R295): A ready completion record is written into its stream's ring in acceptance order once the ring has room. -/
  | completionRecordWrite (stream : Nat)
  /-- COMPLETION_RECORD_RETRY (R295): The fountainhead retries an unwritable completion record at least once every 1,024 reference cycles. -/
  | completionRecordRetry (stream : Nat)
  /-- CORE_BASIN_LINK_FAULT (R300): An uncorrectable internal fault stops the affected gangs, which are restored, redispatched or failed with kind 13. -/
  | coreBasinLinkFault (f : HwFault)
  /-- DATA_REPLY_ARRIVAL (R275): A basin's data reply reaches a core, is applied, and the accesses waiting for it are performed in issue order. -/
  | dataReplyArrival (core : Nat) (reply : DataReply)
  /-- RECALL_ARRIVAL (R261): A recall reaches a core, is held until its tagged reply has been applied, and then writes back the line. -/
  | recallArrival (core : Nat) (order : Recall)
  /-- MIGRATION_LINE_COPIED (R274): A basin finishes copying a line to its new home and forwards the accesses it held. -/
  | migrationLineCopied (part : Nat)
  /-- HEADER_UNCORRECTABLE (R335): A router drops a packet with an uncorrectable header, charges the link and marks it at three errors. -/
  | headerUncorrectable (router : BitVec 9) (dir : Nat) (pkt : PacketKind)
  /-- REQUEST_RETRANSMIT (R335): A request whose reply has not arrived after 8,192 network cycles is retransmitted, and after three retransmissions a link fault is reported. -/
  | requestRetransmit (tag : Nat)
  /-- HOST_BAR2_ACCESS (R269): A host or peer memory request through BAR2 is performed at its home in PCIe order. -/
  | hostBar2Access (fn : Nat) (acc : HostAccess)
  /-- PEER_MESSAGE (R341): A coherence or confluence message from a joined peer arrives as a vendor-defined PCIe message. -/
  | peerMessage (aperture : Nat) (msg : PeerMsg)
  /-- REGISTER_WRITE (R12): A write to a register with no row of its own takes effect under its access type. -/
  | registerWrite (fn offset : Nat) (value : BitVec 64)
  /-- CONTROL_INTERVAL (R351): Every 10 µs the wellhead reads thermal and current levels and sets caps, pacing floors, throttles, rail levels and undervolt offsets. -/
  | controlInterval (r : Readings)
  /-- RAIL_RAISE_COMPLETE (R348): A rail's voltage raise completes and the deferred divisor becomes due. -/
  | railRaiseComplete (rail : Nat)
  /-- DIVISOR_CHANGE (R348): A granted or deferred divisor takes effect at the domain's next command boundary and PEND clears. -/
  | divisorChange (core : Nat) (dom : BitVec 2)
  /-- UNDERVOLT_REFLEX (R353): An uncorrectable error on an undervolted rail returns OFFSET to 0, lowers the margin limit and writes a kind 6 record. -/
  | undervoltReflex (rail : Nat) (dirtyLine : Option Nat)
  /-- COUNTER_SAMPLE (R354): Every 10 µs each core with a context writes its engines' busy and stall counts to the counter ring. -/
  | counterSample (core : Nat) (counts : List EngineCounts)
  /-- DECODE_TURN_START (R308): A decoder instance chooses the next stream by credit and decodes its ready slice. -/
  | decodeTurnStart (inst : Nat) (sl : SliceHead)
  /-- DECODE_QUANTUM_EXPIRY (R308): A turn reaches 250 µs and the slice is suspended at its next row. -/
  | decodeQuantumExpiry (inst : Nat)
  /-- DECODE_TURN_END (R308): A turn ends at the end of the slice and its time is charged to the stream's credit. -/
  | decodeTurnEnd (inst : Nat) (us : Nat) (sl : SliceOut)
  /-- FRAME_PUBLISH (R314): The intake writes a frame's areas, releases at SYS scope and writes its record with HELD set. -/
  | framePublish (camera : Nat) (f : FrameData)
  /-- INTAKE_SLOT_FREED (R314): The intake reads HELD as 0 and resumes writing into the slot. -/
  | intakeSlotFreed (camera : Nat)
  /-- AUTO_SUBMIT (R315): The intake writes the frame constants and submits the template record once its task stream has room. -/
  | autoSubmit (camera : Nat)
  /-- RESET_RELEASE (R359): After PERST# is released the device checks ROM, configuration and patch, self-tests, trains HBM and becomes ready or failed. -/
  | resetRelease (b : BootReport)
  /-- FUNCTION_LEVEL_RESET (R360): A function-level reset ends every gang, task and camera stream of the partition with kind 12. -/
  | functionLevelReset (fn : Nat)
  /-- QUERY (R344): The firmware returns its versions, withdrawn cores, state and the partition's quad mask. -/
  | query (fn : Nat)
  /-- PART_CFG (R344): The firmware configures a partition's quads, page tables, lease, save, fault, spill and reference areas. -/
  | partCfg (fn : Nat) (c : PartParams)
  /-- STREAM_CFG (R280): The firmware writes a task stream's control, completion ring base and size. -/
  | streamCfg (fn stream : Nat) (sctl crbase crsize : BitVec 64)
  /-- SUBMIT (R344): The host submits a task record into a stream and receives its task id or a refusal status. -/
  | submit (fn stream : Nat) (addr : BitVec 64)
  /-- TASK_END (R344): The host ends a task's gang or fails a task that has not run, with kind 12. -/
  | taskEnd (fn task : Nat)
  /-- FAULT_SERVICE (R299): The host reports service for a task, which is restored to execute its PROBE again. -/
  | faultService (fn task : Nat)
  /-- SHOOTDOWN (R297): The firmware drops a virtual range from every TLB of the partition. -/
  | shootdown (fn part : Nat) (range : Option (BitVec 64 × BitVec 64))
  /-- MIGRATE (R252): The firmware starts a page migration line by line and returns after the shoot-down. -/
  | migrate (fn part : Nat) (page dest : BitVec 64)
  /-- FMTWIN (R166): The firmware writes a format window's registers after invalidating its view lines. -/
  | fmtwin (fn win : Nat) (ctl : WindowCtl) (vbase vlim dbase abase : BitVec 64)
  /-- CAMERA_CFG (R310): The firmware writes a camera stream entry and starts, stops or recovers the stream. -/
  | cameraCfg (fn camera : Nat) (c : CameraParams)
  /-- CAMERA_AU (R309): The host submits an access unit to a camera's ingress buffer, refused with BUSY when it lacks room. -/
  | cameraAu (fn camera : Nat) (bus : BitVec 64) (len : Nat) (pts : BitVec 64)
  /-- CCSET (R316): The firmware writes a colour conversion set from a preset or values. -/
  | ccset (fn part set : Nat) (c : CcParams)
  /-- DICT (R318): The firmware writes a tokenizer dictionary's registers. -/
  | dict (fn part n : Nat) (ctl node edge nedge : BitVec 64)
  /-- EVENT_RING (R345): The firmware configures an event ring. -/
  | eventRing (fn part : Nat) (base : BitVec 64) (n : Nat)
  /-- COUNTER_RING (R354): The firmware configures a partition's counter ring. -/
  | counterRing (fn part : Nat) (base : BitVec 64) (n : Nat)
  /-- PEER_JOIN (R341): The firmware joins a local partition to a peer's partition through an aperture. -/
  | peerJoin (fn part aperture peer : Nat)
  /-- CLK_CFG (R347): The firmware sets divisor floors, default divisors, pacing floors and rail maximum levels. -/
  | clkCfg (fn : Nat) (c : ClkParams)
  /-- POWER_CFG (R352): The firmware enables or disables undervolting per rail and sets CELIM. -/
  | powerCfg (fn rail : Nat) (enable : Bool) (celim : Nat)
  /-- PATCH_LOAD (R356): The firmware verifies a signed patch image and stores it for the next reset. -/
  | patchLoad (fn : Nat) (addr : BitVec 64)
  /-- CONFIG_WRITE (R357): The firmware verifies a signed configuration record with its counter and stores it for the next reset. -/
  | configWrite (fn : Nat) (addr : BitVec 64)
  /-- ATTEST (R358): The firmware writes a signed attestation report with its certificate chain to a bus address. -/
  | attest (fn : Nat) (nonce : BitVec 256) (bus : BitVec 64)
  /-- LINK_QUERY (R362): The firmware returns a link's corrected and error counts and its marked bit. -/
  | linkQuery (fn : Nat) (router : BitVec 9) (dir : Nat)
  /-- UNSUPPORTED_COMMAND (R344): A mailbox command with an unassigned opcode returns UNSUPPORTED. -/
  | unsupportedCommand (fn : Nat) (op : BitVec 16)
  /-- HEADER_CORRECTED (R335): A router corrects a single-bit header error and counts it in the link's corrected counter. -/
  | headerCorrected (router : BitVec 9) (dir : Nat)
  /-- SAVE_COMPLETE (R290): The save image of a held gang has been written to the grotto or HBM, freeing its reserved cores for the waiting task. -/
  | saveComplete (task : Nat)
  /-- NOP_X (R134): The X strand executes the all-zero word and does nothing. -/
  | nopX
  /-- NOP_A (R134): The A strand executes a word that does nothing. -/
  | nopA
  /-- NOP_V (R92): The V strand executes a word pair that does nothing. -/
  | nopV
  /-- NOP_M (R93): The M strand executes a word that does nothing. -/
  | nopM
  /-- MLIC_ACQ (R200): M stalls until the pair's matrix licence is free or its own, then holds it. -/
  | mlicAcq
  /-- MLIC_REL (R200): M waits for every MX command to complete, then releases the licence or clears an owed one. -/
  | mlicRel
  /-- MLIC_TRY (R200): M takes the licence if it is free or its own and reports the outcome in p4, never stalling. -/
  | mlicTry
  /-- LOOP_ITERATION_END (R52): A strand reaches the end of a loop body, steps its rotation bases, updates its predicates and loops back or pops the level. -/
  | loopIterationEnd
  /-- RET (R131): Each strand pops its return stack into its program counter. -/
  | ret
  /-- END (R49): Each strand ends the prologue and moves to the kernel, or stops at the end of the epilogue. -/
  | end_
  /-- BAR_ARRIVAL (R58): Once all four strands stand at a BAR, one arrival reaches the host slot, which releases the phase when the count is reached or fails a mismatched arrival. -/
  | barArrival
  /-- INSTANCE_COMPLETE (R50): When every strand has stopped and every counter and queue is empty, the instance completes, releasing its writes, licence and stash. -/
  | instanceComplete
  /-- NUM_TRAP (R165): The strand named by the event source raises NUM at its first instruction boundary after a crossing. -/
  | numTrap
  /-- DISPATCH_DECISION (R286): Every 16 reference cycles the fountainhead picks a ready head by priority and deficit round-robin and places it or requests pre-emption. -/
  | dispatchDecision
  /-- EPRIO_UPDATE (R284): The fountainhead recomputes effective priorities within 64 reference cycles of a change. -/
  | eprioUpdate
  /-- CAPACITY_NOTICE (R287): A task that has waited in WAIT_CAPACITY for the capacity-notice time is reported to the host once. -/
  | capacityNotice
  /-- NETWORK_DRAIN (R334): Every 65,536 network cycles all routers stop injection and move buffered flits along a preset cycle. -/
  | networkDrain
  /-- DRAIN_END (R334): The drain ends when the buffers are empty or 192 cycles have passed. -/
  | drainEnd
  /-- DECODE_PERIOD (R308): Every 8 ms each decoder instance opens new credit for its streams. -/
  | decodePeriod
  /-- SKIPPED_WORDS_WALK (R42): A strand passes up to eight words that it skips or walks as suppressed, advancing its walked count. -/
  | skippedWordsWalk
  /-- NOT_AN_INSTRUCTION (R95): A strand reaches a broken word, a reserved tag, an unassigned opcode, an orphan prefix or the address past the text image, and raises ILL. -/
  | notAnInstruction
  /-- ILL_AT_NEXT_BOUNDARY (R210): M raises ILL at its next instruction boundary after a side-port command fails its check, or after a drain pushed into an unbound lo. -/
  | illAtNextBoundary
  /-- PERST_ASSERTION (R359): PERST# is asserted and the device enters reset, losing all state. -/
  | perstAssertion
  deriving DecidableEq, Repr

end Sys2Proof
end

