-- ==== Sys2Proof/Decode.lean ====
section
/-! DEFINITION. Decoding of text words (R66 to R95) and, after it, the encoder written from the same tables.
A word that is not an instruction is rejected with its cause of R95. -/

namespace Sys2Proof

/-- The `len` bits of `w` from bit `lo` upward. -/
abbrev bits {n : Nat} (w : BitVec n) (lo len : Nat) : BitVec len := w.extractLsb' lo len

/-- D of F3, F2I and FW (R70). -/
abbrev fD (w : Word) : BitVec 6 := bits w 12 6

/-- S1 of F3, F2I and FW (R70). -/
abbrev fS1 (w : Word) : BitVec 6 := bits w 18 6

/-- S2 of F3 and FW (R70). -/
abbrev fS2 (w : Word) : BitVec 6 := bits w 24 6

/-- IMM8 of F2I (R70). -/
abbrev fImm (w : Word) : BitVec 8 := bits w 24 8

/-- The fields of WAIT (R60). -/
def waitF (w : Word) : WaitF := { t := bits w 27 5, c := bits w 22 5, s := bits w 17 5, l := bits w 12 5 }

/-- The fields of an FV word pair (R71, R76). -/
def fv (w p : Word) : FV :=
  { dst := bits w 18 13, min := bits w 16 2, ty := bits w 12 4,
    s3v := bits p 29 1, s3i := bits p 26 3, src2 := bits p 13 13, src1 := bits p 0 13 }

/-- The word-0 fields of an FE word (R71). -/
def fe (w : Word) : FE :=
  { scope := bits w 29 3, rel := bits w 28 1, acq := bits w 27 1, as2 := bits w 22 5, as1 := bits w 17 5, ad := bits w 12 5 }

/-- The fields of MDRAIN (R218). -/
def drainF (w p : Word) : Drain :=
  { fn := bits w 30 2, clr := bits w 13 1, afmt := bits w 12 1, part := bits p 29 2, drow0 := bits p 23 6, dreg := bits p 19 4,
    dkind := bits p 17 2, nrm1 := bits p 11 6, crow0 := bits p 5 6, acc := bits p 4 1, tfmt := bits p 0 4 }

/-- A field that must be zero (R72): cause 8 otherwise. -/
def reserved (w : Word) (lo len : Nat) (i : Instr) : Except IllCause Instr :=
  if bits w lo len = 0 then .ok i else .error .reservedField

/-- Two fields that must be zero (R72). -/
def reservedPair (w : Word) (lo len : Nat) (w' : Word) (lo' len' : Nat) (i : Instr) : Except IllCause Instr :=
  if bits w lo len = 0 ∧ bits w' lo' len' = 0 then .ok i else .error .reservedField

/-- Three fields that must be zero (R72). -/
def reservedTwo (w : Word) (lo len : Nat) (w' : Word) (lo' len' : Nat) (w'' : Word) (lo'' len'' : Nat) (i : Instr) :
    Except IllCause Instr :=
  if bits w lo len = 0 ∧ bits w' lo' len' = 0 ∧ bits w'' lo'' len'' = 0 then .ok i else .error .reservedField

/-- A minor field whose only assigned value is zero (R72): cause 9 otherwise (R95). -/
def selZero (w : Word) (lo len : Nat) (i : Instr) : Except IllCause Instr :=
  if bits w lo len = 0 then .ok i else .error .reservedValue

/-- FN zero (R72, R94). -/
def fnZero (w : Word) (i : Instr) : Except IllCause Instr := selZero w 30 2 i

/-- The bits of TRIPV that must be zero under a TSRC (R51). -/
def tripReserved (tsrc : BitVec 2) (trip : BitVec 32) : Bool :=
  match tsrc.toNat with
  | 1 => bits trip 4 28 != 0
  | 2 => bits trip 5 27 != 0
  | _ => false

/-- LOOP (R51): the reserved bit of word 0, and those of TRIPV that its TSRC leaves reserved. -/
def loopFields (w p : Word) : Except IllCause Instr :=
  if tripReserved (bits w 28 2) p then .error .reservedField
  else reserved w 31 1 (.loop p (bits w 30 1) (bits w 28 2) (bits w 26 2) (bits w 12 14))

/-- QBIND (R110): FN 0 binds, FN 1 unbinds. -/
def qbindFields (w p : Word) : Except IllCause Instr :=
  match (bits w 30 2).toNat with
  | 0 => reservedPair w 24 6 p 9 23 (.qbindBind (fD w) (fS1 w) (bits p 0 9))
  | 1 => reservedPair w 18 12 p 0 32 (.qbindUnbind (fD w))
  | _ => if bits w 24 6 = 0 ∧ bits p 9 23 = 0 then .error .reservedValue else .error .reservedField

/-- SPAWN and SPAWN.NB (R94, R111). -/
def spawnFields (w : Word) : Except IllCause Instr :=
  match (bits w 30 2).toNat with
  | 0 => .ok (.spawn (fD w) (fS1 w) (fS2 w))
  | 1 => .ok (.spawnNb (fD w) (fS1 w) (fS2 w))
  | _ => .error .reservedValue

/-- RDSYS (R113), with the row of its own for TIMEL (R37). -/
def rdsysFields (w : Word) : Except IllCause Instr :=
  if bits w 18 6 ≠ 0 then .error .reservedField
  else if fImm w = 0x0B then .ok (.timelRead (fD w))
  else .ok (.rdsys (fD w) (fImm w))

/-- WRSYS (R113), with the rows of their own for SLIPW (R35) and the numeric event registers (R163, R164). -/
def wrsysFields (w : Word) : Except IllCause Instr :=
  if bits w 12 6 ≠ 0 then .error .reservedField
  else match (fImm w).toNat with
    | 0x06 => .ok (.slipwWrite (fS1 w))
    | 0x40 => .ok (.nevcfgWrite (fS1 w))
    | 0x42 => .ok (.nevstatClear (fS1 w))
    | 0x44 => .ok (.nevcntWrite 0 (fS1 w))
    | 0x45 => .ok (.nevcntWrite 1 (fS1 w))
    | 0x46 => .ok (.nevcntWrite 2 (fS1 w))
    | 0x47 => .ok (.nevcntWrite 3 (fS1 w))
    | 0x48 => .ok (.nevcntWrite 4 (fS1 w))
    | 0x49 => .ok (.nevcntWrite 5 (fS1 w))
    | _ => .ok (.wrsys (fS1 w) (fImm w))

/-- MLIC (R94, R200). -/
def mlicFields (w : Word) : Except IllCause Instr :=
  if bits w 12 18 ≠ 0 then .error .reservedField
  else match (bits w 30 2).toNat with
    | 0 => .ok .mlicAcq
    | 1 => .ok .mlicRel
    | 2 => .ok .mlicTry
    | _ => .error .reservedValue

/-- The X opcodes (R90 to R94): the instruction of the opcode's format, or the cause of R95. Opcodes without an entry are unassigned. -/
def decodeX (op : Nat) (w p : Word) : Except IllCause Instr :=
  match op with
  | 0x00 => reserved w 12 20 (.nopX)
  | 0x01 => fnZero w (.add (fD w) (fS1 w) (fS2 w))
  | 0x02 => fnZero w (.sub (fD w) (fS1 w) (fS2 w))
  | 0x03 => .ok (.addi (fD w) (fS1 w) (fImm w))
  | 0x04 => fnZero w (.mul (fD w) (fS1 w) (fS2 w))
  | 0x05 => fnZero w (.mulh (fD w) (fS1 w) (fS2 w))
  | 0x06 => fnZero w (.mulhz (fD w) (fS1 w) (fS2 w))
  | 0x07 => fnZero w (.div (fD w) (fS1 w) (fS2 w))
  | 0x08 => fnZero w (.divz (fD w) (fS1 w) (fS2 w))
  | 0x09 => fnZero w (.rem (fD w) (fS1 w) (fS2 w))
  | 0x0a => fnZero w (.remz (fD w) (fS1 w) (fS2 w))
  | 0x0b => fnZero w (.and_ (fD w) (fS1 w) (fS2 w))
  | 0x0c => fnZero w (.or_ (fD w) (fS1 w) (fS2 w))
  | 0x0d => fnZero w (.xor (fD w) (fS1 w) (fS2 w))
  | 0x0e => fnZero w (.andn (fD w) (fS1 w) (fS2 w))
  | 0x0f => fnZero w (.shl (fD w) (fS1 w) (fS2 w))
  | 0x10 => fnZero w (.shr (fD w) (fS1 w) (fS2 w))
  | 0x11 => fnZero w (.sra (fD w) (fS1 w) (fS2 w))
  | 0x12 => fnZero w (.min (fD w) (fS1 w) (fS2 w))
  | 0x13 => fnZero w (.max (fD w) (fS1 w) (fS2 w))
  | 0x14 => fnZero w (.minz (fD w) (fS1 w) (fS2 w))
  | 0x15 => fnZero w (.maxz (fD w) (fS1 w) (fS2 w))
  | 0x16 => reserved w 24 6 (.clz (fD w) (fS1 w)) |>.bind (fnZero w)
  | 0x17 => reserved w 24 6 (.popc (fD w) (fS1 w)) |>.bind (fnZero w)
  | 0x18 => reserved w 24 6 (.extb (bits w 30 1) (fD w) (fS1 w)) |>.bind (selZero w 31 1)
  | 0x19 => reserved w 24 6 (.exth (bits w 30 1) (fD w) (fS1 w)) |>.bind (selZero w 31 1)
  | 0x1a => reservedTwo w 24 6 p 5 3 p 13 19 (.bfx (bits w 30 1) (fD w) (fS1 w) (bits p 0 5) (bits p 8 5)) |>.bind (selZero w 31 1)
  | 0x1b => reservedPair p 5 3 p 13 19 (.bfi (fD w) (fS1 w) (fS2 w) (bits p 0 5) (bits p 8 5)) |>.bind (fnZero w)
  | 0x1c => selZero w 31 1 (.cmp (bits w 30 1) (bits w 15 3) (bits w 12 3) (fS1 w) (fS2 w))
  | 0x1d => .ok (.sel (bits w 30 2) (fD w) (fS1 w) (fS2 w))
  | 0x1e => reserved w 24 6 (.mov (fD w) (fS1 w)) |>.bind (fnZero w)
  | 0x1f => reserved w 18 12 (.li (fD w) p) |>.bind (fnZero w)
  | 0x20 => fnZero w (.add64 (fD w) (fS1 w) (fS2 w))
  | 0x21 => fnZero w (.sub64 (fD w) (fS1 w) (fS2 w))
  | 0x22 => fnZero w (.shl64 (fD w) (fS1 w) (fS2 w))
  | 0x23 => fnZero w (.shr64 (fD w) (fS1 w) (fS2 w))
  | 0x24 => fnZero w (.sra64 (fD w) (fS1 w) (fS2 w))
  | 0x25 => selZero w 31 1 (.cmp64 (bits w 30 1) (bits w 15 3) (bits w 12 3) (fS1 w) (fS2 w))
  | 0x26 => reserved w 24 6 (.mov64 (fD w) (fS1 w)) |>.bind (fnZero w)
  | 0x27 => reserved w 18 12 (.li64 (fD w) p) |>.bind (fnZero w)
  | 0x28 => .ok (.waitX (waitF w))
  | 0x29 => reserved w 16 16 (.sigX (bits w 12 4))
  | 0x2a => reserved w 16 16 (.awaitX (bits w 12 4))
  | 0x2b => qbindFields w p
  | 0x2c => reserved w 18 6 (.qdepth (fD w) (fImm w))
  | 0x2d => spawnFields w
  | 0x2e => reserved w 24 6 (.tstat (fD w) (fS1 w)) |>.bind (fnZero w)
  | 0x2f => reserved w 12 6 (.trap (bits w 18 14))
  | 0x30 => reserved w 12 6 (.brk (bits w 18 14))
  | 0x31 => reserved w 18 6 (.rdcap (fD w) (fImm w))
  | 0x32 => rdsysFields w
  | 0x33 => wrsysFields w
  | 0x34 => reservedPair w 18 6 w 26 2 (.clkdiv (fD w) (bits w 28 4) (bits w 24 2))
  | 0x35 => reserved w 12 6 (.pace (fS1 w) (fImm w))
  | _ => .error .unassigned

/-- The A opcodes (R90 to R94): the instruction of the opcode's format, or the cause of R95. Opcodes without an entry are unassigned. -/
def decodeA (op : Nat) (w p : Word) : Except IllCause Instr :=
  match op with
  | 0x00 => reserved w 12 20 (.nopA)
  | 0x01 => fnZero w (.aadd (fD w) (fS1 w) (fS2 w))
  | 0x02 => fnZero w (.asub (fD w) (fS1 w) (fS2 w))
  | 0x03 => .ok (.aaddi (fD w) (fS1 w) (fImm w))
  | 0x04 => .ok (.amuli (fD w) (fS1 w) (fImm w))
  | 0x05 => .ok (.ashl (fD w) (fS1 w) (fImm w))
  | 0x06 => .ok (.ashr (fD w) (fS1 w) (fImm w))
  | 0x07 => fnZero w (.aand (fD w) (fS1 w) (fS2 w))
  | 0x08 => reserved w 24 6 (.amov (fD w) (fS1 w)) |>.bind (fnZero w)
  | 0x09 => reserved w 18 12 (.ali (fD w) p) |>.bind (fnZero w)
  | 0x0a => reserved w 18 12 (.alih (fD w) p) |>.bind (fnZero w)
  | 0x0b => selZero w 31 1 (.acmp (bits w 30 1) (bits w 15 3) (bits w 12 3) (fS1 w) (fS2 w))
  | 0x0c => reserved w 24 6 (.apop (fD w) (fS1 w)) |>.bind (fnZero w)
  | 0x0d => reserved w 24 6 (.apush (fD w) (fS1 w)) |>.bind (fnZero w)
  | 0x0e => reservedPair w 24 6 p 9 23 (.acoord (fD w) (fS1 w) (bits p 0 9)) |>.bind (fnZero w)
  | 0x0f => .ok (.ldz8 (fD w) (fS1 w) (fImm w))
  | 0x10 => .ok (.lds8 (fD w) (fS1 w) (fImm w))
  | 0x11 => .ok (.ldz16 (fD w) (fS1 w) (fImm w))
  | 0x12 => .ok (.lds16 (fD w) (fS1 w) (fImm w))
  | 0x13 => .ok (.ld32 (fD w) (fS1 w) (fImm w))
  | 0x14 => .ok (.ld64 (fD w) (fS1 w) (fImm w))
  | 0x15 => .ok (.st8 (fD w) (fS1 w) (fImm w))
  | 0x16 => .ok (.st16 (fD w) (fS1 w) (fImm w))
  | 0x17 => .ok (.st32 (fD w) (fS1 w) (fImm w))
  | 0x18 => .ok (.st64 (fD w) (fS1 w) (fImm w))
  | 0x19 => reservedPair w 12 6 p 13 19 (.ldrow (RowOp.mk (fS2 w) (fS1 w) (bits p 0 13))) |>.bind (fnZero w)
  | 0x1a => reservedPair w 12 6 p 13 19 (.strow (RowOp.mk (fS2 w) (fS1 w) (bits p 0 13))) |>.bind (fnZero w)
  | 0x1b => .ok (.ldfe (fD w) (fS1 w) (fImm w))
  | 0x1c => .ok (.stfe (fD w) (fS1 w) (fImm w))
  | 0x1d => reservedPair w 12 6 p 13 19 (.ldrfe (RowOp.mk (fS2 w) (fS1 w) (bits p 0 13))) |>.bind (fnZero w)
  | 0x1e => reservedPair w 12 6 p 13 19 (.strfe (RowOp.mk (fS2 w) (fS1 w) (bits p 0 13))) |>.bind (fnZero w)
  | 0x1f => reserved w 12 6 (.probe (bits w 30 1) (fS1 w) (fS2 w)) |>.bind (selZero w 31 1)
  | 0x20 => reserved p 1 31 (.copy (fe w) (bits p 0 1))
  | 0x21 => .ok (.copym (fe w) (bits p 0 32))
  | 0x22 => reserved p 16 16 (.mcast (fe w) (bits p 0 9) (bits p 9 3) (bits p 12 4))
  | 0x23 => reserved p 5 27 (.tfetch (fe w) (bits p 0 5))
  | 0x24 => reservedPair p 3 1 p 30 2 (.sacc (fe w) (bits p 0 3) (bits p 4 4) (bits p 8 16) (bits p 24 6))
  | 0x25 => reserved p 28 4 (.gath (fe w) (bits p 0 16) (bits p 16 8) (bits p 24 4))
  | 0x26 => reserved p 28 4 (.scat (fe w) (bits p 0 16) (bits p 16 8) (bits p 24 4))
  | 0x27 => reserved p 16 6 (.gathmc (fe w) (bits p 0 8) (bits p 8 8) (bits p 22 6) (bits p 28 4))
  | 0x28 => .ok (.chain (fe w) (bits p 0 4) (bits p 4 4) (bits p 8 3) (bits p 11 1) (bits p 12 1) (bits p 13 3) (bits p 16 16))
  | 0x29 => fnZero w (.chop (fD w) (fS1 w) (fS2 w))
  | 0x2a => reserved p 1 31 (.cmask (fe w) (bits p 0 1))
  | 0x2b => reserved p 0 32 (.tlist (fe w))
  | 0x2c => reserved p 2 14 (.tokz (fe w) (bits p 0 2) (bits p 16 16))
  | 0x2d => reserved p 22 10 (.ccvt (fe w) (bits p 0 8) (bits p 8 8) (bits p 16 4) (bits p 20 2))
  | 0x2e => .ok (.waitA (waitF w))
  | 0x2f => reserved w 16 16 (.sigA (bits w 12 4))
  | 0x30 => reserved w 16 16 (.awaitA (bits w 12 4))
  | _ => .error .unassigned

/-- The V opcodes (R90 to R94): the instruction of the opcode's format, or the cause of R95. Opcodes without an entry are unassigned. -/
def decodeV (op : Nat) (w p : Word) : Except IllCause Instr :=
  match op with
  | 0x00 => reservedPair w 12 20 p 0 32 (.nopV)
  | 0x01 => reservedPair w 31 1 p 30 2 (.vadd (fv w p))
  | 0x02 => reservedPair w 31 1 p 30 2 (.vsub (fv w p))
  | 0x03 => reservedPair w 31 1 p 30 2 (.vmul (fv w p))
  | 0x04 => reservedPair w 31 1 p 30 2 (.vfma (fv w p))
  | 0x05 => reservedPair w 31 1 p 30 2 (.vfms (fv w p))
  | 0x06 => reservedPair w 31 1 p 30 2 (.vmin (fv w p))
  | 0x07 => reservedPair w 31 1 p 30 2 (.vmax (fv w p))
  | 0x08 => reservedPair w 31 1 p 30 2 (.vabs (fv w p))
  | 0x09 => reservedPair w 31 1 p 30 2 (.vneg (fv w p))
  | 0x0a => reservedPair w 31 1 p 30 2 (.vrcp (fv w p))
  | 0x0b => reservedPair w 31 1 p 30 2 (.vrsq (fv w p))
  | 0x0c => reservedPair w 31 1 p 30 2 (.vsqrt (fv w p))
  | 0x0d => reservedPair w 31 1 p 30 2 (.vexp (fv w p))
  | 0x0e => reservedPair w 31 1 p 30 2 (.vlog (fv w p))
  | 0x0f => reservedPair w 31 1 p 30 2 (.vtanh (fv w p))
  | 0x10 => reservedPair w 31 1 p 30 2 (.vsigm (fv w p))
  | 0x11 => reservedPair w 31 1 p 30 2 (.vcvt (fv w p))
  | 0x12 => reservedPair w 31 1 p 30 2 (.vcmp (fv w p))
  | 0x13 => reservedPair w 31 1 p 30 2 (.vsel (fv w p))
  | 0x14 => reservedPair w 31 1 p 30 2 (.vand (fv w p))
  | 0x15 => reservedPair w 31 1 p 30 2 (.vor (fv w p))
  | 0x16 => reservedPair w 31 1 p 30 2 (.vxor (fv w p))
  | 0x17 => reservedPair w 31 1 p 30 2 (.vnot (fv w p))
  | 0x18 => reservedPair w 31 1 p 30 2 (.vshl (fv w p))
  | 0x19 => reservedPair w 31 1 p 30 2 (.vshr (fv w p))
  | 0x1a => reservedPair w 31 1 p 30 2 (.vsra (fv w p))
  | 0x1b => reservedPair w 31 1 p 30 2 (.vadd64 (fv w p))
  | 0x1c => reservedPair w 31 1 p 30 2 (.vsub64 (fv w p))
  | 0x1d => reservedPair w 31 1 p 30 2 (.vcmp64 (fv w p))
  | 0x1e => reservedPair w 31 1 p 30 2 (.vshl64 (fv w p))
  | 0x1f => reservedPair w 31 1 p 30 2 (.vshr64 (fv w p))
  | 0x20 => reservedPair w 31 1 p 30 2 (.vmov (fv w p))
  | 0x21 => reservedPair w 31 1 p 30 2 (.vbcast (fv w p))
  | 0x22 => reservedPair w 31 1 p 30 2 (.vred (fv w p))
  | 0x23 => reservedPair w 31 1 p 30 2 (.vscan (fv w p))
  | 0x24 => reservedPair w 31 1 p 30 2 (.vmerge (fv w p))
  | 0x25 => reservedPair w 31 1 p 30 2 (.vcompact (fv w p))
  | 0x26 => reservedPair w 31 1 p 30 2 (.vexpand (fv w p))
  | 0x27 => reservedPair w 31 1 p 30 2 (.vperm (fv w p))
  | 0x28 => reservedPair w 31 1 p 30 2 (.vrot (fv w p))
  | 0x29 => reservedPair w 31 1 p 30 2 (.visab (fv w p))
  | 0x2a => reservedPair w 31 1 p 30 2 (.vmkab (fv w p))
  | 0x2b => reservedPair w 31 1 p 30 2 (.vcnt (fv w p))
  | 0x2c => reservedPair w 31 1 p 30 2 (.vseti (fv w p))
  | 0x2d => reservedPair w 31 1 p 30 2 (.viota (fv w p))
  | 0x2e => reserved p 0 32 (.waitV (waitF w))
  | 0x2f => reservedPair w 16 16 p 0 32 (.sigV (bits w 12 4))
  | 0x30 => reservedPair w 16 16 p 0 32 (.awaitV (bits w 12 4))
  | _ => .error .unassigned

/-- The M opcodes (R90 to R94): the instruction of the opcode's format, or the cause of R95. Opcodes without an entry are unassigned. -/
def decodeM (op : Nat) (w p : Word) : Except IllCause Instr :=
  match op with
  | 0x00 => reserved w 12 20 (.nopM)
  | 0x01 => mlicFields w
  | 0x02 => reservedPair w 18 6 w 31 1 (.tplld (fD w) (bits w 28 3) (bits w 24 4))
  | 0x03 => reservedPair w 12 12 w 25 7 (.mzero (bits w 24 1))
  | 0x04 => reservedTwo w 18 12 w 14 4 p 31 1 (.mdrain (drainF w p))
  | 0x05 => .ok (.waitM (waitF w))
  | 0x06 => reserved w 16 16 (.sigM (bits w 12 4))
  | 0x07 => reserved w 16 16 (.awaitM (bits w 12 4))
  | _ => .error .unassigned

/-- The ALL opcodes (R90 to R94): the instruction of the opcode's format, or the cause of R95. Opcodes without an entry are unassigned. -/
def decodeAll (op : Nat) (w p : Word) : Except IllCause Instr :=
  match op with
  | 0x01 => loopFields w p
  | 0x02 => reserved w 14 18 (.stage (bits w 12 2))
  | 0x03 => .ok (.br (bits w 15 1) (bits w 14 1) (bits w 12 2) (bits w 16 16))
  | 0x04 => reserved w 12 4 (.j (bits w 16 16))
  | 0x05 => reserved w 12 4 (.call (bits w 16 16))
  | 0x06 => reserved w 12 20 (.ret)
  | 0x07 => reserved w 12 20 (.end_)
  | 0x08 => reservedPair w 23 9 p 9 23 (.bar (bits w 15 8) (bits w 12 3) (bits p 0 9))
  | _ => .error .unassigned

/-- Whether an assigned opcode is a 64-bit form (R67, R90 to R93). -/
def isLongOp (tag : BitVec 3) (op : Nat) : Bool :=
  match tag.toNat with
  | 0 => op == 0x1a || op == 0x1b || op == 0x1f || op == 0x27 || op == 0x2b
  | 1 => op == 0x09 || op == 0x0a || op == 0x0e || op == 0x19 || op == 0x1a || op == 0x1d || op == 0x1e || op == 0x20 || op == 0x21 || op == 0x22 || op == 0x23 || op == 0x24 || op == 0x25 || op == 0x26 || op == 0x27 || op == 0x28 || op == 0x2a || op == 0x2b || op == 0x2c || op == 0x2d
  | 2 => true
  | 3 => op == 0x04
  | 7 => op == 0x01 || op == 0x08
  | _ => false

/-- Whether an opcode is assigned in the tagged strand's space (R90 to R93). -/
def isAssigned (tag : BitVec 3) (op : Nat) : Bool :=
  match tag.toNat with
  | 0 => op ≤ 0x35
  | 1 => op ≤ 0x30
  | 2 => op ≤ 0x30
  | 3 => op ≤ 0x07
  | 7 => 1 ≤ op && op ≤ 0x08
  | _ => false

/-- SEL of a word (R66). -/
abbrev selOf (w : Word) : BitVec 2 := bits w 0 2

/-- TAG of a word (R66). -/
abbrev tagOf (w : Word) : BitVec 3 := bits w 2 3

/-- OP of a word (R66). -/
abbrev opOf (w : Word) : Nat := (bits w 5 7).toNat

/-- The instruction of a tag and an opcode. -/
def decodeOp (tag : BitVec 3) (op : Nat) (w p : Word) : Except IllCause Instr :=
  match tag.toNat with
  | 0 => decodeX op w p
  | 1 => decodeA op w p
  | 2 => decodeV op w p
  | 3 => decodeM op w p
  | 7 => decodeAll op w p
  | _ => .error .reservedTag

/-- The instruction of a head word `w` whose second word, if it is a 64-bit form, is `p` (R66 to R94); the cause of R95 otherwise.
A word of SEL 10 is no head: on its own it modifies nothing and is an orphan (R82). -/
def decodeHead (w p : Word) : Except IllCause Instr :=
  match (selOf w).toNat with
  | 3 => if tagOf w = 3 then .ok (.mx (bits w 5 6) (bits w 11 5) (bits w 16 16)) else .error .patchTag
  | 2 => .error .orphanGroup
  | s =>
    if tagOf w = 4 ∨ tagOf w = 5 ∨ tagOf w = 6 then .error .reservedTag
    else if !isAssigned (tagOf w) (opOf w) then .error .unassigned
    else if isLongOp (tagOf w) (opOf w) != (s == 1) then .error .selLength
    else decodeOp (tagOf w) (opOf w) w p

/-- The modifier word of SEL 10 (R80); cause 8 for a non-zero zero-field, cause 9 for a reserved KIND or value. -/
def decodeModifier (w : Word) : Except IllCause Modifier :=
  match (bits w 5 3).toNat with
  | 0 =>
    if bits w 12 20 ≠ 0 then .error .reservedField
    else if 5 ≤ (bits w 8 3).toNat then .error .reservedValue
    else .ok (.rs (bits w 8 3) (w.getLsbD 11))
  | 1 =>
    if bits w 22 10 ≠ 0 ∨ bits w 8 4 ≠ 0 then .error .reservedField
    else if !w.getLsbD 21 && !w.getLsbD 16 then .error .reservedValue
    else .ok (.tk (if w.getLsbD 21 then some (bits w 17 4) else none) (if w.getLsbD 16 then some (bits w 12 4) else none))
  | 2 => if bits w 8 4 ≠ 0 then .error .reservedField else .ok (.ext (bits w 12 20))
  | _ => .error .reservedValue

/-- The KIND of a modifier word (R80). -/
abbrev kindOf (w : Word) : Nat := (bits w 5 3).toNat

/-- Whether a head word accepts a modifier of a KIND (R81). A word that is no instruction by its tag, opcode and length accepts none. -/
def headAccepts (w : Word) (kind : Nat) : Bool :=
  let op := opOf w
  if selOf w = 3 then tagOf w = 3 && (kind = 0 || kind = 1)
  else if !isAssigned (tagOf w) op || isLongOp (tagOf w) op != (selOf w == 1) then false
  else match (tagOf w).toNat, kind with
    | 0, 0 => [0x01, 0x02, 0x03, 0x04, 0x0f, 0x20, 0x21].contains op
    | 0, 1 => true
    | 0, 2 => op == 0x03
    | 1, 0 => 0x01 ≤ op && op ≤ 0x04
    | 1, 1 => op != 0x29
    | 1, 2 => op == 0x03 || op == 0x04 || (0x0f ≤ op && op ≤ 0x18) || op == 0x1b || op == 0x1c
    | 2, 0 => (0x01 ≤ op && op ≤ 0x11) || op == 0x22 || op == 0x23
    | 2, 1 => true
    | 3, 0 => op == 0x04
    | 3, 1 => true
    | _, _ => false

/-- Four bytes as a little-endian word (R9). -/
def wordOfBytes (b0 b1 b2 b3 : Byte) : Word := b3 ++ b2 ++ b1 ++ b0

/-- The bytes of a word, lowest address first (R9). -/
def bytesOfWord (w : Word) : List Byte := [bits w 0 8, bits w 8 8, bits w 16 8, bits w 24 8]

/-- The instruction at the head of a byte string, and the rest of the string. A string that ends inside a word or before a second word
that SEL asks for is a broken word (R68). -/
def decodeBytes : List Byte → Except IllCause (Instr × List Byte)
  | b0 :: b1 :: b2 :: b3 :: rest =>
    let w := wordOfBytes b0 b1 b2 b3
    if selOf w = 1 then
      match rest with
      | c0 :: c1 :: c2 :: c3 :: rest' => (decodeHead w (wordOfBytes c0 c1 c2 c3)).map (fun i => (i, rest'))
      | _ => .error .brokenWord
    else (decodeHead w 0).map (fun i => (i, rest))
  | _ => .error .brokenWord

/-- One text word as the encoder returns it. -/
def oneWord (w : Word) : List Word := [w]

/-- Two text words as the encoder returns them. -/
def twoWords (w p : Word) : List Word := [w, p]

/-- OP, TAG and SEL (R66). -/
def low (op : BitVec 7) (tag : BitVec 3) (sel : BitVec 2) : BitVec 12 := op ++ tag ++ sel

/-- The words of a text instruction, first word first, from the encoding tables of spec/ (R51, R54, R58, R60, R63, R70 to R94). A step of an agent has none. -/
def encode : Instr → List Word
  | .nopX => oneWord (0#20 ++ (low 0x00 0 0))
  | .add d a b => oneWord (0#2 ++ b ++ a ++ d ++ (low 0x01 0 0))
  | .sub d a b => oneWord (0#2 ++ b ++ a ++ d ++ (low 0x02 0 0))
  | .addi d a imm => oneWord (imm ++ a ++ d ++ (low 0x03 0 0))
  | .mul d a b => oneWord (0#2 ++ b ++ a ++ d ++ (low 0x04 0 0))
  | .mulh d a b => oneWord (0#2 ++ b ++ a ++ d ++ (low 0x05 0 0))
  | .mulhz d a b => oneWord (0#2 ++ b ++ a ++ d ++ (low 0x06 0 0))
  | .div d a b => oneWord (0#2 ++ b ++ a ++ d ++ (low 0x07 0 0))
  | .divz d a b => oneWord (0#2 ++ b ++ a ++ d ++ (low 0x08 0 0))
  | .rem d a b => oneWord (0#2 ++ b ++ a ++ d ++ (low 0x09 0 0))
  | .remz d a b => oneWord (0#2 ++ b ++ a ++ d ++ (low 0x0a 0 0))
  | .and_ d a b => oneWord (0#2 ++ b ++ a ++ d ++ (low 0x0b 0 0))
  | .or_ d a b => oneWord (0#2 ++ b ++ a ++ d ++ (low 0x0c 0 0))
  | .xor d a b => oneWord (0#2 ++ b ++ a ++ d ++ (low 0x0d 0 0))
  | .andn d a b => oneWord (0#2 ++ b ++ a ++ d ++ (low 0x0e 0 0))
  | .shl d a b => oneWord (0#2 ++ b ++ a ++ d ++ (low 0x0f 0 0))
  | .shr d a b => oneWord (0#2 ++ b ++ a ++ d ++ (low 0x10 0 0))
  | .sra d a b => oneWord (0#2 ++ b ++ a ++ d ++ (low 0x11 0 0))
  | .min d a b => oneWord (0#2 ++ b ++ a ++ d ++ (low 0x12 0 0))
  | .max d a b => oneWord (0#2 ++ b ++ a ++ d ++ (low 0x13 0 0))
  | .minz d a b => oneWord (0#2 ++ b ++ a ++ d ++ (low 0x14 0 0))
  | .maxz d a b => oneWord (0#2 ++ b ++ a ++ d ++ (low 0x15 0 0))
  | .clz d a => oneWord (0#8 ++ a ++ d ++ (low 0x16 0 0))
  | .popc d a => oneWord (0#8 ++ a ++ d ++ (low 0x17 0 0))
  | .extb z d a => oneWord (0#1 ++ z ++ 0#6 ++ a ++ d ++ (low 0x18 0 0))
  | .exth z d a => oneWord (0#1 ++ z ++ 0#6 ++ a ++ d ++ (low 0x19 0 0))
  | .bfx sx d a pos wm1 => twoWords (0#1 ++ sx ++ 0#6 ++ a ++ d ++ (low 0x1a 0 1)) (0#19 ++ wm1 ++ 0#3 ++ pos)
  | .bfi d a b pos wm1 => twoWords (0#2 ++ b ++ a ++ d ++ (low 0x1b 0 1)) (0#19 ++ wm1 ++ 0#3 ++ pos)
  | .cmp u cond pred a b => oneWord (0#1 ++ u ++ b ++ a ++ cond ++ pred ++ (low 0x1c 0 0))
  | .sel n d a b => oneWord (n ++ b ++ a ++ d ++ (low 0x1d 0 0))
  | .mov d a => oneWord (0#8 ++ a ++ d ++ (low 0x1e 0 0))
  | .li d imm => twoWords (0#14 ++ d ++ (low 0x1f 0 1)) (imm)
  | .add64 d a b => oneWord (0#2 ++ b ++ a ++ d ++ (low 0x20 0 0))
  | .sub64 d a b => oneWord (0#2 ++ b ++ a ++ d ++ (low 0x21 0 0))
  | .shl64 d a b => oneWord (0#2 ++ b ++ a ++ d ++ (low 0x22 0 0))
  | .shr64 d a b => oneWord (0#2 ++ b ++ a ++ d ++ (low 0x23 0 0))
  | .sra64 d a b => oneWord (0#2 ++ b ++ a ++ d ++ (low 0x24 0 0))
  | .cmp64 u cond pred a b => oneWord (0#1 ++ u ++ b ++ a ++ cond ++ pred ++ (low 0x25 0 0))
  | .mov64 d a => oneWord (0#8 ++ a ++ d ++ (low 0x26 0 0))
  | .li64 d imm => twoWords (0#14 ++ d ++ (low 0x27 0 1)) (imm)
  | .waitX f => oneWord (f.t ++ f.c ++ f.s ++ f.l ++ (low 0x28 0 0))
  | .sigX tk => oneWord (0#16 ++ tk ++ (low 0x29 0 0))
  | .awaitX tk => oneWord (0#16 ++ tk ++ (low 0x2a 0 0))
  | .qbindBind lo li coord => twoWords (0#8 ++ li ++ lo ++ (low 0x2b 0 1)) (0#23 ++ coord)
  | .qbindUnbind lo => twoWords (1#2 ++ 0#12 ++ lo ++ (low 0x2b 0 1)) (0#32)
  | .qdepth d idx => oneWord (idx ++ 0#6 ++ d ++ (low 0x2c 0 0))
  | .spawn d a b => oneWord (0#2 ++ b ++ a ++ d ++ (low 0x2d 0 0))
  | .spawnNb d a b => oneWord (1#2 ++ b ++ a ++ d ++ (low 0x2d 0 0))
  | .tstat d a => oneWord (0#8 ++ a ++ d ++ (low 0x2e 0 0))
  | .trap code => oneWord (code ++ 0#6 ++ (low 0x2f 0 0))
  | .brk code => oneWord (code ++ 0#6 ++ (low 0x30 0 0))
  | .rdcap d idx => oneWord (idx ++ 0#6 ++ d ++ (low 0x31 0 0))
  | .rdsys d idx => oneWord (idx ++ 0#6 ++ d ++ (low 0x32 0 0))
  | .timelRead d => oneWord (0x0B#8 ++ 0#6 ++ d ++ (low 0x32 0 0))
  | .wrsys a idx => oneWord (idx ++ a ++ 0#6 ++ (low 0x33 0 0))
  | .slipwWrite a => oneWord (0x06#8 ++ a ++ 0#6 ++ (low 0x33 0 0))
  | .nevcfgWrite a => oneWord (0x40#8 ++ a ++ 0#6 ++ (low 0x33 0 0))
  | .nevcntWrite n a => oneWord ((0x44#8 + n.setWidth 8) ++ a ++ 0#6 ++ (low 0x33 0 0))
  | .nevstatClear a => oneWord (0x42#8 ++ a ++ 0#6 ++ (low 0x33 0 0))
  | .clkdiv d div dom => oneWord (div ++ 0#2 ++ dom ++ 0#6 ++ d ++ (low 0x34 0 0))
  | .pace a idx => oneWord (idx ++ a ++ 0#6 ++ (low 0x35 0 0))
  | .nopA => oneWord (0#20 ++ (low 0x00 1 0))
  | .aadd d a b => oneWord (0#2 ++ b ++ a ++ d ++ (low 0x01 1 0))
  | .asub d a b => oneWord (0#2 ++ b ++ a ++ d ++ (low 0x02 1 0))
  | .aaddi d a imm => oneWord (imm ++ a ++ d ++ (low 0x03 1 0))
  | .amuli d a imm => oneWord (imm ++ a ++ d ++ (low 0x04 1 0))
  | .ashl d a imm => oneWord (imm ++ a ++ d ++ (low 0x05 1 0))
  | .ashr d a imm => oneWord (imm ++ a ++ d ++ (low 0x06 1 0))
  | .aand d a b => oneWord (0#2 ++ b ++ a ++ d ++ (low 0x07 1 0))
  | .amov d a => oneWord (0#8 ++ a ++ d ++ (low 0x08 1 0))
  | .ali d imm => twoWords (0#14 ++ d ++ (low 0x09 1 1)) (imm)
  | .alih d imm => twoWords (0#14 ++ d ++ (low 0x0a 1 1)) (imm)
  | .acmp u cond pred a b => oneWord (0#1 ++ u ++ b ++ a ++ cond ++ pred ++ (low 0x0b 1 0))
  | .apop d a => oneWord (0#8 ++ a ++ d ++ (low 0x0c 1 0))
  | .apush d a => oneWord (0#8 ++ a ++ d ++ (low 0x0d 1 0))
  | .acoord d a coord => twoWords (0#8 ++ a ++ d ++ (low 0x0e 1 1)) (0#23 ++ coord)
  | .ldz8 d a imm => oneWord (imm ++ a ++ d ++ (low 0x0f 1 0))
  | .lds8 d a imm => oneWord (imm ++ a ++ d ++ (low 0x10 1 0))
  | .ldz16 d a imm => oneWord (imm ++ a ++ d ++ (low 0x11 1 0))
  | .lds16 d a imm => oneWord (imm ++ a ++ d ++ (low 0x12 1 0))
  | .ld32 d a imm => oneWord (imm ++ a ++ d ++ (low 0x13 1 0))
  | .ld64 d a imm => oneWord (imm ++ a ++ d ++ (low 0x14 1 0))
  | .st8 d a imm => oneWord (imm ++ a ++ d ++ (low 0x15 1 0))
  | .st16 d a imm => oneWord (imm ++ a ++ d ++ (low 0x16 1 0))
  | .st32 d a imm => oneWord (imm ++ a ++ d ++ (low 0x17 1 0))
  | .st64 d a imm => oneWord (imm ++ a ++ d ++ (low 0x18 1 0))
  | .loadDelivery _ => []
  | .storePerformed _ => []
  | .ldrow r => twoWords (0#2 ++ r.index ++ r.base ++ 0#6 ++ (low 0x19 1 1)) (0#19 ++ r.desc)
  | .rowLoadLanded _ => []
  | .strow r => twoWords (0#2 ++ r.index ++ r.base ++ 0#6 ++ (low 0x1a 1 1)) (0#19 ++ r.desc)
  | .ldfe d a imm => oneWord (imm ++ a ++ d ++ (low 0x1b 1 0))
  | .stfe d a imm => oneWord (imm ++ a ++ d ++ (low 0x1c 1 0))
  | .ldrfe r => twoWords (0#2 ++ r.index ++ r.base ++ 0#6 ++ (low 0x1d 1 1)) (0#19 ++ r.desc)
  | .strfe r => twoWords (0#2 ++ r.index ++ r.base ++ 0#6 ++ (low 0x1e 1 1)) (0#19 ++ r.desc)
  | .fullEmptyPerform _ => []
  | .probe w a b => oneWord (0#1 ++ w ++ b ++ a ++ 0#6 ++ (low 0x1f 1 0))
  | .faultRingPoll _ => []
  | .copy f fill => twoWords (f.scope ++ f.rel ++ f.acq ++ f.as2 ++ f.as1 ++ f.ad ++ (low 0x20 1 1)) (0#31 ++ fill)
  | .copym f patch => twoWords (f.scope ++ f.rel ++ f.acq ++ f.as2 ++ f.as1 ++ f.ad ++ (low 0x21 1 1)) (patch)
  | .mcast f coord hm1 wm1 => twoWords (f.scope ++ f.rel ++ f.acq ++ f.as2 ++ f.as1 ++ f.ad ++ (low 0x22 1 1)) (0#16 ++ wm1 ++ hm1 ++ coord)
  | .tfetch f nrm1 => twoWords (f.scope ++ f.rel ++ f.acq ++ f.as2 ++ f.as1 ++ f.ad ++ (low 0x23 1 1)) (0#27 ++ nrm1)
  | .sluiceRowFill _ => []
  | .sacc f opc vtype nm1 wm1 => twoWords (f.scope ++ f.rel ++ f.acq ++ f.as2 ++ f.as1 ++ f.ad ++ (low 0x24 1 1)) (0#2 ++ wm1 ++ nm1 ++ vtype ++ 0#1 ++ opc)
  | .gath f nm1 um1 ty => twoWords (f.scope ++ f.rel ++ f.acq ++ f.as2 ++ f.as1 ++ f.ad ++ (low 0x25 1 1)) (0#4 ++ ty ++ um1 ++ nm1)
  | .scat f nm1 um1 ty => twoWords (f.scope ++ f.rel ++ f.acq ++ f.as2 ++ f.as1 ++ f.ad ++ (low 0x26 1 1)) (0#4 ++ ty ++ um1 ++ nm1)
  | .gathmc f ntx nty tszm1 ty => twoWords (f.scope ++ f.rel ++ f.acq ++ f.as2 ++ f.as1 ++ f.ad ++ (low 0x27 1 1)) (ty ++ tszm1 ++ 0#6 ++ nty ++ ntx)
  | .chain f ty dtype rm sat buse ncm1 nm1 => twoWords (f.scope ++ f.rel ++ f.acq ++ f.as2 ++ f.as1 ++ f.ad ++ (low 0x28 1 1)) (nm1 ++ ncm1 ++ buse ++ sat ++ rm ++ dtype ++ ty)
  | .chop d a b => oneWord (0#2 ++ b ++ a ++ d ++ (low 0x29 1 0))
  | .cmask f force => twoWords (f.scope ++ f.rel ++ f.acq ++ f.as2 ++ f.as1 ++ f.ad ++ (low 0x2a 1 1)) (0#31 ++ force)
  | .tlist f => twoWords (f.scope ++ f.rel ++ f.acq ++ f.as2 ++ f.as1 ++ f.ad ++ (low 0x2b 1 1)) (0#32)
  | .tokz f dict capm1 => twoWords (f.scope ++ f.rel ++ f.acq ++ f.as2 ++ f.as1 ++ f.ad ++ (low 0x2c 1 1)) (capm1 ++ 0#14 ++ dict)
  | .ccvt f ntx nty cset ofmt => twoWords (f.scope ++ f.rel ++ f.acq ++ f.as2 ++ f.as1 ++ f.ad ++ (low 0x2d 1 1)) (0#10 ++ ofmt ++ cset ++ nty ++ ntx)
  | .engineCommandStart _ _ => []
  | .engineCommandComplete _ _ => []
  | .waitA f => oneWord (f.t ++ f.c ++ f.s ++ f.l ++ (low 0x2e 1 0))
  | .sigA tk => oneWord (0#16 ++ tk ++ (low 0x2f 1 0))
  | .awaitA tk => oneWord (0#16 ++ tk ++ (low 0x30 1 0))
  | .nopV => twoWords (0#20 ++ (low 0x00 2 1)) (0#32)
  | .vadd f => twoWords (0#1 ++ f.dst ++ f.min ++ f.ty ++ (low 0x01 2 1)) (0#2 ++ f.s3v ++ f.s3i ++ f.src2 ++ f.src1)
  | .vsub f => twoWords (0#1 ++ f.dst ++ f.min ++ f.ty ++ (low 0x02 2 1)) (0#2 ++ f.s3v ++ f.s3i ++ f.src2 ++ f.src1)
  | .vmul f => twoWords (0#1 ++ f.dst ++ f.min ++ f.ty ++ (low 0x03 2 1)) (0#2 ++ f.s3v ++ f.s3i ++ f.src2 ++ f.src1)
  | .vfma f => twoWords (0#1 ++ f.dst ++ f.min ++ f.ty ++ (low 0x04 2 1)) (0#2 ++ f.s3v ++ f.s3i ++ f.src2 ++ f.src1)
  | .vfms f => twoWords (0#1 ++ f.dst ++ f.min ++ f.ty ++ (low 0x05 2 1)) (0#2 ++ f.s3v ++ f.s3i ++ f.src2 ++ f.src1)
  | .vmin f => twoWords (0#1 ++ f.dst ++ f.min ++ f.ty ++ (low 0x06 2 1)) (0#2 ++ f.s3v ++ f.s3i ++ f.src2 ++ f.src1)
  | .vmax f => twoWords (0#1 ++ f.dst ++ f.min ++ f.ty ++ (low 0x07 2 1)) (0#2 ++ f.s3v ++ f.s3i ++ f.src2 ++ f.src1)
  | .vabs f => twoWords (0#1 ++ f.dst ++ f.min ++ f.ty ++ (low 0x08 2 1)) (0#2 ++ f.s3v ++ f.s3i ++ f.src2 ++ f.src1)
  | .vneg f => twoWords (0#1 ++ f.dst ++ f.min ++ f.ty ++ (low 0x09 2 1)) (0#2 ++ f.s3v ++ f.s3i ++ f.src2 ++ f.src1)
  | .vrcp f => twoWords (0#1 ++ f.dst ++ f.min ++ f.ty ++ (low 0x0a 2 1)) (0#2 ++ f.s3v ++ f.s3i ++ f.src2 ++ f.src1)
  | .vrsq f => twoWords (0#1 ++ f.dst ++ f.min ++ f.ty ++ (low 0x0b 2 1)) (0#2 ++ f.s3v ++ f.s3i ++ f.src2 ++ f.src1)
  | .vsqrt f => twoWords (0#1 ++ f.dst ++ f.min ++ f.ty ++ (low 0x0c 2 1)) (0#2 ++ f.s3v ++ f.s3i ++ f.src2 ++ f.src1)
  | .vexp f => twoWords (0#1 ++ f.dst ++ f.min ++ f.ty ++ (low 0x0d 2 1)) (0#2 ++ f.s3v ++ f.s3i ++ f.src2 ++ f.src1)
  | .vlog f => twoWords (0#1 ++ f.dst ++ f.min ++ f.ty ++ (low 0x0e 2 1)) (0#2 ++ f.s3v ++ f.s3i ++ f.src2 ++ f.src1)
  | .vtanh f => twoWords (0#1 ++ f.dst ++ f.min ++ f.ty ++ (low 0x0f 2 1)) (0#2 ++ f.s3v ++ f.s3i ++ f.src2 ++ f.src1)
  | .vsigm f => twoWords (0#1 ++ f.dst ++ f.min ++ f.ty ++ (low 0x10 2 1)) (0#2 ++ f.s3v ++ f.s3i ++ f.src2 ++ f.src1)
  | .vcvt f => twoWords (0#1 ++ f.dst ++ f.min ++ f.ty ++ (low 0x11 2 1)) (0#2 ++ f.s3v ++ f.s3i ++ f.src2 ++ f.src1)
  | .vcmp f => twoWords (0#1 ++ f.dst ++ f.min ++ f.ty ++ (low 0x12 2 1)) (0#2 ++ f.s3v ++ f.s3i ++ f.src2 ++ f.src1)
  | .vsel f => twoWords (0#1 ++ f.dst ++ f.min ++ f.ty ++ (low 0x13 2 1)) (0#2 ++ f.s3v ++ f.s3i ++ f.src2 ++ f.src1)
  | .vand f => twoWords (0#1 ++ f.dst ++ f.min ++ f.ty ++ (low 0x14 2 1)) (0#2 ++ f.s3v ++ f.s3i ++ f.src2 ++ f.src1)
  | .vor f => twoWords (0#1 ++ f.dst ++ f.min ++ f.ty ++ (low 0x15 2 1)) (0#2 ++ f.s3v ++ f.s3i ++ f.src2 ++ f.src1)
  | .vxor f => twoWords (0#1 ++ f.dst ++ f.min ++ f.ty ++ (low 0x16 2 1)) (0#2 ++ f.s3v ++ f.s3i ++ f.src2 ++ f.src1)
  | .vnot f => twoWords (0#1 ++ f.dst ++ f.min ++ f.ty ++ (low 0x17 2 1)) (0#2 ++ f.s3v ++ f.s3i ++ f.src2 ++ f.src1)
  | .vshl f => twoWords (0#1 ++ f.dst ++ f.min ++ f.ty ++ (low 0x18 2 1)) (0#2 ++ f.s3v ++ f.s3i ++ f.src2 ++ f.src1)
  | .vshr f => twoWords (0#1 ++ f.dst ++ f.min ++ f.ty ++ (low 0x19 2 1)) (0#2 ++ f.s3v ++ f.s3i ++ f.src2 ++ f.src1)
  | .vsra f => twoWords (0#1 ++ f.dst ++ f.min ++ f.ty ++ (low 0x1a 2 1)) (0#2 ++ f.s3v ++ f.s3i ++ f.src2 ++ f.src1)
  | .vadd64 f => twoWords (0#1 ++ f.dst ++ f.min ++ f.ty ++ (low 0x1b 2 1)) (0#2 ++ f.s3v ++ f.s3i ++ f.src2 ++ f.src1)
  | .vsub64 f => twoWords (0#1 ++ f.dst ++ f.min ++ f.ty ++ (low 0x1c 2 1)) (0#2 ++ f.s3v ++ f.s3i ++ f.src2 ++ f.src1)
  | .vcmp64 f => twoWords (0#1 ++ f.dst ++ f.min ++ f.ty ++ (low 0x1d 2 1)) (0#2 ++ f.s3v ++ f.s3i ++ f.src2 ++ f.src1)
  | .vshl64 f => twoWords (0#1 ++ f.dst ++ f.min ++ f.ty ++ (low 0x1e 2 1)) (0#2 ++ f.s3v ++ f.s3i ++ f.src2 ++ f.src1)
  | .vshr64 f => twoWords (0#1 ++ f.dst ++ f.min ++ f.ty ++ (low 0x1f 2 1)) (0#2 ++ f.s3v ++ f.s3i ++ f.src2 ++ f.src1)
  | .vmov f => twoWords (0#1 ++ f.dst ++ f.min ++ f.ty ++ (low 0x20 2 1)) (0#2 ++ f.s3v ++ f.s3i ++ f.src2 ++ f.src1)
  | .vbcast f => twoWords (0#1 ++ f.dst ++ f.min ++ f.ty ++ (low 0x21 2 1)) (0#2 ++ f.s3v ++ f.s3i ++ f.src2 ++ f.src1)
  | .vred f => twoWords (0#1 ++ f.dst ++ f.min ++ f.ty ++ (low 0x22 2 1)) (0#2 ++ f.s3v ++ f.s3i ++ f.src2 ++ f.src1)
  | .vscan f => twoWords (0#1 ++ f.dst ++ f.min ++ f.ty ++ (low 0x23 2 1)) (0#2 ++ f.s3v ++ f.s3i ++ f.src2 ++ f.src1)
  | .vmerge f => twoWords (0#1 ++ f.dst ++ f.min ++ f.ty ++ (low 0x24 2 1)) (0#2 ++ f.s3v ++ f.s3i ++ f.src2 ++ f.src1)
  | .vcompact f => twoWords (0#1 ++ f.dst ++ f.min ++ f.ty ++ (low 0x25 2 1)) (0#2 ++ f.s3v ++ f.s3i ++ f.src2 ++ f.src1)
  | .vexpand f => twoWords (0#1 ++ f.dst ++ f.min ++ f.ty ++ (low 0x26 2 1)) (0#2 ++ f.s3v ++ f.s3i ++ f.src2 ++ f.src1)
  | .vperm f => twoWords (0#1 ++ f.dst ++ f.min ++ f.ty ++ (low 0x27 2 1)) (0#2 ++ f.s3v ++ f.s3i ++ f.src2 ++ f.src1)
  | .vrot f => twoWords (0#1 ++ f.dst ++ f.min ++ f.ty ++ (low 0x28 2 1)) (0#2 ++ f.s3v ++ f.s3i ++ f.src2 ++ f.src1)
  | .visab f => twoWords (0#1 ++ f.dst ++ f.min ++ f.ty ++ (low 0x29 2 1)) (0#2 ++ f.s3v ++ f.s3i ++ f.src2 ++ f.src1)
  | .vmkab f => twoWords (0#1 ++ f.dst ++ f.min ++ f.ty ++ (low 0x2a 2 1)) (0#2 ++ f.s3v ++ f.s3i ++ f.src2 ++ f.src1)
  | .vcnt f => twoWords (0#1 ++ f.dst ++ f.min ++ f.ty ++ (low 0x2b 2 1)) (0#2 ++ f.s3v ++ f.s3i ++ f.src2 ++ f.src1)
  | .vseti f => twoWords (0#1 ++ f.dst ++ f.min ++ f.ty ++ (low 0x2c 2 1)) (0#2 ++ f.s3v ++ f.s3i ++ f.src2 ++ f.src1)
  | .viota f => twoWords (0#1 ++ f.dst ++ f.min ++ f.ty ++ (low 0x2d 2 1)) (0#2 ++ f.s3v ++ f.s3i ++ f.src2 ++ f.src1)
  | .waitV f => twoWords (f.t ++ f.c ++ f.s ++ f.l ++ (low 0x2e 2 1)) (0#32)
  | .sigV tk => twoWords (0#16 ++ tk ++ (low 0x2f 2 1)) (0#32)
  | .awaitV tk => twoWords (0#16 ++ tk ++ (low 0x30 2 1)) (0#32)
  | .nopM => oneWord (0#20 ++ (low 0x00 3 0))
  | .mlicAcq => oneWord (0#20 ++ (low 0x01 3 0))
  | .mlicRel => oneWord (1#2 ++ 0#18 ++ (low 0x01 3 0))
  | .mlicTry => oneWord (2#2 ++ 0#18 ++ (low 0x01 3 0))
  | .licenceGrant _ => []
  | .tplld tpl row seg => oneWord (0#1 ++ row ++ seg ++ 0#6 ++ tpl ++ (low 0x02 3 0))
  | .mx tpl fsel val => oneWord (val ++ fsel ++ tpl ++ 0b01111#5)
  | .sidePortCommand _ => []
  | .mzero acc => oneWord (0#7 ++ acc ++ 0#12 ++ (low 0x03 3 0))
  | .mdrain f => twoWords (f.fn ++ 0#16 ++ f.clr ++ f.afmt ++ (low 0x04 3 1)) (0#1 ++ f.part ++ f.drow0 ++ f.dreg ++ f.dkind ++ f.nrm1 ++ f.crow0 ++ f.acc ++ f.tfmt)
  | .mmaExecute _ => []
  | .mxposeExecute _ => []
  | .mzeroExecute _ => []
  | .mdrainExecute _ => []
  | .arrayCommandComplete _ => []
  | .waitM f => oneWord (f.t ++ f.c ++ f.s ++ f.l ++ (low 0x05 3 0))
  | .sigM tk => oneWord (0#16 ++ tk ++ (low 0x06 3 0))
  | .awaitM tk => oneWord (0#16 ++ tk ++ (low 0x07 3 0))
  | .loop trip rot tsrc sm1 klen => twoWords (0#1 ++ rot ++ tsrc ++ sm1 ++ klen ++ (low 0x01 7 1)) (trip)
  | .loopIterationEnd => []
  | .stage s => oneWord (0#18 ++ s ++ (low 0x02 7 0))
  | .br decA inv pred off => oneWord (off ++ decA ++ inv ++ pred ++ (low 0x03 7 0))
  | .j off => oneWord (off ++ 0#4 ++ (low 0x04 7 0))
  | .call off => oneWord (off ++ 0#4 ++ (low 0x05 7 0))
  | .ret => oneWord (0#20 ++ (low 0x06 7 0))
  | .end_ => oneWord (0#20 ++ (low 0x07 7 0))
  | .bar cnt slot coord => twoWords (0#9 ++ cnt ++ slot ++ (low 0x08 7 1)) (0#23 ++ coord)
  | .barArrival => []
  | .runnelRowSend _ _ => []
  | .runnelRowArrive _ _ => []
  | .runnelCreditReturn _ _ => []
  | .instanceComplete => []
  | .nevWindowEnd _ => []
  | .numTrap => []
  | .gangTrapStop _ => []
  | .handlerDisposition _ => []
  | .fatalContextError _ => []
  | .dispatchDecision => []
  | .holdReached _ => []
  | .iterationLimitExpiry _ => []
  | .taskReady _ => []
  | .eprioUpdate => []
  | .streamAged _ => []
  | .capacityNotice => []
  | .completionRecordWrite _ => []
  | .completionRecordRetry _ => []
  | .coreBasinLinkFault _ => []
  | .dataReplyArrival _ _ => []
  | .recallArrival _ _ => []
  | .migrationLineCopied _ => []
  | .networkDrain => []
  | .drainEnd => []
  | .headerUncorrectable _ _ _ => []
  | .requestRetransmit _ => []
  | .hostBar2Access _ _ => []
  | .peerMessage _ _ => []
  | .registerWrite _ _ _ => []
  | .controlInterval _ => []
  | .railRaiseComplete _ => []
  | .divisorChange _ _ => []
  | .undervoltReflex _ _ => []
  | .counterSample _ _ => []
  | .decodePeriod => []
  | .decodeTurnStart _ _ => []
  | .decodeQuantumExpiry _ => []
  | .decodeTurnEnd _ _ _ => []
  | .framePublish _ _ => []
  | .intakeSlotFreed _ => []
  | .autoSubmit _ => []
  | .resetRelease _ => []
  | .functionLevelReset _ => []
  | .query _ => []
  | .partCfg _ _ => []
  | .streamCfg _ _ _ _ _ => []
  | .submit _ _ _ => []
  | .taskEnd _ _ => []
  | .faultService _ _ => []
  | .shootdown _ _ _ => []
  | .migrate _ _ _ _ => []
  | .fmtwin _ _ _ _ _ _ _ => []
  | .cameraCfg _ _ _ => []
  | .cameraAu _ _ _ _ _ => []
  | .ccset _ _ _ _ => []
  | .dict _ _ _ _ _ _ _ => []
  | .eventRing _ _ _ _ => []
  | .counterRing _ _ _ _ => []
  | .peerJoin _ _ _ _ => []
  | .clkCfg _ _ => []
  | .powerCfg _ _ _ _ => []
  | .patchLoad _ _ => []
  | .configWrite _ _ => []
  | .attest _ _ _ => []
  | .linkQuery _ _ _ => []
  | .unsupportedCommand _ _ => []
  | .skippedWordsWalk => []
  | .notAnInstruction => []
  | .illAtNextBoundary => []
  | .headerCorrected _ _ => []
  | .saveComplete _ => []
  | .perstAssertion => []

/-- A modifier word for a tag (R80). -/
def encodeModifier (tag : BitVec 3) : Modifier → Word
  | .rs mode sat => 0#20 ++ BitVec.ofBool sat ++ mode ++ 0#3 ++ tag ++ 2#2
  | .tk sig wait =>
    0#10 ++ BitVec.ofBool sig.isSome ++ sig.getD 0 ++ BitVec.ofBool wait.isSome ++ wait.getD 0 ++ 0#4 ++ 1#3 ++ tag ++ 2#2
  | .ext upper => upper ++ 0#4 ++ 2#3 ++ tag ++ 2#2

/-- Decoding of the words that `encode` gives. -/
def decodeWords : List Word → Except IllCause Instr
  | [w] => decodeHead w 0
  | [w, p] => if selOf w = 1 then decodeHead w p else .error .selLength
  | _ => .error .brokenWord

/-- The bytes of a numbered pattern of `nbits` bits, with zero words above it up to the longest instruction of two words. -/
def tableBytes (nbits w : Nat) : List Byte :=
  bytesOfWord (BitVec.ofNat 32 (w % 2 ^ nbits)) ++ bytesOfWord (BitVec.ofNat 32 (w % 2 ^ nbits / 2 ^ 32))

/-- The instruction that the decoder reads from a pattern of the opcode table: bit 0 is the least significant bit of the first word,
and the second word's bits count on from bit 32. -/
def decodeTableWord (nbits w : Nat) : Option Instr :=
  match decodeBytes (tableBytes nbits w) with
  | .ok (i, _) => some i
  | .error _ => none

end Sys2Proof
end

