-- ==== Sys2Proof/Machine/State.lean ====
section
/-! DEFINITION. The state of the whole device as plain data (INVENTORY.md lists every piece with its rule), the reasons a step can stop, and
the state after reset. Cores are numbered 0 to 255: core (z,y,x) is (z-1)*128 + y*16 + x (R14, R339). -/

namespace Sys2Proof.Machine

/-- Why the machine stops. -/
inductive Fault where
  /-- Raised by `step` when the list of turns, the model's own field, names a strand of no core, or hands a turn to an instruction of the
  text as if it were an agent's step. No run that the model's own order makes raises it. Safe: the machine stops where no machine is. -/
  | noSuchTurn
  deriving DecidableEq, Repr

/-- Why an instruction has no outcome. -/
inductive Refusal where
  /-- Raised by an arm of `exec` whose instruction has no meaning yet. Safe: the machine stops. -/
  | notModelled (mnemonic : String)
  deriving DecidableEq, Repr

/-- A list of keyed entries with keys rising: a table whose unlisted entries hold a default that its reader names. -/
abbrev Tbl (α : Type) := List (Nat × α)

/-- Memory: listed bytes with keys rising and no entry equal to what an unlisted key reads as, which is 0 (log entry 2).
Keys below 2^52 are physical addresses (R340); key 2^52 + c*2^19 + j is byte j of the scratchpad of core c (R28, R230). -/
abbrev Mem := List Host.Cell

/-- The words before an instruction that modify it, as the step that runs the instruction found them (R80 to R84). -/
structure Mods where
  rs : Option (BitVec 3 × Bool)
  sig : Option (BitVec 4)
  wait : Option (BitVec 4)
  ext : Option (BitVec 20)
  deriving DecidableEq, Repr

/-- The issue register, the model's own: which strand of which core issues, the address of the first word of its group, the address of the
instruction's own first word and of the word after the group, the number of words of the group, the modifiers, for a word that is no
instruction its cause, whether the kernel begins with the word although it is no LOOP (R49), and whether what the step asks for goes first
to another of the same cycle (R128, R201). -/
structure Cx where
  core : Nat
  strand : Strand
  pc : BitVec 32
  head : BitVec 32
  next : BitVec 32
  words : Nat
  mods : Mods
  cause : IllCause
  misplaced : Bool
  late : Bool
  deriving DecidableEq, Repr

/-- Where a strand stands in its task (R49, R50): no task or after the last END, or in one of the three parts of the text. -/
inductive Phase where
  | stopped | prologue | kernel | epilogue
  deriving DecidableEq, Repr

/-- What a strand knows of a trip count (R52, R53): the count itself, or the last stage bits b_i, b_(i-1), ... that it popped. -/
inductive Trip where
  | known (t : Nat)
  | popped (recent : List Bool)
  deriving DecidableEq, Repr

/-- A level of a loop stack (R52 to R56). `retDepth` is the depth of the return stack at the LOOP: words of callees lie deeper. A dead level
runs no iteration: its body is walked once as skipped words. -/
structure Level where
  first : BitVec 32
  last : BitVec 32
  stages : Nat
  i : Nat
  trip : Trip
  pushes : Bool
  rot : Bool
  gBase : Nat
  aBase : Nat
  tBase : Nat
  retDepth : Nat
  outermost : Bool
  dead : Bool
  deriving DecidableEq, Repr

/-- One strand of a core (R28, R40 to R57): whether it holds for a pre-emption, stands at the end of its innermost body or at a BAR, the signals
that it still owes because their counters held 255 (R39), and the text block that fetch has delivered to it (R42). -/
structure StrandSt where
  pc : BitVec 32
  walked : Nat
  p : Vector Bool 8
  ret : List (BitVec 32)
  loops : List Level
  outq : List Bool
  phase : Phase
  holding : Bool
  atEnd : Bool
  atBar : Bool
  sigDue : List (BitVec 4)
  fetched : Option Nat
  deriving DecidableEq, Repr

/-- Where a load delivers (R121). -/
inductive LoadDst where
  | reg (i : BitVec 4)
  | queue (q : BitVec 2)
  | discard
  deriving DecidableEq, Repr

/-- A tile row by physical register and row, or an operand row (R125, R239). -/
inductive RowName where
  | tile (reg row : Nat)
  | operand (i : Nat)
  deriving DecidableEq, Repr

/-- What an access of A does (R121, R125, R127). -/
inductive AccessOp where
  | load (bytes : Nat) (signed : Bool) (dst : LoadDst)
  | store (bytes : Nat) (data : Dword)
  | loadRow (dst : RowName)
  | storeRow (data : Row)
  deriving DecidableEq, Repr

/-- An access of A in flight (R121, R256, R257): its number, what it does and where, the token it signals, and how many of its places it has taken, with
the bytes that those places have read. -/
structure Access where
  id : Nat
  op : AccessOp
  ea : Dword
  sig : Option (BitVec 4)
  done : Nat
  got : List Byte
  deriving DecidableEq, Repr

/-- A full/empty operation that waits at its lines (R127, R128): `order` is its place in the order of arrival, `at_` the reference cycle; A stands at the instruction
until it is performed, so the entries it pops from xa0 and xa1 and the address of the next word go with it, and the token that it took as it
issued, which a stop gives back (R137). -/
structure FeReq where
  id : Nat
  op : AccessOp
  ea : Dword
  sig : Option (BitVec 4)
  wait : Option (BitVec 4)
  pops : Nat × Nat
  next : BitVec 32
  words : Nat
  order : Nat
  at_ : Nat
  deriving DecidableEq, Repr

/-- A range of the scoreboard in the issuing core's addresses (R235). -/
structure Range where
  lo : Nat
  hi : Nat
  deriving DecidableEq, Repr

/-- One operation of a chain (R247); k operands are read when the CHOP issues. -/
structure ChopOp where
  op : BitVec 6
  x : BitVec 6
  y : BitVec 6
  kx : Dword
  ky : Dword
  deriving DecidableEq, Repr

/-- An engine command with the values its operand registers held at issue (R233). -/
inductive EngOp where
  | copy (dst src n : Dword) (fill : Bool)
  | copym (reg row : Nat) (src n : Dword) (patch : Word)
  | mcast (off src n : Dword) (targets : List Nat)
  | tfetch (base stride : Dword) (rows : Nat)
  | gath (dst src idx : Dword) (ty : BitVec 4) (unit count : Nat)
  | scat (dst src idx : Dword) (ty : BitVec 4) (unit count : Nat)
  | gathmc (dst src list : Dword) (ty : BitVec 4) (unit ntx nty : Nat)
  | sacc (tgt idx val : Dword) (opc : BitVec 3) (ty : BitVec 4) (count window : Nat)
  | chain (dst srcA srcB : Dword) (ty dty : BitVec 4) (rm : BitVec 3) (sat useB : Bool) (count : Nat) (ops : List ChopOp)
  | cmask (state frame layer : Dword) (force : Bool)
  | tlist (comp state reuse : Dword)
  | tokz (out text len : Dword) (dict cap : Nat)
  | ccvt (dst frame origin : Dword) (ntx nty cset : Nat) (ofmt : BitVec 2)
  deriving DecidableEq, Repr

/-- An engine command in a queue or in execution (R233, R234), with the number that marks the rows it holds busy. An acquire waits for A's
accesses with a number below `awaits`; `events` are the numeric events to count at completion (R162). -/
structure EngCmd where
  id : Nat
  op : EngOp
  scope : BitVec 3
  rel : Bool
  acq : Bool
  sig : Option (BitVec 4)
  reads : List Range
  writes : List Range
  entry : Bool
  awaits : Nat
  rowsDone : Nat
  presented : Bool
  events : List Nat
  deriving DecidableEq, Repr

/-- One engine of a core (R31, R233): commands that wait, commands that have started, and one more than the reference cycle of the last dequeue,
or 0. -/
structure EngineSt where
  queue : List EngCmd
  active : List EngCmd
  lastStart : Nat
  deriving DecidableEq, Repr

/-- A chain that A has opened and not closed (R246 to R248), with the token that the CHAIN waited for. -/
structure OpenChain where
  pc : BitVec 32
  walked : Nat
  wait : Option (BitVec 4)
  cmd : EngCmd
  left : Nat
  deriving DecidableEq, Repr

/-- What a matrix command does: a formed template (R205, R208), MZERO (R217) or MDRAIN (R218). -/
inductive MatOp where
  | tpl (bits : BitVec 128) (sat : Bool)
  | zero (acc : BitVec 1)
  | drain (f : Drain) (dreg : Nat) (rm : BitVec 3) (sat : Bool)
  deriving DecidableEq, Repr

/-- A command of the matrix queue (R209, R216): the token it signals, whether the array has started it and with which scale rows, the operand
rows it has taken and the rows it has put out, the progress of a writer, whether it has executed and its numeric events; tile registers are
physical. -/
structure MatCmd where
  id : Nat
  op : MatOp
  areg : Nat
  breg : Nat
  sig : Option (BitVec 4)
  started : Bool
  scaleA : Row
  scaleB : Row
  gotA : List Row
  gotB : List Row
  rowsOut : Nat
  q : Nat
  executed : Bool
  events : List Nat
  deriving DecidableEq, Repr

/-- The follow-on command at the side port (R210): the formed template, and whether its licence has been judged. -/
structure SideCmd where
  tpl : BitVec 128
  judged : Bool
  deriving DecidableEq, Repr

/-- A row whose writer is in flight (R126, R215, R219, R239): the row and the identifier of its writer. -/
structure Busy where
  row : RowName
  owner : Nat
  deriving DecidableEq, Repr

/-- An accumulator row: 64 values of 128 bits and 64 counts of 32 bits (R28, R150). -/
structure AccRow where
  vals : BitVec 8192
  cnts : BitVec 2048
  deriving DecidableEq, Repr

/-- An outbound runnel queue (R249): rows held, its binding, rows in flight, and the slots of the li that the sender believes used. -/
structure Lo where
  rows : List Row
  peer : Option (Nat × Nat)
  flight : List Row
  used : Nat
  deriving DecidableEq, Repr

/-- A barrier slot (R58): arrivals of the phase, the participant count of the first, the phase bit and the ranks that arrived. -/
structure BarSlot where
  count : Nat
  expect : Nat
  phase : Bool
  ranks : List Nat
  deriving DecidableEq, Repr

/-- A translation that a TLB holds (R296, R297): the virtual address of its page in 64 KiB units, the size in those units, the physical
address of the page and the leaf's flags. -/
structure TlbEntry where
  vpage : Nat
  units : Nat
  pa : Nat
  w : Bool
  stash : Bool
  sec : Bool
  deriving DecidableEq, Repr

/-- A line of the stash (R231, R261, R275): virtual line number, whether its reply is still awaited and with which tag, dirty, marked
uncorrectable (R232), a recall held for it, and the accesses that waited for its reply, which a held recall lets pass first. -/
structure StashLine where
  line : Nat
  waiting : Bool
  tag : Nat
  dirty : Bool
  marked : Bool
  recalled : Bool
  owes : List Nat
  deriving DecidableEq, Repr

/-- The numeric event registers of a core (R163 to R165), with classes and sources (0 V, 1 M, 2 the copy complex): `given` are the increments of
the current reference cycle, `fresh` the NUM traps that its crossings ask for, `due` those of earlier cycles that are not yet raised. -/
structure Nev where
  cfg : Word
  act : Word
  stat : Word
  crossw : BitVec 6
  elapsed : Nat
  cnt : Vector Word 6
  thr : Vector Word 6
  due : List (Nat × Nat)
  fresh : List (Nat × Nat)
  given : List (Nat × Nat)
  deriving DecidableEq, Repr

/-- A pending or deferred divisor of a clock domain (R348, R350): the divisor asked for; whether the rail must first be raised; whether a
throttled boundary postpones the request (a default of R350) or drops it; whether its raise has begun. -/
structure DivReq where
  d : Nat
  deferred : Bool
  keep : Bool
  begun : Bool
  deriving DecidableEq, Repr

/-- Where a core is to hold for a pre-emption (R57). -/
inductive Hold where
  | none
  | beforeFirst
  | afterIter (f : Nat)
  deriving DecidableEq, Repr

/-- One core (R25, R28 to R39). `vStart` and `mStart` are one more than the reference cycle in which the vector engine and the array last took a
command, or 0, and `mqAt` one more than that in which M last entered one; `sampledAt` is the reference cycle of its last counter record and `divPast` its changes of a divisor since, as domain, old divisor and
cycle (R354). `fqAt` are the addresses that the latest rows of fq came from (R242); `liBad` are the marks of the rows in li, the head's first, those
that are not listed being false (R335); `spawned` is the id that the fountainhead has given X's SPAWN, where its reply was lost (R274). -/
structure CoreSt where
  resident : Bool
  finished : Bool
  task : Nat
  part : Nat
  rank : Nat
  gangSize : Nat
  stage : Nat
  stream : Nat
  prio : Nat
  demand : Nat
  lic : Bool
  weir : Bool
  spad : Nat
  stashUnits : Nat
  text : List Word
  tbase : Nat
  kernel : BitVec 32
  epilogue : BitVec 32
  x : StrandSt
  a : StrandSt
  v : StrandSt
  m : StrandSt
  g : Vector Word 32
  ar : Vector Dword 16
  k : Vector Dword 16
  tile : Tbl Row
  o : Vector Row 8
  lr : Row
  acc : Tbl AccRow
  accSat : Vector Bool 2
  rc : Vector (BitVec 6) 4
  tk : Vector (BitVec 8) 16
  loads : BitVec 8
  stores : BitVec 8
  copies : BitVec 8
  tileops : BitVec 8
  ax : Vector (List (Option Word)) 4
  xa : Vector (List Word) 2
  xv : List Word
  vx : List Word
  lo : Vector Lo 4
  li : Vector (List Row) 4
  liBad : Vector (List Bool) 4
  fq : List Row
  fqAt : List Dword
  tpl : Tbl (BitVec 128)
  full : List Nat
  busy : List Busy
  aq : List Access
  fe : Option FeReq
  probe : Option (List (Nat × Nat))
  chain : Option OpenChain
  copyE : EngineSt
  sluiceE : EngineSt
  confE : EngineSt
  gathE : EngineSt
  chainE : EngineSt
  pace : Vector (BitVec 16) 7
  vStart : Nat
  mStart : Nat
  mq : List MatCmd
  mqAt : Nat
  side : Option SideCmd
  mIll : Option IllCause
  ebuf : Tbl Byte
  tlb : List TlbEntry
  stash : List StashLine
  bars : Vector BarSlot 8
  spawned : Option Nat
  iteridx : Word
  slipw : Nat
  slipwDue : Option Nat
  timeh : Word
  nev : Nev
  hold : Hold
  owed : Bool
  seq : Word
  samplerSeq : Word
  samplerLost : Nat
  ptime : Nat
  div : Vector Nat 4
  divPast : List (Nat × Nat × Nat)
  sampledAt : Nat
  divReq : Vector (Option DivReq) 4
  floorUp : Vector (BitVec 16) 7
  bankmap : BitVec 4
  withdrawn : Bool
  nextId : Nat
  deriving DecidableEq, Repr

/-- A twin pair (R25, R200 to R204): which twin holds the licence (core number), which have an MLIC.ACQ pending, and the weir rows with
their full bits. -/
structure Pair where
  holder : Option Nat
  pending : List Nat
  tw : Vector Row 4
  twFull : Vector Bool 4
  deriving DecidableEq, Repr

/-- A task record as the fountainhead keeps it (R276). -/
structure Rec where
  domain : Nat
  hdlr : Bool
  ownprio : Bool
  weir : Bool
  lic : Bool
  restart : Bool
  prio : Nat
  text : Nat
  reloct : Nat
  nreloc : Nat
  tlen : Nat
  prologue : Nat
  tbase : Nat
  epilogue : Nat
  kernel : Nat
  kconst : Nat
  size : Nat
  shape : List (BitVec 16)
  ilimit : Nat
  stash : Nat
  spad : Nat
  tregs : Nat
  trip : Nat
  handler : Nat
  preds : List Nat
  opnds : List Dword
  deriving DecidableEq, Repr

/-- Where a task is (R112, R281 to R300). -/
inductive TaskPhase where
  /-- held by its stream, not yet in the ready pool -/
  | waiting
  /-- in the ready pool since a reference cycle -/
  | ready
  | running
  /-- saved; it waits to become ready again -/
  | saved
  /-- in the pool and without any placement (WAIT_CAPACITY) -/
  | noCapacity
  | complete
  | failed
  deriving DecidableEq, Repr

/-- A trap that a strand raised and whose gang has not yet stopped (R292, R293): core, strand, class, cause, code, and for TRAP and BRK
where a resumption continues (R116): the address of the following word, the words passed and the tokens of a TK prefix, of which the one that
it waited for has been taken. `due` marks an ILL or a NUM
that was due at the strand's boundary, and stays due until it is reported (R165, R210, R292). -/
structure TrapReq where
  core : Nat
  strand : Strand
  cls : Nat
  cause : Nat
  code : Nat
  next : BitVec 32
  words : Nat
  wait : Option (BitVec 4)
  sig : Option (BitVec 4)
  due : Bool
  deriving DecidableEq, Repr

/-- What a stopped task waits for (R292, R299). -/
inductive Await where
  | nothing
  | handler (id : Nat) (cls cause : Nat) (kaddr : Nat)
  | service
  deriving DecidableEq, Repr

/-- The save image of one member (R290): its core's state, the bytes of its scratchpad by offset, the scratchpad lines marked uncorrectable, and
the weir rows saved with a z1 member. -/
structure Image where
  core : Nat
  st : CoreSt
  spadBytes : List Host.Cell
  spadMarks : List Nat
  tw : Option (Vector Row 4 × Vector Bool 4)
  deriving DecidableEq, Repr

/-- What the fountainhead reads at the first dispatch of a task (R277, R289): the text image, the relocation entries as rank and word index, and
the constant block. -/
structure Loaded where
  text : List Word
  relocs : List (Nat × Nat)
  consts : List Dword
  deriving DecidableEq, Repr

/-- A task of a partition (R276 to R300). `preemptFor` is the key of the task that its cores are reserved for; `atBoundary` says that `images` are the
boundary save that is kept, which lies in the grotto or in the save area; `spill` is the record of the spill area that holds its entry, with the
bytes that the device wrote there (R344). -/
structure Task where
  id : Nat
  part : Nat
  stream : Nat
  recd : Rec
  phase : TaskPhase
  order : Nat
  released : Bool
  inPool : Bool
  poolSince : Nat
  eprio : Nat
  running : Bool
  dispatched : Bool
  cores : List Nat
  startedAt : Nat
  loaded : Option Loaded
  images : Option (List Image)
  inGrotto : Bool
  boundary : Option (List Image)
  atBoundary : Bool
  boundGrotto : Bool
  restarts : Nat
  preemptAt : Option Nat
  preemptFor : Option Nat
  saving : Bool
  traps : List TrapReq
  fatal : Option (Nat × Nat)
  awaits : Await
  capSince : Option Nat
  capNoted : Bool
  iter : Nat
  kind : Nat
  detail : Nat
  addr : Nat
  sat : Nat
  spill : Option (Nat × List Byte)
  recordDue : Bool
  recordWritten : Bool
  recordFault : Option Nat
  doneAt : Nat
  deriving DecidableEq, Repr

/-- A task stream (R280, R281, R286, R295). -/
structure Stream where
  part : Nat
  spill : Nat
  age : Nat
  weight : Nat
  en : Bool
  crbase : Nat
  prod : Word
  cons : Word
  l2ent : Nat
  seq : Word
  deficit : Nat
  lastDispatch : Nat
  deriving DecidableEq, Repr

/-- A ring of records in memory (R298, R345, R354): its base and 2^n records; configured or not. -/
structure Ring where
  on : Bool
  base : Nat
  n : Nat
  deriving DecidableEq, Repr

/-- A conversion set (R316). -/
structure CcSet where
  en : Bool
  m : List Word
  off : List Word
  mean : List Word
  scl : List Word
  deriving DecidableEq, Repr

/-- A dictionary (R318). -/
structure Dict where
  nnodes : Nat
  node : Nat
  edge : Nat
  nedges : Nat
  deriving DecidableEq, Repr

/-- A migration in progress (R252): the page's virtual address, the old and the new physical page, lines copied and lines in all. -/
structure Migration where
  vpage : Nat
  src : Nat
  dst : Nat
  copied : Nat
  lines : Nat
  fn : Nat
  deriving DecidableEq, Repr

/-- A partition (R344, R355). -/
structure Part where
  quads : BitVec 64
  ptbase : Nat
  lease : Nat
  saveBase : Nat
  saveSize : Nat
  capUs : Nat
  frBase : Nat
  frN : Nat
  frOn : Bool
  frProd : Nat
  frCons : Nat
  spillBase : Nat
  spillSize : Nat
  refBase : Nat
  refSize : Nat
  events : Ring
  counters : Ring
  ccsets : Tbl CcSet
  dicts : Tbl Dict
  floors : Vector Nat 4
  defaults : Vector Nat 4
  joined : List (Nat × Nat)
  secure : Bool
  nextTask : Nat
  nextOrder : Nat
  migration : Option Migration
  deriving DecidableEq, Repr

/-- An access unit in an ingress buffer (R309): bytes, presentation time, reference cycle of its last byte's arrival. -/
structure AccessUnit where
  len : Nat
  pts : Dword
  arrived : Nat
  deriving DecidableEq, Repr

/-- A camera stream (R306 to R315): `units` are undecoded, `decoded` wait to be shown. -/
structure Camera where
  lat : Nat
  nslot : Nat
  budget : Nat
  inst : Nat
  cset : Nat
  ofmt : Nat
  conv : Bool
  auto : Bool
  codec : Nat
  en : Bool
  part : Nat
  maxh : Nat
  maxw : Nat
  fbase : Nat
  slotSize : Nat
  kbase : Nat
  rcd : Nat
  tstream : Nat
  state : Nat
  convsat : Nat
  latecnt : Nat
  ingress : Nat
  units : List AccessUnit
  decoded : List AccessUnit
  credit : Int
  frame : Nat
  disc : Bool
  corrupt : Bool
  skipToKey : Bool
  skipped : Nat
  blocked : Bool
  toSubmit : List (Nat × Nat × Nat)
  deriving DecidableEq, Repr

/-- A decoder instance (R308): the stream in service, the reference cycle at which its turn began, the last stream served, whether the quantum has
passed, and whether the unit in service has been discarded (R310, R328). -/
structure Decoder where
  serving : Option Nat
  since : Nat
  last : Nat
  expired : Bool
  void : Bool
  deriving DecidableEq, Repr

/-- A format window (R166 to R169). -/
structure Window where
  en : Bool
  form : Nat
  cfmt : BitVec 4
  vbase : Nat
  vlim : Nat
  data : Nat
  aux : Nat
  satcnt : Nat
  deriving DecidableEq, Repr

/-- A voltage rail (R347 to R353). -/
structure Rail where
  level : Nat
  cur : Nat
  offset : Nat
  margin : Nat
  undervolt : Bool
  celim : Nat
  maxLevel : Nat
  throttled : Bool
  goodRun : Nat
  holdoff : Nat
  cleanRun : Nat
  raiseTo : Option Nat
  raiseAt : Nat
  deriving DecidableEq, Repr

/-- A link's counters (R335, R336, R362). -/
structure Link where
  corrected : Nat
  errors : Nat
  marked : Bool
  deriving DecidableEq, Repr

/-- What a core has on the network (R335): a line of its stash, an access of A or a full/empty operation by its number, the accesses of an engine's
command, a row of an lo queue, its arrival at a barrier, or a SPAWN. -/
inductive Req where
  | line (line : Nat)
  | access (id : Nat)
  | engine (e : Engine)
  | row (lo : Nat)
  | bar
  | spawn
  deriving DecidableEq, Repr

/-- A request on the network whose reply is awaited (R334 to R336): its core, what it is, whether it has been sent (a drain holds it back), the
reference cycle of its last sending, how often it was sent again, whether a packet of it has been lost since, whether a payload flit of it or
its reply is marked uncorrectable, the lines, by virtual number, of which it carries data in a payload flit marked uncorrectable, and what its home
has recorded of it, where it is performed and the reply was lost (R274). -/
structure Outstanding where
  tag : Nat
  core : Nat
  what : Req
  sent : Bool
  sentAt : Nat
  retries : Nat
  lost : Bool
  marked : Bool
  spoils : List Nat
  result : Option (List Byte)
  deriving DecidableEq, Repr

/-- The logical times of a 128-byte line (R229, R258, R260): its write time, and the time up to which copies of it may be read. They are kept by
the line's address, wherever its data stands, so that they go with it. -/
structure LineTime where
  write : Nat
  lease : Nat
  deriving DecidableEq, Repr

/-- A mailbox (R342): the command buffer and the response buffer as words of 64 bits, the status bits, and the cycle of its last GO. -/
structure Mailbox where
  busy : Bool
  goAt : Nat
  done : Bool
  cmd : Tbl Dword
  rsp : Tbl Dword
  deriving DecidableEq, Repr

/-- A region of physical memory with its world (R355). -/
structure Region where
  base : Nat
  limit : Nat
  secure : Bool
  deriving DecidableEq, Repr

/-- The stored configuration record (R357): its fields as the last boot took them, and its bytes, which hold the owner's keys. `valid`: that boot
found no stored record that fails its checks (R359). -/
structure ConfigRec where
  valid : Bool
  counter : Nat
  worlds : BitVec 16
  regions : List Region
  minpatch : Nat
  bytes : List Byte
  deriving DecidableEq, Repr

/-- What the device sends to the host: an interrupt of a function's vector (R337), or the data of a read. -/
inductive Output where
  | msix (fn vector : Nat)
  | data (fn : Nat) (bytes : List Byte)
  | unsupported (fn : Nat)
  deriving DecidableEq, Repr

/-- A turn of an agent: a strand of a core walks, an agent takes a step of the opcode table, the engine writes of a core enter the memory
order (R263), L2 drops a line of a view (R169), a reference cycle passes. -/
inductive Turn where
  | strand (core : Nat) (strand : Strand)
  | agent (i : Instr)
  | settle (core : Nat)
  | evict (line : Nat)
  | tick
  deriving DecidableEq, Repr

/-- The whole device. `sources` are the numbers and the lost counts of the sources of event records (R301, R346); `peerJoins` the joins that peers
have been told: aperture, the peer's partition, the partition here (R341); `peerDone` the requests of peers that their homes have performed,
with the results recorded until they are acknowledged: aperture, tag, result (R274). `patch` is the patch in use, `flashPatch` the one that flash
holds; `bar2` is the size of BAR2 as a power of two (R337), `pacing` the pacing floor of each engine (R344), `decodePeriods` the
number of credit periods opened (R308). -/
structure State where
  turns : List Turn
  rr : Nat
  cx : Cx
  cores : Tbl CoreSt
  pairs : Tbl Pair
  mem : Mem
  poison : List Nat
  times : Tbl LineTime
  cycle : Nat
  feOrder : Nat
  fresh : Nat
  tasks : List Task
  streams : Tbl Stream
  ptr : Tbl Nat
  cred : Tbl Bool
  reserved : List (Nat × Nat × Nat)
  parts : Tbl Part
  cameras : Tbl Camera
  decoders : Tbl Decoder
  windows : Tbl Window
  viewLines : Tbl (List Byte × Bool)
  rails : Tbl Rail
  thermal : Nat
  links : Tbl Link
  draining : Option Nat
  lastDrain : Nat
  outstanding : List Outstanding
  nextTag : Nat
  mailboxes : Tbl Mailbox
  goOrder : List Nat
  devEvents : Ring
  sources : Tbl (Word × Nat)
  peerJoins : List (Nat × Nat × Nat)
  peerDone : List (Nat × Nat × List Byte)
  bootState : Nat
  failcode : Nat
  romver : Word
  patchver : Word
  patch : List Byte
  flashPatch : Option (List Byte)
  bar2 : Nat
  pacing : Vector (BitVec 16) 7
  decodePeriods : Nat
  config : ConfigRec
  regions : List Region
  outputs : List Output
  deriving DecidableEq, Repr

/-- No modifier. -/
def Mods.none : Mods := { rs := Option.none, sig := Option.none, wait := Option.none, ext := Option.none }

/-- A strand of a core with no task (R28). -/
def StrandSt.reset : StrandSt :=
  { pc := 0, walked := 0, p := Vector.replicate 8 false, ret := [], loops := [], outq := [], phase := .stopped, holding := false,
    atEnd := false, atBar := false, sigDue := [], fetched := none }

/-- An idle engine. -/
def EngineSt.reset : EngineSt := { queue := [], active := [], lastStart := 0 }

/-- The event registers at reset (R163). -/
def Nev.reset : Nev :=
  { cfg := 0, act := 0, stat := 0, crossw := 0, elapsed := 0, cnt := Vector.replicate 6 0, thr := Vector.replicate 6 0, due := [], fresh := [],
    given := [] }

/-- A core after reset, with no task: every value as R28, R34 and R163 give it. -/
def CoreSt.reset : CoreSt :=
  { resident := false, finished := false, task := 0, part := 0, rank := 0, gangSize := 0, stage := 0, stream := 0, prio := 0, demand := 0, lic := false,
    weir := false, spad := 0, stashUnits := 0, text := [], tbase := 0, kernel := 0, epilogue := 0,
    x := .reset, a := .reset, v := .reset, m := .reset,
    g := Vector.replicate 32 0, ar := Vector.replicate 16 0, k := Vector.replicate 16 0, tile := [], o := Vector.replicate 8 0, lr := 0,
    acc := [], accSat := Vector.replicate 2 false, rc := Vector.replicate 4 0, tk := Vector.replicate 16 0,
    loads := 0, stores := 0, copies := 0, tileops := 0, ax := Vector.replicate 4 [], xa := Vector.replicate 2 [], xv := [], vx := [],
    lo := Vector.replicate 4 { rows := [], peer := none, flight := [], used := 0 }, li := Vector.replicate 4 [], liBad := Vector.replicate 4 [], fq := [], fqAt := [], tpl := [],
    full := [], busy := [], aq := [], fe := none, probe := none, chain := none,
    copyE := .reset, sluiceE := .reset, confE := .reset, gathE := .reset, chainE := .reset,
    pace := Vector.replicate 7 0, vStart := 0, mStart := 0, mq := [], mqAt := 0, side := none, mIll := none, ebuf := [], tlb := [], stash := [],
    bars := Vector.replicate 8 { count := 0, expect := 0, phase := false, ranks := [] },
    spawned := none, iteridx := 0, slipw := 256, slipwDue := none, timeh := 0, nev := .reset, hold := .none, owed := false, seq := 0, samplerSeq := 0,
    samplerLost := 0, ptime := 0, div := Vector.replicate 4 1, divPast := [], sampledAt := 0, divReq := Vector.replicate 4 none,
    floorUp := Vector.replicate 7 0, bankmap := 0xF, withdrawn := false, nextId := 0 }

/-- A free pair with empty weir rows (R225). -/
def Pair.reset : Pair := { holder := none, pending := [], tw := Vector.replicate 4 0, twFull := Vector.replicate 4 false }

/-- A stream after reset (R280). -/
def Stream.reset : Stream :=
  { part := 0, spill := 0, age := 1000, weight := 1, en := false, crbase := 0, prod := 0, cons := 0, l2ent := 4, seq := 0, deficit := 0,
    lastDispatch := 0 }

/-- A ring that is not configured. -/
def Ring.reset : Ring := { on := false, base := 0, n := 0 }

/-- A partition after reset: LEASE 64 (R259), divisors 1 (R350), the rest as log entry 7 says. -/
def Part.reset : Part :=
  { quads := 0, ptbase := 0, lease := 64, saveBase := 0, saveSize := 0, capUs := 0, frBase := 0, frN := 6, frOn := false, frProd := 0, frCons := 0, spillBase := 0,
    spillSize := 0, refBase := 0, refSize := 0, events := .reset, counters := .reset, ccsets := [], dicts := [],
    floors := Vector.replicate 4 1, defaults := Vector.replicate 4 1, joined := [], secure := false,
    nextTask := 1, nextOrder := 0, migration := none }

/-- A conversion set after reset (R316). -/
def CcSet.reset : CcSet := { en := false, m := [], off := [], mean := [], scl := [] }

/-- A dictionary after reset (R318). -/
def Dict.reset : Dict := { nnodes := 0, node := 0, edge := 0, nedges := 0 }

/-- A camera entry after reset (R306). -/
def Camera.reset : Camera :=
  { lat := 33, nslot := 4, budget := 32, inst := 0, cset := 0, ofmt := 0, conv := false, auto := false, codec := 0, en := false, part := 0,
    maxh := 1080, maxw := 1920, fbase := 0, slotSize := 0, kbase := 0, rcd := 0, tstream := 0, state := 0, convsat := 0, latecnt := 0,
    ingress := 0, units := [], decoded := [], credit := 0, frame := 0, disc := false, corrupt := false, skipToKey := false, skipped := 0, blocked := false,
    toSubmit := [] }

/-- A decoder instance after reset. -/
def Decoder.reset : Decoder := { serving := none, since := 0, last := 255, expired := false, void := false }

/-- A format window after reset (R166). -/
def Window.reset : Window :=
  { en := false, form := 0, cfmt := 0, vbase := 0, vlim := 0, data := 0, aux := 0, satcnt := 0 }

/-- A rail after reset: level 7, M 15, MAXLEVEL 7, undervolting off (R339, R347, R352). -/
def Rail.reset : Rail :=
  { level := 7, cur := 0, offset := 0, margin := 15, undervolt := false, celim := 0, maxLevel := 7, throttled := false, goodRun := 0,
    holdoff := 0, cleanRun := 0, raiseTo := none, raiseAt := 0 }

/-- A link after reset (R336, R362). -/
def Link.reset : Link := { corrected := 0, errors := 0, marked := false }

/-- A mailbox after reset (R342). -/
def Mailbox.reset : Mailbox := { busy := false, goAt := 0, done := false, cmd := [], rsp := [] }

/-- The issue register of a machine that has issued nothing. -/
def Cx.reset : Cx :=
  { core := 0, strand := .x, pc := 0, head := 0, next := 0, words := 0, mods := Mods.none, cause := .brokenWord, misplaced := false, late := false }

/-- No stored record (R357, log entry 8). -/
def ConfigRec.reset : ConfigRec := { valid := true, counter := 0, worlds := 0, regions := [], minpatch := 0, bytes := [] }

/-- A record of zeros, with no handler and no predecessor: the blank that fields are filled into. -/
def Rec.reset : Rec :=
  { domain := 0, hdlr := false, ownprio := false, weir := false, lic := false, restart := false, prio := 0, text := 0, reloct := 0, nreloc := 0,
    tlen := 0, prologue := 0, tbase := 0, epilogue := 0, kernel := 0, kconst := 0, size := 0, shape := [], ilimit := 0, stash := 0, spad := 0,
    tregs := 0, trip := 0, handler := 0, preds := [], opnds := [] }

/-- A task of no record: the blank that fields are filled into. -/
def Task.reset : Task :=
  { id := 0, part := 0, stream := 0, recd := .reset, phase := .waiting, order := 0, released := false, inPool := false, poolSince := 0, eprio := 0,
    running := false, dispatched := false, cores := [], startedAt := 0, loaded := none, images := none, inGrotto := false, boundary := none,
    atBoundary := false, boundGrotto := false, restarts := 0,
    preemptAt := none, preemptFor := none, saving := false, traps := [], fatal := none, awaits := .nothing, capSince := none, capNoted := false,
    iter := 0, kind := 0, detail := 0, addr := 0, sat := 0, spill := none, recordDue := false, recordWritten := false, recordFault := none, doneAt := 0 }

/-- The device after reset: STATE 0 (R339, R359), nothing resident, every table at its reset entry, memory with nothing listed. -/
def State.reset : State :=
  { turns := [], rr := 0, cx := .reset, cores := [], pairs := [], mem := [], poison := [], times := [], cycle := 0, feOrder := 0, fresh := 0, tasks := [],
    streams := [], ptr := [], cred := [], reserved := [], parts := [], cameras := [], decoders := [], windows := [], viewLines := [], rails := [],
    thermal := 0, links := [], draining := none, lastDrain := 0, outstanding := [], nextTag := 0, mailboxes := [], goOrder := [], devEvents := .reset,
    sources := [], peerJoins := [], peerDone := [], bootState := 0, failcode := 0, romver := 1, patchver := 0, patch := [],
    flashPatch := none, bar2 := 39, pacing := Vector.replicate 7 0, decodePeriods := 0, config := .reset,
    regions := [], outputs := [] }

end Sys2Proof.Machine
end

