-- ==== Sys2Proof/Machine/Ops.lean ====
section
/-! DEFINITION. The named operations over the state: tables, memory, cores and strands, tokens and counters, the one way an instruction issues
and retires, and the one way a strand takes a trap (R137, R292) or a gang meets a fatal context error (R294). -/

namespace Sys2Proof.Machine

/-- The outcome type of every meaning. -/
abbrev Res := Host.Outcome State Fault Refusal

/-! Tables and memory. -/

/-- The entry of a key, or the default. -/
def tget {α : Type} (d : α) : Tbl α → Nat → α
  | [], _ => d
  | (k', v) :: r, k => if k' = k then v else tget d r k

/-- Sets the entry of a key; keys stay rising. -/
def tset {α : Type} : Tbl α → Nat → α → Tbl α
  | [], k, v => [(k, v)]
  | (k', v') :: r, k, v => if k < k' then (k, v) :: (k', v') :: r else if k = k' then (k, v) :: r else (k', v') :: tset r k v

/-- Whether a key is listed. -/
def thas {α : Type} (t : Tbl α) (k : Nat) : Bool := t.any (fun e => e.1 == k)

/-- What an unlisted byte of memory reads as (log entry 2). -/
def blankByte : Byte := 0

/-- The byte at a key. -/
def mget : Mem → Nat → Byte
  | [], _ => blankByte
  | (k', v) :: r, k => if k' = k then v else mget r k

/-- Inserts a byte that differs from the blank one. -/
def minsert : Mem → Nat → Byte → Mem
  | [], k, v => [(k, v)]
  | (k', v') :: r, k, v => if k < k' then (k, v) :: (k', v') :: r else if k = k' then (k, v) :: r else (k', v') :: minsert r k v

/-- Writes one byte: the blank value removes the entry. -/
def mset (m : Mem) (k : Nat) (v : Byte) : Mem := if v = blankByte then m.filter (fun e => e.1 != k) else minsert m k v

/-- The canonical form of memory: keys strictly rising, no entry blank. -/
def Mem.wf : Mem → Bool
  | [] => true
  | [(_, v)] => v != blankByte
  | (k, v) :: (k', v') :: r => v != blankByte && decide (k < k') && Mem.wf ((k', v') :: r)

/-- `n` bytes from a key upward. -/
def mread (m : Mem) (k : Nat) : Nat → List Byte
  | 0 => []
  | n + 1 => mget m k :: mread m (k + 1) n

/-- Writes bytes from a key upward. -/
def mwrite (m : Mem) (k : Nat) : List Byte → Mem
  | [] => m
  | b :: r => mwrite (mset m k b) (k + 1) r

/-- Drops every byte with a key in [lo, hi). -/
def mclear (m : Mem) (lo hi : Nat) : Mem := m.filter (fun e => !(lo ≤ e.1 && e.1 < hi))

/-- Bytes as a little-endian number (R9). -/
def natOfBytes : List Byte → Nat
  | [] => 0
  | b :: r => b.toNat + 256 * natOfBytes r

/-- The `n` low bytes of a number, little-endian (R9). -/
def bytesOfNat : Nat → Nat → List Byte
  | 0, _ => []
  | n + 1, v => BitVec.ofNat 8 v :: bytesOfNat n (v / 256)

/-- The bytes of a row, byte 0 first. -/
def bytesOfRow (r : Row) : List Byte := bytesOfNat 256 r.toNat

/-- The row of 256 bytes. -/
def rowOfBytes (l : List Byte) : Row := BitVec.ofNat 2048 (natOfBytes (l.take 256))

/-- The key of byte `off` of the scratchpad of a core. -/
def spadKey (core off : Nat) : Nat := 2 ^ 52 + core * 2 ^ 19 + off

/-! Cores. -/

/-- A core of the device. -/
def State.core (s : State) (c : Nat) : CoreSt := tget CoreSt.reset s.cores c

/-- Replaces a core. -/
def State.setCore (s : State) (c : Nat) (k : CoreSt) : State := { s with cores := tset s.cores c k }

/-- Changes a core. -/
def State.modCore (s : State) (c : Nat) (f : CoreSt → CoreSt) : State := s.setCore c (f (s.core c))

/-- A strand of a core. -/
def CoreSt.strand (k : CoreSt) : Strand → StrandSt
  | .x => k.x | .a => k.a | .v => k.v | .m => k.m

/-- Replaces a strand of a core. -/
def CoreSt.setStrand (k : CoreSt) (t : Strand) (st : StrandSt) : CoreSt :=
  match t with
  | .x => { k with x := st }
  | .a => { k with a := st }
  | .v => { k with v := st }
  | .m => { k with m := st }

/-- The four strands, in the order of their numbers (R293). -/
def strands : List Strand := [.x, .a, .v, .m]

/-- The number of a strand (R293). -/
def strandNum : Strand → Nat
  | .x => 0 | .a => 1 | .v => 2 | .m => 3

/-- Changes the core that issues. -/
def State.modCx (s : State) (f : CoreSt → CoreSt) : State := s.modCore s.cx.core f

/-- The core that issues. -/
def State.cxCore (s : State) : CoreSt := s.core s.cx.core

/-- The strand that issues. -/
def State.cxStrand (s : State) : StrandSt := s.cxCore.strand s.cx.strand

/-- Changes the strand that issues. -/
def State.modCxStrand (s : State) (f : StrandSt → StrandSt) : State :=
  s.modCx (fun k => k.setStrand s.cx.strand (f (k.strand s.cx.strand)))

/-- Core (z,y,x) of a packed coordinate (R14) as a core number; none where z is not 1 or 2. -/
def coreOfCoord (c : BitVec 9) : Option Nat :=
  let z := c.toNat / 128
  if z = 1 ∨ z = 2 then some ((z - 1) * 128 + c.toNat % 128) else none

/-- The packed coordinate of a core (R14). -/
def coordOfCore (c : Nat) : Nat := (c / 128 + 1) * 128 + c % 128

/-- The twin of a core: same y and x on the other layer (R25). -/
def twinOf (c : Nat) : Nat := if c < 128 then c + 128 else c - 128

/-- The number of a core's pair. -/
def pairOf (c : Nat) : Nat := c % 128

/-- A pair. -/
def State.pair (s : State) (p : Nat) : Pair := tget Pair.reset s.pairs p

/-- Replaces a pair. -/
def State.setPair (s : State) (p : Nat) (v : Pair) : State := { s with pairs := tset s.pairs p v }

/-- A partition. -/
def State.part (s : State) (p : Nat) : Part := tget Part.reset s.parts p

/-- Changes a partition. -/
def State.modPart (s : State) (p : Nat) (f : Part → Part) : State := { s with parts := tset s.parts p (f (s.part p)) }

/-- A stream. -/
def State.stream (s : State) (i : Nat) : Stream := tget Stream.reset s.streams i

/-- Changes a stream. -/
def State.modStream (s : State) (i : Nat) (f : Stream → Stream) : State := { s with streams := tset s.streams i (f (s.stream i)) }

/-- A camera stream. -/
def State.camera (s : State) (i : Nat) : Camera := tget Camera.reset s.cameras i

/-- Changes a camera stream. -/
def State.modCamera (s : State) (i : Nat) (f : Camera → Camera) : State := { s with cameras := tset s.cameras i (f (s.camera i)) }

/-- A rail. -/
def State.rail (s : State) (i : Nat) : Rail := tget Rail.reset s.rails i

/-- Changes a rail. -/
def State.modRail (s : State) (i : Nat) (f : Rail → Rail) : State := { s with rails := tset s.rails i (f (s.rail i)) }

/-- The tasks of a partition that carry an id; the newest first. -/
def State.task? (s : State) (part id : Nat) : Option Task := s.tasks.find? (fun t => t.part == part && t.id == id)

/-- Changes the task of a partition and an id. -/
def State.modTask (s : State) (part id : Nat) (f : Task → Task) : State :=
  { s with tasks := s.tasks.map (fun t => if t.part == part && t.id == id then f t else t) }

/-- The task whose context a core holds. -/
def State.taskOf (s : State) (c : Nat) : Option Task :=
  if (s.core c).resident then s.task? (s.core c).part (s.core c).task else none

/-- Changes the task whose context a core holds. -/
def State.modTaskOf (s : State) (c : Nat) (f : Task → Task) : State :=
  if (s.core c).resident then s.modTask (s.core c).part (s.core c).task f else s

/-- The cores of the gang that a core belongs to, by rank. -/
def State.gang (s : State) (c : Nat) : List Nat := (s.taskOf c).elim [] (·.cores)

/-- Whether a core holds a member of the gang of core `c`. -/
def State.inGang (s : State) (c d : Nat) : Bool := (s.gang c).contains d

/-- A gang that has met a trap or a fatal context error, or is being saved, issues nothing more (R137, R292, R294). -/
def Task.halted (t : Task) : Bool := !t.traps.isEmpty || t.fatal.isSome || t.saving

/-! Issue and retirement. -/

/-- Why an instruction does not issue, or what it raises. -/
inductive Stop where
  | stall
  | ill (c : IllCause)
  | trap (cls code : Nat)
  | fatal (kind addr : Nat)
  deriving DecidableEq, Repr

/-- A part of an instruction's effect that may stop it. -/
abbrev Try (α : Type) := Except Stop α

/-- Stalls unless a condition holds. -/
def need (b : Bool) : Try Unit := if b then .ok () else .error .stall

/-- Raises ILL with a cause when a condition holds. -/
def illIf (b : Bool) (c : IllCause) : Try Unit := if b then .error (.ill c) else .ok ()

/-- Of several causes the one highest in the table of R95. -/
def worst : List IllCause → Option IllCause
  | [] => none
  | c :: r => match worst r with
    | none => some c
    | some d => if c.code ≤ d.code then some c else some d

/-- The cause `c` when a condition holds. -/
def fault? (b : Bool) (c : IllCause) : List IllCause := if b then [c] else []

/-- Records a trap of a strand of a core: its gang is then to stop (R292). The strand's saved program counter is the one it holds (R69, R82,
R116): `pc` is written first. -/
def raiseTrap (s : State) (c : Nat) (t : Strand) (pc : BitVec 32) (cls cause code : Nat) (next : BitVec 32) (words : Nat)
    (mods : Mods := Mods.none) (due : Bool := false) : State :=
  (s.modCore c (fun k => k.setStrand t { k.strand t with pc := pc })).modTaskOf c (fun g =>
    { g with traps := g.traps ++ [{ core := c, strand := t, cls := cls, cause := cause, code := code, next := next, words := words,
                                    wait := mods.wait, sig := mods.sig, due := due }] })

/-- Records the first fatal context error of the gang of a core (R294): its kind and failing address. -/
def raiseFatal (s : State) (c : Nat) (kind addr : Nat) : State :=
  s.modTaskOf c (fun g => if g.fatal.isSome then g else { g with fatal := some (kind, addr) })

/-- Raises ILL in the strand that issues (R95): its program counter is the address of the first word of its group (R82). -/
def raiseIll (s : State) (c : IllCause) : State := raiseTrap s s.cx.core s.cx.strand s.cx.pc 0 c.code 0 s.cx.pc 0

/-- Adds one to a token counter of a core, if it holds less than 255 (R39). -/
def CoreSt.signal? (k : CoreSt) (t : BitVec 4) : Option CoreSt :=
  if (k.tk.get t.toFin) = 255 then none else some { k with tk := k.tk.set t.toNat (k.tk.get t.toFin + 1) t.isLt }

/-- Signals of a strand, each made or, where its counter holds 255, owed: the strand stalls until it is made (R39, R62). -/
def CoreSt.signalOwe (k : CoreSt) (u : Strand) : List (BitVec 4) → CoreSt
  | [] => k
  | t :: r =>
    CoreSt.signalOwe ((k.signal? t).getD (k.setStrand u { k.strand u with sigDue := (k.strand u).sigDue ++ [t] })) u r

/-- Takes one unit of a token counter, if there is one (R61). -/
def CoreSt.take? (k : CoreSt) (t : BitVec 4) : Option CoreSt :=
  if (k.tk.get t.toFin) = 0 then none else some { k with tk := k.tk.set t.toNat (k.tk.get t.toFin - 1) t.isLt }

/-- The wait part of a TK prefix (R62): the unit is taken in the step that issues. -/
def takeWait (s : State) : Try State :=
  match s.cx.mods.wait with
  | none => .ok s
  | some t => match s.cxCore.take? t with
    | some k => .ok (s.setCore s.cx.core k)
    | none => .error .stall

/-- A strand passes some words and goes on at an address. It stands at the end of its innermost body when it comes there in sequence (R52). -/
def StrandSt.advance (t : StrandSt) (next : BitVec 32) (words : Nat) : StrandSt :=
  { t with
    pc := next
    walked := t.walked + words
    atEnd := match t.loops with
      | l :: _ => next == l.last && 0 < words && next == t.pc + BitVec.ofNat 32 (4 * words)
      | [] => false }

/-- The signal that the instruction still carries finds its counter at 255: the strand stalls before any effect (R39, R137). -/
def State.sigStuck (s : State) : Bool := s.cx.mods.sig.elim false (fun t => s.cxCore.tk.get t.toFin == 255)

/-- Retirement: the strand passes its group (R41), and a signal that the instruction still carries is made (R62). -/
def retire (s : State) : State :=
  let s := s.modCxStrand (fun t => t.advance s.cx.next s.cx.words)
  match s.cx.mods.sig with
  | none => s
  | some t => (s.cxCore.signal? t).elim s (s.setCore s.cx.core)

/-- The outcome of an instruction whose effect, taken with its token and its retirement, is `r` when it issues. A stall changes nothing; one of
an instruction that can signal only at 255 is a stall (R39). A TRAP or a BRK has taken its token as it is raised (R62, R116). -/
def conclude (s : State) (r : Try State) : Res :=
  match r with
  | .ok s' => .next (if s'.sigStuck then s else retire s')
  | .error .stall => .next s
  | .error (.ill c) => .next (raiseIll s c)
  | .error (.trap cls code) =>
    .next (raiseTrap ((takeWait s).toOption.getD s) s.cx.core s.cx.strand s.cx.pc cls 0 code s.cx.next s.cx.words s.cx.mods)
  | .error (.fatal kind addr) => .next (raiseFatal s s.cx.core kind addr)

/-- A word that begins the kernel and is no LOOP (R49): cause 13. -/
def placeFaults (s : State) : List IllCause := fault? s.cx.misplaced .execModel

/-- An RS prefix with a rounding mode other than RNE on X, A or MX (R81, R208): cause 14; with the fault of the word's place. -/
def rsFault (s : State) : List IllCause :=
  placeFaults s ++
    match s.cx.mods.rs with
    | some (m, _) => fault? (m != 0 && (s.cx.strand == .x || s.cx.strand == .a)) .otherUse
    | none => []

/-- An instruction of the text: its encoding faults, of which the worst is raised before anything else (R95); else its token and its effect
in one step (R62). -/
def issue (s : State) (faults : List IllCause) (body : State → Try State) : Res :=
  match worst (faults ++ rsFault s) with
  | some c => .next (raiseIll s c)
  | none => conclude s (takeWait s >>= body)

/-- An instruction whose effect is on its own core alone. -/
def issueCore (s : State) (faults : List IllCause) (body : CoreSt → Try CoreSt) : Res :=
  issue s faults (fun s => (body s.cxCore).map (fun k => s.setCore s.cx.core k))

/-- The saturate bit of an RS prefix (R81). -/
def Mods.sat (m : Mods) : Bool := m.rs.elim false (·.2)

/-- The rounding mode of an RS prefix, RNE without one (R153). -/
def Mods.mode (m : Mods) : BitVec 3 := m.rs.elim 0 (·.1)

/-- Takes the signal of the instruction that issues away from its retirement: its effect completes later (R62). -/
def State.deferSig (s : State) : State := { s with cx := { s.cx with mods := { s.cx.mods with sig := none } } }

/-- Where the strand that issues goes next. -/
def State.goto (s : State) (pc : BitVec 32) : State := { s with cx := { s.cx with next := pc } }

/-- The strand that issues stays at its word, having passed nothing and signalled nothing. -/
def State.stay (s : State) : State :=
  { s with cx := { s.cx with next := s.cxStrand.pc, words := 0, mods := { s.cx.mods with sig := none } } }

/-- A fresh identifier. -/
def State.freshId (s : State) : Nat × State := (s.fresh, { s with fresh := s.fresh + 1 })

/-! Requests on the network (R334, R335). -/

/-- A core sends a request, or has it wait while the network drains (R334). -/
def State.request (s : State) (c : Nat) (w : Req) : State :=
  { s with
    nextTag := s.nextTag + 1
    outstanding := s.outstanding ++ [{ tag := s.nextTag, core := c, what := w, sent := s.draining.isNone, sentAt := s.cycle, retries := 0,
                                       lost := false, marked := false, spoils := [], result := none }] }

/-- A request of a core whose reply is awaited. -/
def State.asked (s : State) (c : Nat) (w : Req) : List Outstanding := s.outstanding.filter (fun o => o.core == c && o.what == w)

/-- Whether no reply of a request can have come: it is not sent, or a packet of it is lost (R334, R335). -/
def State.unanswered (s : State) (c : Nat) (w : Req) : Bool := (s.asked c w).any (fun o => !o.sent || o.lost)

/-- Whether the reply of a request carries a marked payload flit (R335). -/
def State.replyMarked (s : State) (c : Nat) (w : Req) : Bool := (s.asked c w).any (·.marked)

/-- The lines whose data a request carries in marked payload flits (R335). -/
def State.spoilsOf (s : State) (c : Nat) (w : Req) : List Nat := (s.asked c w).flatMap (·.spoils)

/-- What its home has recorded of a request that it has performed and whose reply was lost (R274). -/
def State.recorded (s : State) (c : Nat) (w : Req) : Option (List Byte) := (s.asked c w).findSome? (·.result)

/-- The reply of a request has been taken. -/
def State.answer (s : State) (c : Nat) (w : Req) : State := { s with outstanding := s.outstanding.filter (fun o => !(o.core == c && o.what == w)) }

/-- The home of a request records its result (R274). -/
def State.record (s : State) (c : Nat) (w : Req) (bs : List Byte) : State :=
  { s with outstanding := s.outstanding.map (fun o => if o.core = c ∧ o.what = w then { o with result := some bs } else o) }

/-- A request leaves its core, once more or after a drain: a full/empty operation comes to its lines anew (R128). -/
def State.leaves (s : State) (o : Outstanding) : State :=
  match o.what with
  | .access id =>
    if (s.core o.core).fe.any (fun r => r.id == id) then
      ({ s with feOrder := s.feOrder + 1 } : State).modCore o.core (fun k => { k with fe := k.fe.map (fun r => { r with order := s.feOrder, at_ := s.cycle }) })
    else s
  | _ => s

end Sys2Proof.Machine
end

