-- ==== Sys2Proof/Machine/Num.lean ====
section
/-! DEFINITION. Number formats and arithmetic (R139 to R161): codes, exact values, the one rounding function, absent operands and numeric
events. A lane is a natural number below 2 to its width in bits; an event is the number of its class (R161). -/

namespace Sys2Proof.Machine

/-- Event classes (R161). -/
def evINV : Nat := 0
def evOVF : Nat := 1
def evUNF : Nat := 2
def evDZE : Nat := 3
def evSAT : Nat := 4
def evNXA : Nat := 5

/-- A floating format: exponent and fraction widths, and whether it has infinities (R141). -/
structure FFmt where
  eb : Nat
  fb : Nat
  inf : Bool
  deriving DecidableEq, Repr

/-- The bias of a floating format (R141). -/
def FFmt.bias (f : FFmt) : Nat := 2 ^ (f.eb - 1) - 1

/-- What a TYPE code denotes (R79, R141 to R148). -/
inductive Kind where
  | fl (f : FFmt)
  | int (w : Nat)
  | pp8
  | fx
  | raw
  deriving DecidableEq, Repr

/-- The kind of a TYPE code (R79). -/
def kindOfType (ty : BitVec 4) : Kind :=
  match ty.toNat with
  | 0 => .fl ⟨8, 23, true⟩
  | 1 => .fl ⟨8, 7, true⟩
  | 2 => .fl ⟨5, 10, true⟩
  | 3 => .fl ⟨4, 3, false⟩
  | 4 => .fl ⟨5, 2, true⟩
  | 5 => .int 8
  | 6 => .int 16
  | 7 => .int 32
  | 8 => .pp8
  | 13 => .fx
  | 14 => .fl ⟨15, 112, true⟩
  | _ => .raw

/-- The width of a TYPE code in bytes (R79). -/
def typeWidth (ty : BitVec 4) : Nat :=
  match ty.toNat with
  | 0 | 7 | 11 => 4
  | 1 | 2 | 6 | 10 => 2
  | 12 => 8
  | 13 | 14 => 16
  | _ => 1

/-- The exact value of a lane: absent, NaN, an infinity, or a magnitude m × 2^e with a sign. `more` says that the exact magnitude exceeds
m × 2^e by less than 2^e: it stands for the digits of a quotient or a root that m leaves out. -/
inductive Val where
  | absent
  | nan
  | inf (neg : Bool)
  | fin (neg : Bool) (m : Nat) (e : Int) (more : Bool)
  deriving DecidableEq, Repr

/-- Zero. -/
def Val.zero : Val := .fin false 0 0 false

/-- An integer times 2^e. -/
def Val.ofInt (n : Int) (e : Int) : Val := .fin (n < 0) n.natAbs e false

/-- m × 2^e as a signed integer. -/
def signedMag (neg : Bool) (m : Nat) : Int := if neg then -(m : Int) else m

/-- The magnitude in units of 2^-6 of a PP8 nibble (R145), with its sign; none for the absent marker. -/
def nibble (n : Nat) : Option Int :=
  if n = 15 then none
  else if n % 8 = 7 then some 0
  else some (if n / 8 = 1 then -((2 ^ (6 - n % 8) : Nat) : Int) else ((2 ^ (6 - n % 8) : Nat) : Int))

/-- The value of a code (R139 to R148). -/
def decodeVal (k : Kind) (code : Nat) : Val :=
  match k with
  | .fl f =>
    let s := code / 2 ^ (f.eb + f.fb) % 2 = 1
    let E := code / 2 ^ f.fb % 2 ^ f.eb
    let F := code % 2 ^ f.fb
    if s ∧ E = 0 ∧ F = 0 then .absent
    else if E = 2 ^ f.eb - 1 ∧ f.inf then (if F = 0 then .inf s else .nan)
    else if E = 2 ^ f.eb - 1 ∧ F = 2 ^ f.fb - 1 then .nan
    else if E = 0 then .fin s F (1 - (f.bias : Int) - f.fb) false
    else .fin s (F + 2 ^ f.fb) ((E : Int) - f.bias - f.fb) false
  | .int w =>
    if code = 2 ^ (w - 1) then .absent
    else if code < 2 ^ (w - 1) then .ofInt code 0
    else .ofInt ((code : Int) - (2 ^ w : Nat)) 0
  | .pp8 =>
    match nibble (code / 16), nibble (code % 16) with
    | some a, some b => .ofInt (a + b) (-6)
    | _, _ => .absent
  | .fx =>
    if code = 2 ^ 127 then .absent
    else if code < 2 ^ 127 then .ofInt code (-48)
    else .ofInt ((code : Int) - (2 ^ 128 : Nat)) (-48)
  | .raw => .ofInt code 0

/-- The absent code a device writes (R139, R142, R143, R145, R148); 0 for a raw type, as GATH needs (R243). -/
def absentCode (k : Kind) (_w : Nat := 0) : Nat :=
  match k with
  | .fl f => 2 ^ (f.eb + f.fb)
  | .int w => 2 ^ (w - 1)
  | .pp8 => 0xFF
  | .fx => 2 ^ 127
  | .raw => 0

/-- The written NaN (R140, R142); +0 where the format has none (R154). -/
def nanCode (k : Kind) : Nat :=
  match k with
  | .fl f => if f.inf then (2 ^ f.eb - 1) * 2 ^ f.fb + 2 ^ (f.fb - 1) else 2 ^ (f.eb + f.fb) - 1
  | .pp8 => 0x77
  | _ => 0

/-- The code of +0 (R142, R146). -/
def zeroCode (k : Kind) : Nat :=
  match k with
  | .pp8 => 0x77
  | _ => 0

/-- The code of an infinity of a floating format (R142). -/
def infCode (f : FFmt) (neg : Bool) : Nat :=
  (if neg then 2 ^ (f.eb + f.fb) else 0) + (2 ^ f.eb - 1) * 2 ^ f.fb

/-- Two's complement of a signed value in w bits. -/
def twos (w : Nat) (neg : Bool) (m : Nat) : Nat := if neg then (2 ^ w - m) % 2 ^ w else m % 2 ^ w

/-- How the digits below a grid point compare with nothing and with half a step. -/
inductive Rest where
  | none | below | half | above
  deriving DecidableEq, Repr

/-- Whether a magnitude between grid points q and q+1 rounds up, under the modes 0 to 4 of R153 and two more: 5 toward zero, 6 away from
zero (the neighbours of R182). -/
def roundsUp (mode : Nat) (neg : Bool) (odd : Bool) (p : Rest) : Bool :=
  match p with
  | .none => false
  | _ =>
    match mode with
    | 0 => p == .above || (p == .half && odd)
    | 2 => !neg
    | 3 => neg
    | 4 => p == .above || p == .half
    | 6 => true
    | _ => false

/-- A magnitude m × 2^e (and more) on the grid of step 2^g: the grid point at or below it, and what is left. -/
def onGrid (m : Nat) (e : Int) (more : Bool) (g : Int) : Nat × Rest :=
  if g ≤ e then (m * 2 ^ (e - g).toNat, if more then .below else .none)
  else
    let sh := (g - e).toNat
    let q := m / 2 ^ sh
    let r := m % 2 ^ sh
    let half := 2 ^ (sh - 1)
    (q, if r = 0 then (if more then .below else .none)
        else if r < half then .below
        else if r = half then (if more then .above else .half)
        else .above)

/-- The magnitudes of PP8 in units of 2^-6, rising (R145). -/
def pp8Grid : List Nat :=
  [0, 1, 2, 3, 4, 5, 6, 7, 8, 9, 10, 12, 14, 15, 16, 17, 18, 20, 24, 28, 30, 31, 32, 33, 34, 36, 40, 48, 56, 60, 62, 63, 64, 65, 66, 68,
   72, 80, 96, 128]

/-- The number of non-zero terms of a PP8 magnitude (R145, R153). -/
def pp8Terms (k : Nat) : Nat :=
  if k = 0 then 0 else if [1, 2, 4, 8, 16, 32, 64].contains k then 1 else 2

/-- The pairs of shifts with a ≤ b. -/
def pp8Pairs : List (Nat × Nat) :=
  (List.range 7).flatMap (fun a => (List.range 7).filterMap (fun b => if a ≤ b then some (a, b) else none))

/-- A PP8 nibble (R145). -/
def pp8Nibble (neg : Bool) (e : Nat) : Nat := (if neg then 8 else 0) + e

/-- The canonical PP8 code of a magnitude of the grid with a sign (R146). -/
def pp8Code (neg : Bool) (k : Nat) : Nat :=
  if k = 0 then 0x77
  else match (List.range 7).find? (fun a => 2 ^ (6 - a) == k) with
    | some a => 16 * pp8Nibble neg a + 7
    | none =>
      match pp8Pairs.find? (fun p => 2 ^ (6 - p.1) + 2 ^ (6 - p.2) == k) with
      | some p => 16 * pp8Nibble neg p.1 + pp8Nibble neg p.2
      | none =>
        match pp8Pairs.find? (fun p => 2 ^ (6 - p.1) == k + 2 ^ (6 - p.2)) with
        | some p => 16 * pp8Nibble neg p.1 + pp8Nibble (!neg) p.2
        | none => 0x77

/-- The greatest PP8 magnitude at or below x, and the least above it. -/
def pp8Around (x : Nat) : Nat × Nat :=
  ((pp8Grid.filter (· ≤ x)).foldl max 0, ((pp8Grid.filter (x < ·)).head?).getD 129)

/-- Rounds a magnitude onto the PP8 grid without upper bound (R153): the result in units of 2^-6, and whether it is exact. The nearest modes follow
the grid also where R153's example of 2.01 does not (log entry 66, the model's choice). -/
def roundPp8 (mode : Nat) (neg : Bool) (m : Nat) (e : Int) (more : Bool) : Nat × Bool :=
  let (x, px) := onGrid m e more (-6)
  if 128 ≤ x then
    let up := roundsUp mode neg (x % 2 == 1) px
    (if up then x + 1 else x, px == .none)
  else
    let (lo, hi) := pp8Around x
    let (y, py) := onGrid m e more (-7)
    if px == .none && x == lo then (lo, true)
    else
      let p : Rest := if y < lo + hi then .below else if y = lo + hi ∧ py = .none then .half else .above
      let loWins := pp8Terms lo ≤ pp8Terms hi
      (if roundsUp mode neg (!loWins) p then hi else lo, false)

/-- `round` of R154: the code and the event of a value in a format under a mode and a saturate bit. -/
def roundVal (v : Val) (k : Kind) (mode : Nat) (sat : Bool) : Nat × List Nat :=
  match v with
  | .absent => (absentCode k, [])
  | .nan =>
    match k with
    | .fl _ => (nanCode k, [])
    | _ => (zeroCode k, [evINV])
  | .inf neg =>
    let ev := if sat then [evSAT] else [evOVF]
    match k with
    | .fl f =>
      if f.inf then (infCode f neg, [])
      else if sat then ((if neg then 2 ^ (f.eb + f.fb) else 0) + 2 ^ (f.eb + f.fb) - 2, ev)
      else (nanCode k, ev)
    | .int w => (twos w neg (2 ^ (w - 1) - 1), ev)
    | .pp8 => (pp8Code neg 128, ev)
    | .fx => (twos 128 neg (2 ^ 127 - 1), ev)
    | .raw => (0, [])
  | .fin neg m e more =>
    let ev := if sat then [evSAT] else [evOVF]
    match k with
    | .fl f =>
      if m = 0 then (0, [])
      else
        let lg : Int := (Nat.log2 m : Int) + e
        let emin : Int := 1 - (f.bias : Int)
        let g : Int := max (lg - f.fb) (emin - f.fb)
        let (q0, p) := onGrid m e more g
        let q1 := if roundsUp mode neg (q0 % 2 == 1) p then q0 + 1 else q0
        let (q, g) := if q1 = 2 ^ (f.fb + 1) then (2 ^ f.fb, g + 1) else (q1, g)
        let maxg : Int := (if f.inf then (2 ^ f.eb - 2 : Nat) else (2 ^ f.eb - 1 : Nat)) - (f.bias : Int) - f.fb
        let maxq := if f.inf then 2 ^ (f.fb + 1) - 1 else 2 ^ (f.fb + 1) - 2
        let sgn := if neg then 2 ^ (f.eb + f.fb) else 0
        if maxg < g ∨ (g = maxg ∧ maxq < q) then
          if sat then (sgn + (maxg + f.bias + f.fb).toNat * 2 ^ f.fb + (maxq - 2 ^ f.fb), ev)
          else if f.inf then (infCode f neg, ev)
          else (nanCode k, ev)
        else
          let unf := if p ≠ .none ∧ lg < emin then [evUNF] else []
          if q = 0 then (0, unf)
          else if q < 2 ^ f.fb then (sgn + q, unf)
          else (sgn + (g + f.bias + f.fb).toNat * 2 ^ f.fb + (q - 2 ^ f.fb), unf)
    | .int w =>
      let (q0, p) := onGrid m e more 0
      let q := if roundsUp mode neg (q0 % 2 == 1) p then q0 + 1 else q0
      if 2 ^ (w - 1) - 1 < q then (twos w neg (2 ^ (w - 1) - 1), ev)
      else (twos w neg q, if p ≠ .none ∧ q0 = 0 then [evUNF] else [])
    | .pp8 =>
      let (q, exact) := roundPp8 mode neg m e more
      if 128 < q then (pp8Code neg 128, ev)
      else (pp8Code neg q, if !exact && (onGrid m e more (-6)).1 == 0 then [evUNF] else [])
    | .fx =>
      let (q0, p) := onGrid m e more (-48)
      let q := if roundsUp mode neg (q0 % 2 == 1) p then q0 + 1 else q0
      if 2 ^ 127 - 1 < q then (twos 128 neg (2 ^ 127 - 1), ev)
      else (twos 128 neg q, if p ≠ .none ∧ q0 = 0 then [evUNF] else [])
    | .raw => (0, [])

/-! Exact operations on values that are not absent. -/

/-- −a. -/
def Val.neg : Val → Val
  | .inf n => .inf (!n)
  | .fin n m e r => .fin (!n) m e r
  | v => v

/-- |a|. -/
def Val.abs : Val → Val
  | .inf _ => .inf false
  | .fin _ m e r => .fin false m e r
  | v => v

/-- a + b, exactly (R155). -/
def addVal : Val → Val → Val × List Nat
  | .nan, _ => (.nan, [])
  | _, .nan => (.nan, [])
  | .inf a, .inf b => if a = b then (.inf a, []) else (.nan, [evINV])
  | .inf a, _ => (.inf a, [])
  | _, .inf b => (.inf b, [])
  | .fin a m e _, .fin b n f _ =>
    let g := min e f
    (.ofInt (signedMag a (m * 2 ^ (e - g).toNat) + signedMag b (n * 2 ^ (f - g).toNat)) g, [])
  | .absent, v => (v, [])
  | v, .absent => (v, [])

/-- a × b, exactly (R155). -/
def mulVal : Val → Val → Val × List Nat
  | .nan, _ => (.nan, [])
  | _, .nan => (.nan, [])
  | .inf a, .inf b => (.inf (a != b), [])
  | .inf a, .fin b n _ _ => if n = 0 then (.nan, [evINV]) else (.inf (a != b), [])
  | .fin a m _ _, .inf b => if m = 0 then (.nan, [evINV]) else (.inf (a != b), [])
  | .fin a m e _, .fin b n f _ => (.fin (a != b) (m * n) (e + f) false, [])
  | .absent, v => (v, [])
  | v, .absent => (v, [])

/-- The order of two values that are neither absent nor NaN. -/
def cmpVal : Val → Val → Ordering
  | .inf a, .inf b => if a = b then .eq else if a then .lt else .gt
  | .inf a, _ => if a then .lt else .gt
  | _, .inf b => if b then .gt else .lt
  | .fin a m e _, .fin b n f _ =>
    let g := min e f
    compare (signedMag a (m * 2 ^ (e - g).toNat)) (signedMag b (n * 2 ^ (f - g).toNat))
  | _, _ => .eq

/-- v ÷ n for a positive count, with the digits a quotient of 300 bits leaves out marked (R152). -/
def divNat (v : Val) (n : Nat) : Val :=
  match v with
  | .fin s m e _ =>
    let M := m * 2 ^ 300
    .fin s (M / n) (e - 300) (M % n != 0)
  | v => v

/-! Lane operations with absent operands (R157). -/

/-- The dyadic element-wise operations (R181). -/
inductive Dyad where
  | add | sub | mul | min | max
  deriving DecidableEq, Repr

/-- The exact result of a dyadic operation and its events before rounding (R155, R157). -/
def dyadVal (o : Dyad) (a b : Val) : Val × List Nat :=
  match a, b with
  | .absent, .absent => (.absent, [evNXA])
  | .absent, b => (if o = .sub then b.neg else b, [])
  | a, .absent => (a, [])
  | a, b =>
    match o with
    | .add => addVal a b
    | .sub => addVal a b.neg
    | .mul => mulVal a b
    | .min => if a = .nan ∨ b = .nan then (.nan, []) else (if cmpVal b a = .lt then b else a, [])
    | .max => if a = .nan ∨ b = .nan then (.nan, []) else (if cmpVal a b = .lt then b else a, [])

/-- The exact result of a × b + c, or a × b − c when `sub` (R155, R157). A NaN addend gives NaN with no event, also of 0 × ∞: the first row of
R155 (log entry 66, the model's choice). -/
def fmaVal (sub : Bool) (a b c : Val) : Val × List Nat :=
  let c' := if sub then c.neg else c
  match a, b with
  | .absent, _ | _, .absent =>
    match c with
    | .absent => (.absent, [evNXA])
    | _ => (c, [])
  | a, b =>
    let (p, ev) := mulVal a b
    match c with
    | .absent => (p, ev)
    | .nan => (.nan, [])
    | _ => let (r, ev') := addVal p c'; (r, ev ++ ev')

/-- A value rounded, with the events of its computation. -/
def finish (r : Val × List Nat) (k : Kind) (mode : Nat) (sat : Bool) : Nat × List Nat :=
  let (c, ev) := roundVal r.1 k mode sat
  (c, r.2 ++ ev)

/-- A dyadic operation on codes of one format (R181). -/
def dyadCode (o : Dyad) (k : Kind) (mode : Nat) (sat : Bool) (a b : Nat) : Nat × List Nat :=
  finish (dyadVal o (decodeVal k a) (decodeVal k b)) k mode sat

/-- FMA and FMS on codes of one format (R181). -/
def fmaCode (sub : Bool) (k : Kind) (mode : Nat) (sat : Bool) (a b d : Nat) : Nat × List Nat :=
  finish (fmaVal sub (decodeVal k a) (decodeVal k b) (decodeVal k d)) k mode sat

/-- A conversion between formats (R159). -/
def convertCode (k k' : Kind) (mode : Nat) (sat : Bool) (a : Nat) : Nat × List Nat :=
  roundVal (decodeVal k a) k' mode sat

/-- The conditions of a compare (R94). -/
def condHolds (cond : Nat) (o : Ordering) : Bool :=
  match cond with
  | 0 => o == .eq
  | 1 => o != .eq
  | 2 => o == .lt
  | 3 => o != .gt
  | 4 => o == .gt
  | 5 => o != .lt
  | _ => false

/-- A typed compare (R158). -/
def compareCode (cond : Nat) (k : Kind) (a b : Nat) : Bool × List Nat :=
  match decodeVal k a, decodeVal k b with
  | .absent, _ => (false, [])
  | _, .absent => (false, [])
  | .nan, _ | _, .nan =>
    if cond = 0 then (false, []) else if cond = 1 then (true, []) else (false, [evINV])
  | a, b => (condHolds cond (cmpVal a b), [])

/-- Whether a code is absent (R139, R143, R145). -/
def isAbsent (k : Kind) (code : Nat) : Bool := k != .raw && decodeVal k code == .absent

end Sys2Proof.Machine
end

