-- ==== Sys2Proof/Machine/Operands.lean ====
section
/-! DEFINITION. Operand forms: the scalar operand codes of X and A (R73 to R75, R97, R107), immediates (R83), renaming through rotation
bases (R56), and the row descriptors of V and of row transfers (R76 to R78, R125). -/

namespace Sys2Proof.Machine

/-! Rotation (R56). -/

/-- The innermost rotating level of a strand, whose bases rename (R56). -/
def StrandSt.rotating (t : StrandSt) : Option Level := t.loops.find? (·.rot)

/-- The physical g register of a name. -/
def physG (t : StrandSt) (n : Nat) : Nat :=
  match t.rotating with
  | some l => if 24 ≤ n then 24 + (n - 24 + l.gBase) % 8 else n
  | none => n

/-- The physical a register of a name. -/
def physA (t : StrandSt) (n : Nat) : Nat :=
  match t.rotating with
  | some l => if 12 ≤ n then 12 + (n - 12 + l.aBase) % 4 else n
  | none => n

/-- The physical tile register of a name under a demand D: t8 to t(D − 1) rotate when D > 8. -/
def physT (t : StrandSt) (demand n : Nat) : Nat :=
  match t.rotating with
  | some l => if 8 ≤ n ∧ n < demand then 8 + (n - 8 + l.tBase) % (demand - 8) else n
  | none => n

/-! X operands. -/

/-- g by physical number. -/
def CoreSt.gAt (k : CoreSt) (n : Nat) : Word := if h : n < 32 then k.g[n] else 0

/-- Sets g by physical number. -/
def CoreSt.setG (k : CoreSt) (n : Nat) (v : Word) : CoreSt := if h : n < 32 then { k with g := k.g.set n v h } else k

/-- A source code of R73. -/
def xSrcOk (c : BitVec 6) : Bool := c.toNat ≤ 56 || c.toNat == 60

/-- A destination code of R73. -/
def xDstOk (c : BitVec 6) : Bool := c.toNat ≤ 31 || (56 ≤ c.toNat && c.toNat ≤ 59)

/-- A pair code of R75: an even g code or zero. -/
def xPairOk (c : BitVec 6) : Bool := (c.toNat ≤ 30 && c.toNat % 2 == 0) || c.toNat == 56

/-- Reads a source of X (R73, R97): a pop takes its entry, a peek leaves it; both stall while none is there. -/
def readX (k : CoreSt) (c : BitVec 6) : Try (Word × CoreSt) :=
  let n := c.toNat
  if n < 32 then .ok (k.gAt (physG k.x n), k)
  else if h : n < 36 then
    match k.ax[n - 32]'(by omega) with
    | some v :: r => .ok (v, { k with ax := k.ax.set (n - 32) r (by omega) })
    | _ => .error .stall
  else if h : n < 40 then
    match k.ax[n - 36]'(by omega) with
    | some v :: _ => .ok (v, k)
    | _ => .error .stall
  else if h : n < 56 then .ok ((k.k[n - 40]'(by omega)).setWidth 32, k)
  else if n = 56 then .ok (0, k)
  else if n = 60 then
    match k.vx with
    | v :: r => .ok (v, { k with vx := r })
    | [] => .error .stall
  else .error (.ill .operand)

/-- Writes a destination of X (R73, R97): a push stalls while its queue is full. -/
def writeX (k : CoreSt) (c : BitVec 6) (v : Word) : Try CoreSt :=
  let n := c.toNat
  if n < 32 then .ok (k.setG (physG k.x n) v)
  else if n = 56 then .ok k
  else if h : 57 ≤ n ∧ n ≤ 58 then
    let q := k.xa[n - 57]'(by omega)
    if q.length < 16 then .ok { k with xa := k.xa.set (n - 57) (q ++ [v]) (by omega) } else .error .stall
  else if n = 59 then (if k.xv.length < 8 then .ok { k with xv := k.xv ++ [v] } else .error .stall)
  else .error (.ill .operand)

/-- Reads a pair operand (R75, R107): each half is renamed on its own (R56). -/
def readPair (k : CoreSt) (c : BitVec 6) : Dword :=
  let n := c.toNat
  if n = 56 then 0 else k.gAt (physG k.x (n + 1)) ++ k.gAt (physG k.x n)

/-- Writes a pair operand; zero discards (R75, R107). -/
def writePair (k : CoreSt) (c : BitVec 6) (v : Dword) : CoreSt :=
  let n := c.toNat
  if n = 56 then k else (k.setG (physG k.x n) (v.setWidth 32)).setG (physG k.x (n + 1)) (v.extractLsb' 32 32)

/-! Accesses of A. -/

/-- The bytes that an access moves. -/
def AccessOp.size : AccessOp → Nat
  | .load b _ _ => b
  | .store b _ => b
  | .loadRow _ => 256
  | .storeRow _ => 256

/-- Whether an access writes memory. -/
def AccessOp.writes : AccessOp → Bool
  | .store _ _ => true
  | .storeRow _ => true
  | _ => false

/-- The bytes of each place of an access, the first at `done` places on (R123, R257): a row has two lines, an unaligned access one per byte. -/
def Access.placeSize (a : Access) : Nat :=
  match a.op with
  | .loadRow _ => 128
  | .storeRow _ => 128
  | op => if a.ea.toNat % op.size = 0 then op.size else 1

/-- The number of places of an access. -/
def Access.places (a : Access) : Nat := a.op.size / a.placeSize

/-- Whether all places of an access have been taken. -/
def Access.performed (a : Access) : Bool := a.places ≤ a.done

/-- The accesses of A that have been issued are performed (R58, R127, R234): some may still have to signal. -/
def CoreSt.allPerformed (k : CoreSt) : Bool := k.aq.all Access.performed

/-! A operands. -/

/-- a by physical number. -/
def CoreSt.aAt (k : CoreSt) (n : Nat) : Dword := if h : n < 16 then k.ar[n] else 0

/-- Sets a by physical number. -/
def CoreSt.setA (k : CoreSt) (n : Nat) (v : Dword) : CoreSt := if h : n < 16 then { k with ar := k.ar.set n v h } else k

/-- k by number. -/
def CoreSt.kAt (k : CoreSt) (n : Nat) : Dword := if h : n < 16 then k.k[n] else 0

/-- Whether a load that has not delivered writes a physical a register (R99). -/
def CoreSt.aBusy (k : CoreSt) (n : Nat) : Bool :=
  k.aq.any (fun x => match x.op with
    | .load _ _ (.reg i) => i.toNat == n
    | _ => false)

/-- A source code of R74. -/
def aSrcOk (c : BitVec 6) : Bool := c.toNat ≤ 34

/-- A destination code of R74. -/
def aDstOk (c : BitVec 6) : Bool := c.toNat ≤ 15 || (34 ≤ c.toNat && c.toNat ≤ 38)

/-- Codes 0 to 31 or 34: a register, a constant or zero. -/
def aRegOk (c : BitVec 6) : Bool := c.toNat ≤ 31 || c.toNat == 34

/-- Reads a source of A (R74, R97); a register that a load has still to write stalls (R99). -/
def readA (k : CoreSt) (c : BitVec 6) : Try (Dword × CoreSt) :=
  let n := c.toNat
  if n < 16 then (if k.aBusy (physA k.a n) then .error .stall else .ok (k.aAt (physA k.a n), k))
  else if n < 32 then .ok (k.kAt (n - 16), k)
  else if h : n < 34 then
    match k.xa[n - 32]'(by omega) with
    | v :: r => .ok (v.setWidth 64, { k with xa := k.xa.set (n - 32) r (by omega) })
    | [] => .error .stall
  else if n = 34 then .ok (0, k)
  else .error (.ill .operand)

/-- Room for `n` more entries in an ax queue, reserved entries counted (R75, R108). -/
def CoreSt.axRoom (k : CoreSt) (q : Nat) (n : Nat) : Bool := if h : q < 4 then k.ax[q].length + n ≤ 16 else false

/-- Pushes entries into an ax queue; `none` reserves one. -/
def CoreSt.axPush (k : CoreSt) (q : Nat) (l : List (Option Word)) : CoreSt :=
  if h : q < 4 then { k with ax := k.ax.set q (k.ax[q] ++ l) h } else k

/-- Writes a destination of A (R74, R97): a push takes bits [31:0]. -/
def writeA (k : CoreSt) (c : BitVec 6) (v : Dword) : Try CoreSt :=
  let n := c.toNat
  if n < 16 then (if k.aBusy (physA k.a n) then .error .stall else .ok (k.setA (physA k.a n) v))
  else if n = 34 then .ok k
  else if 35 ≤ n ∧ n ≤ 38 then
    (if k.axRoom (n - 35) 1 then .ok (k.axPush (n - 35) [some (v.setWidth 32)]) else .error .stall)
  else .error (.ill .operand)

/-- Reads a 5-bit operand code of an FE word: a0 to a15, k0 to k15 (R71). -/
def readFE (k : CoreSt) (c : BitVec 5) : Try Dword := (readA k (c.setWidth 6)).map (·.1)

/-- The signed immediate of an F2I word, 28 bits wide under EXT (R83). -/
def simm (m : Mods) (imm : BitVec 8) : Int :=
  match m.ext with
  | some u => (u ++ imm).toInt
  | none => imm.toInt

/-! The rows of li queues, with their marks (R249, R335). -/

/-- The head row of an li queue goes. -/
def CoreSt.popLi (k : CoreSt) (i : Nat) : CoreSt :=
  { k with li := k.li.setIfInBounds i ((k.li.getD i []).drop 1), liBad := k.liBad.setIfInBounds i ((k.liBad.getD i []).drop 1) }

/-- Whether the head row of an li queue is marked uncorrectable. -/
def CoreSt.liMarked (k : CoreSt) (i : Nat) : Bool := (k.liBad.getD i []).headD false

/-- A row goes behind those of an li queue. -/
def CoreSt.pushLi (k : CoreSt) (i : Nat) (r : Row) (bad : Bool) : CoreSt :=
  let rows := k.li.getD i []
  let marks := k.liBad.getD i []
  { k with
    li := k.li.setIfInBounds i (rows ++ [r])
    liBad := if bad then k.liBad.setIfInBounds i (marks ++ List.replicate (rows.length - marks.length) false ++ [true]) else k.liBad }

/-! Row descriptors. -/

/-- What a row descriptor names, with its row counter read and its tile register physical (R76, R77). -/
inductive RowRef where
  | tile (reg row : Nat)
  | acc (c row : Nat)
  | oper (i : Nat)
  | tw (i : Nat)
  | li (i : Nat)
  | lo (i : Nat)
  | lr
  | xv
  | const (i : Nat)
  deriving DecidableEq, Repr

/-- LV, REG and ROWSPEC of a descriptor (R76). -/
abbrev dLv (d : BitVec 13) : Nat := (bits d 0 2).toNat
abbrev dReg (d : BitVec 13) : Nat := (bits d 2 4).toNat
abbrev dSpec (d : BitVec 13) : BitVec 7 := bits d 6 7

/-- Whether a ROWSPEC is the counter form, and its reserved bits (R76). -/
def specFault (r : BitVec 7) : Bool := r.getLsbD 6 && bits r 3 3 != 0

/-- The faults of a descriptor in a position (R77): a position marked no, a non-zero ROWSPEC where zero is required, a non-zero reserved
bit; a tile register at or above the demand (R30). The cause of a non-zero ROWSPEC or reserved bit is 10, that of an illegal descriptor, and not 8,
that of a reserved field (R72, R95; log entry 76, the model's choice). -/
def descFaults (demand : Nat) (dst : Bool) (d : BitVec 13) : List IllCause :=
  match dLv d with
  | 0 => fault? (specFault (dSpec d)) .operand ++ fault? (demand ≤ dReg d) .demand
  | 1 => fault? (specFault (dSpec d) || 1 < dReg d) .operand
  | 2 => fault? (dSpec d != 0) .operand
  | _ => fault? (dSpec d != 0 || dst) .operand

/-- The row that a ROWSPEC selects: immediate, or a row counter (R76). -/
def specRow (k : CoreSt) (r : BitVec 7) : Nat :=
  if r.getLsbD 6 then (k.rc.get (bits r 0 2).toFin).toNat else r.toNat % 64

/-- What a legal descriptor names (R77) for strand V. -/
def resolveRow (k : CoreSt) (dst : Bool) (d : BitVec 13) : RowRef :=
  match dLv d with
  | 0 => .tile (physT k.v k.demand (dReg d)) (specRow k (dSpec d))
  | 1 => .acc (dReg d % 2) (specRow k (dSpec d))
  | 2 =>
    if dReg d < 8 then .oper (dReg d)
    else if dReg d < 12 then .tw (dReg d - 8)
    else if dst then .lo (dReg d - 12) else .li (dReg d - 12)
  | _ => if dReg d = 0 then .lr else if dReg d = 1 then .xv else .const (dReg d)

/-- The row counter that a descriptor raises, if it names one with post-increment (R76, R78). -/
def postInc (d : BitVec 13) : Option (BitVec 2) :=
  if dLv d < 2 ∧ (dSpec d).getLsbD 6 ∧ (dSpec d).getLsbD 2 then some (bits (dSpec d) 0 2) else none

/-- Raises a row counter by one; 63 wraps to 0 (R78). -/
def CoreSt.bumpRc (k : CoreSt) (i : BitVec 2) : CoreSt := { k with rc := k.rc.set i.toNat (k.rc.get i.toFin + 1) i.isLt }

/-- Raises every row counter that a list of descriptors names with post-increment, once each (R78). -/
def bumpAll (k : CoreSt) (ds : List (BitVec 13)) : CoreSt := (([0, 1, 2, 3] : List (BitVec 2)).filter (fun i => ds.any (fun d => postInc d == some i))).foldl CoreSt.bumpRc k

/-- The faults of a descriptor of a row transfer (R125): a tile row in immediate form, or o0 to o7 with ROWSPEC zero. -/
def xferFaults (demand : Nat) (d : BitVec 13) : List IllCause :=
  match dLv d with
  | 0 => fault? ((dSpec d).getLsbD 6) .operand ++ fault? (demand ≤ dReg d) .demand
  | 2 => fault? (7 < dReg d || dSpec d != 0) .operand
  | _ => [.operand]

/-- The row of a legal row transfer, renamed for A (R56, R125). -/
def xferRow (k : CoreSt) (d : BitVec 13) : RowName :=
  if dLv d = 0 then .tile (physT k.a k.demand (dReg d)) ((dSpec d).toNat % 64) else .operand (dReg d % 8)

/-! Tile rows, operand rows and accumulator rows. -/

/-- A row by name. -/
def CoreSt.row (k : CoreSt) : RowName → Row
  | .tile r i => tget 0 k.tile (r * 64 + i)
  | .operand i => if h : i < 8 then k.o[i] else 0

/-- Writes a row by name. -/
def CoreSt.setRow (k : CoreSt) (n : RowName) (v : Row) : CoreSt :=
  match n with
  | .tile r i => { k with tile := tset k.tile (r * 64 + i) v }
  | .operand i => if h : i < 8 then { k with o := k.o.set i v h } else k

/-- Whether a row has a writer in flight (R126). -/
def CoreSt.rowBusy (k : CoreSt) (n : RowName) : Bool := k.busy.any (fun b => b.row == n)

/-- Marks a row busy for a writer. -/
def CoreSt.setBusy (k : CoreSt) (n : RowName) (owner : Nat) : CoreSt := { k with busy := k.busy ++ [{ row := n, owner := owner }] }

/-- Clears the busy mark of a row and a writer. -/
def CoreSt.clearBusy (k : CoreSt) (n : RowName) (owner : Nat) : CoreSt :=
  { k with busy := k.busy.filter (fun b => !(b.row == n && b.owner == owner)) }

/-- An accumulator row of 64 elements at value 0 and count 0 (R28). -/
def AccRow.reset : AccRow := { vals := 0, cnts := 0 }

/-- A row of accumulator c. -/
def CoreSt.accRow (k : CoreSt) (c r : Nat) : AccRow := tget AccRow.reset k.acc (c * 64 + r)

/-- Writes a row of accumulator c. -/
def CoreSt.setAccRow (k : CoreSt) (c r : Nat) (v : AccRow) : CoreSt := { k with acc := tset k.acc (c * 64 + r) v }

/-- The value of an element of an accumulator row. -/
def AccRow.val (a : AccRow) (j : Nat) : Nat := a.vals.toNat / 2 ^ (128 * j) % 2 ^ 128

/-- The count of an element of an accumulator row. -/
def AccRow.cnt (a : AccRow) (j : Nat) : Nat := a.cnts.toNat / 2 ^ (32 * j) % 2 ^ 32

/-- A number whose digits to the base 2^w are the given ones, least first. -/
def packNat (w : Nat) : List Nat → Nat
  | [] => 0
  | x :: r => x % 2 ^ w + 2 ^ w * packNat w r

/-- An accumulator row of given values and counts. -/
def AccRow.ofLists (vals cnts : List Nat) : AccRow :=
  { vals := BitVec.ofNat 8192 (packNat 128 vals), cnts := BitVec.ofNat 2048 (packNat 32 cnts) }

/-- The lanes of w bytes of a row, lane 0 first, n of them from lane `start`. -/
def lanesOf (r : Row) (w start n : Nat) : List Nat :=
  (List.range n).map (fun i => r.toNat / 2 ^ (8 * w * (start + i)) % 2 ^ (8 * w))

/-- A row whose lanes of w bytes from lane `start` on are given, the others those of `old`. -/
def putLanes (old : Row) (w start : Nat) (l : List Nat) : Row :=
  let lo := 8 * w * start
  let n := 8 * w * l.length
  BitVec.ofNat 2048 (old.toNat % 2 ^ lo + 2 ^ lo * packNat (8 * w) l + 2 ^ (lo + n) * (old.toNat / 2 ^ (lo + n)))

end Sys2Proof.Machine
end

