-- ==== Sys2Proof/Machine/Flags.lean ====
section
/-! DEFINITION. The flags of the machine: predicates p4 to p7 and the conditions that set them (R55, R94, R100, R106), and the exact and
saturated results of scalar arithmetic (R98, R102, R104, R118). Scalar instructions count no numeric event (R98). -/

namespace Sys2Proof.Machine

/-- A predicate of a strand. -/
def StrandSt.pAt (t : StrandSt) (n : Nat) : Bool := if h : n < 8 then t.p[n] else false

/-- Sets a predicate of a strand. -/
def StrandSt.setP (t : StrandSt) (n : Nat) (b : Bool) : StrandSt := if h : n < 8 then { t with p := t.p.set n b h } else t

/-- The faults of the condition and the predicate of a compare: condition 7 is reserved (cause 9, R95); p0 to p3 are written only by loops
(cause 13, R55). -/
def cmpFaults (cond pred : BitVec 3) : List IllCause :=
  fault? (cond == 7) .reservedValue ++ fault? (pred.toNat < 4) .execModel

/-- A condition of R94 on two operands, signed or unsigned (R106). -/
def condOf {w : Nat} (unsigned : Bool) (cond : BitVec 3) (a b : BitVec w) : Bool :=
  let lt := if unsigned then a.ult b else a.slt b
  match cond.toNat with
  | 0 => a == b
  | 1 => a != b
  | 2 => lt
  | 3 => lt || a == b
  | 4 => !(lt || a == b)
  | 5 => !lt
  | 6 => a &&& b != 0
  | _ => false

/-- An exact result clamped to the signed range of w bits, or wrapped (R98, R102). -/
def clampTo (w : Nat) (sat : Bool) (v : Int) : BitVec w :=
  if sat then BitVec.ofInt w (max (-(2 ^ (w - 1) : Nat)) (min v ((2 ^ (w - 1) : Nat) - 1))) else BitVec.ofInt w v

/-- An exact result of A clamped to the virtual-address range, or wrapped (R98, R118). -/
def clampAddr (sat : Bool) (v : Int) : Dword :=
  if sat then BitVec.ofInt 64 (max 0 (min v ((2 ^ 56 : Nat) - 1))) else BitVec.ofInt 64 v

/-- SHL (R104): the exact product is clamped under saturation; counts at or above the width shift everything out. -/
def shlOf (w : Nat) (sat : Bool) (a : BitVec w) (n : Word) : BitVec w :=
  if sat then
    (if a = 0 then 0 else if w ≤ n.toNat then clampTo w true (a.toInt * (2 ^ w : Nat)) else clampTo w true (a.toInt * (2 ^ n.toNat : Nat)))
  else if w ≤ n.toNat then 0 else a <<< n.toNat

/-- SHR (R104). -/
def shrOf (w : Nat) (a : BitVec w) (n : Word) : BitVec w := if w ≤ n.toNat then 0 else a >>> n.toNat

/-- SRA (R104). -/
def sraOf (w : Nat) (a : BitVec w) (n : Word) : BitVec w :=
  if w ≤ n.toNat then (if a.msb then BitVec.allOnes w else 0) else a.sshiftRight n.toNat

/-- Leading zero bits (R101). -/
def clzOf (a : Word) : Word := if a = 0 then 32 else BitVec.ofNat 32 (31 - Nat.log2 a.toNat)

/-- One bits (R101). -/
def popcOf (a : Word) : Word := BitVec.ofNat 32 ((List.range 32).filter (fun i => a.getLsbD i)).length

end Sys2Proof.Machine
end

