-- ==== Sys2Proof/Machine/Fetch.lean ====
section
/-! DEFINITION. How a strand walks the text: the predecode of blocks (R68), prefix runs (R82), stage blocks and suppression (R52, R54), the
slip window (R43), and what a strand does at the word it stands at (R40, R69, R84, R95). -/

namespace Sys2Proof.Machine

/-- The class of a word in its block (R68); a patch word of another tag is broken with a cause of its own (R95). -/
inductive WordClass where
  | head (prefixed : Bool)
  | payload
  | modifier
  | broken (c : IllCause)
  deriving DecidableEq, Repr

/-- The parse of a block from a slot on (R68). -/
def parseBlock : Nat → Bool → List Word → List WordClass
  | _, _, [] => []
  | slot, pre, w :: r =>
    match (selOf w).toNat with
    | 0 => .head pre :: parseBlock (slot + 1) false r
    | 1 =>
      if slot = 7 then [.broken .brokenWord]
      else match r with
        | _ :: r' => .head pre :: .payload :: parseBlock (slot + 2) false r'
        | [] => [.broken .brokenWord]
    | 2 => if slot = 7 then [.broken .brokenWord] else .modifier :: parseBlock (slot + 1) true r
    | _ => (if tagOf w = 3 then .head pre else .broken .patchTag) :: parseBlock (slot + 1) false r

/-- A word of the text with its class. -/
abbrev Slot := Word × WordClass

/-- The index of the word at a text address (R276). -/
def CoreSt.textIdx (k : CoreSt) (pc : BitVec 32) : Nat := (pc - BitVec.ofNat 32 k.tbase).toNat / 4

/-- The text address of a word (R276). -/
def CoreSt.textAddr (k : CoreSt) (idx : Nat) : BitVec 32 := BitVec.ofNat 32 (k.tbase + 4 * idx)

/-- The block that holds a word, each word with its class (R68). -/
def CoreSt.block (k : CoreSt) (idx : Nat) : List Slot :=
  let ws := (k.text.drop (idx / 8 * 8)).take 8
  ws.zip (parseBlock 0 false ws)

/-- The word of an index with its class; none outside the text image. -/
def CoreSt.slot (k : CoreSt) (idx : Nat) : Option Slot := (k.block idx)[idx % 8]?

/-- `n` words of the text from an index on, each with its class. -/
def CoreSt.slots (k : CoreSt) (idx n : Nat) : List Slot := (List.range n).filterMap (fun i => k.slot (idx + i))

/-- Whether a landing on an address is a fault (R69): payload, a prefixed head, or outside the image. A broken word raises when it is
executed. -/
def CoreSt.badLanding (k : CoreSt) (pc : BitVec 32) : Bool :=
  match k.slot (k.textIdx pc) with
  | none => true
  | some (_, .payload) => true
  | some (_, .head pre) => pre
  | _ => false

/-! Loop bodies and stage blocks. -/

/-- Whether a slot holds an ALL head of an opcode and a selector. -/
def isAllHead (op : Nat) (sel : BitVec 2) (x : Slot) : Bool :=
  match x.2 with
  | .head _ => selOf x.1 == sel && tagOf x.1 == 7 && opOf x.1 == op
  | _ => false

/-- Whether a slot holds a LOOP (R51). -/
def isLoopHead (x : Slot) : Bool := isAllHead 0x01 1 x

/-- Whether a slot holds a STAGE marker (R54). -/
def isStageHead (x : Slot) : Bool := isAllHead 0x02 0 x

/-- The body length that a LOOP word holds (R51). -/
def klenOf (w : Word) : Nat := (bits w 12 14).toNat

/-- The static loop bodies of a text (R47): index of the first word and of the word past the last. -/
def CoreSt.bodies (k : CoreSt) : List (Nat × Nat) :=
  (List.range k.text.length).filterMap (fun i =>
    match k.slot i with
    | some x => if isLoopHead x then some (i + 2, i + 2 + klenOf x.1) else none
    | none => none)

/-- Whether an index lies in a body. -/
def inBody (i : Nat) (b : Nat × Nat) : Bool := decide (b.1 ≤ i) && decide (i < b.2)

/-- The innermost static body that holds an index: the shortest. -/
def CoreSt.innermost (k : CoreSt) (i : Nat) : Option (Nat × Nat) :=
  (k.bodies.filter (inBody i)).foldl (fun acc b =>
    match acc with
    | some a => if b.2 - b.1 < a.2 - a.1 then some b else some a
    | none => some b) none

/-- Whether a J or BR (a CALL when `call`) at an index may target an index (R47): from outside every body not into one; from inside a body,
unless it is a CALL, only within the innermost. -/
def CoreSt.branchOk (k : CoreSt) (call : Bool) (i t : Nat) : Bool :=
  match k.innermost i with
  | none => !(k.bodies.any (inBody t))
  | some b => call || inBody t b

/-- The stage block that holds the word `n` places on in the slots of a body, and whether that word is a marker of this body's own loop
(R54): bodies of inner loops are passed over, their markers with them. -/
def stageScan : List Slot → Nat → Nat → Option (BitVec 2) → Option (BitVec 2) × Bool
  | [], _, _, cur => (cur, false)
  | x :: r, n, ovr, cur =>
    let own := ovr == 0 && isStageHead x
    let cur' := if own then some (bits x.1 12 2) else cur
    match n with
    | 0 => (cur', own)
    | n + 1 => stageScan r n (if 0 < ovr then ovr - 1 else if isLoopHead x then klenOf x.1 + 1 else 0) cur'

/-- The stage block of an address in the body of a level, and whether the address holds a marker of that level's own loop. -/
def CoreSt.stageAt (k : CoreSt) (l : Level) (pc : BitVec 32) : Option (BitVec 2) × Bool :=
  let i := k.textIdx l.first
  let n := k.textIdx pc - i
  stageScan (k.slots i (n + 1)) n 0 none

/-- Whether an address lies in the body of a level. -/
def Level.holds (l : Level) (pc : BitVec 32) : Bool := l.first.ule pc && pc.ult l.last

/-- Whether a strand walks the word it stands at as suppressed (R52): in the body of a level that runs no iteration, or in a block of an
inactive stage, words reached by a CALL (R47) and markers of the loop's own excepted. -/
def CoreSt.suppressed (k : CoreSt) (t : StrandSt) : Bool :=
  match t.loops with
  | [] => false
  | l :: _ =>
    if t.ret.length ≠ l.retDepth || !l.holds t.pc then false
    else if l.dead then true
    else match k.stageAt l t.pc with
      | (_, true) => false
      | (none, _) => false
      | (some s, _) => !t.pAt s.toNat

/-! What a strand does at its word. -/

/-- The slip test (R43) for a group of `n` words. -/
def CoreSt.slipOk (k : CoreSt) (t : StrandSt) (n : Nat) : Bool :=
  let wmin := min (min k.x.walked k.a.walked) (min k.v.walked k.m.walked)
  t.walked + n - 1 - wmin < k.slipw

/-- What a strand does at the word it stands at. -/
inductive Walk where
  /-- the slip window is full -/
  | stall
  /-- the word is no instruction: the cause, and the address reported -/
  | ill (c : IllCause) (pc : BitVec 32)
  /-- some words are passed over -/
  | skip (n : Nat)
  /-- the head of the group after its prefixes -/
  | exec (i : Instr) (runPc head : BitVec 32) (words : Nat) (mods : Mods)
  deriving DecidableEq, Repr

/-- Whether a strand executes words of a tag; X raises on the reserved tags (R40). -/
def ownsTag (t : Strand) (tag : BitVec 3) : Bool :=
  match tag.toNat, t with
  | 0, .x | 1, .a | 2, .v | 3, .m | 7, _ | 4, .x | 5, .x | 6, .x => true
  | _, _ => false

/-- The prefixes at the head of a list of slots. -/
def prefixRun (l : List Slot) : List Word := (l.takeWhile (fun x => x.2 == .modifier)).map (·.1)

/-- The prefixes of one list of slots that stand directly before an index of it. -/
def prefixesBefore (l : List Slot) (i : Nat) : List Word := ((prefixRun (l.take i).reverse)).reverse

/-- A prefix that is malformed (R80), with its cause. -/
def malformed (w : Word) : Option IllCause :=
  match decodeModifier w with
  | .ok _ => none
  | .error c => some c

/-- Whether a prefix run before a head is valid (R82). -/
def runValid (run : List Word) (hd : Option Slot) : Bool :=
  match hd with
  | some (w, .head _) =>
    run.length ≤ 2 && run.all (fun p => tagOf p == tagOf w && (malformed p).isNone && headAccepts w (kindOf p)) &&
      (run.map kindOf).eraseDups.length == run.length
  | _ => false

/-- The modifiers of a list of prefixes. -/
def modsOf (run : List Word) : Mods :=
  run.foldl (fun m p =>
    match decodeModifier p with
    | .ok (.rs mode sat) => { m with rs := some (mode, sat) }
    | .ok (.tk sig wait) => { m with sig := sig, wait := wait }
    | .ok (.ext u) => { m with ext := some u }
    | .error _ => m) Mods.none

/-- The words of a head: two with SEL 01. -/
def headWords (hd : Option Slot) : Nat :=
  match hd with
  | some (w, .head _) => if selOf w = 1 then 2 else 1
  | _ => 0

/-- The instruction of a head, or its cause (R95). -/
def headWalk (k : CoreSt) (t : Strand) (idx : Nat) (w : Word) (runPc : BitVec 32) (words : Nat) (mods : Mods) : Walk :=
  if ownsTag t (tagOf w) then
    match decodeHead w ((k.slot (idx + 1)).elim 0 (·.1)) with
    | .ok i => .exec i runPc (k.textAddr idx) words mods
    | .error c => .ill c runPc
  else .skip words

/-- What strand `t` of a core does at a prefix (R82, R84): `run` is the whole run, `rest` its part from the strand's word on, and the head
stands at index `h`. Of several malformed prefixes that the strand owns in one run, it is the lower cause that is reported (log entry 66,
the model's choice). In a run that holds a prefix of a reserved tag and a malformed one of its own, X reports the reserved tag where it stands at that
prefix, else the malformed one (log entry 76, the model's choice). -/
def walkRun (k : CoreSt) (t : Strand) (run rest : List Word) (h : Nat) : Walk :=
  let runPc := k.textAddr (h - run.length)
  let hd := if h % 8 = 0 then none else k.slot h
  if runValid run hd then
    match hd with
    | some (w, _) => headWalk k t h w runPc (rest.length + headWords hd) (modsOf rest)
    | none => .stall
  else
    match rest with
    | [] => .stall
    | p :: _ =>
      if (4 ≤ (tagOf p).toNat && (tagOf p).toNat ≤ 6) && t == .x then .ill .reservedTag (k.textAddr (h - rest.length))
      else match worst ((run.filter (fun q => ownsTag t (tagOf q))).filterMap malformed) with
        | some c => .ill c runPc
        | none => if ownsTag t (tagOf p) then .ill .orphanGroup (k.textAddr (h - rest.length)) else .skip 1

/-- Whether a strand stands at the word with which the kernel begins (R49). -/
def CoreSt.atKernel (k : CoreSt) (st : StrandSt) : Bool := st.phase == .kernel && st.loops.isEmpty && st.pc == k.kernel

/-- What becomes of a word that begins the kernel and is no LOOP: cause 13, unless a fault of the word itself stands higher in the table of R95;
one that decodes shows its other faults as it issues. -/
def misplacedWalk (pc : BitVec 32) : Walk → Walk
  | .skip _ => .ill .execModel pc
  | .ill c p => if c.code ≤ 13 then .ill c p else .ill .execModel p
  | w => w

/-- Whether A walks a word as suppressed between a CHAIN and its last CHOP (R91, R248). -/
def CoreSt.breaksChain (k : CoreSt) (t : Strand) (w : Word) : Bool := t == .a && k.chain.isSome && tagOf w == 1

/-- The word of a head. -/
def headWord (hd : Option Slot) : List Word :=
  match hd with
  | some (w, .head _) => [w]
  | _ => []

/-- What strand `t` of a core does at the word it stands at (R40, R43, R49, R52, R68, R69, R82, R95). A prefix goes by its own block: an orphan directly
before a STAGE marker, at the end of a block that is not active, is passed with the marker as suppressed (R52, R84; log entry 76, the model's
choice). -/
def CoreSt.walk (k : CoreSt) (t : Strand) : Walk :=
  let st := k.strand t
  let idx := k.textIdx st.pc
  match k.slot idx with
  | none => .ill .landing st.pc
  | some (w, cls) =>
    let rest := prefixRun ((k.block idx).drop (idx % 8))
    let h := idx + rest.length
    let hd := if h % 8 = 0 && idx % 8 ≠ 0 then none else k.slot h
    let n := rest.length + headWords hd
    if !k.slipOk st (max n 1) then .stall
    else match cls with
      | .payload => .ill .landing st.pc
      | .broken c => .ill c st.pc
      | .head _ =>
        if k.suppressed st then (if k.breaksChain t w then .ill .otherUse st.pc else .skip (headWords (some (w, cls))))
        else
          let r := headWalk k t idx w st.pc (headWords (some (w, cls))) Mods.none
          if k.atKernel st && !isLoopHead (w, cls) then misplacedWalk st.pc r else r
      | .modifier =>
        if k.suppressed st then (if (rest ++ headWord hd).any (k.breaksChain t) then .ill .otherUse st.pc else .skip n)
        else
          let r := walkRun k t (prefixesBefore (k.block idx) (idx % 8) ++ rest) rest h
          if k.atKernel st then misplacedWalk st.pc r else r

/-- How many of the next words, at most `left`, a strand passes over in one step (R42): words it skips or walks as suppressed, within its
block and its slip window. -/
def skipSome : Nat → Nat → Nat → CoreSt → Strand → CoreSt
  | 0, _, _, k, _ => k
  | fuel + 1, left, blk, k, t =>
    let st := k.strand t
    if st.atEnd || k.textIdx st.pc / 8 ≠ blk then k
    else match k.walk t with
      | .skip n => if n ≤ left then skipSome fuel (left - n) blk (k.setStrand t (st.advance (st.pc + BitVec.ofNat 32 (4 * n)) n)) t else k
      | _ => k

/-- A pending SLIPW takes effect at X's next walked word (R35). -/
def CoreSt.applySlip (k : CoreSt) (t : Strand) : CoreSt :=
  match t, k.slipwDue with
  | .x, some n => { k with slipw := n, slipwDue := none }
  | _, _ => k

/-! Fetch (R42) and the passing of a reference cycle. -/

/-- The strand of a source of NUM (R165): 0 V, 1 M, 2 A. -/
def nevStrand (src : Nat) : Strand := if src = 0 then .v else if src = 1 then .m else .a

/-- Whether a strand waits for the block that its next word lies in. -/
def CoreSt.wantsBlock (k : CoreSt) (st : StrandSt) : Bool :=
  !(st.phase == .stopped || st.holding || st.atEnd || st.atBar) && st.fetched != some (k.textIdx st.pc / 8)

/-- The strand that fetch serves first of some: the one with the lowest walked count, ties in the order of the list. -/
def firstServed : List StrandSt → Option StrandSt
  | [] => none
  | t :: r =>
    match firstServed r with
    | none => some t
    | some u => if t.walked ≤ u.walked then some t else some u

/-- Delivers a block to every strand of a core that waits for it. -/
def CoreSt.deliverBlock (k : CoreSt) (b : Nat) : CoreSt :=
  strands.foldl (fun k t =>
    let st := k.strand t
    if k.wantsBlock st && k.textIdx st.pc / 8 == b then k.setStrand t { st with fetched := some b } else k) k

/-- Fetch delivers one block in a CTRL cycle (R42, log entry 67): the one that the first served strand waits for. -/
def CoreSt.fetch (k : CoreSt) : CoreSt :=
  match firstServed ((strands.map k.strand).filter k.wantsBlock) with
  | none => k
  | some st => k.deliverBlock (k.textIdx st.pc / 8)

/-- SKIPPED_WORDS_WALK (R42): the strand whose turn it is passes up to eight words that it skips or walks as suppressed. -/
def execSkippedWordsWalk (s : State) : Res :=
  let t := s.cx.strand
  let k := s.cxCore.applySlip t
  .next (s.setCore s.cx.core (skipSome 8 8 (k.textIdx (k.strand t).pc / 8) k t))

/-- NOT_AN_INSTRUCTION (R95): the strand whose turn it is raises ILL; its program counter is the one reported. -/
def execNotAnInstruction (s : State) : Res := .next (raiseIll s s.cx.cause)

/-- ILL_AT_NEXT_BOUNDARY (R210, R250): an ILL due in M is raised where M stands; it stays due until it is reported
(R292). -/
def execIllAtNextBoundary (s : State) : Res :=
  let k := s.cxCore
  match k.mIll with
  | none => .next s
  | some c => .next (raiseTrap s s.cx.core .m k.m.pc 0 c.code 0 k.m.pc 0 (due := true))

/-! The turn of a strand. -/

/-- What a turn of a strand comes to: nothing, or one instruction or step of the opcode table. -/
inductive Move where
  | idle (s : State)
  | run (i : Instr) (s : State)

/-- A strand stands still: no task, stopped at the last END, at its hold point (R57), or its gang has halted (R137). -/
def State.strandStill (s : State) (core : Nat) (t : Strand) : Bool :=
  let k := s.core core
  let st := k.strand t
  !k.resident || st.phase == .stopped || st.holding || (s.taskOf core).elim false Task.halted

/-- Whether a strand stands at the kernel's LOOP and is to hold there (R57). -/
def CoreSt.holdsHere (k : CoreSt) (t : Strand) : Bool := k.hold == .beforeFirst && k.atKernel (k.strand t)

/-- Whether a strand is at an instruction boundary with a NUM trap due (R165). -/
def CoreSt.numDue (k : CoreSt) (t : Strand) : Bool := k.nev.due.any (fun d => nevStrand d.2 == t)

/-- The issue register of a turn that issues no instruction. -/
def turnCx (core : Nat) (t : Strand) (pc : BitVec 32) (c : IllCause) : Cx :=
  { core := core, strand := t, pc := pc, head := pc, next := pc, words := 0, mods := Mods.none, cause := c, misplaced := false, late := false }

/-- The instance on a core is complete (R50): its strands have stopped, the outstanding counters read 0, every queue of commands is empty. -/
def CoreSt.instanceDone (k : CoreSt) : Bool :=
  k.resident && !k.finished && strands.all (fun t => (k.strand t).phase == .stopped && (k.strand t).sigDue.isEmpty) &&
    k.loads == 0 && k.stores == 0 && k.copies == 0 && k.tileops == 0 && k.mq.isEmpty &&
    [k.copyE, k.sluiceE, k.confE, k.gathE, k.chainE].all (fun e => e.queue.isEmpty && e.active.isEmpty)

/-- Whether an instruction is a LOOP. -/
def isLoop : Instr → Bool
  | .loop _ _ _ _ _ => true
  | _ => false

/-- The turn of a strand (R40 to R43). Before it walks on, it makes the signals that it owes, raises what is due at its boundary, ends the
iteration whose end it stands at, or holds. A turn of X at a BAR makes its core's arrival once all four strands stand there (R58). The word
after a WRSYS of SLIPW is tested against the new window (R35, R113; log entry 66, the model's choice). -/
def strandTurn (s : State) (core : Nat) (t : Strand) : Move :=
  let k := s.core core
  let st := k.strand t
  let here := turnCx core t st.pc .brokenWord
  if !st.sigDue.isEmpty then .idle (s.setCore core ((k.setStrand t { st with sigDue := [] }).signalOwe t st.sigDue))
  else if k.instanceDone && !(s.taskOf core).elim false Task.halted then .run .instanceComplete { s with cx := here }
  else if s.strandStill core t then .idle s
  else if k.numDue t then .run .numTrap { s with cx := here }
  else if t == .m && k.mIll.isSome then .run .illAtNextBoundary { s with cx := here }
  else if st.atEnd then .run .loopIterationEnd { s with cx := here }
  else if t == .x && strands.all (fun u => (k.strand u).atBar) then .run .barArrival { s with cx := here }
  else if st.atBar then .idle s
  else if t == .a && k.fe.isSome then .idle s
  else if k.holdsHere t then .idle (s.setCore core (k.setStrand t { st with holding := true }))
  else if st.fetched != some (k.textIdx st.pc / 8) then .idle s
  else match (k.applySlip t).walk t with
    | .stall => .idle s
    | .skip _ => .run .skippedWordsWalk { s with cx := here }
    | .ill c pc => .run .notAnInstruction { s with cx := turnCx core t pc c }
    | .exec i runPc head words mods =>
      .run i ({ s with cx := { core := core, strand := t, pc := runPc, head := head, next := st.pc + BitVec.ofNat 32 (4 * words),
                                words := words, mods := mods, cause := .brokenWord,
                                misplaced := k.atKernel st && !isLoop i, late := false } }.setCore core (k.applySlip t))

/-- What a strand would do in this cycle: skipped words before an instruction of the same block are passed in the cycle that it issues in (R42). -/
def strandSoon (s : State) (core : Nat) (t : Strand) : Move :=
  match strandTurn s core t with
  | .run .skippedWordsWalk u =>
    (match execSkippedWordsWalk u with
     | .next v =>
       (match strandTurn v core t with
        | .run .skippedWordsWalk _ => .idle v
        | m => m)
     | _ => .idle u)
  | m => m

end Sys2Proof.Machine
end

