-- ==== Sys2Proof/Machine/Control.lean ====
section
/-! DEFINITION. Words of every strand: LOOP, STAGE, the iteration end (R51 to R57), branches, calls and END (R45 to R49, R130 to R132), BAR
(R58, R133); and WAIT, SIG and AWAIT of each strand (R60, R61). -/

namespace Sys2Proof.Machine

/-! Counters and tokens. -/

/-- The fault of an A word that comes between a CHAIN and its last CHOP (R248). -/
def chainFaults (s : State) : List IllCause := fault? s.cxCore.chain.isSome .otherUse

/-- The condition of one counter of WAIT (R60). -/
def waitHolds (limit : BitVec 5) (count : BitVec 8) : Bool := limit = 31 || count.toNat ≤ limit.toNat

/-- WAIT (R60). -/
def waitCounters (extra : List IllCause) (f : WaitF) (s : State) : Res :=
  issueCore s extra (fun k => do
    need (waitHolds f.l k.loads && waitHolds f.s k.stores && waitHolds f.c k.copies && waitHolds f.t k.tileops)
    .ok k)

/-- SIG (R39, R61): waits while the counter holds 255. -/
def signalToken (extra : List IllCause) (t : BitVec 4) (s : State) : Res :=
  issueCore s extra (fun k =>
    match k.signal? t with
    | some k => .ok k
    | none => .error .stall)

/-- AWAIT (R61). -/
def awaitToken (extra : List IllCause) (t : BitVec 4) (s : State) : Res :=
  issueCore s extra (fun k =>
    match k.take? t with
    | some k => .ok k
    | none => .error .stall)

/-- WAIT_X (R60). -/
def execWaitX (f : WaitF) (s : State) : Res := waitCounters [] f s

/-- WAIT_A (R60). -/
def execWaitA (f : WaitF) (s : State) : Res := waitCounters (chainFaults s) f s

/-- WAIT_V (R60). -/
def execWaitV (f : WaitF) (s : State) : Res := waitCounters [] f s

/-- WAIT_M (R60). -/
def execWaitM (f : WaitF) (s : State) : Res := waitCounters [] f s

/-- SIG_X (R61). -/
def execSigX (tk : BitVec 4) (s : State) : Res := signalToken [] tk s

/-- SIG_A (R61). -/
def execSigA (tk : BitVec 4) (s : State) : Res := signalToken (chainFaults s) tk s

/-- SIG_V (R61). -/
def execSigV (tk : BitVec 4) (s : State) : Res := signalToken [] tk s

/-- SIG_M (R61). -/
def execSigM (tk : BitVec 4) (s : State) : Res := signalToken [] tk s

/-- AWAIT_X (R61). -/
def execAwaitX (tk : BitVec 4) (s : State) : Res := awaitToken [] tk s

/-- AWAIT_A (R61). -/
def execAwaitA (tk : BitVec 4) (s : State) : Res := awaitToken (chainFaults s) tk s

/-- AWAIT_V (R61). -/
def execAwaitV (tk : BitVec 4) (s : State) : Res := awaitToken [] tk s

/-- AWAIT_M (R61). -/
def execAwaitM (tk : BitVec 4) (s : State) : Res := awaitToken [] tk s

/-! Outcome queues. -/

/-- The other strands. -/
def othersOf (t : Strand) : List Strand := strands.filter (· != t)

/-- Pushes an outcome into the queues of the three other strands, into all or none (R45). -/
def CoreSt.pushOutcome (k : CoreSt) (t : Strand) (b : Bool) : Try CoreSt :=
  if (othersOf t).all (fun u => (k.strand u).outq.length < 32) then
    .ok ((othersOf t).foldl (fun k u => k.setStrand u { k.strand u with outq := (k.strand u).outq ++ [b] }) k)
  else .error .stall

/-- Pops the head of a strand's own outcome queue (R45). -/
def CoreSt.popOutcome (k : CoreSt) (t : Strand) : Try (Bool × CoreSt) :=
  match (k.strand t).outq with
  | b :: r => .ok (b, k.setStrand t { k.strand t with outq := r })
  | [] => .error .stall

/-! Loops. -/

/-- The predicate of stage `st` of a level (R52, R53). -/
def Level.pred (l : Level) (st : Nat) : Bool :=
  st < l.stages &&
    (match l.trip with
     | .known t => st ≤ l.i && l.i - st < t
     | .popped recent => recent.getD st false)

/-- Whether a level has an iteration to run: one of p0 to p(S − 1) is true (R52, R53). -/
def Level.live (l : Level) : Bool := [0, 1, 2, 3].any l.pred

/-- p0 to p3 of the innermost level, or false (R52). -/
def StrandSt.setPreds (t : StrandSt) : StrandSt :=
  [0, 1, 2, 3].foldl (fun u st => u.setP st (t.loops.head?.elim false (fun l => l.pred st))) t

/-- The static faults of a LOOP (R51, R55, R95). -/
def loopFaults (k : CoreSt) (t : StrandSt) (head : BitVec 32) (tsrc : BitVec 2) (klen : BitVec 14) : List IllCause :=
  let i := k.textIdx head
  fault? (tsrc = 3) .reservedValue ++
    fault? (klen = 0 || 4 ≤ t.loops.length || k.bodies.any (fun b => inBody i b && b.2 < i + 2 + klen.toNat)) .execModel

/-- What a strand learns of the trip count as it enters a LOOP, and whether it will push further bits (R51, R53). -/
def CoreSt.enterTrip (k : CoreSt) (t : Strand) (trip : BitVec 32) (tsrc : BitVec 2) : Try (Trip × Bool × CoreSt) :=
  match tsrc.toNat, t with
  | 0, _ => .ok (.known trip.toNat, false, k)
  | 1, _ => .ok (.known ((k.kAt (bits trip 0 4).toNat).setWidth 32).toNat, false, k)
  | _, .x =>
    let n := (k.gAt (physG k.x (bits trip 0 5).toNat)).toNat
    (k.pushOutcome .x (0 < n)).map (fun k => (.known n, 0 < n, k))
  | _, t => (k.popOutcome t).map (fun r => (.popped [r.1], false, r.2))

/-- LOOP (R51 to R53, R56). -/
def execLoop (trip : BitVec 32) (rot : BitVec 1) (tsrc sm1 : BitVec 2) (klen : BitVec 14) (s : State) : Res :=
  let t := s.cx.strand
  issueCore s (loopFaults s.cxCore s.cxStrand s.cx.head tsrc klen) (fun k => do
    let (tr, pushes, k) ← k.enterTrip t trip tsrc
    let st := k.strand t
    let first := s.cx.head + 8
    let l : Level :=
      { first := first, last := first + BitVec.ofNat 32 (4 * klen.toNat), stages := sm1.toNat + 1, i := 0, trip := tr, pushes := pushes,
        rot := rot = 1, gBase := 0, aBase := 0, tBase := 0, retDepth := st.ret.length,
        outermost := st.phase == .kernel && st.loops.isEmpty, dead := false }
    let l := { l with dead := !l.live }
    .ok (k.setStrand t ({ st with loops := l :: st.loops }.setPreds)))

/-- The bit of the next iteration (R53): X pushes it until it has pushed a 0; a follower pops it until it has popped a 0. -/
def CoreSt.nextTrip (k : CoreSt) (t : Strand) (l : Level) : Try (Level × CoreSt) :=
  match l.trip with
  | .known n =>
    if l.pushes then (k.pushOutcome t (l.i + 1 < n)).map (fun k => ({ l with pushes := l.i + 1 < n }, k))
    else .ok (l, k)
  | .popped recent =>
    if recent.headD false then (k.popOutcome t).map (fun r => ({ l with trip := .popped (r.1 :: recent.take 3) }, r.2))
    else .ok ({ l with trip := .popped (false :: recent.take 3) }, k)

/-- The rotation bases of a level one iteration on (R56). -/
def Level.rotate (l : Level) (demand : Nat) : Level :=
  { l with
    gBase := (l.gBase + 7) % 8
    aBase := (l.aBase + 3) % 4
    tBase := if 8 < demand then (l.tBase + (demand - 8) - 1) % (demand - 8) else 0 }

/-- A strand leaves its innermost level (R49, R52): after the kernel's outermost loop it goes on at the epilogue; a body that ends with the
enclosing body stands at the end of that one too. -/
def CoreSt.leaveLoop (k : CoreSt) (t : Strand) (l : Level) (rest : List Level) : CoreSt :=
  let st := { k.strand t with loops := rest, atEnd := rest.head?.elim false (fun o => l.last == o.last) }
  let st := st.setPreds
  k.setStrand t (if l.outermost then { st with phase := .epilogue, pc := k.epilogue, atEnd := false } else st)

/-- Whether a strand that has ended iteration `i` of the outermost loop reaches its core's hold point (R57). -/
def CoreSt.holdAfter (k : CoreSt) (t : Strand) (l : Level) : CoreSt :=
  if !l.outermost || k.hold ≠ .afterIter l.i then k
  else if (k.strand t).ret.isEmpty then k.setStrand t { k.strand t with holding := true }
  else
    { strands.foldl (fun k u => k.setStrand u { k.strand u with holding := false }) k with hold := .afterIter (l.i + 1) }

/-- A strand that stands at the end of its innermost body ends the iteration (R52, R53, R56, R57): it goes back to the body's first word, and the
flag says whether that landing is a fault; or it leaves the loop. None where it stands at no end, or waits for an outcome. A kernel loop of no
iteration (T = 0) has no iteration f, so no hold is taken in it and its strands run on (log entry 24, the model's choice). -/
def CoreSt.endIteration (k : CoreSt) (t : Strand) : Option (CoreSt × Bool) :=
  match (k.strand t).atEnd, (k.strand t).loops with
  | true, l :: rest =>
    if l.dead then some (k.leaveLoop t l rest, false)
    else match k.nextTrip t l with
      | .error _ => none
      | .ok (l', k) =>
        let l' := { l'.rotate k.demand with i := l'.i + 1 }
        let k := if t == .x && l.outermost then { k with iteridx := k.iteridx + 1 } else k
        if l'.live then
          let st := { k.strand t with loops := l' :: rest, pc := l.first, atEnd := false }
          some ((k.setStrand t st.setPreds).holdAfter t l, k.badLanding l.first)
        else some ((k.leaveLoop t l rest).holdAfter t l, false)
  | _, _ => none

/-- A strand that stops at the end of a body stops before the next word that it would walk (R137): the iterations that end there end, but for one
that waits for an outcome. Which address is saved for a strand that waits there on an outcome queue (R53) the spec does not say: the model keeps the
one just past the body's last word, and the iteration ends after the return (log entry 75, the model's choice). -/
def CoreSt.endBodies : Nat → Strand → CoreSt → CoreSt
  | 0, _, k => k
  | fuel + 1, t, k =>
    match k.endIteration t with
    | some (k', false) => CoreSt.endBodies fuel t k'
    | _ => k

/-- LOOP_ITERATION_END (R52, R53, R56, R57, R69). -/
def execLoopIterationEnd (s : State) : Res :=
  let c := s.cx.core
  let t := s.cx.strand
  match (s.core c).endIteration t with
  | none => .next s
  | some (k, bad) => .next (if bad then raiseTrap (s.setCore c k) c t (k.strand t).pc 0 3 0 (k.strand t).pc 0 else s.setCore c k)

/-- STAGE (R54): a marker changes nothing, its block being read from the text; it is illegal outside every loop body, and with a stage that
its loop does not have. -/
def execStage (st : BitVec 2) (s : State) : Res :=
  let k := s.cxCore
  let bad := match k.innermost (k.textIdx s.cx.head) with
    | none => true
    | some b => (k.slot (b.1 - 2)).elim true (fun x => (bits x.1 26 2).toNat < st.toNat)
  issueCore s (fault? bad .execModel) .ok

/-! Branches. -/

/-- The target of a branch (R70). -/
def targetOf (s : State) (off : BitVec 16) : BitVec 32 := s.cx.head + 4 * off.signExtend 32

/-- The faults of a branch's target (R47). -/
def branchFaults (s : State) (call : Bool) (off : BitVec 16) : List IllCause :=
  let k := s.cxCore
  let t := targetOf s off
  fault? (!k.branchOk call (k.textIdx s.cx.head) (k.textIdx t)) .execModel

/-- After a strand has gone to a word that it does not walk to in sequence: the landing is judged (R69), and it stands at no body's end
unless `atEnd`. -/
def landed (s0 : State) (taken atEnd : Bool) (r : Res) : Res :=
  match r with
  | .next s =>
    let c := s0.cx.core
    let t := s0.cx.strand
    let st := (s.core c).strand t
    if !taken || st.walked == ((s0.core c).strand t).walked then .next s
    else
      let s := s.modCore c (fun k => k.setStrand t { k.strand t with atEnd := atEnd && (k.strand t).loops.head?.elim false (fun l => l.last == st.pc) })
      if (s.core c).badLanding st.pc then .next (raiseTrap s c t st.pc 0 3 0 st.pc 0) else .next s
  | r => r

/-- J (R131). -/
def execJ (off : BitVec 16) (s : State) : Res := landed s true false (issue s (branchFaults s false off) (fun u => .ok (u.goto (targetOf s off))))

/-- CALL (R47, R131). -/
def execCall (off : BitVec 16) (s : State) : Res :=
  landed s true false
    (issue s (branchFaults s true off ++ fault? (8 ≤ s.cxStrand.ret.length) .execModel) (fun u =>
      .ok ((u.modCxStrand (fun t => { t with ret := (s.cx.head + 4) :: t.ret })).goto (targetOf s off))))

/-- RET (R47, R131). It stands at a body's end where the CALL was the body's last word. -/
def execRet (s : State) : Res :=
  landed s true true
    (issue s (fault? s.cxStrand.ret.isEmpty .execModel) (fun u =>
      .ok ((u.modCxStrand (fun t => { t with ret := t.ret.drop 1 })).goto (s.cxStrand.ret.headD 0))))

/-- Whether a BR is taken (R45, R130): the decider evaluates and pushes, the others pop. -/
def CoreSt.decide (k : CoreSt) (t : Strand) (decA inv : BitVec 1) (pred : BitVec 2) : Try (Bool × CoreSt) :=
  let d : Strand := if decA = 1 then .a else .x
  if t == d then
    let b := (k.strand d).pAt (4 + pred.toNat) != (inv == 1)
    (k.pushOutcome d b).map (fun k => (b, k))
  else k.popOutcome t

/-- BR (R45 to R47, R130). -/
def execBr (decA inv : BitVec 1) (pred : BitVec 2) (off : BitVec 16) (s : State) : Res :=
  match s.cxCore.decide s.cx.strand decA inv pred with
  | .error _ => issue s (branchFaults s false off) (fun _ => .error .stall)
  | .ok (b, k) =>
    landed s b false
      (issue s (branchFaults s false off) (fun u => .ok ((u.setCore s.cx.core k).goto (if b then targetOf s off else s.cx.next))))

/-- END (R49, R132): the prologue is followed by the kernel; the end of the epilogue stops the strand. -/
def execEnd (s : State) : Res :=
  let st := s.cxStrand
  issue s (fault? (!st.loops.isEmpty || !st.ret.isEmpty || st.phase == .kernel) .execModel) (fun u =>
    if st.phase == .prologue then .ok ((u.modCxStrand (fun t => { t with phase := .kernel })).goto s.cxCore.kernel)
    else .ok ((u.modCxStrand (fun t => { t with phase := .stopped })).goto s.cx.head))

/-! Barriers. -/

/-- The faults of a packed coordinate (R87). -/
def coordFaults (c : BitVec 9) : List IllCause := fault? (c.toNat / 128 = 3) .reservedValue ++ fault? (c.toNat / 128 = 0) .otherUse

/-- BAR (R58, R133): the strand stands at the barrier until its core is released. -/
def execBar (_cnt : BitVec 8) (_slot : BitVec 3) (coord : BitVec 9) (s : State) : Res :=
  match worst (coordFaults coord ++ placeFaults s) with
  | some c => .next (raiseIll s c)
  | none => .next (s.modCxStrand (fun t => { t with atBar := true }))

/-- The strands of a released core walk past the BAR (R58). -/
def CoreSt.passBar (k : CoreSt) : CoreSt :=
  strands.foldl (fun k t =>
    let st := k.strand t
    if st.atBar then k.setStrand t ({ st with atBar := false }.advance (st.pc + 8) 2) else k) k

/-- The core of the gang of core `c` that has a rank. -/
def State.coreOfRank (s : State) (c r : Nat) : Option Nat := (s.gang c)[r]?

/-- The BAR at which the X strand of a core stands: the participant count, the slot and the host's coordinate. -/
def CoreSt.barAt (k : CoreSt) : Option (Nat × BitVec 3 × BitVec 9) :=
  match k.slot (k.textIdx k.x.pc) with
  | none => none
  | some (w, _) =>
    match decodeHead w ((k.slot (k.textIdx k.x.pc + 1)).elim 0 (·.1)) with
    | .ok (.bar cnt slot coord) => some (cnt.toNat + 1, slot, coord)
    | _ => none

/-- A core is released from a barrier: its strands pass, or, where the packet that tells it is lost, the host keeps the result (R58, R274). -/
def State.release1 (s : State) (c : Nat) : State :=
  if s.unanswered c .bar then s.record c .bar [] else (s.modCore c CoreSt.passBar).answer c .bar

/-- BAR_ARRIVAL (R58): with all four strands at the BAR and A's accesses performed, since the arrival synchronises (R262), the core's one arrival
reaches the slot on the host core; to another core it is a packet (R334, R335). It releases every core of
the phase when the count is reached; an arrival that differs in its count, or names a host outside the gang, is discarded and raises ILL with
cause 13 in X. A core that has arrived in the phase does not arrive again. -/
def execBarArrival (s : State) : Res :=
  let c := s.cx.core
  let k := s.core c
  if !strands.all (fun t => (k.strand t).atBar) || !k.allPerformed then .next s
  else
    let fail : Res := .next (raiseTrap (s.answer c .bar) c .x k.x.pc 0 13 0 k.x.pc 0)
    match k.barAt with
    | none => .next s
    | some (n, slot, coord) =>
      match coreOfCoord coord with
      | none => fail
      | some h =>
        let b := (s.core h).bars.get slot.toFin
        if (s.recorded c .bar).isSome then .next (s.release1 c)
        else if h ≠ c ∧ !s.inGang c h then fail
        else if b.ranks.contains k.rank then .next s
        else if h ≠ c ∧ (s.asked c .bar).isEmpty then .next (s.request c .bar)
        else if s.unanswered c .bar then .next s
        else if 0 < b.count ∧ b.expect ≠ n then fail
        else
          let full := !(b.count + 1 < n)
          let new : BarSlot := if full then { count := 0, expect := 0, phase := !b.phase, ranks := [] }
            else { b with count := b.count + 1, expect := n, ranks := b.ranks ++ [k.rank] }
          let s1 := s.modCore h (fun hk => { hk with bars := hk.bars.set slot.toNat new slot.isLt })
          .next (if full then ((b.ranks.filterMap (s.coreOfRank c)) ++ [c]).foldl State.release1 s1 else s1)

end Sys2Proof.Machine
end

