-- ==== Sys2Proof/Config.lean ====
section
/-! DEFINITION. What an implementation fixes and spec/ leaves open: free values, opaque constants that no proof can evaluate. -/

namespace Sys2Proof

/-- The special functions of V and of the chain unit (R182, R247). -/
inductive SpecialFn where
  | rcp | rsq | sqrt | exp | log | tanh | sigm
  deriving DecidableEq, Repr

namespace Config

/-- R182 leaves open which of the two values adjacent to the exact result a part delivers; it depends only on the function, the TYPE, the
mode, the saturate bit and the input code, and is the same on every part (log entry 10). `true` is the one away from zero. -/
opaque upperNeighbour : SpecialFn → BitVec 4 → Nat → Bool → Nat → Bool

/-- A lane of the colour converter, and the classes of the events it counts, for a frame record of 0 bits a sample: R317 divides by its full
scale of 0 and states no result (log entry 65). From the samples and the lane. -/
opaque laneOfNoBits : Nat → Nat → Nat → Nat → BitVec 32
opaque eventsOfNoBits : Nat → Nat → Nat → Nat → BitVec 6

/-- What a read of the view range outside every enabled format window returns: R166 to R169 give it no value (log entry 10). -/
opaque unmappedView : Nat → BitVec 8

/-- Whether the signatures of a patch image or a configuration record verify (R356, R357, log entry 8): the bytes of the record that carries
the keys, none for the keys in ROM, and the bytes signed. spec/ names the schemes and not their arithmetic. -/
opaque signatureOk : List (BitVec 8) → List (BitVec 8) → Bool

/-- The length of a configuration record, and of a patch image from its header of 128 bytes: spec/ lists their fields and not their places
(R356, R357, log entry 8). -/
opaque configLen : Nat
opaque patchLen : List (BitVec 8) → Nat

/-- The fields of a patch image and of a configuration record (R355 to R357, log entry 8): VERSION; COUNTER, worlds by partition, regions as
base, limit and SECURE, MINPATCH. -/
opaque patchVersion : List (BitVec 8) → Nat
opaque configCounter : List (BitVec 8) → Nat
opaque configWorlds : List (BitVec 8) → BitVec 16
opaque configRegions : List (BitVec 8) → List (Nat × Nat × Bool)
opaque configMinPatch : List (BitVec 8) → Nat

/-- The digest of the ROM, the device's serial number, the two signatures over an attestation report and the certificate chain (R358, log
entry 8): spec/ names them and not their values. -/
opaque romDigest : BitVec 384
opaque serial : BitVec 544
opaque attestSignatures : List (BitVec 8) → List (BitVec 8)
opaque certificates : List (BitVec 8)

/-- The port through which peer aperture n is reached: R341 names none (log entry 46). -/
opaque peerPort : Nat → Nat

/-- The HBM controller from which the home of a physical address fills its line: R229 and R332 name none (log entry 46). -/
opaque hbmController : Nat → BitVec 3

/-- The bytes of a record that the device writes into a spill area: R344 keeps their layout private (log entry 73). -/
opaque spillRecord : Nat → BitVec 1024

/-- What the decoder writes into the reference area of its stream's partition, as offsets and bytes: R344 keeps the area's layout private to the
device (log entry 73). -/
opaque refWrites : Nat → List (Nat × BitVec 8)

/-- The quad mask that QUERY returns to the physical function, which serves no partition: R344 states none (log entry 12). -/
opaque pfQuads : BitVec 64

end Config

end Sys2Proof
end

