-- ==== Sys2Proof/Machine/Memory.lean ====
section
/-! DEFINITION. Memory: the physical map (R340), decoded views (R166 to R169), worlds (R355), translation and TLBs (R296, R297), the regions of
an effective address (R226 to R228), the checks of R122, and engine writes that have not entered the memory order (R263). -/

namespace Sys2Proof.Machine

/-! The physical map. -/

/-- What a physical address reaches (R340). -/
inductive PaKind where
  | hbm | view
  | peer (n : Nat)
  | host (port : Nat)
  | reserved
  deriving DecidableEq, Repr

/-- The kind of a physical address (R340). -/
def paKind (pa : Nat) : PaKind :=
  if pa < 2 ^ 39 then .hbm
  else if 2 ^ 44 ≤ pa ∧ pa < 2 ^ 44 + 2 ^ 40 then .view
  else if 2 ^ 49 ≤ pa ∧ pa < 2 ^ 49 + 2 ^ 43 then .peer ((pa - 2 ^ 49) / 2 ^ 39)
  else if 2 ^ 51 ≤ pa ∧ pa < 2 ^ 52 then .host (if pa < 2 ^ 51 + 2 ^ 50 then 0 else 1)
  else .reserved

/-- Whether a partition is joined through an aperture: both devices have received a matching PEER_JOIN (R341). -/
def State.isJoined (s : State) (part ap : Nat) : Bool := (s.part part).joined.any (fun j => j.1 == ap && s.peerJoins.contains (ap, j.2, part))

/-- Whether a page of n units of 64 KiB lies in an assigned range, and in a joined aperture of the partition if in one (R340). -/
def State.pageOk (s : State) (part pa units : Nat) : Bool :=
  let last := pa + units * 2 ^ 16 - 1
  paKind pa == paKind last &&
    (match paKind pa with
     | .reserved => false
     | .peer n => s.isJoined part n
     | _ => true)

/-- Whether a physical address lies in a secure region (R355). -/
def State.secureAt (s : State) (pa : Nat) : Bool := s.regions.any (fun r => r.secure && r.base ≤ pa && pa < r.limit)

/-! Decoded views. -/

/-- A format window. -/
def State.window (s : State) (w : Nat) : Window :=
  tget Window.reset s.windows w

/-- The enabled window whose view holds a physical address (R166). -/
def State.windowOf (s : State) (pa : Nat) : Option Nat :=
  (List.range 16).find? (fun w => let v := s.window w; v.en && v.vbase ≤ pa && pa < v.vlim)

/-- Bytes of device memory as a number; none where one lies outside it (R169). -/
def State.devBytes (s : State) (pa n : Nat) : Option Nat := if pa + n ≤ 2 ^ 39 then some (natOfBytes (mread s.mem pa n)) else none

/-- Whether a line among n bytes carries an uncorrectable error. -/
def State.poisoned (s : State) (key n : Nat) : Bool := s.poison.any (fun l => key < (l + 1) * 128 && l * 128 < key + n)

/-- The stored format of a block-scaled form (R166). -/
def storedKind (form : Nat) : Kind :=
  match form with
  | 0 => kindOfType 8
  | 1 => kindOfType 3
  | 2 => kindOfType 4
  | _ => kindOfType 5

/-- The value times a power of two. -/
def Val.scale (v : Val) (x : Int) : Val :=
  match v with
  | .fin s m e r => .fin s m (e + x) r
  | v => v

/-- Element i of a view: its code, whether it counts in SATCNT, and whether what it is decoded from carries an uncorrectable error
(R167, R168, R169). A presence record outside device memory decodes as an element outside it does (log entry 68, the model's choice). -/
def State.viewElem (s : State) (v : Window) (i : Nat) : Nat × Bool × Bool :=
  let k := kindOfType v.cfmt
  let w := typeWidth v.cfmt
  let marked := fun (pa n : Nat) => pa + n ≤ 2 ^ 39 && s.poisoned pa n
  if v.form < 4 then
    let bad := marked (v.data + i) 1 || marked (v.aux + i / 64) 1
    match s.devBytes (v.data + i) 1, s.devBytes (v.aux + i / 64) 1 with
    | some c, some x =>
      let val := decodeVal (storedKind v.form) c
      if x = 0x80 ∨ val = .absent then (absentCode k, false, bad)
      else
        let r := roundVal (val.scale (BitVec.ofNat 8 x).toInt) k 0 true
        (r.1, r.2.contains evSAT || val == .nan, bad)
    | _, _ => (absentCode k, true, bad)
  else
    match s.devBytes (v.aux + 16 * (i / 64)) 16 with
    | some r =>
      let bad := marked (v.aux + 16 * (i / 64)) 16
      let j := i % 64
      if r / 2 ^ j % 2 = 0 then (absentCode k, false, bad)
      else
        let below := ((List.range j).filter (fun b => r / 2 ^ b % 2 == 1)).length
        let pa := v.data + r / 2 ^ 64 % 2 ^ 32 + w * below
        match s.devBytes pa w with
        | some c => (c, decodeVal k c == .nan, bad || marked pa w)
        | none => (absentCode k, true, bad)
    | none => (absentCode k, true, false)

/-- A line of a view as a fill decodes it: bytes, whether marked uncorrectable, and how many elements count in SATCNT. -/
def State.decodeLine (s : State) (v : Window) (line : Nat) : List Byte × Bool × Nat :=
  let w := typeWidth v.cfmt
  let es := (List.range (128 / w)).map (fun j => s.viewElem v ((line * 128 - v.vbase) / w + j))
  (es.flatMap (fun e => bytesOfNat w e.1), es.any (fun e => e.2.2), (es.filter (fun e => e.2.1)).length)

/-- Fills a line of a view into L2 if it is not there (R169). -/
def State.fillLine (s : State) (line : Nat) : State :=
  match s.windowOf (line * 128) with
  | none => s
  | some w =>
    if thas s.viewLines line then s
    else
      let v := s.window w
      let (bs, bad, n) := s.decodeLine v line
      { s with
        viewLines := tset s.viewLines line (bs, bad)
        windows := tset s.windows w { v with satcnt := min (v.satcnt + n) 0xFFFFFFFF } }

/-- Fills the lines of a view that n bytes at a key touch, before they are read. -/
def State.touch (s : State) (key n : Nat) : State :=
  if n = 0 ∨ paKind key ≠ .view then s
  else (List.range ((key + n - 1) / 128 - key / 128 + 1)).foldl (fun s i => s.fillLine (key / 128 + i)) s

/-- A byte of memory by key, views decoded. -/
def State.byteAt (s : State) (key : Nat) : Byte :=
  if key < 2 ^ 52 ∧ paKind key = .view then
    match s.windowOf key with
    | none => Config.unmappedView key
    | some w =>
      match s.viewLines.find? (fun e => e.1 == key / 128) with
      | some (_, bs, _) => bs.getD (key % 128) 0
      | none => (s.decodeLine (s.window w) (key / 128)).1.getD (key % 128) 0
  else mget s.mem key

/-- Bytes of memory by key, views decoded. -/
def State.bytesAt (s : State) (key n : Nat) : List Byte := (List.range n).map (fun i => s.byteAt (key + i))

/-- Whether n bytes at a key carry an uncorrectable error. -/
def State.badAt (s : State) (key n : Nat) : Bool :=
  if key < 2 ^ 52 ∧ paKind key = .view then
    (List.range n).any (fun i =>
      match s.viewLines.find? (fun e => e.1 == (key + i) / 128) with
      | some (_, _, bad) => bad
      | none => (s.windowOf (key + i)).elim false (fun w => (s.decodeLine (s.window w) ((key + i) / 128)).2.1))
  else s.poisoned key n

/-! Forwarding (R252). -/

/-- A physical address that reaches the old home of a line already copied by a migration is forwarded to the new home (R252). -/
def State.forward (s : State) (pa : Nat) : Nat :=
  match s.parts.findSome? (fun e => e.2.migration.filter (fun m => m.src ≤ pa && pa < m.src + 128 * m.copied)) with
  | some m => m.dst + (pa - m.src)
  | none => pa

/-- Bytes at physical addresses, each at its home. -/
def State.readPa (s : State) (pa n : Nat) : List Byte := (List.range n).map (fun i => s.byteAt (s.forward (pa + i)))

/-! Translation. -/

/-- Why a translation or a permission fails (R296), numbered as a fault record numbers it (R298). -/
inductive XlErr where
  | invalid | notWritable | malformed | world
  deriving DecidableEq, Repr

/-- The number of a failure (R298). -/
def XlErr.num : XlErr → Nat
  | .invalid => 1 | .notWritable => 2 | .malformed => 3 | .world => 4

/-- Whether an entry has a reserved bit set (R296). -/
def pteReserved (e : Nat) : Bool := e / 2 ^ 52 != 0 || e / 2 ^ 7 % 2 ^ 9 != 0 || e / 2 ^ 4 % 4 != 0

/-- The entry of a table, read at its home. -/
def State.pte (s : State) (table idx : Nat) : Nat := natOfBytes (s.readPa (table + 8 * idx) 8)

/-- The leaf that an entry is. -/
def leafOf (e vpage units : Nat) : TlbEntry :=
  { vpage := vpage, units := units, pa := e / 2 ^ 16 % 2 ^ 36 * 2 ^ 16, w := e / 4 % 2 == 1, stash := e / 8 % 2 == 1, sec := e / 64 % 2 == 1 }

/-- The walk of a virtual address through the tables of a partition (R296). -/
def State.walkPages (s : State) (part va : Nat) : Except XlErr TlbEntry :=
  let e1 := s.pte (s.part part).ptbase (va / 2 ^ 42 % 2 ^ 14)
  if e1 % 2 = 0 then .error .invalid
  else if pteReserved e1 || e1 / 2 % 2 == 1 then .error .malformed
  else
    let e2 := s.pte (e1 / 2 ^ 16 % 2 ^ 36 * 2 ^ 16) (va / 2 ^ 29 % 2 ^ 13)
    if e2 % 2 = 0 then .error .invalid
    else if pteReserved e2 then .error .malformed
    else if e2 / 2 % 2 = 1 then
      let l := leafOf e2 (va / 2 ^ 29 * 2 ^ 13) (2 ^ 13)
      if l.pa % 2 ^ 29 = 0 ∧ s.pageOk part l.pa l.units then .ok l else .error .malformed
    else
      let e3 := s.pte (e2 / 2 ^ 16 % 2 ^ 36 * 2 ^ 16) (va / 2 ^ 16 % 2 ^ 13)
      if e3 % 2 = 0 then .error .invalid
      else if pteReserved e3 || e3 / 2 % 2 == 1 then .error .malformed
      else
        let l := leafOf e3 (va / 2 ^ 16) 1
        if s.pageOk part l.pa l.units then .ok l else .error .malformed

/-- Whether a leaf covers a virtual address. -/
def TlbEntry.covers (e : TlbEntry) (va : Nat) : Bool := e.vpage ≤ va / 2 ^ 16 && va / 2 ^ 16 < e.vpage + e.units

/-- The physical address of a virtual address under a leaf. -/
def TlbEntry.physOf (e : TlbEntry) (va : Nat) : Nat := e.pa + (va - e.vpage * 2 ^ 16)

/-- The permission and world checks on a leaf for an agent of a partition, and the physical address (R296, R355). The spec gives no order of the two
checks: a page that may not be written is reported as such first (log entry 75, the model's choice). -/
def State.useLeaf (s : State) (part va : Nat) (write : Bool) (e : TlbEntry) : Except XlErr Nat :=
  let pa := s.forward (e.physOf va)
  if write && !e.w then .error .notWritable
  else if (e.sec || s.secureAt pa) && !(s.part part).secure then .error .world
  else .ok pa

/-- A virtual address of a partition as an agent that holds no TLB translates it. -/
def State.partAddr (s : State) (part va : Nat) (write : Bool) : Except XlErr Nat :=
  if 2 ^ 56 ≤ va then .error .malformed
  else do s.useLeaf part va write (← s.walkPages part va)

/-- The leaf that a core uses for a virtual address: of its TLB, else of a walk (R297). -/
def State.coreLeaf (s : State) (c va : Nat) : Except XlErr TlbEntry :=
  match (s.core c).tlb.find? (·.covers va) with
  | some e => .ok e
  | none => s.walkPages (s.core c).part va

/-! Effective addresses. -/

/-- Fatal context error kinds (R294). -/
def kTranslation : Nat := 1
def kViewStore : Nat := 2
def kNoLicence : Nat := 3
def kWeir : Nat := 4
def kLimit : Nat := 5
def kSpad : Nat := 6
def kPoison : Nat := 7
def kHighBits : Nat := 8
def kNoHandler : Nat := 9
def kByHandler : Nat := 10
def kRefused : Nat := 11
def kByHost : Nat := 12
def kHardware : Nat := 13
def kSpawnRead : Nat := 14
def kPredecessor : Nat := 15

/-- The region of an effective address (R226). -/
inductive EaRegion where
  | none | global
  | remote (f : Nat)
  | near (f : Nat)
  deriving DecidableEq, Repr

/-- The region of an effective address (R226). -/
def regionOf (ea : Nat) : EaRegion :=
  if 2 ^ 56 ≤ ea then .none
  else if ea < 0x00FFF00000000000 then .global
  else if ea < 0x00FFF80000000000 then .remote (ea - 0x00FFF00000000000)
  else .near (ea - 0x00FFF80000000000)

/-- Puts the leaf of a virtual address into a core's TLB, which holds 256: the oldest makes room (R297). A scratchpad address has none (R226). -/
def State.cacheLeaf (s : State) (c va : Nat) : State :=
  if regionOf va != .global || (s.core c).tlb.any (·.covers va) then s
  else match s.walkPages (s.core c).part va with
    | .ok e => s.modCore c (fun k => { k with tlb := k.tlb.drop (k.tlb.length - 255) ++ [e] })
    | .error _ => s

/-- The core and the offset that a scratchpad address of an issuing core names (R227, R228); none where it is out of range or outside the
gang. -/
def State.spadOf (s : State) (c ea : Nat) : Option (Nat × Nat) :=
  let l := (s.core c).spad * 2 ^ 14
  match regionOf ea with
  | .near f => if f < l then some (c, f) else none
  | .remote f =>
    let z := f / 2 ^ 32 % 4
    let d := (z - 1) * 128 + f / 2 ^ 28 % 8 * 16 + f / 2 ^ 24 % 16
    if f / 2 ^ 34 = 0 ∧ (z = 1 ∨ z = 2) ∧ f / 2 ^ 31 % 2 = 0 ∧ f % 2 ^ 24 < l ∧ (d = c ∨ s.inGang c d) then some (d, f % 2 ^ 24) else none
  | _ => none

/-- The key that an access of a core to one byte reaches, or why it fails (R122). A store to any byte of the physical range of the views is one into a
view, also outside every enabled window (log entry 76, the model's choice). -/
def State.keyOf (s : State) (c ea : Nat) (write : Bool) : Try Nat :=
  match regionOf ea with
  | .none => .error (.fatal kHighBits ea)
  | .global =>
    match s.coreLeaf c ea >>= s.useLeaf (s.core c).part ea write with
    | .ok pa => if write && paKind pa == .view then .error (.fatal kViewStore ea) else .ok pa
    | .error _ => .error (.fatal kTranslation ea)
  | _ =>
    match s.spadOf c ea with
    | some (d, f) => .ok (spadKey d f)
    | none => .error (.fatal kSpad ea)

/-- Whether an effective address lies in a scratchpad window (R226). -/
def inSpad (ea : Nat) : Bool :=
  match regionOf ea with
  | .remote _ => true
  | .near _ => true
  | _ => false

/-- The sum of an address and an offset, truncated to 64 bits. -/
def addrPlus (ea : Dword) (n : Nat) : Nat := (ea + BitVec.ofNat 64 n).toNat

/-! Engine writes that have not entered the memory order (R263). -/

/-- A byte as the issuing core sees it: its own engine writes first. -/
def State.coreByte (s : State) (c key : Nat) : Byte :=
  match (s.core c).ebuf.find? (fun e => e.1 == key) with
  | some e => e.2
  | none => s.byteAt key

/-- Bytes as the issuing core sees them. -/
def State.coreBytes (s : State) (c key n : Nat) : List Byte := (List.range n).map (fun i => s.coreByte c (key + i))

/-- An engine write of a core to one byte. -/
def State.engWrite (s : State) (c key : Nat) (b : Byte) : State := s.modCore c (fun k => { k with ebuf := tset k.ebuf key b })

/-- Whether a key lies in one of the aligned units of 8 bytes that n bytes at a key touch (R258). -/
def sameUnits (key n j : Nat) : Bool := key / 8 ≤ j / 8 && j / 8 ≤ (key + n - 1) / 8

/-- The engine writes of every core that are pending in the units of n bytes enter the memory order: what is written there next comes after them
in the coherence order (R258, R263; log entry 69). -/
def State.flush (s : State) (key n : Nat) : State :=
  (s.cores.map (·.1)).foldl (fun (u : State) c =>
    let l := (u.core c).ebuf.filter (fun p => sameUnits key n p.1)
    if l.isEmpty then u
    else ({ u with mem := l.foldl (fun m p => mset m p.1 p.2) u.mem } : State).modCore c (fun k =>
      { k with ebuf := k.ebuf.filter (fun p => !sameUnits key n p.1) })) s

/-- Bytes are written into memory by key, in the memory order (R256). -/
def State.write (s : State) (key : Nat) (bs : List Byte) : State :=
  let s := s.flush key bs.length
  { s with mem := mwrite s.mem key bs }

/-- Bytes are written at physical addresses, each at its home. -/
def State.writePa (s : State) (pa : Nat) (bs : List Byte) : State :=
  (List.range bs.length).foldl (fun s i => s.write (s.forward (pa + i)) [bs.getD i 0]) s

/-- Every engine write of a core enters the memory order (R263). -/
def State.settle (s : State) (c : Nat) : State :=
  (s.core c).ebuf.foldl (fun s e => s.write e.1 [e.2]) (s.modCore c (fun k => { k with ebuf := [] }))

/-! Logical times (R258 to R260). -/

/-- The times of the line of a key. -/
def State.timeOf (s : State) (key : Nat) : LineTime := tget { write := 0, lease := 0 } s.times (key / 128)

/-- A load of core c takes its logical time: the least that R258 lets it take; the lease is extended where it does not reach. -/
def State.loadTime (s : State) (c key : Nat) : State :=
  let l := s.timeOf key
  let t := max (s.core c).ptime l.write
  ({ s with times := tset s.times (key / 128) { l with lease := if t ≤ l.lease then l.lease else t + (s.part (s.core c).part).lease } } : State).modCore c
    (fun k => { k with ptime := t })

/-- A store of core c takes its logical time: the least beyond the lease (R258). -/
def State.storeTime (s : State) (c key : Nat) : State :=
  let l := s.timeOf key
  let t := max (s.core c).ptime (max l.write l.lease + 1)
  ({ s with times := tset s.times (key / 128) { write := t, lease := t } } : State).modCore c (fun k => { k with ptime := t })

/-! The partition's own accesses: the fountainhead, the intake and the firmware. -/

/-- Bytes at a virtual address of a partition; the address that fails, with what failed, or nothing for uncorrectable data. -/
def State.partRead (s : State) (part va n : Nat) : Except (Nat × Option XlErr) (List Byte) :=
  (List.range n).mapM (fun i =>
    match s.partAddr part (va + i) false with
    | .ok pa => if s.badAt pa 1 then .error (va + i, none) else .ok (s.byteAt pa)
    | .error e => .error (va + i, some e))

/-- Whether n bytes at a virtual address of a partition may be written: the address that may not. -/
def State.partWritable (s : State) (part va n : Nat) : Option Nat :=
  ((List.range n).find? (fun i =>
    match s.partAddr part (va + i) true with
    | .ok pa => paKind pa == .view
    | .error _ => true)).map (va + ·)

/-- Writes bytes at a virtual address of a partition; nothing where a byte may not be written. -/
def State.partWrite (s : State) (part va : Nat) (bs : List Byte) : State :=
  if (s.partWritable part va bs.length).isSome then s
  else (List.range bs.length).foldl (fun s i =>
    match s.partAddr part (va + i) true with
    | .ok pa => s.write pa [bs.getD i 0]
    | .error _ => s) s

/-- Fills the lines of views that n bytes at a virtual address of a partition lie in, before they are read (R169). -/
def State.partTouch (s : State) (part va n : Nat) : State :=
  (List.range n).foldl (fun s i =>
    match s.partAddr part (va + i) false with
    | .ok pa => s.touch pa 1
    | .error _ => s) s

/-- Reads bytes of a partition, filling the lines of views that they lie in. -/
def State.partFetch (s : State) (part va n : Nat) : State × Except (Nat × Option XlErr) (List Byte) :=
  let s := s.partTouch part va n
  (s, s.partRead part va n)

/-- A little-endian number of n bytes at a virtual address of a partition; 0 where it cannot be read. -/
def State.partNat (s : State) (part va n : Nat) : Nat :=
  match s.partRead part va n with
  | .ok bs => natOfBytes bs
  | .error _ => 0

end Sys2Proof.Machine
end

