-- ==== Sys2Proof/Machine/AAlu.lean ====
section
/-! DEFINITION. A: 64-bit arithmetic, moves, compares, queue moves and remote addresses (R117 to R120). -/

namespace Sys2Proof.Machine

/-- An A instruction: its faults, those of an open chain, and its effect on its core. -/
def issueA (s : State) (faults : List IllCause) (body : CoreSt → Try CoreSt) : Res := issueCore s (faults ++ chainFaults s) body

/-- The faults of a destination code and source codes of A (R74, R75). -/
def aFaults (d : BitVec 6) (srcs : List (BitVec 6)) : List IllCause := fault? (!aDstOk d || srcs.any (!aSrcOk ·)) .operand

/-- An A instruction of one source (R117). -/
def aUnaryWith (extra : List IllCause) (d a : BitVec 6) (f : Dword → Dword) (s : State) : Res :=
  issueA s (aFaults d [a] ++ extra) (fun k => do
    let (va, k) ← readA k a
    writeA k d (f va))

/-- An A instruction of two sources, read S1 then S2 (R75, R117). -/
def aBinary (d a b : BitVec 6) (f : Dword → Dword → Dword) (s : State) : Res :=
  issueA s (aFaults d [a, b]) (fun k => do
    let (va, k) ← readA k a
    let (vb, k) ← readA k b
    writeA k d (f va vb))

/-- NOP_A (R117, R134). -/
def execNopA (s : State) : Res := issueA s [] .ok

/-- AADD (R117, R118). -/
def execAadd (d a b : BitVec 6) (s : State) : Res := aBinary d a b (fun x y => clampAddr s.cx.mods.sat (x.toInt + y.toInt)) s

/-- ASUB (R117, R118). -/
def execAsub (d a b : BitVec 6) (s : State) : Res := aBinary d a b (fun x y => clampAddr s.cx.mods.sat (x.toInt - y.toInt)) s

/-- AADDI (R83, R117, R118). -/
def execAaddi (d a : BitVec 6) (imm : BitVec 8) (s : State) : Res :=
  aUnaryWith [] d a (fun x => clampAddr s.cx.mods.sat (x.toInt + simm s.cx.mods imm)) s

/-- AMULI (R83, R117, R118). -/
def execAmuli (d a : BitVec 6) (imm : BitVec 8) (s : State) : Res :=
  aUnaryWith [] d a (fun x => clampAddr s.cx.mods.sat (x.toInt * simm s.cx.mods imm)) s

/-- ASHL (R94, R117): shifts 64 to 255 are reserved. -/
def execAshl (d a : BitVec 6) (imm : BitVec 8) (s : State) : Res :=
  aUnaryWith (fault? (64 ≤ imm.toNat) .reservedValue) d a (fun x => x <<< imm.toNat) s

/-- ASHR (R94, R117): a logical shift. -/
def execAshr (d a : BitVec 6) (imm : BitVec 8) (s : State) : Res :=
  aUnaryWith (fault? (64 ≤ imm.toNat) .reservedValue) d a (fun x => x >>> imm.toNat) s

/-- AAND (R117). -/
def execAand (d a b : BitVec 6) (s : State) : Res := aBinary d a b (fun x y => x &&& y) s

/-- AMOV (R117). -/
def execAmov (d a : BitVec 6) (s : State) : Res := aUnaryWith [] d a (fun x => x) s

/-- ALI (R117). -/
def execAli (d : BitVec 6) (imm : BitVec 32) (s : State) : Res := issueA s (aFaults d []) (fun k => writeA k d (imm.signExtend 64))

/-- ALIH (R117): the low half of D stays; D is a register. -/
def execAlih (d : BitVec 6) (imm : BitVec 32) (s : State) : Res :=
  issueA s (fault? (15 < d.toNat) .operand) (fun k => do
    let (v, k) ← readA k d
    writeA k d (imm ++ v.setWidth 32))

/-- ACMP (R106, R117). -/
def execAcmp (u : BitVec 1) (cond pred : BitVec 3) (a b : BitVec 6) (s : State) : Res :=
  issueA s (cmpFaults cond pred ++ fault? (!aSrcOk a || !aSrcOk b) .operand) (fun k => do
    let (va, k) ← readA k a
    let (vb, k) ← readA k b
    .ok { k with a := k.a.setP pred.toNat (condOf (u == 1) cond va vb) })

/-- APOP (R119): two entries of one xa queue, the low half first. -/
def execApop (d a : BitVec 6) (s : State) : Res :=
  issueA s (fault? (15 < d.toNat || !(a.toNat == 32 || a.toNat == 33)) .operand) (fun k => do
    let (lo, k) ← readA k a
    let (hi, k) ← readA k a
    writeA k d (hi.setWidth 32 ++ lo.setWidth 32))

/-- APUSH (R119): the low half, then the high half, and never one alone. -/
def execApush (d a : BitVec 6) (s : State) : Res :=
  issueA s (fault? (!(35 ≤ d.toNat && d.toNat ≤ 38) || 31 < a.toNat) .operand) (fun k => do
    let (v, k) ← readA k a
    need (k.axRoom (d.toNat - 35) 2)
    .ok (k.axPush (d.toNat - 35) [some (v.setWidth 32), some (v.extractLsb' 32 32)]))

/-- The base of a core's remote scratchpad window (R120, R228). -/
def remoteBase (c : Nat) : Nat := 0x00FFF00000000000 + (c / 128 + 1) * 2 ^ 32 + c % 128 / 16 * 2 ^ 28 + c % 16 * 2 ^ 24

/-- ACOORD (R87, R120). -/
def execAcoord (d a : BitVec 6) (coord : BitVec 9) (s : State) : Res :=
  let out := match coreOfCoord coord with
    | some c => !(c == s.cx.core || s.inGang s.cx.core c)
    | none => false
  issueA s (fault? (15 < d.toNat || !aRegOk a) .operand ++ coordFaults coord ++ fault? out .otherUse) (fun k => do
    let (v, k) ← readA k a
    writeA k d (BitVec.ofNat 64 (remoteBase ((coreOfCoord coord).getD 0)) + v))

end Sys2Proof.Machine
end

