-- ==== Sys2Proof/Machine/Events.lean ====
section
/-! DEFINITION. Interrupts (R337), event rings and records (R345, R346), the numeric event counters of a core (R162 to R165), and the passing
of a reference cycle. -/

namespace Sys2Proof.Machine

/-- The physical function; virtual function n, which serves partition n, has number n (R337). -/
def pfFn : Nat := 16

/-- An interrupt of a function's vector (R337). -/
def State.msix (s : State) (fn vector : Nat) : State := { s with outputs := s.outputs ++ [.msix fn vector] }

/-- The kind of agent that a record's SOURCE names (R346): records of one agent share a sequence number (log entry 13). -/
def sourceClass (kind : Nat) : Nat :=
  match kind with
  | 1 | 7 => 1
  | 2 | 10 => 2
  | 3 | 4 => 3
  | 5 => 5
  | 6 => 6
  | 8 => 8
  | _ => 9

/-- The bytes of an event record (R346). -/
def eventRecord (seq lost kind source data0 data1 cycle : Nat) : List Byte :=
  bytesOfNat 8 (seq * 2 ^ 32 + min lost 255 * 2 ^ 24 + kind * 2 ^ 16 + source % 2 ^ 16) ++ bytesOfNat 8 data0 ++ bytesOfNat 8 data1 ++
    bytesOfNat 8 cycle

/-- Reads a number of a ring: of a partition through its page tables, of the device at a physical address (log entry 13). -/
def State.ringNat (s : State) (part : Option Nat) (addr n : Nat) : Nat :=
  match part with
  | some p => s.partNat p addr n
  | none => natOfBytes (s.readPa addr n)

/-- Writes bytes of a ring. -/
def State.ringWrite (s : State) (part : Option Nat) (addr : Nat) (bs : List Byte) : State :=
  match part with
  | some p => s.partWrite p addr bs
  | none => s.writePa addr bs

/-- Puts a record of `size` bytes into a ring with the header of R345: whether there was room. A record that finds none is lost. -/
def State.ringPut (s : State) (part : Option Nat) (r : Ring) (rec : List Byte) : Bool × State :=
  if !r.on then (false, s)
  else
    let prod := s.ringNat part r.base 8
    let cons := s.ringNat part (r.base + 8) 8
    if 2 ^ r.n ≤ prod - cons then
      let s := s.ringWrite part (r.base + 0x10) (bytesOfNat 8 1)
      (false, s.ringWrite part (r.base + 0x18) (bytesOfNat 8 (min (s.ringNat part (r.base + 0x18) 8 + 1) (2 ^ 64 - 1))))
    else
      let s := s.ringWrite part (r.base + 64 + rec.length * (prod % 2 ^ r.n)) rec
      (true, s.ringWrite part r.base (bytesOfNat 8 (prod + 1)))

/-- The key of a source of event records (R346): the kind of agent and its number; the fault ring of a partition by the partition. -/
def sourceKey (part : Option Nat) (kind source : Nat) : Nat := sourceClass kind * 2 ^ 16 + if kind = 9 then part.getD 0 else source

/-- The sequence number of a source (R301): of a core, the one that its trap and fault records share. -/
def State.sourceSeq (s : State) (key : Nat) : Word := if key / 2 ^ 16 = 1 then (s.core (key % 2 ^ 16)).seq else (tget ((0 : Word), 0) s.sources key).1

/-- The source's numbers after a record that was written, or lost (R301, R346). -/
def State.sourceNext (s : State) (key : Nat) (ok : Bool) : State :=
  let e := tget ((0 : Word), 0) s.sources key
  if ok then
    let s := { s with sources := tset s.sources key (e.1 + 1, 0) }
    if key / 2 ^ 16 = 1 then s.modCore (key % 2 ^ 16) (fun k => { k with seq := k.seq + 1 }) else s
  else { s with sources := tset s.sources key (e.1, e.2 + 1) }

/-- An event record to the ring of a partition, or of the device (R345, R346): with a record that was written, vector 1 fires. -/
def State.postEvent (s : State) (part : Option Nat) (kind source data0 data1 : Nat) : State :=
  let key := sourceKey part kind source
  let ring := part.elim s.devEvents (fun p => (s.part p).events)
  let (ok, t) := s.ringPut part ring
    (eventRecord (s.sourceSeq key).toNat (tget ((0 : Word), 0) s.sources key).2 kind source data0 data1 s.cycle)
  let t := t.sourceNext key ok
  if ok then t.msix (part.getD pfFn) 1 else t

/-! Numeric events. -/

/-- The action of a class (R163). -/
def Nev.action (n : Nev) (c : Nat) : Nat := n.act.toNat / 4 ^ c % 4

/-- Counts one class (R164): the new registers and whether the class crosses its threshold. -/
def Nev.count (n : Nev) (c inc : Nat) : Nev × Bool :=
  if h : c < 6 then
    let old := n.cnt[c].toNat
    let new := min (old + inc) 0xFFFFFFFF
    let t := n.thr[c].toNat
    let n' := { n with cnt := n.cnt.set c (BitVec.ofNat 32 new) h }
    if t ≠ 0 ∧ !n.crossw.getLsbD c ∧ old < t ∧ t ≤ new then
      ({ n' with crossw := n'.crossw ||| (1 <<< c), stat := n'.stat ||| (1 <<< c) }, true)
    else (n', false)
  else (n, false)

/-- The source that a NUM trap names (R165): V if V contributed to the class in the cycle, else M, else the copy complex. -/
def Nev.source (n : Nev) (c : Nat) : Nat := if n.given.contains (c, 0) then 0 else if n.given.contains (c, 1) then 1 else 2

/-- The NUM traps of the current cycle's crossings, each with the source that the increments so far name. -/
def Nev.named (n : Nev) : Nev := { n with fresh := n.fresh.map (fun d => (d.1, n.source d.1)) }

/-- One class of events of one source on a core (R164, R165). -/
def State.countClass (s : State) (core src : Nat) (evs : List Nat) (c : Nat) : State :=
  let k := s.core core
  let inc := (evs.filter (· == c)).length
  if inc = 0 then s
  else
    let (n, crossed) := k.nev.count c inc
    let n := { n with given := n.given ++ [(c, src)] }
    let n := if crossed && n.action c == 1 then { n with fresh := n.fresh ++ [(c, src)] } else n
    let s := s.setCore core { k with nev := n.named }
    if crossed && n.action c == 2 then s.postEvent (some k.part) 1 core c k.task else s

/-- Counts the events of an instruction or a command (R161, R162). -/
def State.countEvents (s : State) (core src : Nat) (evs : List Nat) : State :=
  if evs.isEmpty then s else [0, 1, 2, 3, 4, 5].foldl (fun s c => s.countClass core src evs c) s

/-- The end of a window (R164). -/
def Nev.endWindow (n : Nev) : Nev := { n with elapsed := 0, crossw := 0, cnt := Vector.replicate 6 0 }

/-- The length of a window in reference cycles (R163). -/
def Nev.window (n : Nev) : Nat := n.cfg.toNat % 2 ^ 16 * 1024

/-- A window that has run its length ends (R164). -/
def Nev.expire (n : Nev) : Nev := if n.window ≠ 0 ∧ n.window ≤ n.elapsed then n.endWindow else n

/-- NEV_WINDOW_END (R164): a window that has run its length expires. The cycle in which ELAPSED reaches the length does so itself. -/
def execNevWindowEnd (core : Nat) (s : State) : Res :=
  let k := s.core core
  .next (if k.resident then s.setCore core { k with nev := k.nev.expire } else s)

/-- NUM_TRAP (R165): the strand whose turn it is raises a NUM trap that names it, at its instruction boundary; its program counter is the first
word it has not issued. The trap stays due until it is reported (R292). -/
def execNumTrap (s : State) : Res :=
  let k := s.cxCore
  let t := s.cx.strand
  match k.nev.due.find? (fun d => nevStrand d.2 == t) with
  | none => .next s
  | some (c, src) =>
    let pc := (k.strand t).pc
    .next (raiseTrap s s.cx.core t pc 1 0 (c + 16 * src) pc 0 (due := true))

/-- The event registers in one reference cycle (R163, R164): the crossings of the cycle that ends are settled, and the window goes on. -/
def Nev.tick (n : Nev) : Nev :=
  let n := { n with due := n.due ++ n.fresh, fresh := [], given := [] }
  if n.window = 0 then n else { n with elapsed := n.elapsed + 1 }.expire

/-- One reference cycle on a core: its window runs while its context is resident (R163, R164), and the logical program time of its A strand
advances every 64 cycles (R259). -/
def CoreSt.tick (k : CoreSt) (cycle : Nat) : CoreSt :=
  if !k.resident then k
  else { k with nev := k.nev.tick, ptime := if cycle % 64 = 0 then k.ptime + 1 else k.ptime }

/-- A drain has ended (R334): the requests that it held back are sent. -/
def State.endDrain (s : State) : State :=
  (s.outstanding.filter (fun o => !o.sent)).foldl State.leaves
    { s with
      draining := none
      outstanding := s.outstanding.map (fun o => if o.sent then o else { o with sent := true, sentAt := s.cycle }) }

/-- A drain that has lasted 192 network cycles ends (R334). -/
def State.drainLimit (s : State) : State := if s.draining.any (fun c => c + 192 ≤ s.cycle) then s.endDrain else s

/-- A reference cycle passes: the counters of every core go on, fetch delivers a block where a CTRL cycle begins (R42), and a drain ends after 192
cycles. -/
def State.tick (s : State) : State :=
  let n := s.cycle + 1
  ({ s with
    cycle := n
    cores := s.cores.map (fun e =>
      let k := e.2.tick n
      (e.1, if k.resident && n % k.div.toList.getD 0 1 == 0 then k.fetch else k)) } : State).drainLimit

end Sys2Proof.Machine
end

