-- ==== Sys2Proof/Machine/AMem.lean ====
section
/-! DEFINITION. A's memory accesses (R121 to R129): issue, the places that an access takes in the memory order (R256, R257), delivery, full/empty
operations, PROBE with its fault ring (R298, R299), and the lines of a stash (R231, R261, R275). -/

namespace Sys2Proof.Machine

/-! The range scoreboard (R235). -/

/-- An effective address as the scoreboard compares it: scratchpad addresses by core and offset, global ones by virtual address. -/
def State.scoreAddr (s : State) (c ea : Nat) : Nat :=
  match s.spadOf c ea with
  | some (d, f) => 2 ^ 60 + spadKey d f
  | none => ea

/-- Whether n bytes from an address overlap a range. -/
def Range.overlaps (r : Range) (a n : Nat) : Bool := r.lo < a + n && a < r.hi

/-- An engine of a core. -/
def CoreSt.engine (k : CoreSt) : Engine → EngineSt
  | .copy => k.copyE
  | .sluice => k.sluiceE
  | .confluence => k.confE
  | .gather => k.gathE
  | .chain => k.chainE

/-- The engine commands of a core in flight. -/
def CoreSt.engCmds (k : CoreSt) : List EngCmd :=
  [k.copyE, k.sluiceE, k.confE, k.gathE, k.chainE].flatMap (fun e => e.active ++ e.queue)

/-- Whether an access of n bytes stalls on the scoreboard: a load on write ranges, a store on every range (R235). -/
def State.scoreBusy (s : State) (c ea n : Nat) (store : Bool) : Bool :=
  let a := s.scoreAddr c ea
  (s.core c).engCmds.any (fun m => m.entry && (m.writes ++ (if store then m.reads else [])).any (·.overlaps a n))

/-! The stash. -/

/-- Whether the page of a global address is stashable for a core that has a stash (R231). -/
def State.stashable (s : State) (c ea : Nat) : Bool :=
  (s.core c).stashUnits != 0 && regionOf ea == .global &&
    (match s.coreLeaf c ea with
     | .ok l => l.stash
     | .error _ => false)

/-- The lines of a stash, the most recent first, with room made for one more: the least recently used is replaced where it is full (R231). -/
def stashRoom (cap : Nat) (l : List StashLine) : List StashLine := l.take (cap - 1)

/-- The home basin of a physical address (R229). -/
def homeOf (pa : Nat) : Nat :=
  let f := fun (i : Nat) => pa / 2 ^ (7 * i) % 2 ^ 7
  ([2, 3, 4, 5, 6].foldl (fun (b i : Nat) => b ^^^ f i) (f 1)) ^^^ (pa / 2 ^ 49 % 8)

/-- The line of 128 bytes at a key is marked uncorrectable (R122, R335). -/
def State.markLine (s : State) (key : Nat) : State := { s with poison := s.poison.filter (· != key / 128) ++ [key / 128] }

/-- A line of a stash is written back: one that is dirty and marked leaves its mark at its home (R232). -/
def State.leaveMark (s : State) (c : Nat) (x : StashLine) : State :=
  if x.dirty && x.marked then
    match s.keyOf c (x.line * 128) true with
    | .ok key => s.markLine key
    | .error _ => s
  else s

/-- A core gives up a line of its stash (R232). -/
def State.dropLine (s : State) (c : Nat) (x : StashLine) : State :=
  (s.leaveMark c x).modCore c (fun k => { k with stash := k.stash.filter (fun y => y.line != x.line) })

/-- Every dirty line of a core's stash is written back (R232): the lines stay, clean. -/
def State.writeBack (s : State) (c : Nat) : State :=
  ((s.core c).stash.foldl (fun s x => s.leaveMark c x) s).modCore c (fun k => { k with stash := k.stash.map (fun x => { x with dirty := false }) })

/-- A core touches a line of its stash: a line that is there becomes the most recent; one that is not is requested of its home (R231). A line that
makes room goes even where it still waits for its reply: the accesses that wait for it then have their values from the home, as every access
has (R231; log entry 15). -/
def State.stashTouch (s : State) (c line : Nat) : State :=
  let k := s.core c
  match k.stash.find? (fun x => x.line == line) with
  | some x => s.setCore c { k with stash := x :: k.stash.filter (fun y => y.line != line) }
  | none =>
    let x : StashLine := { line := line, waiting := true, tag := s.nextTag, dirty := false, marked := false, recalled := false, owes := [] }
    let room := stashRoom (k.stashUnits * 128) k.stash
    let s := (k.stash.drop (k.stashUnits * 128 - 1)).foldl (fun s y => (s.leaveMark c y).answer c (.line y.line)) s
    (s.request c (.line line)).setCore c { k with stash := x :: room }

/-- Touches the stash lines of n bytes, where their page is stashable. -/
def State.stashUse (s : State) (c ea n : Nat) : State :=
  if s.stashable c ea then (List.range ((ea + n - 1) / 128 - ea / 128 + 1)).foldl (fun s i => s.stashTouch c (ea / 128 + i)) s else s

/-- Whether an access of core c goes over the network by itself: to another core's scratchpad, or to a global address whose line is no matter of
the stash. -/
def State.travels (s : State) (c ea : Nat) : Bool :=
  match regionOf ea with
  | .global => !s.stashable c ea
  | _ => (s.spadOf c ea).elim false (fun p => p.1 != c)

/-- Whether the stash line of a byte is marked uncorrectable (R232). -/
def CoreSt.stashMarked (k : CoreSt) (ea : Nat) : Bool := k.stash.any (fun x => x.line == ea / 128 && x.marked)

/-- Whether an access to a byte waits for the reply of its stash line (R275). -/
def CoreSt.stashWaits (k : CoreSt) (ea : Nat) : Bool := k.stash.any (fun x => x.line == ea / 128 && x.waiting)

/-- A store makes the stash line of its byte dirty. -/
def CoreSt.stashDirty (k : CoreSt) (ea : Nat) : CoreSt :=
  { k with stash := k.stash.map (fun x => if x.line == ea / 128 then { x with dirty := true } else x) }

/-! Issue. -/

/-- Reserves the destination of a load (R75, R99, R108): a register with no other load, room in a queue. -/
def reserveDst (k : CoreSt) (d : BitVec 6) (bytes : Nat) : Try (LoadDst × CoreSt) :=
  let n := d.toNat
  if n < 16 then
    let p := physA k.a n
    (if k.aBusy p then .error .stall else .ok (.reg (BitVec.ofNat 4 p), k))
  else if n = 34 then .ok (.discard, k)
  else
    let cnt := if bytes = 8 then 2 else 1
    (if k.axRoom (n - 35) cnt then .ok (.queue (BitVec.ofNat 2 (n - 35)), k.axPush (n - 35) (List.replicate cnt none)) else .error .stall)

/-- Reads the data of a store (R75, R121): ST64 takes two entries of an xa queue, the low half first. -/
def storeData (k : CoreSt) (d : BitVec 6) (bytes : Nat) : Try (Dword × CoreSt) := do
  let (lo, k) ← readA k d
  if bytes = 8 ∧ (d.toNat = 32 ∨ d.toNat = 33) then
    let (hi, k) ← readA k d
    .ok (hi.setWidth 32 ++ lo.setWidth 32, k)
  else .ok (lo, k)

/-- The effective address of a load or a store (R121). -/
def effAddr (s : State) (base : Dword) (imm : BitVec 8) : Dword := BitVec.ofInt 64 (base.toInt + simm s.cx.mods imm)

/-- Puts an access into A's order once its first byte passes the checks of R122: its counter has room, the scoreboard lets it pass. -/
def State.placeAccess (s : State) (op : AccessOp) (ea : Dword) : Try State := do
  let c := s.cx.core
  let k := s.cxCore
  need ((if op.writes then k.stores else k.loads) != 255 && !s.scoreBusy c ea.toNat op.size op.writes)
  let _ ← s.keyOf c ea.toNat op.writes
  let s := (s.cacheLeaf c ea.toNat).stashUse c ea.toNat op.size
  let s := if s.travels c ea.toNat then s.request c (.access k.nextId) else s
  .ok ((s.modCx (fun k =>
    { k with
      loads := if op.writes then k.loads else k.loads + 1
      stores := if op.writes then k.stores + 1 else k.stores
      aq := k.aq ++ [{ id := k.nextId, op := op, ea := ea, sig := s.cx.mods.sig, done := 0, got := [] }]
      nextId := k.nextId + 1 })).deferSig)

/-- A load (R121). -/
def loadOf (bytes : Nat) (signed : Bool) (d a : BitVec 6) (imm : BitVec 8) (s : State) : Res :=
  issue s (aFaults d [a] ++ chainFaults s) (fun s => do
    let (base, k) ← readA s.cxCore a
    let (dst, k) ← reserveDst k d bytes
    (s.setCore s.cx.core k).placeAccess (.load bytes signed dst) (effAddr s base imm))

/-- A store (R121). -/
def storeOf (bytes : Nat) (d a : BitVec 6) (imm : BitVec 8) (s : State) : Res :=
  issue s (fault? (!aSrcOk d || !aSrcOk a) .operand ++ chainFaults s) (fun s => do
    let (base, k) ← readA s.cxCore a
    let (data, k) ← storeData k d bytes
    (s.setCore s.cx.core k).placeAccess (.store bytes data) (effAddr s base imm))

/-- LDZ8 (R121). -/
def execLdz8 (d a : BitVec 6) (imm : BitVec 8) (s : State) : Res := loadOf 1 false d a imm s

/-- LDS8 (R121). -/
def execLds8 (d a : BitVec 6) (imm : BitVec 8) (s : State) : Res := loadOf 1 true d a imm s

/-- LDZ16 (R121). -/
def execLdz16 (d a : BitVec 6) (imm : BitVec 8) (s : State) : Res := loadOf 2 false d a imm s

/-- LDS16 (R121). -/
def execLds16 (d a : BitVec 6) (imm : BitVec 8) (s : State) : Res := loadOf 2 true d a imm s

/-- LD32 (R121). -/
def execLd32 (d a : BitVec 6) (imm : BitVec 8) (s : State) : Res := loadOf 4 false d a imm s

/-- LD64 (R121). -/
def execLd64 (d a : BitVec 6) (imm : BitVec 8) (s : State) : Res := loadOf 8 false d a imm s

/-- ST8 (R121). -/
def execSt8 (d a : BitVec 6) (imm : BitVec 8) (s : State) : Res := storeOf 1 d a imm s

/-- ST16 (R121). -/
def execSt16 (d a : BitVec 6) (imm : BitVec 8) (s : State) : Res := storeOf 2 d a imm s

/-- ST32 (R121). -/
def execSt32 (d a : BitVec 6) (imm : BitVec 8) (s : State) : Res := storeOf 4 d a imm s

/-- ST64 (R121). -/
def execSt64 (d a : BitVec 6) (imm : BitVec 8) (s : State) : Res := storeOf 8 d a imm s

/-- The faults of a row transfer (R125). -/
def rowFaults (s : State) (r : RowOp) : List IllCause :=
  fault? (!aRegOk r.index || !aRegOk r.base) .operand ++ xferFaults s.cxCore.demand r.desc ++ chainFaults s

/-- The address of a row transfer (R125): not a multiple of 256 raises ILL with cause 14. -/
def rowAddr (k : CoreSt) (r : RowOp) : Try Dword := do
  let (b, k) ← readA k r.base
  let (i, _) ← readA k r.index
  illIf ((b + i).toNat % 256 != 0) .otherUse
  .ok (b + i)

/-- LDROW (R125, R126): its row is busy until all 256 bytes have landed. -/
def execLdrow (r : RowOp) (s : State) : Res :=
  issue s (rowFaults s r) (fun s => do
    let ea ← rowAddr s.cxCore r
    let row := xferRow s.cxCore r.desc
    need (!s.cxCore.rowBusy row)
    let id := s.cxCore.nextId
    (s.modCx (·.setBusy row id)).placeAccess (.loadRow row) ea)

/-- STROW (R125, R126): it waits while its row is busy, and reads it whole at issue. -/
def execStrow (r : RowOp) (s : State) : Res :=
  issue s (rowFaults s r) (fun s => do
    let ea ← rowAddr s.cxCore r
    let row := xferRow s.cxCore r.desc
    need (!s.cxCore.rowBusy row)
    s.placeAccess (.storeRow (s.cxCore.row row)) ea)

/-! Performance. -/

/-- The entries of an ax queue that are reserved take their values, the first `n` of those reserved being of older loads (R75). -/
def fillReserved : Nat → List (Option Word) → List Word → List (Option Word)
  | 0, none :: r, v :: vs => some v :: fillReserved 0 r vs
  | n + 1, none :: r, vs => none :: fillReserved n r vs
  | n, some x :: r, vs => some x :: fillReserved n r vs
  | _, l, _ => l

/-- How many entries of an ax queue the accesses of A before one have reserved. -/
def CoreSt.reservedBefore (k : CoreSt) (id : Nat) (q : BitVec 2) : Nat :=
  ((k.aq.takeWhile (fun b => b.id != id)).map (fun b =>
    match b.op with
    | .load n _ (.queue p) => if p = q then (if n = 8 then 2 else 1) else 0
    | _ => 0)).sum

/-- Delivers the bytes of the load with a number (R97, R121), into a queue in the entries that it has reserved (R75). -/
def CoreSt.deliver (k : CoreSt) (id bytes : Nat) (signed : Bool) (dst : LoadDst) (bs : List Byte) : CoreSt :=
  let v := natOfBytes bs
  let x : Dword :=
    if signed && 2 ^ (8 * bytes - 1) ≤ v then BitVec.ofInt 64 ((v : Int) - (2 ^ (8 * bytes) : Nat)) else BitVec.ofNat 64 v
  match dst with
  | .reg i => k.setA i.toNat x
  | .discard => k
  | .queue q =>
    let vs := if bytes = 8 then [x.setWidth 32, x.extractLsb' 32 32] else [x.setWidth 32]
    { k with ax := k.ax.set q.toNat (fillReserved (k.reservedBefore id q) (k.ax.get q.toFin) vs) q.isLt }

/-- Signals a token that an access carries, if it can (R39). -/
def CoreSt.signalOpt? (k : CoreSt) (t : Option (BitVec 4)) : Option CoreSt :=
  match t with
  | none => some k
  | some t => k.signal? t

/-- The completion of an access that is performed: delivery, the counter, and then the signal, which A owes where its counter is full (R39, R62). -/
def CoreSt.finishAccess (k : CoreSt) (a : Access) : CoreSt :=
  let k := match a.op with
    | .load b sg dst => { k.deliver a.id b sg dst a.got with loads := k.loads - 1 }
    | .loadRow row => { (k.setRow row (rowOfBytes a.got)).clearBusy row a.id with loads := k.loads - 1 }
    | _ => { k with stores := k.stores - 1 }
  { k with aq := k.aq.filter (fun b => b.id != a.id) }.signalOwe .a a.sig.toList

/-- The bytes that a store writes. -/
def AccessOp.bytes : AccessOp → List Byte
  | .store b d => bytesOfNat b d.toNat
  | .storeRow r => bytesOfRow r
  | _ => []

/-- An access that is performed completes. -/
def State.completeAccess (s : State) (c : Nat) (a : Access) : State := (s.modCore c (fun k => k.finishAccess a)).answer c (.access a.id)

/-- A store of bytes at a key, with its logical time; the stash line of its address is dirty. -/
def State.storeAt (s : State) (c key : Nat) (bs : List Byte) (ea : Nat) : State :=
  ((s.storeTime c key).write key bs).modCore c (fun k => k.stashDirty ea)

/-- What one place of an access does at a key, the checks passed (R256 to R258): it reads or writes the bytes of the place, with its logical
time. The line of a store whose data came in a marked flit is marked (R335). -/
def State.takePlace (s : State) (c : Nat) (a : Access) (key : Nat) : State :=
  let n := a.placeSize
  let ea := addrPlus a.ea (a.done * n)
  let a' := { a with done := a.done + 1, got := if a.op.writes then [] else a.got ++ s.coreBytes c key n }
  let spoilt := (s.spoilsOf c (.access a.id)).contains (ea / 128)
  let s := if a.op.writes then
      (if spoilt then s.markLine key else s).storeAt c key ((a.op.bytes.drop (a.done * n)).take n) ea
    else s.loadTime c key
  s.modCore c (fun k => { k with aq := k.aq.map (fun b => if b.id = a.id then a' else b) })

/-- An access that has met a fatal context error goes no further (R294). -/
def State.failAccess (s : State) (c : Nat) (a : Access) (kd ad : Nat) : State :=
  ((raiseFatal s c kd ad).modCore c (fun k => { k with aq := k.aq.filter (fun b => b.id != a.id) })).answer c (.access a.id)

/-- An access of a core takes its next place in the memory order (R256, R257): none while its request has not reached its home, or it waits for a stash
line; a failed check ends the gang (R122). -/
def State.nextPlace (s : State) (c : Nat) (a : Access) : Option State :=
  let n := a.placeSize
  let ea := addrPlus a.ea (a.done * n)
  if (s.core c).stashWaits ea || s.unanswered c (.access a.id) then none
  else match s.keyOf c ea a.op.writes with
    | .error (.fatal kd ad) => some (s.failAccess c a kd ad)
    | .error _ => none
    | .ok key =>
      let s := (s.cacheLeaf c ea).touch key n
      if !a.op.writes && (s.badAt key n || s.replyMarked c (.access a.id) || (s.core c).stashMarked ea) then some (s.failAccess c a kPoison ea)
      else some (s.takePlace c a key)

/-- The same, and it completes with its last place. -/
def State.performPlace (s : State) (c : Nat) (a : Access) : Option State :=
  (s.nextPlace c a).map (fun s => (((s.core c).aq.find? (fun b => b.id == a.id)).filter Access.performed).elim s (s.completeAccess c))

/-- The recalls that a core has held act once the accesses that waited for the reply are performed (R275): the line is invalid, its data and its
mark at its home (R232). -/
def State.actRecalls (s : State) (c : Nat) : State :=
  let k := s.core c
  let due := fun (x : StashLine) => x.recalled && !x.waiting && !k.aq.any (fun a => x.owes.contains a.id && !a.performed)
  (k.stash.filter due).foldl (fun s x => s.dropLine c x) s

/-- Whether a line of the stash is one that an access touches. -/
def StashLine.of (x : StashLine) (a : Access) : Bool := a.ea.toNat / 128 ≤ x.line && x.line ≤ (a.ea.toNat + a.op.size - 1) / 128

/-- Whether the reply of an access has come: its own, or those of its stash lines. -/
def State.replied (s : State) (c : Nat) (a : Access) : Bool :=
  !s.unanswered c (.access a.id) && !(s.core c).stash.any (fun x => x.waiting && x.of a)

/-- The next access of a core: one that its home has performed and whose reply, once lost, has come now (R274, R335), else the oldest that is not
performed. -/
def State.nextAccess (s : State) (c : Nat) : Option Access :=
  ((s.core c).aq.find? (fun a => a.performed && s.replied c a)).or ((s.core c).aq.find? (fun a => !a.performed))

/-- Whether the data of a load that its home has performed has come marked uncorrectable (R122, R335). -/
def State.cameMarked (s : State) (c : Nat) (a : Access) : Bool :=
  !a.op.writes && (s.replyMarked c (.access a.id) || (s.core c).stash.any (fun x => x.marked && x.of a))

/-- An access that its home has performed ends with its reply. -/
def State.endAccess (s : State) (c : Nat) (a : Access) : State :=
  if s.cameMarked c a then s.failAccess c a kPoison a.ea.toNat else s.completeAccess c a

/-- The next access of a core goes on if it is of a kind: it takes a place, and completes with its last. -/
def performHead (c : Nat) (kind : AccessOp → Bool) (s : State) : Res :=
  match s.nextAccess c with
  | some a =>
    if !kind a.op then .next s
    else if a.performed then .next (s.endAccess c a)
    else .next (((s.performPlace c a).getD s).actRecalls c)
  | none => .next s

/-- LOAD_DELIVERY (R121): the oldest access of A, a load, takes a place; with its last place the data is delivered. -/
def execLoadDelivery (core : Nat) (s : State) : Res :=
  performHead core (fun o => match o with
    | .load _ _ _ => true
    | _ => false) s

/-- STORE_PERFORMED (R121): the oldest access of A, a store, takes a place. -/
def execStorePerformed (core : Nat) (s : State) : Res := performHead core AccessOp.writes s

/-- ROW_LOAD_LANDED (R126): the oldest access of A, a row load, reads a line; with the second the row is written. -/
def execRowLoadLanded (core : Nat) (s : State) : Res :=
  performHead core (fun o => match o with
    | .loadRow _ => true
    | _ => false) s

/-! Full/empty operations (R127, R128). -/

/-- Whether a core's entries in xa0 and xa1 that an operation has read stay until it is performed: how many it pops from each. -/
def popsOf (k0 k : CoreSt) : Nat × Nat :=
  ((k0.xa.getD 0 []).length - (k.xa.getD 0 []).length, (k0.xa.getD 1 []).length - (k.xa.getD 1 []).length)

/-- Places a full/empty operation whose address lies in a scratchpad window and is aligned (R127): A stands at it until it is performed. `k`
is the core with the token taken and the operands read. -/
def State.placeFe (s : State) (op : AccessOp) (ea : Dword) (pops : Nat × Nat) (k : CoreSt) : Try State := do
  let c := s.cx.core
  need ((if op.writes then k.stores else k.loads) != 255 && !s.scoreBusy c ea.toNat op.size op.writes)
  let _ ← s.keyOf c ea.toNat op.writes
  illIf (!inSpad ea.toNat) .otherUse
  illIf (ea.toNat % op.size != 0) .otherUse
  let r : FeReq :=
    { id := k.nextId, op := op, ea := ea, sig := s.cx.mods.sig, wait := s.cx.mods.wait, pops := pops, next := s.cx.next, words := s.cx.words,
      order := s.feOrder, at_ := s.cycle }
  let s := if s.travels c ea.toNat then s.request c (.access k.nextId) else s
  .ok ({ s with feOrder := s.feOrder + 1 }.setCore c
    { k with
      xa := s.cxCore.xa
      fe := some r
      loads := if op.writes then k.loads else k.loads + 1
      stores := if op.writes then k.stores + 1 else k.stores
      nextId := k.nextId + 1 }).stay

/-- A full/empty instruction: its faults, its token, and its request, which it makes in the step that takes the token (R62). -/
def issueFe (s : State) (faults : List IllCause) (body : State → Try State) : Res :=
  match worst (faults ++ chainFaults s ++ placeFaults s) with
  | some c => .next (raiseIll s c)
  | none => conclude s (takeWait s >>= body)

/-- LDFE (R127). -/
def execLdfe (d a : BitVec 6) (imm : BitVec 8) (s : State) : Res :=
  issueFe s (aFaults d [a]) (fun s => do
    let (base, k) ← readA s.cxCore a
    let (dst, k') ← reserveDst k d 8
    s.placeFe (.load 8 false dst) (effAddr s base imm) (popsOf s.cxCore k) k')

/-- STFE (R127). -/
def execStfe (d a : BitVec 6) (imm : BitVec 8) (s : State) : Res :=
  issueFe s (fault? (!aSrcOk d || !aSrcOk a) .operand) (fun s => do
    let (base, k) ← readA s.cxCore a
    let (data, k) ← storeData k d 8
    s.placeFe (.store 8 data) (effAddr s base imm) (popsOf s.cxCore k) k)

/-- The address of a row operation, aligned or not. -/
def rowAddrAny (k : CoreSt) (r : RowOp) : Try Dword := do
  let (b, k) ← readA k r.base
  let (i, _) ← readA k r.index
  .ok (b + i)

/-- LDRFE (R127). -/
def execLdrfe (r : RowOp) (s : State) : Res :=
  issueFe s (rowFaults s r) (fun s => do
    let ea ← rowAddrAny s.cxCore r
    let row := xferRow s.cxCore r.desc
    need (!s.cxCore.rowBusy row)
    s.placeFe (.loadRow row) ea (0, 0) (s.cxCore.setBusy row s.cxCore.nextId))

/-- STRFE (R127). -/
def execStrfe (r : RowOp) (s : State) : Res :=
  issueFe s (rowFaults s r) (fun s => do
    let ea ← rowAddrAny s.cxCore r
    let row := xferRow s.cxCore r.desc
    need (!s.cxCore.rowBusy row)
    s.placeFe (.storeRow (s.cxCore.row row)) ea (0, 0) s.cxCore)

/-- The core and the lines that a full/empty operation of core c acts on (R127). -/
def State.feLines (s : State) (c : Nat) (r : FeReq) : Option (Nat × List Nat) :=
  (s.spadOf c r.ea.toNat).map (fun p => (p.1, (List.range ((r.op.size + 127) / 128)).map (p.2 / 128 + ·)))

/-- Whether an operation q of core e reached the lines of core d before r of core c did (R128): in an earlier cycle; in the same one, the operation
of d's own A before one that comes over the network; else in the order of issue. -/
def feBefore (d e : Nat) (q : FeReq) (c : Nat) (r : FeReq) : Bool :=
  if q.at_ ≠ r.at_ then q.at_ < r.at_ else if (e == d) ≠ (c == d) then e == d else q.order < r.order

/-- Whether a full/empty operation of a core stands at its lines: its request has reached them (R334, R335), and they have not answered it. -/
def State.feThere (s : State) (c : Nat) (r : FeReq) : Bool := !s.unanswered c (.access r.id) && (s.recorded c (.access r.id)).isNone

/-- Whether an older operation of the same direction, of any core, waits at one of some lines (R128). One of the other direction waits for what
this one does. -/
def State.feOlder (s : State) (c : Nat) (r : FeReq) : Bool :=
  match s.feLines c r with
  | none => false
  | some (d, ls) =>
    s.cores.any (fun e =>
      match e.2.fe with
      | some q =>
        e.2.resident && feBefore d e.1 q c r && s.feThere e.1 q && q.op.writes == r.op.writes &&
          (match s.feLines e.1 q with
           | some (d', ls') => d' == d && ls'.any ls.contains
           | none => false)
      | none => false)

/-- What a performed full/empty operation does on its own core: its pops, its delivery, its counter and its signal, which A owes where the
counter is full (R39, R62); and A goes on. -/
def CoreSt.finishFe (k : CoreSt) (r : FeReq) (got : List Byte) : CoreSt :=
  let k := { k with
    fe := none
    xa := (k.xa.setIfInBounds 0 ((k.xa.getD 0 []).drop r.pops.1)).setIfInBounds 1 ((k.xa.getD 1 []).drop r.pops.2) }
  let k := match r.op with
    | .load b sg dst => { k.deliver r.id b sg dst got with loads := k.loads - 1 }
    | .loadRow row => { (k.setRow row (rowOfBytes got)).clearBusy row r.id with loads := k.loads - 1 }
    | _ => { k with stores := k.stores - 1 }
  { k with a := k.a.advance r.next r.words }.signalOwe .a r.sig.toList

/-- What a full/empty operation does at its lines (R127, R128), once they are in the state that it needs, no older operation waits at them, none of
the local A comes to them in this very cycle and every older access of its strand is performed: it reads or writes them and turns their bits
in one step. The bytes read, and the state; none while it waits. -/
def State.feAct (s : State) (c : Nat) (r : FeReq) : Try (List Byte × State) :=
  match s.feLines c r with
  | none => .error (.fatal kSpad r.ea.toNat)
  | some (d, ls) => do
    need ((s.core c).allPerformed && s.feThere c r && ls.all (fun l => (s.core d).full.contains l != r.op.writes) && !s.feOlder c r && !s.cx.late)
    let key := spadKey d (ls.headD 0 * 128 + r.ea.toNat % 128)
    if !r.op.writes && (s.badAt key r.op.size || s.replyMarked c (.access r.id)) then .error (.fatal kPoison r.ea.toNat)
    else
      let got := s.coreBytes c key r.op.size
      let spoilt := (List.range ls.length).filter (fun i => (s.spoilsOf c (.access r.id)).contains (r.ea.toNat / 128 + i))
      let s := if r.op.writes then (spoilt.foldl (fun s i => s.markLine (key + 128 * i)) s).write key r.op.bytes else s
      .ok (got, s.modCore d (fun k => { k with full := if r.op.writes then k.full ++ ls else k.full.filter (fun l => !ls.contains l) }))

/-- FULL_EMPTY_PERFORM (R127, R128): the waiting operation of a core is performed, and A goes on; one that is performed and whose reply was lost
ends with the result that was recorded (R274). -/
def execFullEmptyPerform (core : Nat) (s : State) : Res :=
  match (s.core core).fe with
  | none => .next s
  | some r =>
    match s.recorded core (.access r.id) with
    | some got =>
      if s.unanswered core (.access r.id) then .next s
      else if !r.op.writes && s.replyMarked core (.access r.id) then .next (raiseFatal s core kPoison r.ea.toNat)
      else .next ((s.setCore core ((s.core core).finishFe r got)).answer core (.access r.id))
    | none =>
      if (s.taskOf core).elim false Task.halted then .next s
      else match s.feAct core r with
        | .error (.fatal kd ad) => .next (raiseFatal s core kd ad)
        | .error _ => .next s
        | .ok (got, t) => .next ((t.setCore core ((t.core core).finishFe r got)).answer core (.access r.id))

/-! PROBE (R129, R298, R299). -/

/-- The failure of a page for a probe: of its translation or of its permission. -/
def State.probePage (s : State) (c va : Nat) (write : Bool) : Option XlErr :=
  match s.coreLeaf c va >>= s.useLeaf (s.core c).part va write with
  | .ok _ => none
  | .error e => some e

/-- The failing pages of the global part of a range, ascending: page address and number of the failure. A page of 512 MiB that is mapped is one
page. -/
def State.badPages (s : State) (c first last : Nat) (write : Bool) : List (Nat × Nat) :=
  ((List.range (last / 2 ^ 16 - first / 2 ^ 16 + 1)).filterMap (fun i =>
    let va := (first / 2 ^ 16 + i) * 2 ^ 16
    match s.probePage c va write with
    | none => none
    | some e =>
      let page := match s.coreLeaf c va with
        | .ok l => l.vpage * 2 ^ 16
        | .error _ => va
      some (page, e.num))).eraseDups

/-- The check of the part of a range that lies in the scratchpad regions (R122): the address that fails. -/
def State.probeSpad (s : State) (c first last : Nat) : Option Nat :=
  let lo := max first 0x00FFF00000000000
  if last < lo then none
  else match s.spadOf c lo, s.spadOf c last with
    | some (d, f), some (e, g) => if d = e ∧ g = f + (last - lo) then none else some (lo + ((s.core c).spad * 2 ^ 14 - f))
    | some (_, f), none => some (lo + ((s.core c).spad * 2 ^ 14 - f))
    | none, _ => some lo

/-- The bytes of a fault record (R298). -/
def faultRecord (k : CoreSt) (c page kind : Nat) (write : Bool) : List Byte :=
  bytesOfNat 8 (k.task * 2 ^ 32 + k.rank * 2 ^ 16 + coordOfCore c) ++ bytesOfNat 8 page ++
    bytesOfNat 8 (k.seq.toNat * 2 ^ 32 + (if write then 16 else 0) + kind) ++ List.replicate 40 0

/-- Writes the fault records of a probe while the ring has room: the pages that are left. -/
def State.writeFaults (c : Nat) (write : Bool) : List (Nat × Nat) → State → List (Nat × Nat) × State
  | [], s => ([], s)
  | (page, kind) :: r, s =>
    let k := s.core c
    let p := s.part k.part
    if !p.frOn || 2 ^ p.frN ≤ p.frProd - p.frCons then ((page, kind) :: r, s)
    else
      let s := s.partWrite k.part (p.frBase + 64 + 64 * (p.frProd % 2 ^ p.frN)) (faultRecord k c page kind write)
      let s := s.partWrite k.part p.frBase (bytesOfNat 8 (p.frProd + 1))
      let s := (s.modPart k.part (fun q => { q with frProd := q.frProd + 1 })).modCore c (fun k => { k with seq := k.seq + 1 })
      State.writeFaults c write r ((s.msix k.part 2).postEvent (some k.part) 9 0 (p.frProd + 1) 0)

/-- The trap class that stands for a suspension by PROBE in the list of a gang's stops (R299). -/
def probeClass : Nat := 255

/-- The records of a probe that failed: those for which the ring has room; with the last one, the context is to be suspended (R299). -/
def probeRecords (s : State) (write : Bool) (bad : List (Nat × Nat)) : Res :=
  let (rest, s) := State.writeFaults s.cx.core write bad s
  let s := s.modCx (fun k => { k with probe := some rest })
  if rest.isEmpty then .next (raiseTrap s s.cx.core .a s.cx.pc probeClass 0 0 s.cx.pc 0) else .next s

/-- PROBE (R129). -/
def execProbe (w : BitVec 1) (a b : BitVec 6) (s : State) : Res :=
  let k := s.cxCore
  let c := s.cx.core
  match k.probe with
  | some bad => probeRecords s (w = 1) bad
  | none =>
    let faults := fault? (!aRegOk a || !aRegOk b) .operand ++ chainFaults s ++ placeFaults s
    match worst faults, readA k a, readA k b with
    | none, .ok (first, _), .ok (len, _) =>
      let last := first.toNat + len.toNat - 1
      let idle := k.loads = 0 ∧ k.stores = 0 ∧ k.copies = 0
      let bad := s.badPages c first.toNat (min last 0x00FFEFFFFFFFFFFF) (w = 1)
      let probes := idle ∧ len ≠ 0 ∧ len.toNat ≤ 2 ^ 32 ∧ last < 2 ^ 56 ∧ (s.probeSpad c first.toNat last).isNone ∧
        first.toNat ≤ 0x00FFEFFFFFFFFFFF ∧ !bad.isEmpty ∧ (takeWait s).isOk
      if probes then probeRecords s (w = 1) bad
      else issue s faults (fun s => do
        need (k.loads == 0 && k.stores == 0 && k.copies == 0)
        if len = 0 then .ok s
        else if 2 ^ 32 < len.toNat then .error (.ill .otherUse)
        else if 2 ^ 56 ≤ first.toNat then .error (.fatal kHighBits first.toNat)
        else if 2 ^ 56 ≤ last then .error (.fatal kHighBits last)
        else match s.probeSpad c first.toNat last with
          | some ad => .error (.fatal kSpad ad)
          | none => .ok s)
    | _, _, _ => issue s faults (fun _ => .error .stall)

/-- FAULT_RING_POLL (R298): the device reads CONS again for a probe that waits for room. -/
def execFaultRingPoll (core : Nat) (s : State) : Res :=
  let part := (s.core core).part
  .next (s.modPart part (fun p => { p with frCons := s.partNat part (p.frBase + 8) 8 }))

/-! Replies and recalls of a stash (R261, R275). -/

/-- The accesses of a core take their places by `place`, in the order of issue, while they lie in a line and can. -/
def State.performLine (place : State → Access → Option State) (c line : Nat) : Nat → State → State
  | 0, s => s
  | fuel + 1, s =>
    match (s.core c).aq.find? (fun a => !a.performed) with
    | some a =>
      if addrPlus a.ea (a.done * a.placeSize) / 128 = line then
        match place s a with
        | some s' => State.performLine place c line fuel s'
        | none => s
      else s
    | none => s

/-- A line of a core's stash waits for its reply, or no more. -/
def CoreSt.lineWaiting (k : CoreSt) (line : Nat) (b : Bool) : CoreSt :=
  { k with stash := k.stash.map (fun x => if x.line == line then { x with waiting := b } else x) }

/-- The home of a line has given it to a core, and the reply has been lost (R274): the accesses that wait for the line take their places there with
what the line holds now, and end when the reply comes again. -/
def State.homeLine (s : State) (c line : Nat) : State :=
  (State.performLine (fun s a => s.nextPlace c a) c line (256 * (s.core c).aq.length) (s.modCore c (fun k => k.lineWaiting line false))).modCore c
    (fun k => k.lineWaiting line true)

/-- The accesses of a core that are not performed and touch a line. -/
def CoreSt.waitersOf (k : CoreSt) (line : Nat) : List Nat :=
  (k.aq.filter (fun a => !a.performed && a.ea.toNat / 128 ≤ line && line ≤ (a.ea.toNat + a.op.size - 1) / 128)).map (·.id)

/-- A payload flit with data that a request of a core carries has come to its home marked uncorrectable (R335): for a store the line is marked as
the store is performed; an engine command has made its writes as it started, and its line is marked now. One of a line that the command does not
write is none of it. -/
def State.spoil (s : State) (c tag line : Nat) : State :=
  match s.outstanding.find? (fun o => o.core == c && o.tag == tag && o.sent) with
  | none => s
  | some o =>
    match o.what with
    | .access _ => { s with outstanding := s.outstanding.map (fun q => if q.tag = tag then { q with spoils := q.spoils ++ [line] } else q) }
    | .engine e =>
      let writes := ((s.core c).engine e).active.any (fun m =>
        match m.op with
        | .tfetch _ _ _ => false
        | _ => m.writes.isEmpty || m.writes.any (·.overlaps (s.scoreAddr c (line * 128)) 128))
      (match writes, s.keyOf c (line * 128) true with
       | true, .ok key => s.markLine key
       | _, _ => s)
    | _ => s

/-- DATA_REPLY_ARRIVAL (R275, R335): the reply of a line is applied, the accesses that wait for it are performed in issue order, and then a
recall held for it takes effect: where one of them must first wait for an older access of another line, the recall waits for it
(log entry 70). The reply of another request with a marked payload flit marks that request; one of its own data marks the line that it writes. -/
def execDataReplyArrival (core : Nat) (reply : DataReply) (s : State) : Res :=
  match reply with
  | .marked tag => .next { s with outstanding := s.outstanding.map (fun o => if o.core = core ∧ o.tag = tag then { o with marked := true } else o) }
  | .spoilt tag line => .next (s.spoil core tag line)
  | .line line marked =>
    let k := s.core core
    match k.stash.find? (fun x => x.line == line && x.waiting) with
    | none => .next s
    | some x =>
      if s.unanswered core (.line line) then .next s
      else
        let y := { x with waiting := false, marked := marked, owes := k.waitersOf line }
        let s := (s.answer core (.line line)).setCore core { k with stash := k.stash.map (fun z => if z.line == line then y else z) }
        .next ((State.performLine (fun s a => s.performPlace core a) core line (256 * k.aq.length) s).actRecalls core)

/-- RECALL_ARRIVAL (R261): a recall that carries the tag of a reply is held until that reply has been applied. One of an earlier reply, whose line
has gone since, finds nothing to give up. -/
def execRecallArrival (core : Nat) (order : Recall) (s : State) : Res :=
  match (s.core core).stash.find? (fun x => x.line == order.line && x.tag == order.tag) with
  | none => .next s
  | some _ =>
    .next ((s.modCore core (fun k =>
      { k with stash := k.stash.map (fun x => if x.line == order.line then { x with recalled := true } else x) })).actRecalls core)

end Sys2Proof.Machine
end

