-- ==== Sys2Proof/Machine/Template.lean ====
section
/-! DEFINITION. Matrix templates (R205), patches (R86), the whole check of a command (R206), the matrix queue's entry (R208, R209), watermarks
(R216) and the licence of a pair (R200 to R203). -/

namespace Sys2Proof.Machine

/-- Where a field of a template lies: its first bit and its width, by field select (R205). -/
def tplPos (f : Nat) : Nat × Nat :=
  match f with
  | 1 => (0, 2) | 2 => (2, 4) | 3 => (6, 6) | 4 => (12, 6) | 5 => (18, 1) | 6 => (19, 6) | 7 => (25, 6) | 8 => (31, 9) | 9 => (40, 7)
  | 10 => (47, 7) | 11 => (54, 2) | 12 => (56, 1) | 13 => (57, 4) | 14 => (61, 4) | 15 => (65, 5) | 16 => (70, 5) | 17 => (75, 7)
  | _ => (82, 46)

/-- A field of a template, by field select (R205). -/
def tplField (t : BitVec 128) (f : Nat) : Nat := t.toNat / 2 ^ (tplPos f).1 % 2 ^ (tplPos f).2

/-- The fields of a template, by name (R205). -/
abbrev tOpk (t : BitVec 128) : Nat := tplField t 1
abbrev tFmt (t : BitVec 128) : BitVec 4 := BitVec.ofNat 4 (tplField t 2)
abbrev tAKind (t : BitVec 128) : Nat := tplField t 3 / 16
abbrev tAIdx (t : BitVec 128) : Nat := tplField t 3 % 16
abbrev tBKind (t : BitVec 128) : Nat := tplField t 4 / 16
abbrev tBIdx (t : BitVec 128) : Nat := tplField t 4 % 16
abbrev tAcc (t : BitVec 128) : Nat := tplField t 5
abbrev tARow (t : BitVec 128) : Nat := tplField t 6
abbrev tBRow (t : BitVec 128) : Nat := tplField t 7
abbrev tKlen (t : BitVec 128) : Nat := tplField t 8
abbrev tM (t : BitVec 128) : Nat := tplField t 9
abbrev tN (t : BitVec 128) : Nat := tplField t 10
abbrev tMode (t : BitVec 128) : Nat := tplField t 11
abbrev tTrans (t : BitVec 128) : Nat := tplField t 12
abbrev tScaleA (t : BitVec 128) : Nat := tplField t 13
abbrev tScaleB (t : BitVec 128) : Nat := tplField t 14
abbrev tSigTk (t : BitVec 128) : Nat := tplField t 15
abbrev tWaitTk (t : BitVec 128) : Nat := tplField t 16
abbrev tWmStep (t : BitVec 128) : Nat := tplField t 17

/-- A token field with an enable (R205). -/
def tokenOf (f : Nat) : Option (BitVec 4) := if 16 ≤ f then some (BitVec.ofNat 4 f) else none

/-- The faults of a field select and a value (R85, R86). -/
def patchFaults (fsel : BitVec 5) (val : BitVec 16) : List IllCause :=
  if 18 ≤ fsel.toNat then [.reservedValue]
  else if fsel = 0 then fault? (val != 0) .templateValue
  else fault? (2 ^ (tplPos fsel.toNat).2 ≤ val.toNat) .templateValue

/-- A template with one field replaced (R86). -/
def patchTpl (t : BitVec 128) (fsel : BitVec 5) (val : BitVec 16) : BitVec 128 :=
  if fsel = 0 then t
  else
    let p := tplPos fsel.toNat
    BitVec.ofNat 128 (t.toNat % 2 ^ p.1 + 2 ^ p.1 * (val.toNat % 2 ^ p.2) + 2 ^ (p.1 + p.2) * (t.toNat / 2 ^ (p.1 + p.2)))

/-- The rows that B takes (R206). -/
def tRowsB (t : BitVec 128) : Nat := if tTrans t = 0 then tKlen t else tN t

/-- Whether a source index is legal for its kind (R206). -/
def srcIdxOk (kind idx : Nat) : Bool :=
  match kind with
  | 0 => true
  | 1 => idx == 0
  | _ => idx < 4

/-- The checks of R206 but the demand. -/
def tplOk (t : BitVec 128) : Bool :=
  let w := typeWidth (tFmt t)
  let lanes := 256 / w
  tplField t 18 == 0 && srcIdxOk (tAKind t) (tAIdx t) && srcIdxOk (tBKind t) (tBIdx t) &&
  (if tAKind t = 0 then tARow t + tM t ≤ 64 else tARow t == 0) && 1 ≤ tM t && tM t ≤ 64 && 1 ≤ tN t && tN t ≤ 64 &&
  (match tOpk t with
   | 0 =>
     [0, 1, 2, 3, 4, 5, 8].contains (tFmt t).toNat && 1 ≤ tKlen t && tKlen t ≤ lanes && (tTrans t == 1 || tN t ≤ lanes) &&
     !(tAKind t == tBKind t && (tAKind t == 1 || tAKind t == 3 || (tAKind t == 2 && tAIdx t == tBIdx t))) &&
     (if tBKind t = 0 then tBRow t + tRowsB t ≤ 64 else tBRow t == 0) && tMode t ≤ 2 &&
     (((tFmt t).toNat == 8) || (tScaleA t < 8 && tScaleB t < 8)) && 1 ≤ tWmStep t && tWmStep t ≤ 64
   | 1 =>
     (tFmt t).toNat ≤ 12 && tKlen t == 0 && tM t ≤ lanes && tN t ≤ lanes && tBKind t == 0 && tBRow t + tN t ≤ 64 && tMode t == 0 &&
     tAcc t == 0 && tTrans t == 0 && tScaleA t == 0 && tScaleB t == 0 && tWmStep t == 0
   | _ => false)

/-- The faults of a formed command (R206): cause 11, and cause 12 for a tile register at or above the demand. -/
def tplFaults (demand : Nat) (t : BitVec 128) : List IllCause :=
  fault? (!tplOk t) .templateValue ++
    fault? ((tAKind t == 0 && demand ≤ tAIdx t) || (tBKind t == 0 && demand ≤ tBIdx t)) .demand

/-! The queue. -/

/-- Whether a command is an MX's: a formed template. -/
def MatOp.isMx : MatOp → Bool
  | .tpl _ _ => true
  | _ => false

/-- The accumulator that a command writes, if it is a writer of R216. -/
def MatOp.writes : MatOp → Option Nat
  | .tpl t _ => if tOpk t = 0 then some (tAcc t) else none
  | .zero a => some a.toNat
  | .drain f _ _ _ => if f.clr = 1 then some f.acc.toNat else none

/-- The watermark of an accumulator: the least progress among its writers that have not completed, else 64 (R216). -/
def CoreSt.wmark (k : CoreSt) (c : Nat) : Nat := (k.mq.filter (fun m => m.op.writes == some c)).foldl (fun a m => min a m.q) 64

/-- The tile rows that a command writes, busy from its entry (R215, R219). -/
def MatCmd.destRows (m : MatCmd) : List RowName :=
  match m.op with
  | .tpl t _ => if tOpk t = 1 then (List.range (tN t)).map (fun j => .tile m.breg (tBRow t + j)) else []
  | .drain f dreg _ _ =>
    if f.dkind = 0 then (List.range (f.nrm1.toNat + 1)).map (fun r => .tile dreg (f.drow0.toNat + r)) else []
  | .zero _ => []

/-- Whether the matrix queue can take a command (R208). -/
def CoreSt.mqRoom (k : CoreSt) : Bool := k.mq.length < 16 && k.tileops != 255

/-- Enters a command into the matrix queue (R208): the tile-operations counter rises, its destination rows are busy. -/
def CoreSt.enterMat (k : CoreSt) (op : MatOp) (areg breg : Nat) (sig : Option (BitVec 4)) : CoreSt :=
  let m : MatCmd :=
    { id := k.nextId, op := op, areg := areg, breg := breg, sig := sig, started := false, scaleA := 0, scaleB := 0, gotA := [], gotB := [],
      rowsOut := 0, q := 0, executed := false, events := [] }
  let k := { k with mq := k.mq ++ [m], tileops := k.tileops + 1, nextId := k.nextId + 1 }
  m.destRows.foldl (fun k r => k.setBusy r m.id) k

/-- Enters the command of a formed template, its registers renamed by M's bases as they stand at the entry (R56, R206), also those of a follow-on
command, for which R56 names no strand (log entry 66, the model's choice). -/
def CoreSt.enterTpl (k : CoreSt) (t : BitVec 128) (sat : Bool) (sig : Option (BitVec 4)) : CoreSt :=
  k.enterMat (.tpl t sat) (physT k.m k.demand (tAIdx t)) (physT k.m k.demand (tBIdx t)) sig

/-- The engine presents the follow-on word of a COPYM (R210): the template as it stands, patched, goes to the side port and
counts in the tile operations from now on (R59); one that R206 refuses is discarded, and an ILL is due in M. -/
def CoreSt.presentSide (k : CoreSt) (w : Word) : CoreSt :=
  let t := patchTpl (tget 0 k.tpl (bits w 5 6).toNat) (bits w 11 5) (bits w 16 16)
  match worst (patchFaults (bits w 11 5) (bits w 16 16) ++ tplFaults k.demand t) with
  | some c => { k with mIll := some (if c = .demand then .demand else .templateValue) }
  | none => { k with side := some { tpl := t, judged := false }, tileops := k.tileops + 1 }

/-! Pacing (R31, R350). -/

/-- The pacing floor of an engine on a core: that of CLK_CFG, raised by the throttle (R344, R350, R351). -/
def State.paceFloor (s : State) (c e : Nat) : Nat :=
  max (s.pacing.getD e 0).toNat ((s.core c).floorUp.getD e 0).toNat

/-- The pacing gap in force for an engine (R350). -/
def State.paceGap (s : State) (c e : Nat) : Nat := max ((s.core c).pace.getD e 0).toNat (s.paceFloor c e)

/-- Whether the pacing gap of an engine has passed since a command that it took, in cycles of its domain (R31, R350). `last` is one more than
that reference cycle, or 0. -/
def State.gapPast (s : State) (c e dom last : Nat) : Bool :=
  last == 0 || last + s.paceGap c e * (s.core c).div.toList.getD dom 1 ≤ s.cycle + 1

/-! The licence. -/

/-- Whether a core holds its pair's licence. -/
def State.holdsLic (s : State) (c : Nat) : Bool := (s.pair (pairOf c)).holder == some c

/-- The fault of an MLIC in a task whose record does not declare the licence (R202). -/
def licFaults (s : State) : List IllCause := fault? (!s.cxCore.lic) .otherUse

/-- The template that an MX forms (R86, R208). -/
def mxForm (k : CoreSt) (tpl : BitVec 6) (fsel : BitVec 5) (val : BitVec 16) : BitVec 128 := patchTpl (tget 0 k.tpl tpl.toNat) fsel val

/-- The faults of an MX (R86, R206, R208). -/
def mxFaults (s : State) (fsel : BitVec 5) (val : BitVec 16) (t : BitVec 128) : List IllCause :=
  patchFaults fsel val ++ tplFaults s.cxCore.demand t ++
    fault? (s.cx.mods.mode != 0 || (tOpk t == 1 && s.cx.mods.rs.isSome)) .otherUse

/-- Whether an MLIC.ACQ lacks the licence alone (R39, R62, R200): it has no fault, its token is there and its signal can be made. -/
def acqWaits (s : State) : Bool :=
  (licFaults s ++ rsFault s).isEmpty &&
    (match takeWait s with
     | .ok u => !u.sigStuck
     | .error _ => false)

/-- Whether an instruction of M, in the state that its turn issues it in, waits for the licence (R200, R203): an MLIC.ACQ, or an MX of a core that is
owed the licence, which acquires it when M reaches the word, whatever the wait part of its TK prefix finds (R208). -/
def takesLic (i : Instr) (s : State) : Bool :=
  match i with
  | .mlicAcq => acqWaits s
  | .mx tpl fsel val => s.cxCore.owed && (mxFaults s fsel val (mxForm s.cxCore tpl fsel val) ++ placeFaults s).isEmpty
  | _ => false

/-- Whether a core waits for the licence: its M strand, or the command at its side port, for a core that is owed it (R201, R203). The request of an
M that a stop has halted is gone with its stall (R137). -/
def State.asksLic (s : State) (c : Nat) : Bool :=
  (match strandSoon s c .m with
   | .run i s' => takesLic i s'
   | .idle _ => false) ||
    ((s.core c).owed && (s.core c).side.any (fun w => !w.judged))

/-- The requests for a pair's licence that stand (R137, R201). -/
def State.licAsked (s : State) (p : Nat) : List Nat := (s.pair p).pending.filter s.asksLic

/-- Whether a core that asks for the licence may take it now (R200, R201): it holds it, or it is free, the twin has no request pending, and
no z1 twin takes it in the same cycle. -/
def State.mayTakeLic (s : State) (c : Nat) : Bool :=
  let p := s.pair (pairOf c)
  match p.holder with
  | some h => h == c
  | none => !(s.licAsked (pairOf c)).contains (twinOf c) && !s.cx.late

/-- A core takes the licence; a debt is settled with it (R203). -/
def State.takeLic (s : State) (c : Nat) : State :=
  let p := s.pair (pairOf c)
  (s.setPair (pairOf c) { p with holder := some c, pending := p.pending.filter (· != c) }).modCore c (fun k => { k with owed := false })

/-- A core gives up the licence. -/
def State.dropLic (s : State) (c : Nat) : State :=
  let p := s.pair (pairOf c)
  s.setPair (pairOf c) { p with holder := if p.holder = some c then none else p.holder, pending := p.pending.filter (· != c) }

/-- A core waits for the licence. A request that a free licence does not meet only because the twin asks in the same cycle is not pending: the
twin takes it (R201). -/
def State.waitLic (s : State) (c : Nat) : State :=
  let p := s.pair (pairOf c)
  if p.pending.contains c || (p.holder.isNone && !(s.licAsked (pairOf c)).contains (twinOf c)) then s else s.setPair (pairOf c) { p with pending := p.pending ++ [c] }

end Sys2Proof.Machine
end

