-- ==== Sys2Proof/Machine/Array.lean ====
section
/-! DEFINITION. The matrix array (R209 to R220): operand rows, MMA, MXPOSE, MZERO, MDRAIN, completion, and the grant of a
licence (R201). A command takes its operand rows as they come, over as many steps as it needs. -/

namespace Sys2Proof.Machine

/-- Weir access needs the twin to run a member of the same gang (R34, R204). -/
def State.weirOk (s : State) (c : Nat) : Bool := s.inGang c (twinOf c)

/-- A row that the array reads: it waits for writers in flight, but not for commands of its own queue, which run one at a time (R209, R211). -/
def CoreSt.arrayRowFree (k : CoreSt) (n : RowName) : Bool :=
  !k.busy.any (fun b => b.row == n && !k.mq.any (fun m => m.id == b.owner))

/-- Row r of an operand of a given kind, index and, for a tile register, physical number and first row (R211); stalls while it is not there. -/
def State.takeRow (s : State) (c kind idx reg row0 r : Nat) : Try (Row × State) :=
  let k := s.core c
  match kind with
  | 0 => if k.arrayRowFree (.tile reg (row0 + r)) then .ok (k.row (.tile reg (row0 + r)), s) else .error .stall
  | 1 =>
    match k.fq with
    | x :: q => .ok (x, s.setCore c { k with fq := q })
    | [] => .error .stall
  | 2 =>
    match k.li.getD idx [] with
    | x :: _ => if k.liMarked idx then .error (.fatal kPoison 0) else .ok (x, s.setCore c (k.popLi idx))
    | [] => .error .stall
  | _ =>
    if !s.weirOk c then .error (.fatal kWeir 0)
    else
      let p := s.pair (pairOf c)
      let i := (idx + r) % 4
      if p.twFull.getD i false then
        .ok (p.tw.getD i 0, s.setPair (pairOf c) { p with twFull := p.twFull.setIfInBounds i false })
      else .error .stall

/-- Rows of an operand from the one after those already taken, as many as are there: the rows, the state, and a fatal error met. -/
def State.takeRows (c kind idx reg row0 n : Nat) : Nat → List Row → State → List Row × State × Option (Nat × Nat)
  | 0, got, s => (got, s, none)
  | fuel + 1, got, s =>
    if n ≤ got.length then (got, s, none)
    else match s.takeRow c kind idx reg row0 got.length with
      | .ok (x, s') => State.takeRows c kind idx reg row0 n fuel (got ++ [x]) s'
      | .error (.fatal kd a) => (got, s, some (kd, a))
      | .error _ => (got, s, none)

/-- The head command of a core's array. -/
def State.headCmd (s : State) (c : Nat) : Option MatCmd := (s.core c).mq.head?

/-- Replaces the head command. -/
def State.setHead (s : State) (c : Nat) (m : MatCmd) : State := s.modCore c (fun k => { k with mq := m :: k.mq.drop 1 })

/-- Starts a command of a template: it takes the WAITTK token and reads the scale rows (R209, R212). None while it waits. -/
def State.startTpl (s : State) (c : Nat) (m : MatCmd) (t : BitVec 128) : Option (State × MatCmd) :=
  if m.started then some (s, m)
  else
    let k := s.core c
    let a := tScaleA t
    let b := tScaleB t
    if (8 ≤ a && !k.arrayRowFree (.operand (a % 8))) || (8 ≤ b && !k.arrayRowFree (.operand (b % 8))) then none
    else
      let m' := { m with started := true, scaleA := k.row (.operand (a % 8)), scaleB := k.row (.operand (b % 8)) }
      match tokenOf (tWaitTk t) with
      | none => some (s, m')
      | some tk => (k.take? tk).map (fun k => (s.setCore c k, m'))

/-- The array takes a command from its queue: the pacing gap has passed (R31). -/
def State.arrayGap (s : State) (c : Nat) : Bool := s.gapPast c 1 2 (s.core c).mStart

/-- The reference cycle of a command that the array takes is noted. -/
def State.noteStart (s : State) (c : Nat) : State := s.modCore c (fun k => { k with mStart := s.cycle + 1 })

/-- Starts a command of a template once the gap has passed. -/
def State.startCmd (s : State) (c : Nat) (m : MatCmd) (t : BitVec 128) : Option (State × MatCmd) :=
  if m.started then some (s, m) else if s.arrayGap c then (s.startTpl c m t).map (fun r => (r.1.noteStart c, r.2)) else none

/-! MMA. -/

/-- The accumulator format of an element TYPE (R147 to R149, R213): EF128 for BF16 and FP32, else FX128. -/
def mmaUsesEf (fmt : BitVec 4) : Bool := fmt = 0 || fmt = 1

/-- The largest finite value of a format with infinities. -/
def FFmt.maxFinite (f : FFmt) (neg : Bool) : Val :=
  .fin neg (2 ^ (f.fb + 1) - 1) (((2 ^ f.eb - 2 : Nat) : Int) - f.bias - f.fb) false

/-- An operand of an MMA into FX128 (R151): its replacement and the event. -/
def fxOperand (fmt : BitVec 4) (code : Nat) : Val × List Nat :=
  match kindOfType fmt, decodeVal (kindOfType fmt) code with
  | _, .nan => (.absent, [evINV])
  | .fl f, .inf n => (f.maxFinite n, [evOVF])
  | _, v => (v, [])

/-- A scale exponent (R212): none where it is absent or out of range, with whether that counts INV. -/
def scaleExp (enabled : Bool) (code : Nat) : Option Int × Bool :=
  if !enabled then (some 0, false)
  else
    let x := (BitVec.ofNat 8 code).toInt
    if code = 0x80 then (none, false) else if x < -16 ∨ 16 < x then (none, true) else (some x, false)

/-- An FX128 value in units of 2^-48; an absent code stands for nothing. -/
def fxInt (code : Nat) : Int :=
  match decodeVal .fx code with
  | .fin n m _ _ => signedMag n m
  | _ => 0

/-- The units of 2^-48 of a product. -/
def Val.fxUnits : Val → Int
  | .fin n m e _ => signedMag n (if 0 ≤ e + 48 then m * 2 ^ (e + 48).toNat else m / 2 ^ (-(e + 48)).toNat)
  | _ => 0

/-- The largest FX128 magnitude in units of 2^-48 (R148). -/
def fxMax : Int := (2 ^ 127 : Nat) - 1

/-- A running FX128 sum: value, present products, and whether it has clamped. -/
structure FxSum where
  v : Int
  n : Nat
  clamped : Bool

/-- One exact addition, clamped (R150). -/
def FxSum.add (a : FxSum) (p : Int) : FxSum :=
  let x := a.v + p
  if x < -fxMax then { v := -fxMax, n := a.n + 1, clamped := true }
  else if fxMax < x then { v := fxMax, n := a.n + 1, clamped := true }
  else { v := x, n := a.n + 1, clamped := a.clamped }

/-- The new value and the number of present products of an element that accumulates in FX128, with its events and whether it saturated
(R150, R151, R213). An element that replaces an infinity and clamps counts OVF and not SAT (R161; log entry 66, the model's choice). -/
def mmaFx (fmt : BitVec 4) (sub sat : Bool) (old : Int) (e : Option Int) (ab : List (Nat × Nat)) : Nat × Nat × List Nat × Bool :=
  let ops := ab.map (fun p => (fxOperand fmt p.1, fxOperand fmt p.2))
  let evs := (ops.flatMap (fun o => o.1.2 ++ o.2.2)).eraseDups
  let r := ops.foldl (fun (a : FxSum) o =>
    match e, o.1.1, o.2.1 with
    | none, _, _ | _, .absent, _ | _, _, .absent => a
    | some x, u, w =>
      let p := ((mulVal u w).1.scale x).fxUnits
      a.add (if sub then -p else p)) { v := old, n := 0, clamped := false }
  let clamp := if r.clamped then [if sat then evSAT else evOVF] else []
  (twos 128 (r.v < 0) r.v.natAbs, r.n, if evs.contains evOVF then evs else evs ++ clamp, r.clamped)

/-- The same in EF128, each addition rounded to nearest-even (R149, R214). -/
def mmaEf (fmt : BitVec 4) (sub sat : Bool) (old : Nat) (ab : List (Nat × Nat)) : Nat × Nat × List Nat :=
  let k := kindOfType 14
  let r := ab.foldl (fun (a : Nat × Nat × List Nat) p =>
    match decodeVal (kindOfType fmt) p.1, decodeVal (kindOfType fmt) p.2 with
    | .absent, _ | _, .absent => a
    | u, w =>
      let (x, e1) := mulVal u w
      let (y, e2) := addVal (decodeVal k a.1) (if sub then x.neg else x)
      let (c, e3) := roundVal y k 0 sat
      (c, a.2.1 + 1, a.2.2 ++ e1 ++ e2 ++ e3)) (old, 0, [])
  (r.1, r.2.1, r.2.2.eraseDups)

/-- A count with new contributors (R150, R213): whether it saturated. -/
def addCount (old n : Nat) : Nat × Bool := (min (old + n) (2 ^ 32 - 1), 2 ^ 32 - 1 < old + n)

/-- One result element (R213): value, count, events, whether the accumulator's flag is set. -/
def mmaElem (t : BitVec 128) (sat : Bool) (oldV oldN : Nat) (e : Option Int) (expInv : Bool) (ab : List (Nat × Nat)) :
    Nat × Nat × List Nat × Bool :=
  let overwrite := tMode t = 1
  let fresh := overwrite || oldN == 0
  let sub := tMode t = 2
  let n0 := if overwrite then 0 else oldN
  let inv := if expInv then [evINV] else []
  if mmaUsesEf (tFmt t) then
    let (v, n, evs) := mmaEf (tFmt t) sub sat (if fresh then 0 else oldV) ab
    let (cnt, full) := addCount n0 n
    (v, cnt, evs, full)
  else
    let (v, n, evs, clamped) := mmaFx (tFmt t) sub sat (if fresh then 0 else fxInt oldV) e ab
    let (cnt, full) := addCount n0 n
    (v, cnt, (inv ++ evs).eraseDups, clamped || full)

/-- The lanes of an operand row that a command uses. -/
def fmtLanes (t : BitVec 128) (r : Row) : List Nat := lanesOf r (typeWidth (tFmt t)) 0 (256 / typeWidth (tFmt t))

/-- Column j of B as K codes (R205). -/
def bColumn (t : BitVec 128) (b : List Row) (j : Nat) : List Nat :=
  if tTrans t = 1 then (fmtLanes t (b.getD j 0)).take (tKlen t)
  else (b.take (tKlen t)).map (fun r => (fmtLanes t r).getD j 0)

/-- Row i of the result: the new accumulator row, events, and whether the flag is set. -/
def mmaRow (t : BitVec 128) (sat : Bool) (sa sb : Row) (a b : List Row) (i : Nat) (old : AccRow) : AccRow × List Nat × Bool :=
  let ra := (fmtLanes t (a.getD i 0)).take (tKlen t)
  let (ea, ia) := scaleExp (8 ≤ tScaleA t) ((lanesOf sa 1 i 1).getD 0 0)
  let es := (List.range 64).map (fun j =>
    if j < tN t then
      let (eb, ib) := scaleExp (8 ≤ tScaleB t) ((lanesOf sb 1 j 1).getD 0 0)
      let e := match ea, eb with
        | some x, some y => some (x + y)
        | _, _ => none
      mmaElem t sat (old.val j) (old.cnt j) e (ia || ib) (ra.zip (bColumn t b j))
    else (old.val j, old.cnt j, [], false))
  (AccRow.ofLists (es.map (·.1)) (es.map (·.2.1)), es.flatMap (·.2.2.1), es.any (·.2.2.2))

/-- The flag of an accumulator is set where a command saturated (R150). -/
def CoreSt.setSat (k : CoreSt) (c : Nat) (b : Bool) : CoreSt :=
  if b then { k with accSat := k.accSat.setIfInBounds c true } else k

/-- The products of an MMA, row by row (R213). -/
def CoreSt.mmaAll (k : CoreSt) (t : BitVec 128) (sat : Bool) (m : MatCmd) : CoreSt × List Nat :=
  (List.range (tM t)).foldl (fun (r : CoreSt × List Nat) i =>
    let (row, evs, f) := mmaRow t sat m.scaleA m.scaleB m.gotA m.gotB i (r.1.accRow (tAcc t) i)
    ((r.1.setAccRow (tAcc t) i row).setSat (tAcc t) f, r.2 ++ evs)) (k, [])

/-- The progress of a writer, and its end, as result rows are written (R216). -/
def MatCmd.rise (m : MatCmd) (t : BitVec 128) : MatCmd :=
  let q := min (m.q + tWmStep t) (tM t)
  { m with q := q, executed := tM t ≤ q }

/-- MMA_EXECUTE (R211 to R214, R216): the array takes the operand rows that are there; with all of them it forms the products, and writes
result rows, raising the watermark step by step. -/
def execMmaExecute (core : Nat) (s : State) : Res :=
  match s.headCmd core with
  | some m =>
    match m.op with
    | .tpl t sat =>
      if tOpk t ≠ 0 || m.executed then .next s
      else if m.q ≠ 0 then .next (s.setHead core (m.rise t))
      else
        match s.startCmd core m t with
        | none => .next s
        | some (s, m) =>
          let (ga, s, f1) := State.takeRows core (tAKind t) (tAIdx t) m.areg (tARow t) (tM t) (tM t) m.gotA s
          let (gb, s, f2) := State.takeRows core (tBKind t) (tBIdx t) m.breg (tBRow t) (tRowsB t) (tRowsB t) m.gotB s
          let m := { m with gotA := ga, gotB := gb }
          match f1.orElse (fun _ => f2) with
          | some (kd, a) => .next (raiseFatal (s.setHead core m) core kd a)
          | none =>
            if ga.length < tM t || gb.length < tRowsB t then .next (s.setHead core m)
            else
              let (k, evs) := (s.core core).mmaAll t sat m
              .next ((s.setCore core k).setHead core { m.rise t with events := evs })
    | _ => .next s
  | none => .next s

/-- The lanes of a destination row of MXPOSE (R215). -/
def xposeRow (t : BitVec 128) (a : List Row) (j : Nat) (old : Row) : Row :=
  putLanes old (typeWidth (tFmt t)) 0 ((a.take (tM t)).map (fun r => (lanesOf r (typeWidth (tFmt t)) j 1).getD 0 0))

/-- MXPOSE_EXECUTE (R215). -/
def execMxposeExecute (core : Nat) (s : State) : Res :=
  match s.headCmd core with
  | some m =>
    match m.op with
    | .tpl t _ =>
      if tOpk t ≠ 1 || m.executed then .next s
      else
        match s.startCmd core m t with
        | none => .next s
        | some (s, m) =>
          let (ga, s, f) := State.takeRows core (tAKind t) (tAIdx t) m.areg (tARow t) (tM t) (tM t) m.gotA s
          let m := { m with gotA := ga }
          match f with
          | some (kd, a) => .next (raiseFatal (s.setHead core m) core kd a)
          | none =>
            if ga.length < tM t then .next (s.setHead core m)
            else
              let k := (List.range (tN t)).foldl (fun (k : CoreSt) j =>
                let d := RowName.tile m.breg (tBRow t + j)
                (k.setRow d (xposeRow t ga j (k.row d))).clearBusy d m.id) (s.core core)
              .next ((s.setCore core k).setHead core { m with executed := true })
    | _ => .next s
  | none => .next s

/-- MZERO_EXECUTE (R217). -/
def execMzeroExecute (core : Nat) (s : State) : Res :=
  match s.headCmd core with
  | some m =>
    match m.op with
    | .zero a =>
      if m.executed || !s.arrayGap core then .next s
      else
        .next (((s.noteStart core).modCore core (fun k =>
          { k with acc := k.acc.filter (fun e => e.1 / 64 != a.toNat), accSat := k.accSat.setIfInBounds a.toNat false })).setHead core
            { m with executed := true, q := 64 })
    | _ => .next s
  | none => .next s

/-! MDRAIN. -/

/-- The drain of one element (R152). -/
def drainElem (fn : Nat) (ef : Bool) (k : Kind) (rm : Nat) (sat : Bool) (v n : Nat) : Nat × List Nat :=
  match fn with
  | 2 => if n ≤ 2 ^ 31 - 1 then (n, []) else (0x7FFFFFFF, [if sat then evSAT else evOVF])
  | _ =>
    if n = 0 then (absentCode k, [evNXA])
    else
      let x := decodeVal (if ef then kindOfType 14 else .fx) v
      roundVal (if fn = 1 then divNat x n else x) k rm sat

/-- The lanes and the events of a drained row (R219). -/
def drainRow (f : Drain) (rm : BitVec 3) (sat : Bool) (a : AccRow) : List Nat × List Nat :=
  let es := (List.range 64).map (fun j => drainElem f.fn.toNat (f.afmt = 1) (kindOfType f.tfmt) rm.toNat sat (a.val j) (a.cnt j))
  (es.map (·.1), es.flatMap (·.2))

/-- A drained accumulator row is zeroed with CLR (R218). -/
def CoreSt.clearAcc (k : CoreSt) (f : Drain) (r : Nat) : CoreSt :=
  if f.clr = 1 then k.setAccRow f.acc.toNat (f.crow0.toNat + r) AccRow.reset else k

/-- Row `r` of a drain goes to its destination (R219, R250); stalls while a queue or a weir row has no room. The flag says that the row went
to an unbound lo. -/
def State.drainOut (s : State) (c : Nat) (m : MatCmd) (f : Drain) (dreg r : Nat) (lanes : List Nat) (lost : Bool) : Try (State × Bool) :=
  let w := typeWidth f.tfmt
  let fresh := putLanes 0 w (64 * f.part.toNat) lanes
  let k := s.core c
  match f.dkind.toNat with
  | 0 =>
    let d := RowName.tile dreg (f.drow0.toNat + r)
    .ok (s.setCore c ((k.setRow d (putLanes (k.row d) w (64 * f.part.toNat) lanes)).clearBusy d m.id), false)
  | 1 =>
    if h : f.dreg.toNat < 4 then
      let q := k.lo[f.dreg.toNat]
      if lost || q.peer.isNone then .ok (s.setCore c { k with mIll := some .otherUse }, true)
      else if q.rows.length < 8 then
        .ok (s.setCore c { k with lo := k.lo.set f.dreg.toNat { q with rows := q.rows ++ [fresh] } h }, false)
      else .error .stall
    else .ok (s, false)
  | _ =>
    if !s.weirOk c then .error (.fatal kWeir 0)
    else
      let p := s.pair (pairOf c)
      let i := (f.dreg.toNat + r) % 4
      if p.twFull.getD i false then .error .stall
      else .ok (s.setPair (pairOf c) { p with tw := p.tw.setIfInBounds i fresh, twFull := p.twFull.setIfInBounds i true }, false)

/-- Rows of a drain from the one after those put out, as many as find room. -/
def State.drainRows (c : Nat) (f : Drain) (dreg : Nat) (rm : BitVec 3) (sat : Bool) :
    Nat → State → MatCmd → Bool → State × MatCmd × Option (Nat × Nat)
  | 0, s, m, _ => (s, m, none)
  | fuel + 1, s, m, lost =>
    if f.nrm1.toNat < m.rowsOut then (s, m, none)
    else
      let r := m.rowsOut
      let (lanes, evs) := drainRow f rm sat ((s.core c).accRow f.acc.toNat (f.crow0.toNat + r))
      match s.drainOut c m f dreg r lanes lost with
      | .ok (s', l) =>
        State.drainRows c f dreg rm sat fuel (s'.modCore c (fun k => k.clearAcc f r))
          { m with rowsOut := r + 1, events := m.events ++ evs, started := m.started || l } l
      | .error (.fatal kd a) => (s, m, some (kd, a))
      | .error _ => (s, m, none)

/-- MDRAIN_EXECUTE (R152, R219, R250). A row pushed into an unbound lo is discarded, and so is every later row of the drain: `started` marks
that. -/
def execMdrainExecute (core : Nat) (s : State) : Res :=
  match s.headCmd core with
  | some m =>
    match m.op with
    | .drain f dreg rm sat =>
      if m.executed || (m.rowsOut == 0 && !s.arrayGap core) then .next s
      else
        let before := m.rowsOut
        let (s, m, err) := State.drainRows core f dreg rm sat 64 s m m.started
        let s := if before = 0 ∧ m.rowsOut ≠ 0 then s.noteStart core else s
        let m := if f.nrm1.toNat < m.rowsOut then { m with executed := true, q := if f.clr = 1 then 64 else m.q } else m
        match err with
        | some (kd, a) => .next (raiseFatal (s.setHead core m) core kd a)
        | none => .next (s.setHead core m)
    | _ => .next s
  | none => .next s

/-! Completion. -/

/-- Signals a list of tokens of a core, all or none (R39). -/
def CoreSt.signalAll? (k : CoreSt) : List (BitVec 4) → Option CoreSt
  | [] => some k
  | t :: r => (k.signal? t).bind (fun k' => k'.signalAll? r)

/-- The tokens that a matrix command signals: SIGTK and that of its TK prefix (R208). -/
def MatCmd.tokens (m : MatCmd) : List (BitVec 4) :=
  (match m.op with
   | .tpl t _ => (tokenOf (tSigTk t)).toList
   | _ => []) ++ m.sig.toList

/-- ARRAY_COMMAND_COMPLETE (R209): the head command, executed, leaves the queue; a full token counter holds it (R39). -/
def execArrayCommandComplete (core : Nat) (s : State) : Res :=
  match s.headCmd core with
  | some m =>
    if !m.executed then .next s
    else
      match (s.core core).signalAll? m.tokens with
      | none => .next s
      | some k => .next ((s.setCore core { k with mq := k.mq.drop 1, tileops := k.tileops - 1 }).countEvents core 1 m.events)
  | none => .next s

end Sys2Proof.Machine
end

