-- ==== Sys2Proof/Machine/EngIssue.lean ====
section
/-! DEFINITION. Engine commands as A issues them (R233 to R247, R317 to R327): the checks at issue, the entry into an engine's queue with its
scoreboard ranges, and chains. -/

namespace Sys2Proof.Machine

/-- Replaces an engine of a core. -/
def CoreSt.setEngine (k : CoreSt) (e : Engine) (x : EngineSt) : CoreSt :=
  match e with
  | .copy => { k with copyE := x }
  | .sluice => { k with sluiceE := x }
  | .confluence => { k with confE := x }
  | .gather => { k with gathE := x }
  | .chain => { k with chainE := x }

/-- The faults of SCOPE, ACQ and REL (R71, R234). -/
def scopeFaults (f : FE) : List IllCause :=
  fault? (6 ≤ f.scope.toNat) .reservedValue ++ fault? (f.acq == 0 && f.rel == 0 && f.scope != 0) .reservedField

/-- A range of n bytes from an address of the issuing core, as the scoreboard compares it; none of no bytes (R235). -/
def State.rangeOf (s : State) (c : Nat) (ea : Dword) (n : Nat) : List Range :=
  let a := s.scoreAddr c ea.toNat
  if n = 0 then [] else [{ lo := a, hi := a + n }]

/-- A command with its ranges, before it enters a queue. -/
def engCmd (s : State) (f : FE) (op : EngOp) (reads writes : List Range) : EngCmd :=
  { id := s.cxCore.nextId, op := op, scope := f.scope, rel := f.rel = 1, acq := f.acq = 1, sig := s.cx.mods.sig, reads := reads, writes := writes,
    entry := !(reads.isEmpty && writes.isEmpty), awaits := if f.acq = 1 then s.cxCore.nextId else 0, rowsDone := 0, presented := false,
    events := [] }

/-- The scoreboard entries in use (R235). -/
def CoreSt.entries (k : CoreSt) : Nat := (k.engCmds.filter (·.entry)).length

/-- The lines that the sluice holds pinned: two for each row not yet popped (R242). -/
def CoreSt.pinned (k : CoreSt) : Nat :=
  2 * (k.fq.length + ((k.sluiceE.active ++ k.sluiceE.queue).map (fun m => match m.op with
    | .tfetch _ _ rows => rows - m.rowsDone
    | _ => 0)).sum)

/-- The addresses of the rows that pin their lines (R242): those that are to come and those in fq that have been fetched since the last restore. -/
def CoreSt.pinnedRows (k : CoreSt) : List Dword :=
  k.fqAt.drop (k.fqAt.length - k.fq.length) ++
    (k.sluiceE.active ++ k.sluiceE.queue).flatMap (fun m => match m.op with
      | .tfetch base stride rows => (List.range (rows - m.rowsDone)).map (fun i => base + BitVec.ofNat 64 (m.rowsDone + i) * stride)
      | _ => [])

/-- Whether a core pins a line of physical memory (R242). -/
def State.pinsLine (s : State) (c line : Nat) : Bool :=
  (s.core c).pinnedRows.any (fun ea => [0, 128, 255].any (fun i => match s.keyOf c (addrPlus ea i) false with
    | .ok key => key / 128 == line
    | .error _ => false))

/-- Whether a queue can take a command (R38, R233, R242). -/
def CoreSt.engRoom (k : CoreSt) (e : Engine) (m : EngCmd) : Bool :=
  (k.engine e).queue.length < 16 && k.copies != 255 && (!m.entry || k.entries < 16) &&
    (match m.op with
     | .tfetch _ _ rows => k.pinned + 2 * rows ≤ 64
     | _ => true)

/-- Enters a command (R233). -/
def CoreSt.enterEng (k : CoreSt) (e : Engine) (m : EngCmd) : CoreSt :=
  { k.setEngine e { k.engine e with queue := (k.engine e).queue ++ [m] } with copies := k.copies + 1 }

/-- The values of the operands that an FE command reads: a field that it does not read is 0 (R233). -/
def feOperands (k : CoreSt) (f : FE) (useD use2 : Bool) : Try (Dword × Dword × Dword) := do
  let d ← if useD then readFE k f.ad else .ok 0
  let a ← readFE k f.as1
  let b ← if use2 then readFE k f.as2 else .ok 0
  .ok (d, a, b)

/-- An engine command (R233): its encoding is checked, then, with its operands, the conditions at issue; then it waits for room and for its
token, and enters. `mk` gives the faults of the values, the command, and what its entry does besides. -/
def engIssue (s : State) (e : Engine) (f : FE) (useD use2 : Bool) (faults : List IllCause)
    (mk : Dword → Dword → Dword → List IllCause × EngCmd × (CoreSt → CoreSt)) : Res :=
  match worst (scopeFaults f ++ faults ++ chainFaults s ++ placeFaults s) with
  | some c =>
    match feOperands s.cxCore f useD use2 with
    | .error _ => .next (raiseIll s c)
    | .ok (d, a, b) => .next (raiseIll s ((worst (c :: (mk d a b).1)).getD c))
  | none =>
    match feOperands s.cxCore f useD use2 with
    | .error _ => .next s
    | .ok (d, a, b) =>
      let (vf, m, go) := mk d a b
      match worst vf with
      | some c => .next (raiseIll s c)
      | none =>
        conclude s (do
          let s ← takeWait s
          need (s.cxCore.engRoom e m)
          .ok ((s.modCx (fun k => go (k.enterEng e m))).deferSig))

/-! Copies. -/

/-- COPY (R238). -/
def execCopy (f : FE) (fill : BitVec 1) (s : State) : Res :=
  let c := s.cx.core
  engIssue s .copy f true true [] (fun d a n =>
    (fault? (2 ^ 32 < n.toNat) .otherUse,
     engCmd s f (.copy d a n (fill = 1)) (if fill = 1 then [] else s.rangeOf c a n.toNat) (s.rangeOf c d n.toNat), id))

/-- Whether a value is legal for a field of a template taken by itself (R205, R206). -/
def fieldOk (fsel : Nat) (v : Nat) : Bool :=
  match fsel with
  | 1 => v ≤ 1
  | 2 => v ≤ 12
  | 3 | 4 => srcIdxOk (v / 16) (v % 16)
  | 8 => v ≤ 256
  | 9 | 10 => 1 ≤ v && v ≤ 64
  | 11 => v ≤ 2
  | 17 => v ≤ 64
  | _ => true

/-- The faults of the follow-on word of a COPYM (R71, R85, R86). -/
def followFaults (w : Word) : List IllCause :=
  let fsel := bits w 11 5
  let val := bits w 16 16
  fault? (selOf w != 3 || tagOf w != 3) .otherUse ++ patchFaults fsel val ++
    fault? (!(18 ≤ fsel.toNat) && !fieldOk fsel.toNat val.toNat) .templateValue

/-- COPYM (R239): its rows are busy from its issue; their owner is the number that the command takes. -/
def execCopym (f : FE) (patch : BitVec 32) (s : State) : Res :=
  let c := s.cx.core
  let k := s.cxCore
  engIssue s .copy f true true (followFaults patch) (fun d a n =>
    let reg := physT k.a k.demand (d.toNat % 16)
    let row := d.toNat / 16 % 64
    let rows := n.toNat / 256
    (fault? (2 ^ 10 ≤ d.toNat || n.toNat % 256 != 0 || n == 0 || 64 < row + rows) .otherUse ++ fault? (k.demand ≤ d.toNat % 16) .demand,
     engCmd s f (.copym reg row a n patch) (s.rangeOf c a n.toNat) [],
     fun k => { (List.range rows).foldl (fun k r => k.setBusy (.tile reg (row + r)) k.nextId) k with nextId := k.nextId + 1 }))

/-- The cores of a rectangle on one layer, row by row (R240). -/
def rectangle (origin : BitVec 9) (hm1 wm1 : Nat) : List Nat :=
  (List.range (hm1 + 1)).flatMap (fun i => (List.range (wm1 + 1)).map (fun j => (coreOfCoord origin).getD 0 + 16 * i + j))

/-- MCAST (R240). -/
def execMcast (f : FE) (coord : BitVec 9) (hm1 : BitVec 3) (wm1 : BitVec 4) (s : State) : Res :=
  let c := s.cx.core
  let l := s.cxCore.spad * 2 ^ 14
  let ts := rectangle coord hm1.toNat wm1.toNat
  let out := 7 < coord.toNat / 16 % 8 + hm1.toNat || 15 < coord.toNat % 16 + wm1.toNat ||
    ts.any (fun t => !(t == c || s.inGang c t))
  engIssue s .copy f true true (coordFaults coord ++ fault? ((coordFaults coord).isEmpty && out) .otherUse) (fun d a n =>
    (fault? (l < n.toNat || l < d.toNat + n.toNat) .otherUse,
     engCmd s f (.mcast d a n ts) (s.rangeOf c a n.toNat)
       (if ts.contains c && n != 0 then [{ lo := 2 ^ 60 + spadKey c d.toNat, hi := 2 ^ 60 + spadKey c d.toNat + n.toNat }] else []), id))

/-- The range of the rows of a TFETCH, from the lowest start to the highest end (R235, R241). -/
def fetchRange (base stride : Dword) (rows : Nat) : List Range :=
  let st := (List.range rows).map (fun r => (base + BitVec.ofNat 64 r * stride).toNat)
  [{ lo := st.foldl min base.toNat, hi := st.foldl max base.toNat + 256 }]

/-- TFETCH (R241, R242). -/
def execTfetch (f : FE) (nrm1 : BitVec 5) (s : State) : Res :=
  engIssue s .sluice f false true (fault? (f.ad != 0) .reservedField ++ fault? (f.rel == 1) .otherUse) (fun _ a st =>
    (fault? (a.toNat % 256 != 0 || st.toNat % 256 != 0 || inSpad a.toNat) .otherUse,
     engCmd s f (.tfetch a st (nrm1.toNat + 1)) (fetchRange a st (nrm1.toNat + 1)) [], id))

/-! Gather, scatter and scatter-accumulate. -/

/-- The bytes of a unit (R243). -/
def unitBytes (um1 : BitVec 8) (ty : BitVec 4) : Nat := (um1.toNat + 1) * typeWidth ty

/-- GATH (R243). -/
def execGath (f : FE) (nm1 : BitVec 16) (um1 : BitVec 8) (ty : BitVec 4) (s : State) : Res :=
  let c := s.cx.core
  let n := nm1.toNat + 1
  let u := unitBytes um1 ty
  engIssue s .gather f true true (fault? (12 < ty.toNat) .reservedValue) (fun d a x =>
    (fault? (x.toNat % 4 != 0) .otherUse,
     engCmd s f (.gath d a x ty u n) (s.rangeOf c x (4 * n)) (s.rangeOf c d (u * n)), id))

/-- SCAT (R243). -/
def execScat (f : FE) (nm1 : BitVec 16) (um1 : BitVec 8) (ty : BitVec 4) (s : State) : Res :=
  let c := s.cx.core
  let n := nm1.toNat + 1
  let u := unitBytes um1 ty
  engIssue s .gather f true true (fault? (12 < ty.toNat) .reservedValue) (fun d a x =>
    (fault? (x.toNat % 4 != 0) .otherUse,
     engCmd s f (.scat d a x ty u n) (s.rangeOf c a (u * n) ++ s.rangeOf c x (4 * n)) [], id))

/-- Whether an operation of the confluence accepts a VTYPE (R244). -/
def saccOk (opc : BitVec 3) (ty : BitVec 4) : Bool :=
  match opc.toNat with
  | 0 | 1 | 2 => [0, 1, 2, 6, 7].contains ty.toNat
  | 3 | 4 | 5 | 6 => ty == 11 || ty == 12
  | _ => false

/-- The faults of a SACC's operands (R244). -/
def saccFaults (w : Nat) (d x v : Dword) : List IllCause :=
  let remote := match regionOf d.toNat with
    | .remote _ => true
    | _ => false
  fault? (x.toNat % 4 != 0 || d.toNat % w != 0 || v.toNat % w != 0 || remote) .otherUse

/-- SACC (R244). -/
def execSacc (f : FE) (opc : BitVec 3) (vtype : BitVec 4) (nm1 : BitVec 16) (wm1 : BitVec 6) (s : State) : Res :=
  let c := s.cx.core
  let n := nm1.toNat + 1
  let w := typeWidth vtype
  engIssue s .confluence f true true (fault? (!saccOk opc vtype) .reservedValue) (fun d x v =>
    let vals := s.rangeOf c v (w * n * (if opc = 6 then 2 else 1))
    (saccFaults w d x v,
     engCmd s f (.sacc d x v opc vtype n (wm1.toNat + 1)) (s.rangeOf c x (4 * n) ++ vals) (if 5 ≤ opc.toNat then vals else []), id))

/-- The faults of a GATHMC's operands (R326). -/
def gathmcFaults (d a l : Dword) (ntx nty u w : Nat) : List IllCause :=
  let n := 64 * u * (ntx * nty)
  fault? (d.toNat % 64 != 0 || a.toNat % 64 != 0 || l.toNat % 8 != 0 || ntx == 0 || nty == 0 || u % w != 0 ||
    (d.toNat < a.toNat + n && a.toNat < d.toNat + n)) .otherUse

/-- GATHMC (R326, R327). -/
def execGathmc (f : FE) (ntx nty : BitVec 8) (tszm1 : BitVec 6) (ty : BitVec 4) (s : State) : Res :=
  let c := s.cx.core
  let u := tszm1.toNat + 1
  let n := ntx.toNat * nty.toNat
  engIssue s .gather f true true (fault? (12 < ty.toNat) .reservedValue) (fun d a l =>
    (gathmcFaults d a l ntx.toNat nty.toNat u (typeWidth ty),
     engCmd s f (.gathmc d a l ty u ntx.toNat nty.toNat) (s.rangeOf c a (64 * u * n) ++ s.rangeOf c l (8 * n)) (s.rangeOf c d (64 * u * n)), id))

/-! Chains. -/

/-- CHAIN (R246): it opens a chain; the command enters at the last CHOP. -/
def execChain (f : FE) (ty dtype : BitVec 4) (rm : BitVec 3) (sat buse : BitVec 1) (ncm1 : BitVec 3) (nm1 : BitVec 16) (s : State) : Res :=
  let c := s.cx.core
  let n := nm1.toNat + 1
  let faults := scopeFaults f ++ fault? (4 < rm.toNat || 8 < ty.toNat || 8 < dtype.toNat) .reservedValue ++
    fault? (buse == 0 && f.as2 != 0) .reservedField ++ chainFaults s ++ placeFaults s
  match worst faults with
  | some e => .next (raiseIll s e)
  | none =>
    conclude s (do
      let (d, a, b) ← feOperands s.cxCore f true (buse == 1)
      let m := engCmd s f (.chain d a b ty dtype rm (sat = 1) (buse = 1) n [])
        (s.rangeOf c a (typeWidth ty * n) ++ (if buse = 1 then s.rangeOf c b (typeWidth ty * n) else [])) (s.rangeOf c d (typeWidth dtype * n))
      let s' ← takeWait s
      .ok ((s'.modCx (fun k =>
        { k with chain := some { pc := s.cx.pc, walked := s.cxStrand.walked, wait := s.cx.mods.wait, cmd := m, left := ncm1.toNat + 1 } })).deferSig))

/-- An operand selector of a CHOP (R247). -/
def chopSelOk (useB : Bool) (x : BitVec 6) : Bool := x.toNat ≤ 1 || (x == 2 && useB) || (16 ≤ x.toNat && x.toNat ≤ 31)

/-- The faults of a CHOP in a chain of a TYPE (R247). -/
def chopFaults (ty : BitVec 4) (useB : Bool) (d x y : BitVec 6) : List IllCause :=
  fault? (d == 0 || 16 ≤ d.toNat) .reservedValue ++
    fault? (!chopSelOk useB x || (if 7 ≤ d.toNat then y != 0 else !chopSelOk useB y) || (9 ≤ d.toNat && 2 < ty.toNat)) .operand

/-- The value of the constant that a selector names. -/
def chopConst (k : CoreSt) (x : BitVec 6) : Dword := if 16 ≤ x.toNat then k.kAt (x.toNat - 16) else 0

/-- A chain's command with one operation more. -/
def EngCmd.addChop (m : EngCmd) (o : ChopOp) : EngCmd :=
  match m.op with
  | .chain d a b ty dty rm sat useB n ops => { m with op := .chain d a b ty dty rm sat useB n (ops ++ [o]) }
  | _ => m

/-- CHOP (R247, R248): the last one of its chain enters the command; its scoreboard entry, its acquire and its copies count date from then.
A CHOP with no chain open is a fault of cause 14, beside those of its word (R95). -/
def execChop (d a b : BitVec 6) (s : State) : Res :=
  let k := s.cxCore
  match k.chain with
  | none => issue s (.otherUse :: chopFaults 0 true d a b) (fun s => .ok s)
  | some ch =>
    let (ty, useB) := match ch.cmd.op with
      | .chain _ _ _ ty _ _ _ u _ _ => (ty, u)
      | _ => (0, false)
    issue s (chopFaults ty useB d a b) (fun s => do
      let k := s.cxCore
      let m := ch.cmd.addChop { op := d, x := a, y := b, kx := chopConst k a, ky := chopConst k b }
      if 1 < ch.left then .ok (s.modCx (fun k => { k with chain := some { ch with cmd := m, left := ch.left - 1 } }))
      else
        let m := { m with awaits := if m.acq then k.nextId else 0 }
        need (k.engRoom .chain m)
        .ok (s.modCx (fun k => { k.enterEng .chain m with chain := none })))

/-! Intake commands. -/

/-- CMASK (R322, R327). -/
def execCmask (f : FE) (force : BitVec 1) (s : State) : Res :=
  engIssue s .copy f true true [] (fun d a l =>
    (fault? (d.toNat % 32 != 0 || a.toNat % 64 != 0 || l.toNat % 32 != 0) .otherUse, engCmd s f (.cmask d a l (force = 1)) [] [], id))

/-- TLIST (R324, R327). -/
def execTlist (f : FE) (s : State) : Res :=
  engIssue s .copy f true true [] (fun d a r =>
    (fault? (d.toNat % 4 != 0 || a.toNat % 32 != 0 || r.toNat % 8 != 0) .otherUse, engCmd s f (.tlist d a r) [] [], id))

/-- A dictionary of the partition of a core. -/
def State.dictOf (s : State) (c : Nat) (n : Nat) : Dict := tget Dict.reset (s.part (s.core c).part).dicts n

/-- TOKZ (R319, R327). -/
def execTokz (f : FE) (dict : BitVec 2) (capm1 : BitVec 16) (s : State) : Res :=
  let c := s.cx.core
  engIssue s .copy f true true [] (fun d a n =>
    (fault? (d.toNat % 8 != 0 || 2 ^ 32 < n.toNat || (s.dictOf c dict.toNat).nnodes == 0) .otherUse,
     engCmd s f (.tokz d a n dict.toNat (capm1.toNat + 1)) (s.rangeOf c a n.toNat) (s.rangeOf c d (8 + 4 * (capm1.toNat + 1))), id))

/-- A conversion set of the partition of a core. -/
def State.ccsetOf (s : State) (c : Nat) (n : Nat) : CcSet := tget CcSet.reset (s.part (s.core c).part).ccsets n

/-- The TYPE of an OFMT (R306, R317). -/
def ofmtType (o : BitVec 2) : BitVec 4 := if o = 0 then 2 else if o = 1 then 1 else 3

/-- CCVT (R317, R327). -/
def execCcvt (f : FE) (ntx nty : BitVec 8) (cset : BitVec 4) (ofmt : BitVec 2) (s : State) : Res :=
  let c := s.cx.core
  let w := typeWidth (ofmtType ofmt)
  engIssue s .copy f true true (fault? (ofmt == 3) .reservedValue) (fun d a o =>
    (fault? (d.toNat % 64 != 0 || o.toNat % 8 != 0 || o.toNat / 2 ^ 16 % 8 != 0 || 2 ^ 32 ≤ o.toNat || ntx == 0 || nty == 0 ||
      !(s.ccsetOf c cset.toNat).en) .otherUse,
     engCmd s f (.ccvt d a o ntx.toNat nty.toNat cset.toNat ofmt) [] (s.rangeOf c d (256 * w * (ntx.toNat * nty.toNat))), id))

end Sys2Proof.Machine
end

