-- ==== Sys2Proof/Machine/NumFn.lean ====
section
/-! DEFINITION. The special functions (R155, R182): exact results, or the exact magnitude with 512 binary places and the rest marked, and of
two neighbours the one that the part's free choice names. -/

namespace Sys2Proof.Machine

/-- The integer square root by bits, from bit `n` downward. -/
def isqrtBits (v : Nat) : Nat → Nat → Nat
  | 0, r => if (r + 1) * (r + 1) ≤ v then r + 1 else r
  | n + 1, r => let r' := r + 2 ^ (n + 1); isqrtBits v n (if r' * r' ≤ v then r' else r)

/-- The integer square root. -/
def isqrt (v : Nat) : Nat := isqrtBits v (Nat.log2 v / 2 + 1) 0

/-- √(m × 2^e), with 300 more binary digits than half of m's, and the rest marked. -/
def sqrtMag (m : Nat) (e : Int) : Val :=
  let m := if e % 2 = 0 then m else 2 * m
  let e := if e % 2 = 0 then e else e - 1
  let M := m * 2 ^ 600
  let r := isqrt M
  .fin false r (e / 2 - 300) (r * r != M)

/-- 1 ÷ (m × 2^e), with 300 digits beyond those of m and the rest marked. -/
def rcpMag (neg : Bool) (m : Nat) (e : Int) : Val :=
  let k := Nat.log2 m + 300
  .fin neg (2 ^ k / m) (-e - k) (2 ^ k % m != 0)

/-- 1 ÷ √(m × 2^e), with the rest marked. -/
def rsqMag (m : Nat) (e : Int) : Val :=
  let m := if e % 2 = 0 then m else 2 * m
  let e := if e % 2 = 0 then e else e - 1
  let k := Nat.log2 m + 300
  let t := 2 ^ (2 * k) / m
  let r := isqrt t
  .fin false r (-(e / 2) - k) (r * r * m != 2 ^ (2 * k))

/-- Binary places of the fixed-point values below. -/
def fixP : Nat := 512

/-- Products of fixed-point values. -/
def fixMul (a b : Nat) : Nat := a * b / 2 ^ fixP

/-- The sum of the terms of e^r from term `i` on, for r in fixed point: t is term i − 1. -/
def expTerms (r : Nat) : Nat → Nat → Nat → Nat
  | 0, _, _ => 0
  | n + 1, i, t => let t' := fixMul t r / i; t' + expTerms r n (i + 1) t'

/-- Squares n times. -/
def squareTimes : Nat → Nat → Nat
  | 0, a => a
  | n + 1, a => squareTimes n (fixMul a a)

/-- e^x for a fixed-point x below 2^10 in value: the argument is halved 20 times, and the sum squared back. -/
def fixExp (x : Nat) : Nat :=
  let r := x / 2 ^ 20
  squareTimes 20 (2 ^ fixP + expTerms r 70 1 (2 ^ fixP))

/-- The sum of z^(2i+1) ÷ (2i+1) from term i on. -/
def atanhTerms (z2 : Nat) : Nat → Nat → Nat → Nat
  | 0, _, _ => 0
  | n + 1, i, t => t / (2 * i + 1) + atanhTerms z2 n (i + 1) (fixMul t z2)

/-- ln v for a fixed-point v in [1, 2). -/
def fixLn1 (v : Nat) : Nat :=
  let z := (v - 2 ^ fixP) * 2 ^ fixP / (v + 2 ^ fixP)
  2 * atanhTerms (fixMul z z) 180 0 z

/-- ln 2: twice atanh (1 ÷ 3). -/
def fixLn2 : Nat :=
  let z := 2 ^ fixP / 3
  2 * atanhTerms (fixMul z z) 180 0 z

/-- A magnitude m × 2^e in fixed point, cut below. -/
def toFix (m : Nat) (e : Int) : Nat :=
  let s := e + fixP
  if 0 ≤ s then m * 2 ^ s.toNat else m / 2 ^ (-s).toNat

/-- A fixed-point magnitude with the rest marked; a magnitude below all places stands as a value below every grid step. -/
def ofFix (neg : Bool) (a : Nat) : Val := if a = 0 then .fin neg 1 (-2000) true else .fin neg a (-fixP) true

/-- e^x of a finite x that is not zero. -/
def expMag (neg : Bool) (m : Nat) (e : Int) : Val :=
  if 9 ≤ (Nat.log2 m : Int) + e then (if neg then .fin false 1 (-2000) true else .fin false 1 2000 true)
  else if (Nat.log2 m : Int) + e < -200 then
    (if neg then .fin false (2 ^ 400 - 1) (-400) true else .fin false (2 ^ 400) (-400) true)
  else
    let y := fixExp (toFix m e)
    if neg then ofFix false (2 ^ (2 * fixP) / y) else ofFix false y

/-- ln x of a finite positive x other than 1. -/
def lnMag (m : Nat) (e : Int) : Val :=
  let lg := Nat.log2 m
  let k : Int := (lg : Int) + e
  let f := fixLn1 (m * 2 ^ fixP / 2 ^ lg)
  let t : Int := k * fixLn2 + f
  ofFix (t < 0) t.natAbs

/-- tanh |x| for a finite x that is not zero. A small x has tanh x just below x. -/
def tanhMag (neg : Bool) (m : Nat) (e : Int) : Val :=
  let lg : Int := (Nat.log2 m : Int) + e
  if lg < -60 then .fin neg (m * 2 ^ 400 - 1) (e - 400) true
  else if 8 ≤ lg then .fin neg (2 ^ 400 - 1) (-400) true
  else
    let y := fixExp (2 * toFix m e)
    ofFix neg ((y - 2 ^ fixP) * 2 ^ fixP / (y + 2 ^ fixP))

/-- 1 ÷ (1 + e^−x) for a finite x that is not zero. -/
def sigmMag (neg : Bool) (m : Nat) (e : Int) : Val :=
  let lg : Int := (Nat.log2 m : Int) + e
  if 9 ≤ lg then (if neg then .fin false 1 (-2000) true else .fin false (2 ^ 400 - 1) (-400) true)
  else if lg < -200 then
    (if neg then .fin false (2 ^ 399 - 1) (-400) true else .fin false (2 ^ 399) (-400) true)
  else
    let y := fixExp (toFix m e)
    if neg then ofFix false (2 ^ (2 * fixP) / (2 ^ fixP + y)) else ofFix false (y * 2 ^ fixP / (2 ^ fixP + y))

/-- The exact f(a) of a special function on a value that is not absent, with its events (R155, R182). -/
def specialVal (f : SpecialFn) (a : Val) : Val × List Nat :=
  match f, a with
  | _, .nan => (.nan, [])
  | _, .absent => (.absent, [])
  | .rcp, .inf _ => (.zero, [])
  | .rcp, .fin s m e _ => if m = 0 then (.inf false, [evDZE]) else (rcpMag s m e, [])
  | .rsq, .inf s => if s then (.nan, [evINV]) else (.zero, [])
  | .rsq, .fin s m e _ => if m = 0 then (.inf false, [evDZE]) else if s then (.nan, [evINV]) else (rsqMag m e, [])
  | .sqrt, .inf s => if s then (.nan, [evINV]) else (.inf false, [])
  | .sqrt, .fin s m e _ => if m = 0 then (.zero, []) else if s then (.nan, [evINV]) else (sqrtMag m e, [])
  | .exp, .inf s => (if s then .zero else .inf false, [])
  | .exp, .fin s m e _ => (if m = 0 then .fin false 1 0 false else expMag s m e, [])
  | .log, .inf s => if s then (.nan, [evINV]) else (.inf false, [])
  | .log, .fin s m e _ =>
    if m = 0 then (.inf true, [evDZE])
    else if s then (.nan, [evINV])
    else if cmpVal (.fin false m e false) (.fin false 1 0 false) = .eq then (.zero, [])
    else (lnMag m e, [])
  | .tanh, .inf s => (.fin s 1 0 false, [])
  | .tanh, .fin s m e _ => (if m = 0 then .zero else tanhMag s m e, [])
  | .sigm, .inf s => (if s then .zero else .fin false 1 0 false, [])
  | .sigm, .fin s m e _ => (if m = 0 then .fin false 1 (-1) false else sigmMag s m e, [])

/-- A special function on a code (R182): reciprocal and square root are correctly rounded; of the others the result is one of the two
neighbours of the exact value, which one the part fixes by the code, the type, the mode and the saturate bit (log entry 10). -/
def specialCode (f : SpecialFn) (ty : BitVec 4) (mode : Nat) (sat : Bool) (a : Nat) : Nat × List Nat :=
  let k := kindOfType ty
  let r := specialVal f (decodeVal k a)
  if f = .rcp ∨ f = .sqrt then finish r k mode sat
  else finish r k (if Config.upperNeighbour f ty mode sat a then 6 else 5) sat

end Sys2Proof.Machine
end

