-- ==== Sys2Proof/Machine/VOps.lean ====
section
/-! DEFINITION. One V instruction, step by step (R172 to R180): the checks of its descriptors and TYPE, the stall condition tested as a whole,
the sources as lanes, and the write of the result with the latch lr. -/

namespace Sys2Proof.Machine

/-! Types and descriptors. -/

/-- The classes of element TYPE (R179): numeric, accumulator, raw. -/
def isN (ty : BitVec 4) : Bool := ty.toNat ≤ 8
def isA (ty : BitVec 4) : Bool := ty == 13 || ty == 14
def isB (ty : BitVec 4) : Bool := 9 ≤ ty.toNat && ty.toNat ≤ 12

/-- The lanes of a row operand of a TYPE (R10, R180). -/
def laneCount (ty : BitVec 4) : Nat := if isA ty then 64 else 256 / typeWidth ty

/-- The levels that a TYPE admits (R180). -/
def levelFaults (ty : BitVec 4) (dst : Bool) (d : BitVec 13) : List IllCause :=
  if isA ty then fault? (!(dLv d == 1 || (!dst && dLv d == 3 && dReg d != 0))) .operand
  else fault? (dLv d == 1) .operand

/-- The faults of a row operand: of its descriptor (R30, R77) and of its level (R180). -/
def opndFaults (demand : Nat) (ty : BitVec 4) (dst : Bool) (d : BitVec 13) : List IllCause := descFaults demand dst d ++ levelFaults ty dst d

/-- The fault of a TYPE that an instruction does not accept (R179). -/
def typeFaults (ok : Bool) : List IllCause := fault? (!ok) .reservedValue

/-- The fault of a MIN that an instruction does not accept (R179). -/
def minFaults (ok : Bool) : List IllCause := fault? (!ok) .reservedValue

/-- The fault of a descriptor, or bits of one, that must be zero (R79). -/
def zeroFaults (zero : Bool) : List IllCause := fault? (!zero) .reservedField

/-- The fault of an instruction that takes no third source (R79). -/
def noS3 (f : FV) : List IllCause := zeroFaults (f.s3v == 0 && f.s3i == 0)

/-! Sources. -/

/-- What a source delivers: a row, an accumulator row, or the value of a broadcast and its width in bits (R172 to R174). -/
inductive VSrc where
  | row (r : Row)
  | acc (a : AccRow)
  | bcast (v : Dword) (width : Nat)
  deriving DecidableEq, Repr

/-- The value of a broadcast in a lane of w bytes (R173). -/
def bcastLane (v : Dword) (width w : Nat) : Nat :=
  if w ≤ 8 then v.toNat % 2 ^ (8 * w)
  else twos 128 (2 ^ (width - 1) ≤ v.toNat) (if 2 ^ (width - 1) ≤ v.toNat then 2 ^ width - v.toNat else v.toNat)

/-- `n` lanes of a source from lane `start` on, for a TYPE (R173, R174). -/
def VSrc.lanes (x : VSrc) (ty : BitVec 4) (start n : Nat) : List Nat :=
  match x with
  | .row r => lanesOf r (typeWidth ty) start n
  | .acc a => (List.range n).map (fun j => if a.cnt (start + j) = 0 then absentCode (kindOfType ty) else a.val (start + j))
  | .bcast v width => List.replicate n (bcastLane v width (typeWidth ty))

/-- Every lane of a source. -/
def VSrc.all (x : VSrc) (ty : BitVec 4) : List Nat := x.lanes ty 0 (laneCount ty)

/-- A source as 256 bytes. -/
def VSrc.asRow (x : VSrc) (ty : BitVec 4) : Row := putLanes 0 (typeWidth ty) 0 (x.all ty)

/-- Whether a source can be read now (R126, R174 to R178). -/
def State.srcReady (s : State) (c : Nat) (r : RowRef) : Bool :=
  let k := s.core c
  match r with
  | .tile g i => !k.rowBusy (.tile g i)
  | .oper i => !k.rowBusy (.operand i)
  | .acc a i => i < k.wmark a
  | .tw i => (s.pair (pairOf c)).twFull.getD i false
  | .li i => !(k.li.getD i []).isEmpty
  | .xv => !k.xv.isEmpty
  | _ => true

/-- Reads a source; the entries of queues and the weir's full bits are left to `popOnce` (R77). -/
def State.srcRead (s : State) (c : Nat) (r : RowRef) : VSrc :=
  let k := s.core c
  match r with
  | .tile g i => .row (k.row (.tile g i))
  | .oper i => .row (k.row (.operand i))
  | .acc a i => .acc (k.accRow a i)
  | .tw i => .row ((s.pair (pairOf c)).tw.getD i 0)
  | .li i => .row ((k.li.getD i []).headD 0)
  | .lr => .row k.lr
  | .xv => .bcast ((k.xv.headD 0).setWidth 64) 32
  | .const i => .bcast (k.kAt i) 64
  | .lo _ => .row 0

/-- Takes the entry of xv, the head rows of li queues and the full bits of the weir rows that the sources name, once each (R77, R175, R178; log
entry 19). -/
def State.popOnce (s : State) (c : Nat) (rs : List RowRef) : State :=
  let s := if rs.contains .xv then s.modCore c (fun k => { k with xv := k.xv.drop 1 }) else s
  [0, 1, 2, 3].foldl (fun s i =>
    let s := if rs.contains (.li i) then s.modCore c (fun k => k.popLi i) else s
    if rs.contains (.tw i) then
      let p := s.pair (pairOf c)
      s.setPair (pairOf c) { p with twFull := p.twFull.setIfInBounds i false }
    else s) s

/-- Whether one of some sources is a row of an li queue that is marked uncorrectable (R335). -/
def CoreSt.readsMarked (k : CoreSt) (rs : List RowRef) : Bool := [0, 1, 2, 3].any (fun i => rs.contains (.li i) && k.liMarked i)

/-- Whether the destination can be taken now (R126, R174, R175, R177). -/
def State.dstReady (s : State) (c : Nat) (r : RowRef) : Bool :=
  let k := s.core c
  match r with
  | .tw i => !(s.pair (pairOf c)).twFull.getD i false
  | .lo i => (k.lo.getD i { rows := [], peer := none, flight := [], used := 0 }).rows.length < 8
  | r => s.srcReady c r

/-- The destination as it stands: a pushed row and a weir row start from zeros (R172). -/
def State.dstOld (s : State) (c : Nat) (r : RowRef) : VSrc :=
  match r with
  | .tile _ _ | .oper _ | .acc _ _ => s.srcRead c r
  | _ => .row 0

/-- What no stall precedes: a weir row without the twin's member is fatal (R175), a push into an unbound lo raises ILL (R250). The spec gives no order
between the two for one instruction: the ILL comes first (log entry 75, the model's choice). -/
def State.vAccess (s : State) (c : Nat) (srcs : List RowRef) (dst : Option RowRef) : Try Unit :=
  let isTw := fun (r : RowRef) => match r with
    | .tw _ => true
    | _ => false
  let unbound := match dst with
    | some (.lo i) => ((s.core c).lo.getD i { rows := [], peer := none, flight := [], used := 0 }).peer.isNone
    | _ => false
  if unbound then .error (.ill .otherUse)
  else if srcs.any isTw || dst.any isTw then (if s.weirOk c then .ok () else .error (.fatal kWeir 0))
  else .ok ()

/-! Results. -/

/-- What an instruction delivers. -/
inductive VOut where
  /-- lanes of a format and a width into the destination from a lane on -/
  | lanes (k : Kind) (w start : Nat) (codes : List Nat)
  /-- an accumulator row with its counts, as it stands -/
  | accRow (a : AccRow)
  /-- a row into the destination and another into lr -/
  | rows (d l : Row)
  /-- a value pushed to vx -/
  | vx (v : Word)

/-- Lanes written into an accumulator row (R174): an absent result has count 0, another at least 1. -/
def AccRow.putLanes (a : AccRow) (k : Kind) (start : Nat) (codes : List Nat) : AccRow :=
  let new := fun j => codes[j - start]?
  AccRow.ofLists
    ((List.range 64).map (fun j => if j < start then a.val j else (new j).getD (a.val j)))
    ((List.range 64).map (fun j =>
      if j < start then a.cnt j
      else match new j with
        | some x => if x = absentCode k then 0 else max (a.cnt j) 1
        | none => a.cnt j))

/-- Writes a row destination and the latch (R172, R176). -/
def State.putRow (s : State) (c : Nat) (r : RowRef) (v lr : Row) : State :=
  let s := s.modCore c (fun k => { k with lr := lr })
  match r with
  | .tile g i => s.modCore c (fun k => k.setRow (.tile g i) v)
  | .oper i => s.modCore c (fun k => k.setRow (.operand i) v)
  | .tw i =>
    let p := s.pair (pairOf c)
    s.setPair (pairOf c) { p with tw := p.tw.setIfInBounds i v, twFull := p.twFull.setIfInBounds i true }
  | .lo i =>
    s.modCore c (fun k =>
      match k.lo[i]? with
      | some q => { k with lo := k.lo.setIfInBounds i { q with rows := q.rows ++ [v] } }
      | none => k)
  | _ => s

/-- Delivers a result. -/
def State.vPut (s : State) (c : Nat) (dst : Option RowRef) (old : VSrc) (o : VOut) : State :=
  match dst, o with
  | some (.acc a i), .lanes k _ start codes =>
    s.modCore c (fun kk => kk.setAccRow a i ((kk.accRow a i).putLanes k start codes))
  | some (.acc a i), .accRow v => s.modCore c (fun kk => kk.setAccRow a i v)
  | some r, .lanes _ w start codes =>
    let row := match old with
      | .row x => x
      | _ => 0
    let v := putLanes row w start codes
    s.putRow c r v v
  | some r, .rows d l => s.putRow c r d l
  | _, .vx v => s.modCore c (fun k => { k with vx := k.vx ++ [v] })
  | _, _ => s

/-! One instruction. -/

/-- What an instruction's calculation sees: its sources, the mask row and the destination as it stood. -/
structure VIn where
  a : VSrc
  b : VSrc
  m : Row
  d : VSrc

/-- A V instruction as R178 runs it, the vector engine taking it as it issues (R31; log entry 71): its faults, its row sources in order, its mask row, its row destination if it has one (else it pushes to
vx), and its result with its events. -/
def vIssue (s : State) (faults : List IllCause) (srcs : List (BitVec 13)) (mask : Option (BitVec 3)) (dst : Option (BitVec 13))
    (comp : VIn → VOut × List Nat) : Res :=
  issue s faults (fun s => do
    let c := s.cx.core
    let k := s.cxCore
    let rs := srcs.map (resolveRow k false)
    let dr := dst.map (resolveRow k true)
    s.vAccess c rs dr
    need (rs.all (s.srcReady c) && dr.all (s.dstReady c) && (dst.isSome || k.vx.length < 8) &&
      (mask.all (fun i => !k.rowBusy (.operand i.toNat))) && s.gapPast c 0 1 k.vStart)
    if k.readsMarked rs then .error (.fatal kPoison 0) else
    let old := dr.elim (.row 0) (s.dstOld c)
    let m := mask.elim 0 (fun i => k.row (.operand i.toNat))
    let xs := rs.map (s.srcRead c)
    let s := (s.modCore c (fun k => { bumpAll k (srcs ++ dst.toList) with vStart := s.cycle + 1 })).popOnce c rs
    let (o, evs) := comp { a := xs.getD 0 (.row 0), b := xs.getD 1 (.row 0), m := m, d := old }
    .ok ((s.vPut c dr old o).countEvents c 0 evs))

end Sys2Proof.Machine
end

