-- ==== Sys2Proof/Machine/EngRun.lean ====
section
/-! DEFINITION. What engine commands do (R236, R238 to R248): an engine reads and writes bytes of its core's addresses one by one under the
checks of R122; its writes enter the memory order later (R263). -/

namespace Sys2Proof.Machine

/-- A part of a command's work: it changes the state, and may meet a fatal context error, its kind and failing address; what was done before
stays (R236). -/
abbrev Eng (α : Type) := ExceptT (Nat × Nat) (StateM State) α

/-- Reads n bytes of core c at an address (R236) under the checks of the moment, with the values that they have in the state that `pick` gives. -/
def engReadIn (pick : State → State) (c : Nat) (ea : Dword) : Nat → Eng (List Byte)
  | 0 => pure []
  | n + 1 => do
    let s ← get
    let a := ea.toNat
    match s.keyOf c a false with
    | .error (.fatal kd ad) => throw (kd, ad)
    | .error _ => throw (kTranslation, a)
    | .ok key =>
      let s := ((s.cacheLeaf c a).touch key 1).stashUse c a 1
      set s
      if (pick s).badAt key 1 || ((pick s).core c).stashMarked a then throw (kPoison, a)
      let r ← engReadIn pick c (ea + 1) n
      pure ((pick s).coreByte c key :: r)

/-- Reads n bytes of core c at an address (R236), as they stand. -/
def engRead (c : Nat) (ea : Dword) (n : Nat) : Eng (List Byte) := engReadIn (fun s => s) c ea n

/-- Writes bytes of core c at an address (R236). -/
def engPut (c : Nat) (ea : Dword) : List Byte → Eng Unit
  | [] => pure ()
  | b :: r => do
    let s ← get
    let a := ea.toNat
    match s.keyOf c a true with
    | .error (.fatal kd ad) => throw (kd, ad)
    | .error _ => throw (kTranslation, a)
    | .ok key =>
      set ((((s.cacheLeaf c a).stashUse c a 1).engWrite c key b).modCore c (fun k => k.stashDirty a))
      engPut c (ea + 1) r

/-- A little-endian number of n bytes, as they stand in the state that `pick` gives. -/
def engNatIn (pick : State → State) (c : Nat) (ea : Dword) (n : Nat) : Eng Nat := do
  let bs ← engReadIn pick c ea n
  pure (natOfBytes bs)

/-- A little-endian number of n bytes. -/
def engNat (c : Nat) (ea : Dword) (n : Nat) : Eng Nat := engNatIn (fun s => s) c ea n

/-- An address some bytes on. -/
def plus (ea : Dword) (n : Int) : Dword := ea + BitVec.ofInt 64 n

/-- The signed value of an INT32 code. -/
def int32 (x : Nat) : Int := (BitVec.ofNat 32 x).toInt

/-! Copies. -/

/-- COPY and FILL (R238): the source is read as it stood before the command wrote. -/
def runCopy (c : Nat) (d a : Dword) (n : Nat) (fill : Bool) : Eng Unit := do
  if fill then
    engPut c d ((List.range n).map (fun j => (bytesOfNat 8 a.toNat).getD ((d.toNat + j) % 8) 0))
  else
    let bs ← engRead c a n
    engPut c d bs

/-- COPYM (R239): each row lands whole, and is then no longer busy. `owner` marks the busy rows. -/
def runCopym (c reg row : Nat) (a : Dword) (owner : Nat) : Nat → Nat → Eng Unit
  | 0, _ => pure ()
  | n + 1, r => do
    let bs ← engRead c (plus a (256 * r)) 256
    let name := RowName.tile reg (row + r)
    modify (fun s => s.modCore c (fun k => (k.setRow name (rowOfBytes bs)).clearBusy name owner))
    runCopym c reg row a owner n (r + 1)

/-- Writes bytes into the scratchpad of a core, as a write of core c's engine. -/
def engSpad (c t off : Nat) (bs : List Byte) : Eng Unit :=
  modify (fun s => (List.range bs.length).foldl (fun s i => s.engWrite c (spadKey t (off + i)) (bs.getD i 0)) s)

/-- MCAST (R240). -/
def runMcast (c : Nat) (off : Nat) (a : Dword) (n : Nat) (targets : List Nat) : Eng Unit := do
  let bs ← engRead c a n
  targets.forM (fun t => engSpad c t off bs)

/-! Gather and scatter. -/

/-- The bytes of an absent unit: 0x00 for a B type (R243). -/
def absentUnit (ty : BitVec 4) (u : Nat) : List Byte :=
  (List.replicate (u / typeWidth ty) (bytesOfNat (typeWidth ty) (absentCode (kindOfType ty)))).flatten

/-- GATH (R243, R265), unit by unit: it reads what stood before its first write (log entry 27), and a unit that cannot be read ends it with the units
before it written. -/
def runGath (c : Nat) (d a x : Dword) (ty : BitVec 4) (u n : Nat) : Eng Unit := do
  let s0 ← get
  let old := fun (_ : State) => s0
  (List.range n).forM (fun (i : Nat) => do
    let v ← engNatIn old c (plus x (4 * i)) 4
    let bs ← if v = 2 ^ 31 then pure (absentUnit ty u) else engReadIn old c (plus a (int32 v * u)) u
    engPut c (plus d (u * i)) bs)

/-- SCAT (R243), unit by unit. -/
def runScat (c : Nat) (d a x : Dword) (u n : Nat) : Eng Unit :=
  (List.range n).forM (fun (i : Nat) => do
    let v ← engNat c (plus x (4 * i)) 4
    if v = 2 ^ 31 then pure ()
    else
      let bs ← engRead c (plus a (u * i)) u
      engPut c (plus d (int32 v * u)) bs)

/-- The absent bytes or the source of one position of a motion-compensated tile (R326). -/
def gathmcSource (a : Dword) (u ntx nty : Nat) (x y : Int) : Option Dword :=
  if 0 ≤ x ∧ x < 8 * ntx ∧ 0 ≤ y ∧ y < 8 * nty then
    some (plus a (64 * u * (y / 8 * ntx + x / 8) + (8 * (y % 8) + x % 8) * u))
  else none

/-- GATHMC (R326). Where its planes overlap, a unit that it comes to again after its own write is read anew (R265; log entry 76, the model's
choice). -/
def runGathmc (c : Nat) (d a l : Dword) (ty : BitVec 4) (u ntx nty : Nat) : Eng Unit :=
  (List.range (ntx * nty)).forM (fun (i : Nat) => do
    let e ← engNat c (plus l (8 * i)) 8
    let t := e % 2 ^ 32
    let dx := (BitVec.ofNat 16 (e / 2 ^ 32)).toInt
    let dy := (BitVec.ofNat 16 (e / 2 ^ 48)).toInt
    if t = 2 ^ 31 ∨ ntx * nty ≤ t then pure ()
    else
      (List.range 64).forM (fun (p : Nat) => do
        let x : Int := 8 * (t % ntx : Nat) + (p % 8 : Nat) - dx
        let y : Int := 8 * (t / ntx : Nat) + (p / 8 : Nat) - dy
        let bs ← match gathmcSource a u ntx nty x y with
          | some src => engRead c src u
          | none => pure (absentUnit ty u)
        engPut c (plus d (64 * u * t + p * u)) bs))

/-! Scatter-accumulate. -/

/-- One step of the confluence's operations 0 to 4 (R245), with its events. -/
def saccStep (opc : BitVec 3) (ty : BitVec 4) (a b : Nat) : Nat × List Nat :=
  match opc.toNat with
  | 0 => dyadCode .add (kindOfType ty) 0 false a b
  | 1 => dyadCode .min (kindOfType ty) 0 false a b
  | 2 => dyadCode .max (kindOfType ty) 0 false a b
  | 3 => (a &&& b, [])
  | _ => (a ||| b, [])

/-- The left fold of a window's values for one target; none when all are absent (R245). -/
def saccFold (opc : BitVec 3) (ty : BitVec 4) (vs : List Nat) : Option Nat × List Nat :=
  match vs.filter (fun v => !isAbsent (kindOfType ty) v) with
  | [] => (none, [])
  | v :: r =>
    let x := r.foldl (fun (a : Nat × List Nat) b => let (u, ev) := saccStep opc ty a.1 b; (u, a.2 ++ ev)) (v, [])
    (some x.1, x.2)

/-- The keys of n bytes at an address of core c, for an update. -/
def rmwKeys (c : Nat) (ea : Dword) : Nat → Eng (List Nat)
  | 0 => pure []
  | n + 1 => do
    let s ← get
    match s.keyOf c ea.toNat true with
    | .error (.fatal kd ad) => throw (kd, ad)
    | .error _ => throw (kTranslation, ea.toNat)
    | .ok key =>
      let s := (s.cacheLeaf c ea.toNat).stashUse c ea.toNat 1
      set s
      if s.badAt key 1 || (s.core c).stashMarked ea.toNat then throw (kPoison, ea.toNat)
      let r ← rmwKeys c (ea + 1) n
      pure (key :: r)

/-- One read-modify-write at a target (R245, R266): in the memory order at once, after the engine writes that are still pending there. It gives
the old value. -/
def rmw (c : Nat) (ea : Dword) (w : Nat) (f : Nat → Nat) : Eng Nat := do
  let keys ← rmwKeys c ea w
  let s ← get
  let s := keys.foldl (fun s key => s.flush key 1) s
  let old := natOfBytes (keys.map s.byteAt)
  let bs := bytesOfNat w (f old)
  set ((List.range w).foldl (fun s i => (s.write (keys.getD i 0) [bs.getD i 0]).modCore c (fun k => k.stashDirty (ea.toNat + i))) s)
  pure old

/-- The entries of a window by target: each distinct index in the order of first appearance, with its entries (R245). -/
def groupEntries (l : List (Nat × Nat)) : List (Nat × List Nat) :=
  ((l.map (·.1)).eraseDups).map (fun x => (x, (l.filter (fun p => p.1 == x)).map (·.2)))

/-- The update of one target by the entries of a window (R244, R245): its events. -/
def saccTarget (c : Nat) (d v : Dword) (opc : BitVec 3) (ty : BitVec 4) (x : Nat) (es : List Nat) : Eng (List Nat) := do
  let w := typeWidth ty
  let t := plus d (int32 x * w)
  let near := fun (a : Dword) => match regionOf a.toNat with
    | .near _ => true
    | _ => false
  if near d && !near t then throw (kSpad, t.toNat)
  if opc.toNat ≤ 4 then
    let vs ← es.mapM (fun (e : Nat) => engNat c (plus v (w * e)) w)
    let (u, ev) := saccFold opc ty vs
    match u with
    | none => pure ev
    | some u =>
      let old ← rmw c t w (fun o => (saccStep opc ty o u).1)
      pure (ev ++ (saccStep opc ty old u).2)
  else
    es.forM (fun (e : Nat) => do
      let slot := plus v ((if opc = 5 then w else 2 * w) * e)
      let arg ← engNat c slot w
      let old ← if opc = 5 then rmw c t w (fun _ => arg)
        else do
          let new ← engNat c (plus slot w) w
          rmw c t w (fun o => if o = arg then new else o)
      engPut c slot (bytesOfNat w old))
    pure []

/-- SACC (R244, R245), window by window: the events of its rounding steps. -/
def runSacc (c : Nat) (d x v : Dword) (opc : BitVec 3) (ty : BitVec 4) (n win : Nat) : Eng (List Nat) := do
  let evs ← (List.range ((n + win - 1) / win)).mapM (fun (i : Nat) => do
    let es := (List.range win).filterMap (fun j => if win * i + j < n then some (win * i + j) else none)
    let idx ← es.mapM (fun (e : Nat) => do
      let k ← engNat c (plus x (4 * e)) 4
      pure (k, e))
    let parts ← (groupEntries (idx.filter (fun p => p.1 != 2 ^ 31))).mapM (fun g => saccTarget c d v opc ty g.1 g.2)
    pure parts.flatten)
  pure evs.flatten

/-! Chains. -/

/-- One operation of a chain on codes of its TYPE (R247, R248). -/
def chopStep (ty : BitVec 4) (rm : BitVec 3) (sat : Bool) (op : Nat) (x y acc : Nat) : Nat × List Nat :=
  let k := kindOfType ty
  let m := rm.toNat
  match op with
  | 1 => dyadCode .add k m sat x y
  | 2 => dyadCode .sub k m sat x y
  | 3 => dyadCode .mul k m sat x y
  | 4 => fmaCode false k m sat x y acc
  | 5 => dyadCode .min k m sat x y
  | 6 => dyadCode .max k m sat x y
  | 7 => roundVal (decodeVal k x).abs k m sat
  | 8 => roundVal (decodeVal k x).neg k m sat
  | 9 => specialCode .rcp ty m sat x
  | 10 => specialCode .rsq ty m sat x
  | 11 => specialCode .sqrt ty m sat x
  | 12 => specialCode .exp ty m sat x
  | 13 => specialCode .log ty m sat x
  | 14 => specialCode .tanh ty m sat x
  | _ => specialCode .sigm ty m sat x

/-- One element of a chain: its code in DTYPE and its events, each class once (R161, R248). -/
def chainElem (ty dty : BitVec 4) (rm : BitVec 3) (sat : Bool) (ops : List ChopOp) (a b : Nat) : Nat × List Nat :=
  let w := typeWidth ty
  let r := ops.foldl (fun (st : Nat × List Nat) o =>
    let sel := fun (x : BitVec 6) (kv : Dword) =>
      if x = 0 then st.1 else if x = 1 then a else if x = 2 then b else bcastLane kv 64 w
    let (v, ev) := chopStep ty rm sat o.op.toNat (sel o.x o.kx) (sel o.y o.ky) st.1
    (v, st.2 ++ ev)) (a, [])
  let (v, ev) := convertCode (kindOfType ty) (kindOfType dty) rm.toNat sat r.1
  (v, (r.2 ++ ev).eraseDups)

/-- A chain (R248), element by element: its events. A unit that it comes to again after its own write is read anew (R265; log entry 76, the model's
choice). -/
def runChain (c : Nat) (d a b : Dword) (ty dty : BitVec 4) (rm : BitVec 3) (sat useB : Bool) (n : Nat) (ops : List ChopOp) :
    Eng (List Nat) := do
  let w := typeWidth ty
  let evs ← (List.range n).mapM (fun (i : Nat) => do
    let x ← engNat c (plus a (w * i)) w
    let y ← if useB then engNat c (plus b (w * i)) w else pure 0
    let (v, ev) := chainElem ty dty rm sat ops x y
    engPut c (plus d (typeWidth dty * i)) (bytesOfNat (typeWidth dty) v)
    pure ev)
  pure evs.flatten

end Sys2Proof.Machine
end

