-- ==== Sys2Proof/Machine/EngIntake.lean ====
section
/-! DEFINITION. What the skimmer, the tokenizer and the colour converter do (R311, R312, R316 to R324). -/

namespace Sys2Proof.Machine

/-! Frame records. -/

/-- The fields of a frame record that an engine uses (R311). -/
structure FrameRec where
  frame : Nat
  corrupt : Bool
  disc : Bool
  width : Nat
  height : Nat
  bitDepth : Nat
  yaddr : Nat
  uvaddr : Nat
  mvaddr : Nat
  resaddr : Nat

/-- A frame record of 64 bytes (R311). -/
def frameRec (bs : List Byte) : FrameRec :=
  let w := fun (i : Nat) => natOfBytes ((bs.drop (8 * i)).take 8)
  { frame := w 0 % 2 ^ 32, corrupt := w 0 / 2 ^ 50 % 2 == 1, disc := w 0 / 2 ^ 52 % 2 == 1, width := w 2 % 2 ^ 16,
    height := w 2 / 2 ^ 16 % 2 ^ 16, bitDepth := w 2 / 2 ^ 32 % 16, yaddr := w 3 % 2 ^ 56, uvaddr := w 4 % 2 ^ 56, mvaddr := w 5 % 2 ^ 56,
    resaddr := w 6 % 2 ^ 56 }

/-! The skimmer. -/

/-- A layer descriptor (R320). -/
structure LayerDesc where
  malformed : Bool
  ntx : Nat
  nty : Nat
  s : Nat
  period : Nat
  gain : Nat
  bound : Nat
  thresh : Nat

/-- The layer descriptor of 32 bytes (R320). -/
def layerDesc (bs : List Byte) : LayerDesc :=
  let w := fun (i : Nat) => natOfBytes ((bs.drop (8 * i)).take 8)
  let ntx := w 0 % 2 ^ 8
  let nty := w 0 / 2 ^ 8 % 2 ^ 8
  let lstr := w 0 / 2 ^ 16 % 8
  let period := w 1 / 2 ^ 48 % 2 ^ 8
  { malformed := ntx == 0 || nty == 0 || period == 0 || 6 < lstr || w 0 / 2 ^ 19 != 0 || w 1 / 2 ^ 56 != 0 || w 2 != 0 || w 3 != 0,
    ntx := ntx, nty := nty, s := 2 ^ lstr, period := period, gain := w 1 / 2 ^ 40 % 2 ^ 8, bound := w 1 / 2 ^ 16 % 2 ^ 24,
    thresh := w 1 % 2 ^ 16 }

/-- ⌈a ÷ b⌉. -/
def ceilDiv (a b : Nat) : Nat := (a + b - 1) / b

/-- SCORE and CNT of an entry of a state array (R321). -/
def entryScore (e : Nat) : Nat := e / 2 ^ 32 % 2 ^ 24
def entryCnt (e : Nat) : Nat := e / 2 ^ 56 % 2 ^ 8

/-- An entry for a tile that is recomputed (R322). -/
def computeEntry (period reason : Nat) : Nat := period * 2 ^ 56 + reason * 2 ^ 28

/-- An entry for a tile that is reused (R321, R322). -/
def reuseEntry (cnt score : Nat) (dx dy : Int) : Nat :=
  cnt * 2 ^ 56 + score * 2 ^ 32 + 2 ^ 31 + (BitVec.ofInt 12 dy).toNat * 2 ^ 12 + (BitVec.ofInt 12 dx).toNat

/-- The tiles that hold the positions of a region of 8 × 8 from (x, y) (R322). -/
def coverTiles (ntx : Nat) (x y : Nat) : List Nat :=
  ([y / 8, (y + 7) / 8].eraseDups).flatMap (fun ty => ([x / 8, (x + 7) / 8].eraseDups).map (fun tx => ty * ntx + tx))

/-- Where a tile comes from, in positions of its layer, by the vectors of its blocks as signed halves; or the reason, 2 to 4, why it is to be recomputed
(R322). -/
def tileMove (L : LayerDesc) (tx ty : Nat) (vecs : List (Int × Int)) : Except Nat (Int × Int) :=
  let absentV := fun (v : Int × Int) => v.1 == -32768 || v.2 == -32768
  match vecs with
  | [] => .error 2
  | v :: r =>
    let d : Int := 4 * L.s
    let x : Int := 8 * tx - v.1 / d
    let y : Int := 8 * ty - v.2 / d
    if vecs.any absentV || r.any (· != v) then .error 2
    else if v.1 % d ≠ 0 ∨ v.2 % d ≠ 0 then .error 3
    else if x < 0 ∨ 8 * (L.ntx : Int) < x + 8 ∨ y < 0 ∨ 8 * (L.nty : Int) < y + 8 then .error 4
    else .ok (v.1 / d, v.2 / d)

/-- The new entry of a tile that has come by (dx, dy), from the residuals of its blocks and the old entries (R322). -/
def tileEntry (L : LayerDesc) (tx ty : Nat) (dx dy : Int) (res : List Nat) (old : List Nat) : Nat :=
  let e := res.foldl max 0
  let src := (coverTiles L.ntx (8 * tx - dx).toNat (8 * ty - dy).toNat).map (fun t => old.getD t 0)
  let sc := min ((src.map entryScore).foldl max 0 + ceilDiv (L.gain * e) 16) (2 ^ 24 - 1)
  let c := (src.map entryCnt).foldl min 255
  if L.thresh < e then computeEntry L.period 5
  else if L.bound < sc then computeEntry L.period 6
  else if c ≤ 1 then computeEntry L.period 7
  else reuseEntry (c - 1) sc dx dy

/-- The blocks of a tile (R322). -/
def tileBlocks (s bw bh tx ty : Nat) : List (Nat × Nat) :=
  (List.range s).flatMap (fun j => (List.range s).filterMap (fun i =>
    if tx * s + i < bw ∧ ty * s + j < bh then some (tx * s + i, ty * s + j) else none))

/-- CMASK (R322): the residual entries of a tile are read once no reason before them has been found. -/
def runCmask (c : Nat) (state frame layer : Dword) (force : Bool) : Eng Unit := do
  let fbs ← engRead c frame 64
  let F := frameRec fbs
  let lbs ← engRead c layer 32
  let L := layerDesc lbs
  if L.malformed then engPut c state (List.replicate 32 0)
  else
    let h ← engNat c state 8
    let n := L.ntx * L.nty
    let old ← (List.range n).mapM (fun (t : Nat) => engNat c (plus state (32 + 8 * t)) 8)
    let whole := force || h / 2 ^ 32 % 2 == 0 || F.frame != (h % 2 ^ 32 + 1) % 2 ^ 32 || F.disc || F.corrupt ||
      L.ntx != ceilDiv F.width (8 * L.s) || L.nty != ceilDiv F.height (8 * L.s)
    let bw := ceilDiv F.width 8
    let bh := ceilDiv F.height 8
    let new ← (List.range n).mapM (fun (t : Nat) => do
      if whole then pure (computeEntry L.period 1)
      else
        let blocks := tileBlocks L.s bw bh (t % L.ntx) (t / L.ntx)
        let vs ← blocks.mapM (fun (b : Nat × Nat) => engNat c (BitVec.ofNat 64 (F.mvaddr + 4 * (b.2 * bw + b.1))) 4)
        match tileMove L (t % L.ntx) (t / L.ntx) (vs.map (fun v => ((BitVec.ofNat 16 v).toInt, (BitVec.ofNat 16 (v / 2 ^ 16)).toInt))) with
        | .error r => pure (computeEntry L.period r)
        | .ok (dx, dy) =>
          let es ← blocks.mapM (fun (b : Nat × Nat) => engNat c (BitVec.ofNat 64 (F.resaddr + 2 * (b.2 * bw + b.1))) 2)
          pure (tileEntry L (t % L.ntx) (t / L.ntx) dx dy es old))
    (List.range n).forM (fun (t : Nat) => engPut c (plus state (32 + 8 * t)) (bytesOfNat 8 (new.getD t 0)))
    let reused := (new.filter (fun e => e / 2 ^ 31 % 2 == 1)).length
    engPut c (plus state 8) (bytesOfNat 8 (reused * 2 ^ 32 + (n - reused)))
    engPut c (plus state 16) (bytesOfNat 8 (L.nty * 2 ^ 8 + L.ntx))
    engPut c (plus state 24) (bytesOfNat 8 0)
    engPut c state (bytesOfNat 8 (2 ^ 32 + F.frame))

/-- A 12-bit displacement as 16 bits (R324). -/
def disp16 (d : Nat) : Nat := (BitVec.ofInt 16 (BitVec.ofNat 12 d).toInt).toNat

/-- The lists of TLIST (R324) from a tile on, over `n` tiles: how many entries each then has. An entry is read only where the state array is valid. -/
def tlistFrom (c : Nat) (comp state reuse : Dword) (valid : Bool) : Nat → Nat → Nat → Nat → Eng (Nat × Nat)
  | 0, _, j, m => pure (j, m)
  | n + 1, t, j, m => do
    let e ← if valid then engNat c (plus state (32 + 8 * t)) 8 else pure 0
    if e / 2 ^ 31 % 2 = 0 then
      engPut c (plus comp (4 * j)) (bytesOfNat 4 t)
      tlistFrom c comp state reuse valid n (t + 1) (j + 1) m
    else
      engPut c (plus reuse (8 * m)) (bytesOfNat 8 (t + disp16 (e % 2 ^ 12) * 2 ^ 32 + disp16 (e / 2 ^ 12 % 2 ^ 12) * 2 ^ 48))
      tlistFrom c comp state reuse valid n (t + 1) j (m + 1)

/-- TLIST (R324): the lists in the order of the tiles, then the padding. -/
def runTlist (c : Nat) (comp state reuse : Dword) : Eng Unit := do
  let h0 ← engNat c state 8
  let h2 ← engNat c (plus state 16) 8
  let n := h2 % 2 ^ 8 * (h2 / 2 ^ 8 % 2 ^ 8)
  let (j, m) ← tlistFrom c comp state reuse (h0 / 2 ^ 32 % 2 == 1) n 0 0 0
  (List.range (n - j)).forM (fun (i : Nat) => engPut c (plus comp (4 * (j + i))) (bytesOfNat 4 (2 ^ 31)))
  (List.range (n - m)).forM (fun (i : Nat) => engPut c (plus reuse (8 * (m + i))) (bytesOfNat 8 (2 ^ 31)))

/-! The tokenizer. -/

/-- The first child of a node for a byte among `n` edges from one on (R318). -/
def findChild (old : State → State) (c : Nat) (D : Dict) (b : Nat) : Nat → Nat → Eng (Option Nat)
  | 0, _ => pure none
  | n + 1, e => do
    if D.nedges ≤ e then pure none
    else
      let v ← engNatIn old c (BitVec.ofNat 64 (D.edge + 4 * e)) 4
      if v % 2 ^ 8 = b then pure (if v / 2 ^ 8 < D.nnodes then some (v / 2 ^ 8) else none) else findChild old c D b n (e + 1)

/-- The longest match from a node on (R319): the best id and length so far, over at most `n` more bytes. A node word whose NCH is above the 256 that
R318 gives it has as many edges as its field of 9 bits says (log entry 75, the model's choice). -/
def longest (old : State → State) (c : Nat) (D : Dict) (text : Dword) : Nat → Nat → Nat → Nat × Nat → Eng (Nat × Nat)
  | 0, _, _, best => pure best
  | n + 1, node, j, best => do
    let b ← engNatIn old c (plus text j) 1
    let w ← engNatIn old c (BitVec.ofNat 64 (D.node + 8 * node)) 8
    let child ← findChild old c D b (w / 2 ^ 32 % 2 ^ 9) (w / 2 ^ 41)
    match child with
    | none => pure best
    | some k =>
      let id ← engNatIn old c (BitVec.ofNat 64 (D.node + 8 * k)) 4
      longest old c D text n k (j + 1) (if id ≠ 2 ^ 31 then (id, j + 1) else best)

/-- The ids of a text (R319), at most `cap` more: ids written and bytes consumed. -/
def tokens (old : State → State) (c : Nat) (D : Dict) (out text : Dword) (len : Nat) : Nat → Nat → Nat → Eng (Nat × Nat)
  | 0, i, k => pure (k, i)
  | cap + 1, i, k => do
    if len ≤ i then pure (k, i)
    else
      let b ← engNatIn old c (plus text i) 1
      let (id, l) ← longest old c D (plus text i) (min 64 (len - i)) 0 0 (b, 1)
      engPut c (plus out (8 + 4 * k)) (bytesOfNat 4 id)
      tokens old c D out text len cap (i + l) (k + 1)

/-- TOKZ (R319): each unit that it reads has one value in the command, the one from before its writes (R265; log entry 27). -/
def runTokz (c : Nat) (out text : Dword) (len : Nat) (dict cap : Nat) : Eng Unit := do
  let s ← get
  let (k, i) ← tokens (fun _ => s) c (s.dictOf c dict) out text len cap 0 0
  engPut c out (bytesOfNat 8 (k + i * 2 ^ 32))

/-! Colour conversion. -/

/-- The exact value of a coefficient (R316). -/
def coef (l : List Word) (i : Nat) : Val := decodeVal (kindOfType 0) (l.getD i 0).toNat

/-- The product and the sum of coefficients, exactly. -/
def vMul (a b : Val) : Val := (mulVal a b).1
def vAdd (a b : Val) : Val := (addVal a b).1

/-- Lane c of a pixel of samples y, cb, cr under a full scale n (R317): exact, then one rounding, with its events; a free value
where n is 0 (log entry 65). -/
def ccLane (S : CcSet) (ofmt : BitVec 2) (n y cb cr c : Nat) : Nat × List Nat :=
  let term := fun (k v : Nat) => vMul (coef S.m (3 * c + k)) (.ofInt v 0)
  let sum := vAdd (vAdd (term 0 y) (term 1 cb)) (term 2 cr)
  let off := vMul (vAdd (coef S.off c) (coef S.mean c).neg) (.ofInt n 0)
  if n = 0 then
    ((Config.laneOfNoBits y cb cr c).toNat % 2 ^ (8 * typeWidth (ofmtType ofmt)), [0, 1, 2, 3, 4, 5].filter (Config.eventsOfNoBits y cb cr c).getLsbD)
  else roundVal (divNat (vMul (vAdd sum off) (coef S.scl c)) n) (kindOfType (ofmtType ofmt)) 0 true

/-- A pixel of the converted tiles: four lanes of the format, the last absent, with their events (R317). -/
def ccPixel (S : CcSet) (ofmt : BitVec 2) (n y cb cr : Nat) : List Byte × List Nat :=
  let ls := [0, 1, 2].map (ccLane S ofmt n y cb cr)
  let ty := ofmtType ofmt
  ((ls.map (·.1) ++ [absentCode (kindOfType ty)]).flatMap (bytesOfNat (typeWidth ty)), ls.flatMap (·.2))

/-- Four absent lanes. -/
def ccOutside (ofmt : BitVec 2) : List Byte :=
  let ty := ofmtType ofmt
  (List.replicate 4 (bytesOfNat (typeWidth ty) (absentCode (kindOfType ty)))).flatten

/-- The row pitch of a plane (R311). -/
def rowPitch (width b : Nat) : Nat := 256 * ceilDiv (width * b) 256

/-- CCVT (R317): its events. Each unit that it reads has one value in the command, the one from before its writes (R265; log entry 27). -/
def runCcvt (c : Nat) (d frame origin : Dword) (ntx nty cset : Nat) (ofmt : BitVec 2) : Eng (List Nat) := do
  let s ← get
  let S := s.ccsetOf c cset
  let old := fun (_ : State) => s
  let fbs ← engReadIn old c frame 64
  let F := frameRec fbs
  let b := if F.bitDepth = 8 then 1 else 2
  let pitch := rowPitch F.width b
  let w := typeWidth (ofmtType ofmt)
  let evs ← (List.range (ntx * nty)).mapM (fun (t : Nat) => do
    let e ← (List.range 64).mapM (fun (p : Nat) => do
      let x := origin.toNat % 2 ^ 16 + 8 * (t % ntx) + p % 8
      let y := origin.toNat / 2 ^ 16 % 2 ^ 16 + 8 * (t / ntx) + p / 8
      let out := plus d (t * 256 * w + p * 4 * w)
      if F.width ≤ x ∨ F.height ≤ y then do
        engPut c out (ccOutside ofmt)
        pure []
      else do
        let sy ← engNatIn old c (BitVec.ofNat 64 (F.yaddr + y * pitch + x * b)) b
        let cb ← engNatIn old c (BitVec.ofNat 64 (F.uvaddr + y / 2 * pitch + x / 2 * 2 * b)) b
        let cr ← engNatIn old c (BitVec.ofNat 64 (F.uvaddr + y / 2 * pitch + (x / 2 * 2 + 1) * b)) b
        let (bs, ev) := ccPixel S ofmt (2 ^ F.bitDepth - 1) sy cb cr
        engPut c out bs
        pure ev)
    pure e.flatten)
  pure evs.flatten

end Sys2Proof.Machine
end

