-- ==== Sys2Proof/Machine/XAlu.lean ====
section
/-! DEFINITION. X: 32-bit integer instructions (R101 to R106), pairs (R107). -/

namespace Sys2Proof.Machine

/-- The faults of a destination code and source codes of X (R73, R75). -/
def xFaults (d : BitVec 6) (srcs : List (BitVec 6)) : List IllCause := fault? (!xDstOk d || srcs.any (!xSrcOk ·)) .operand

/-- An X instruction of one source (R101). -/
def xUnary (d a : BitVec 6) (f : Word → Word) (s : State) : Res :=
  issueCore s (xFaults d [a]) (fun k => do
    let (va, k) ← readX k a
    writeX k d (f va))

/-- An X instruction of two sources, read S1 then S2 (R75, R101); `extra` are faults of its own. -/
def xBinaryWith (extra : List IllCause) (d a b : BitVec 6) (f : Word → Word → Word) (s : State) : Res :=
  issueCore s (xFaults d [a, b] ++ extra) (fun k => do
    let (va, k) ← readX k a
    let (vb, k) ← readX k b
    writeX k d (f va vb))

/-- An X instruction of two sources. -/
def xBinary (d a b : BitVec 6) (f : Word → Word → Word) (s : State) : Res := xBinaryWith [] d a b f s

/-- The faults of pair codes (R75). -/
def pairFaults (cs : List (BitVec 6)) : List IllCause := fault? (cs.any (!xPairOk ·)) .operand

/-- An X instruction on two pairs (R107). -/
def xPairBinary (d a b : BitVec 6) (f : Dword → Dword → Dword) (s : State) : Res :=
  issueCore s (pairFaults [d, a, b]) (fun k => .ok (writePair k d (f (readPair k a) (readPair k b))))

/-- A shift of a pair by a 32-bit count (R104, R107). -/
def xPairShift (d a b : BitVec 6) (f : Dword → Word → Dword) (s : State) : Res :=
  issueCore s (pairFaults [d, a] ++ fault? (!xSrcOk b) .operand) (fun k => do
    let (n, k) ← readX k b
    .ok (writePair k d (f (readPair k a) n)))

/-- The saturate bit that the instruction that issues carries (R81). -/
abbrev State.sat (s : State) : Bool := s.cx.mods.sat

/-- NOP_X (R134). -/
def execNopX (s : State) : Res := issueCore s [] .ok

/-- ADDI (R83, R101): S1 plus the sign-extended immediate. -/
def execAddi (d a : BitVec 6) (imm : BitVec 8) (s : State) : Res :=
  xUnary d a (fun x => clampTo 32 s.sat (x.toInt + simm s.cx.mods imm)) s

/-- The signed quotient (R103): toward zero; division by zero gives all ones. -/
def divS (a b : Word) : Word := if b = 0 then BitVec.allOnes 32 else BitVec.ofInt 32 (a.toInt.tdiv b.toInt)

/-- The unsigned quotient (R103). -/
def divU (a b : Word) : Word := if b = 0 then BitVec.allOnes 32 else BitVec.ofNat 32 (a.toNat / b.toNat)

/-- The signed remainder (R103), with the sign of S1; S1 itself where S2 is 0. -/
def remS (a b : Word) : Word := if b = 0 then a else BitVec.ofInt 32 (a.toInt.tmod b.toInt)

/-- The unsigned remainder (R103). -/
def remU (a b : Word) : Word := if b = 0 then a else BitVec.ofNat 32 (a.toNat % b.toNat)

/-- A field of `w` bits from `pos` on, extended (R105). -/
def fieldOf (sx : Bool) (a : Word) (pos w : Nat) : Word :=
  let f := a.toNat / 2 ^ pos % 2 ^ w
  if sx && 2 ^ (w - 1) ≤ f then BitVec.ofInt 32 ((f : Int) - (2 ^ w : Nat)) else BitVec.ofNat 32 f

/-- S1 with a field replaced by the low bits of S2 (R105). -/
def insertField (a b : Word) (pos w : Nat) : Word :=
  let m : Word := BitVec.ofNat 32 ((2 ^ w - 1) * 2 ^ pos)
  (a &&& ~~~m) ||| ((b <<< pos) &&& m)

/-- BFX (R105). -/
def execBfx (sx : BitVec 1) (d a : BitVec 6) (pos wm1 : BitVec 5) (s : State) : Res :=
  issueCore s (xFaults d [a] ++ fault? (32 < pos.toNat + wm1.toNat + 1) .otherUse) (fun k => do
    let (va, k) ← readX k a
    writeX k d (fieldOf (sx == 1) va pos.toNat (wm1.toNat + 1)))

/-- BFI (R105). -/
def execBfi (d a b : BitVec 6) (pos wm1 : BitVec 5) (s : State) : Res :=
  xBinaryWith (fault? (32 < pos.toNat + wm1.toNat + 1) .otherUse) d a b (fun x y => insertField x y pos.toNat (wm1.toNat + 1)) s

/-- Writes a predicate of X. -/
def CoreSt.setXp (k : CoreSt) (n : Nat) (b : Bool) : CoreSt := { k with x := k.x.setP n b }

/-- CMP (R94, R106): the result goes to the predicate that D names, p4 to p7. -/
def execCmp (u : BitVec 1) (cond pred : BitVec 3) (a b : BitVec 6) (s : State) : Res :=
  issueCore s (cmpFaults cond pred ++ fault? (!xSrcOk a || !xSrcOk b) .operand) (fun k => do
    let (va, k) ← readX k a
    let (vb, k) ← readX k b
    .ok (k.setXp pred.toNat (condOf (u == 1) cond va vb)))

/-- SEL (R106): both sources are read, whichever is taken. -/
def execSel (n : BitVec 2) (d a b : BitVec 6) (s : State) : Res :=
  issueCore s (xFaults d [a, b]) (fun k => do
    let (va, k) ← readX k a
    let (vb, k) ← readX k b
    writeX k d (if k.x.pAt (4 + n.toNat) then va else vb))

/-- LI (R107). -/
def execLi (d : BitVec 6) (imm : BitVec 32) (s : State) : Res := issueCore s (xFaults d []) (fun k => writeX k d imm)

/-- CMP64 (R106, R107). -/
def execCmp64 (u : BitVec 1) (cond pred : BitVec 3) (a b : BitVec 6) (s : State) : Res :=
  issueCore s (cmpFaults cond pred ++ pairFaults [a, b]) (fun k =>
    .ok (k.setXp pred.toNat (condOf (u == 1) cond (readPair k a) (readPair k b))))

/-- MOV64 (R107). -/
def execMov64 (d a : BitVec 6) (s : State) : Res := issueCore s (pairFaults [d, a]) (fun k => .ok (writePair k d (readPair k a)))

/-- LI64 (R107). -/
def execLi64 (d : BitVec 6) (imm : BitVec 32) (s : State) : Res :=
  issueCore s (pairFaults [d]) (fun k => .ok (writePair k d (imm.signExtend 64)))

/-- ADD (R101, R102). -/
def execAdd (d a b : BitVec 6) (s : State) : Res := xBinary d a b (fun x y => clampTo 32 s.sat (x.toInt + y.toInt)) s

/-- SUB (R101, R102). -/
def execSub (d a b : BitVec 6) (s : State) : Res := xBinary d a b (fun x y => clampTo 32 s.sat (x.toInt - y.toInt)) s

/-- MUL (R101, R102). -/
def execMul (d a b : BitVec 6) (s : State) : Res := xBinary d a b (fun x y => clampTo 32 s.sat (x.toInt * y.toInt)) s

/-- MULH (R101). -/
def execMulh (d a b : BitVec 6) (s : State) : Res := xBinary d a b (fun x y => BitVec.ofInt 32 (x.toInt * y.toInt / (2 ^ 32 : Nat))) s

/-- MULHZ (R101). -/
def execMulhz (d a b : BitVec 6) (s : State) : Res := xBinary d a b (fun x y => BitVec.ofNat 32 (x.toNat * y.toNat / 2 ^ 32)) s

/-- DIV (R103). -/
def execDiv (d a b : BitVec 6) (s : State) : Res := xBinary d a b (fun x y => divS x y) s

/-- DIVZ (R103). -/
def execDivz (d a b : BitVec 6) (s : State) : Res := xBinary d a b (fun x y => divU x y) s

/-- REM (R103). -/
def execRem (d a b : BitVec 6) (s : State) : Res := xBinary d a b (fun x y => remS x y) s

/-- REMZ (R103). -/
def execRemz (d a b : BitVec 6) (s : State) : Res := xBinary d a b (fun x y => remU x y) s

/-- AND (R101). -/
def execAnd (d a b : BitVec 6) (s : State) : Res := xBinary d a b (fun x y => x &&& y) s

/-- OR (R101). -/
def execOr (d a b : BitVec 6) (s : State) : Res := xBinary d a b (fun x y => x ||| y) s

/-- XOR (R101). -/
def execXor (d a b : BitVec 6) (s : State) : Res := xBinary d a b (fun x y => x ^^^ y) s

/-- ANDN (R101). -/
def execAndn (d a b : BitVec 6) (s : State) : Res := xBinary d a b (fun x y => x &&& ~~~y) s

/-- SHL (R104). -/
def execShl (d a b : BitVec 6) (s : State) : Res := xBinary d a b (fun x y => shlOf 32 s.sat x y) s

/-- SHR (R104). -/
def execShr (d a b : BitVec 6) (s : State) : Res := xBinary d a b (fun x y => shrOf 32 x y) s

/-- SRA (R104). -/
def execSra (d a b : BitVec 6) (s : State) : Res := xBinary d a b (fun x y => sraOf 32 x y) s

/-- MIN (R101). -/
def execMin (d a b : BitVec 6) (s : State) : Res := xBinary d a b (fun x y => if y.slt x then y else x) s

/-- MAX (R101). -/
def execMax (d a b : BitVec 6) (s : State) : Res := xBinary d a b (fun x y => if x.slt y then y else x) s

/-- MINZ (R101). -/
def execMinz (d a b : BitVec 6) (s : State) : Res := xBinary d a b (fun x y => if y.ult x then y else x) s

/-- MAXZ (R101). -/
def execMaxz (d a b : BitVec 6) (s : State) : Res := xBinary d a b (fun x y => if x.ult y then y else x) s

/-- CLZ (R101). -/
def execClz (d a : BitVec 6) (s : State) : Res := xUnary d a (fun x => clzOf x) s

/-- POPC (R101). -/
def execPopc (d a : BitVec 6) (s : State) : Res := xUnary d a (fun x => popcOf x) s

/-- MOV (R101). -/
def execMov (d a : BitVec 6) (s : State) : Res := xUnary d a (fun x => x) s

/-- EXTB (R101). -/
def execExtb (z : BitVec 1) (d a : BitVec 6) (s : State) : Res := xUnary d a (fun x => if z = 1 then (x.setWidth 8).setWidth 32 else (x.setWidth 8).signExtend 32) s

/-- EXTH (R101). -/
def execExth (z : BitVec 1) (d a : BitVec 6) (s : State) : Res := xUnary d a (fun x => if z = 1 then (x.setWidth 16).setWidth 32 else (x.setWidth 16).signExtend 32) s

/-- ADD64 (R102, R107). -/
def execAdd64 (d a b : BitVec 6) (s : State) : Res := xPairBinary d a b (fun x y => clampTo 64 s.sat (x.toInt + y.toInt)) s

/-- SUB64 (R102, R107). -/
def execSub64 (d a b : BitVec 6) (s : State) : Res := xPairBinary d a b (fun x y => clampTo 64 s.sat (x.toInt - y.toInt)) s

/-- SHL64 (R104, R107). -/
def execShl64 (d a b : BitVec 6) (s : State) : Res := xPairShift d a b (fun x n => shlOf 64 false x n) s

/-- SHR64 (R104, R107). -/
def execShr64 (d a b : BitVec 6) (s : State) : Res := xPairShift d a b (fun x n => shrOf 64 x n) s

/-- SRA64 (R104, R107). -/
def execSra64 (d a b : BitVec 6) (s : State) : Res := xPairShift d a b (fun x n => sraOf 64 x n) s

end Sys2Proof.Machine
end

