-- ==== Sys2Proof/Machine/XSys.lean ====
section
/-! DEFINITION. X: traps (R116), capability and system registers (R32 to R37, R113, R163, R164), clock requests (R114, R347, R348) and pacing
(R115, R350). -/

namespace Sys2Proof.Machine

/-! Traps. -/

/-- TRAP (R116): the trap is taken by the gang's stop; a token signal of the instruction goes with it. -/
def execTrap (code : BitVec 14) (s : State) : Res := issue s [] (fun _ => .error (.trap 2 code.toNat))

/-- BRK (R116). -/
def execBrk (code : BitVec 14) (s : State) : Res := issue s [] (fun _ => .error (.trap 3 code.toNat))

/-! Capability registers. -/

/-- The number of tile registers of a core: four for each bank in service (R29, R32). -/
def CoreSt.tregCount (k : CoreSt) : Nat := 4 * ((List.range 4).filter (fun b => k.bankmap.getLsbD b)).length

/-- A capability register (R32); none for a reserved index. -/
def CoreSt.capReg (k : CoreSt) (idx : BitVec 8) : Option Word :=
  match idx.toNat with
  | 0 => some 0x00960100
  | 1 => some (BitVec.ofNat 32 (k.tregCount * 2 ^ 8 + k.bankmap.toNat * 2 ^ 4))
  | 3 => some 256
  | 4 => some 512
  | _ => none

/-- RDCAP (R32, R113). -/
def execRdcap (d : BitVec 6) (idx : BitVec 8) (s : State) : Res :=
  issueCore s (xFaults d [] ++ fault? (s.cxCore.capReg idx).isNone .reservedValue) (fun k => writeX k d ((k.capReg idx).getD 0))

/-! System registers. -/

/-- The origin of a core's quad, packed (R25, R34). -/
def quadOrigin (c : Nat) : Nat := let p := coordOfCore c; p - p / 16 % 2 * 16 - p % 2

/-- CLKSTAT (R34). -/
def CoreSt.clkstat (k : CoreSt) : Word :=
  BitVec.ofNat 32 ((if k.divReq.toList.any (fun r => r.elim false (·.deferred)) then 2 ^ 16 else 0) + packNat 4 (k.div.toList.map (· - 1)))

/-- LICST (R34). -/
def State.licst (s : State) (c : Nat) : Word :=
  BitVec.ofNat 32 ((if s.weirOk c then 4 else 0) + (if s.holdsLic (twinOf c) then 2 else 0) + (if s.holdsLic c then 1 else 0))

/-- The effective priority of the task of a core. -/
def State.eprioOf (s : State) (c : Nat) : Nat := (s.taskOf c).elim 0 (·.eprio)

/-- A system register of a core as it stands (R33, R34, R163); none for an index that is not assigned. The watermarks of a core with no task read 0
(R34); from dispatch on R216 gives them. -/
def State.sysReg (s : State) (c : Nat) (idx : BitVec 8) : Option Word :=
  let k := s.core c
  let n := idx.toNat
  let w := fun (v : Nat) => some (BitVec.ofNat 32 v)
  if h : 0x44 ≤ n ∧ n < 0x4A then some (k.nev.cnt[n - 0x44]'(by omega))
  else if h : 0x4A ≤ n ∧ n < 0x50 then some (k.nev.thr[n - 0x4A]'(by omega))
  else match n with
    | 0x00 => w (coordOfCore c)
    | 0x01 => w (quadOrigin c)
    | 0x02 => w k.rank
    | 0x03 => w k.gangSize
    | 0x04 => w k.stage
    | 0x05 => some k.iteridx
    | 0x06 => w k.slipw
    | 0x07 => w (if k.resident then k.wmark 0 else 0)
    | 0x08 => w (if k.resident then k.wmark 1 else 0)
    | 0x09 => w k.task
    | 0x0A => w (s.eprioOf c * 2 ^ 20 + k.prio * 2 ^ 16 + k.stream)
    | 0x0B => w s.cycle
    | 0x0C => some k.timeh
    | 0x0D => some k.clkstat
    | 0x0E => some (s.licst c)
    | 0x0F => some (k.tileops ++ k.copies ++ k.stores ++ k.loads)
    | 0x10 => w k.demand
    | 0x40 => some k.nev.cfg
    | 0x41 => some k.nev.act
    | 0x42 => some k.nev.stat
    | 0x43 => w (k.nev.crossw.toNat * 2 ^ 26 + k.nev.elapsed % 2 ^ 26)
    | _ => none

/-- TIMEL_READ (R37): the high half of the same instant is latched for TIMEH. -/
def execTimelRead (d : BitVec 6) (s : State) : Res :=
  issueCore s (xFaults d []) (fun k => writeX { k with timeh := BitVec.ofNat 32 (s.cycle / 2 ^ 32) } d (BitVec.ofNat 32 s.cycle))

/-- RDSYS (R33, R36, R113). -/
def execRdsys (d : BitVec 6) (idx : BitVec 8) (s : State) : Res :=
  let v := s.sysReg s.cx.core idx
  if idx = 0x0B then execTimelRead d s
  else issueCore s (xFaults d [] ++ fault? v.isNone .reservedValue) (fun k => writeX k d (v.getD 0))

/-- A write of X to a register of its core (R33, R113); a refused value raises ILL with cause 14. -/
def xSysWrite (a : BitVec 6) (f : CoreSt → Word → Option CoreSt) (s : State) : Res :=
  issueCore s (fault? (!xSrcOk a) .operand) (fun k => do
    let (v, k) ← readX k a
    match f k v with
    | some k => .ok k
    | none => .error (.ill .otherUse))

/-- SLIPW_WRITE (R35): it takes effect at X's next walked word. -/
def execSlipwWrite (a : BitVec 6) (s : State) : Res :=
  xSysWrite a (fun k v => if 8 ≤ v.toNat ∧ v.toNat ≤ 4096 then some { k with slipwDue := some v.toNat } else none) s

/-- NEVCFG_WRITE (R163, R164): the window starts again, the counts stay. -/
def execNevcfgWrite (a : BitVec 6) (s : State) : Res :=
  xSysWrite a (fun k v => if v.toNat < 2 ^ 16 then some { k with nev := { k.nev with cfg := v, elapsed := 0, crossw := 0 } } else none) s

/-- NEVSTAT_CLEAR (R163): ones clear the bits. -/
def execNevstatClear (a : BitVec 6) (s : State) : Res :=
  xSysWrite a (fun k v => if v.toNat < 2 ^ 6 then some { k with nev := { k.nev with stat := k.nev.stat &&& ~~~v } } else none) s

/-- Sets the count of a class: with no window, a class that has crossed may cross again once its count is cleared (R164). -/
def Nev.setCnt (n : Nev) (c : Nat) (v : Word) : Nev :=
  { n with
    cnt := n.cnt.setIfInBounds c v
    crossw := if n.window = 0 ∧ v = 0 then n.crossw &&& ~~~((1 : BitVec 6) <<< c) else n.crossw }

/-- NEVCNT_WRITE (R164): sets a count and fires no action. -/
def execNevcntWrite (n : BitVec 3) (a : BitVec 6) (s : State) : Res :=
  xSysWrite a (fun k v => some { k with nev := k.nev.setCnt n.toNat v }) s

/-- A value that NEVACT takes (R163). -/
def nevactOk (v : Word) : Bool := v.toNat < 2 ^ 12 && [0, 1, 2, 3, 4, 5].all (fun c => v.toNat / 4 ^ c % 4 != 3)

/-- A write to a system register with no row of its own (R33, R163): NEVACT and the thresholds; every other assigned one is read-only. -/
def CoreSt.sysWrite (k : CoreSt) (idx : BitVec 8) (v : Word) : Option CoreSt :=
  let n := idx.toNat
  if n = 0x41 then (if nevactOk v then some { k with nev := { k.nev with act := v } } else none)
  else if h : 0x4A ≤ n ∧ n < 0x50 then some { k with nev := { k.nev with thr := k.nev.thr.set (n - 0x4A) v (by omega) } }
  else none

/-- Whether a system register with no write row of its own takes a write of WRSYS (R33, R163). -/
def sysWritable (n : Nat) : Bool := n == 0x41 || (0x4A ≤ n && n < 0x50)

/-- WRSYS (R33, R113). An index that has a row of its own is that row's write; a read-only one is refused whatever the source holds. -/
def execWrsys (a : BitVec 6) (idx : BitVec 8) (s : State) : Res :=
  match idx.toNat with
  | 0x06 => execSlipwWrite a s
  | 0x40 => execNevcfgWrite a s
  | 0x42 => execNevstatClear a s
  | n =>
    if 0x44 ≤ n ∧ n < 0x4A then execNevcntWrite (BitVec.ofNat 3 (n - 0x44)) a s
    else match s.sysReg s.cx.core idx with
      | none => issue s [.reservedValue] .ok
      | some _ =>
        if sysWritable n then xSysWrite a (fun k v => k.sysWrite idx v) s
        else issue s [if xSrcOk a then .otherUse else .operand] .ok

/-! Clocks and pacing. -/

/-- The rail that feeds a core (R347). -/
def railOf (c : Nat) : Nat := c % 128 / 16 / 2 * 4 + c % 16 / 4

/-- The voltage level that a divisor needs (R347). -/
def levelOf (d : Nat) : Nat := if d ≤ 1 then 7 else if d = 2 then 5 else if d ≤ 4 then 3 else 1

/-- The status of a CLKDIV (R114, R348). -/
def State.clkStatus (s : State) (c dom d : Nat) : Nat :=
  let k := s.core c
  let r := s.rail (railOf c)
  if d < (s.part k.part).floors.getD dom 1 then 2
  else if k.div.getD dom 1 ≤ d then 0
  else if r.throttled || r.maxLevel < levelOf d then 3
  else if levelOf d ≤ r.level then 0
  else 1

/-- CLKDIV (R114, R348): a granted divisor is applied at the domain's next command boundary; a deferred one waits for the rail. -/
def execClkdiv (d : BitVec 6) (div : BitVec 4) (dom : BitVec 2) (s : State) : Res :=
  let st := s.clkStatus s.cx.core dom.toNat (div.toNat + 1)
  issueCore s (xFaults d []) (fun k =>
    let k := k.setXp 4 (st == 0)
    let k := if st < 2 then
        { k with divReq := k.divReq.set dom.toNat (some { d := div.toNat + 1, deferred := st == 1, keep := false, begun := false }) dom.isLt }
      else k
    writeX k d (BitVec.ofNat 32 st))

/-- PACE (R94, R115, R350). -/
def execPace (a : BitVec 6) (idx : BitVec 8) (s : State) : Res :=
  let fl := s.paceFloor s.cx.core idx.toNat
  issueCore s (fault? (!xSrcOk a) .operand ++ fault? (6 < idx.toNat) .reservedValue) (fun k => do
    let (v, k) ← readX k a
    if 2 ^ 16 ≤ v.toNat then .error (.ill .otherUse)
    else .ok ({ k with pace := k.pace.setIfInBounds idx.toNat (v.setWidth 16) }.setXp 4 (v.toNat < fl)))

end Sys2Proof.Machine
end

