-- ==== Sys2Proof/Machine/Engines.lean ====
section
/-! DEFINITION. The engines of a core (R233, R234, R241): a command starts, and is carried out whole; it completes with its release, its events
and its signal. An engine runs one command at a time (log entry 21). -/

namespace Sys2Proof.Machine

/-- The PACE number of an engine (R94, R233). -/
def paceNo : Engine → Nat
  | .copy => 2
  | .sluice => 3
  | .confluence => 4
  | .gather => 5
  | .chain => 6

/-- Whether the pacing gap of an engine has passed (R31). -/
def State.gapOver (s : State) (c : Nat) (e : Engine) : Bool := s.gapPast c (paceNo e) 3 ((s.core c).engine e).lastStart

/-- Whether a command's acquire may be performed: every older access of A has been (R234). -/
def CoreSt.acquired (k : CoreSt) (m : EngCmd) : Bool := k.aq.all (fun a => a.performed || m.awaits ≤ a.id) && k.fe.all (fun a => m.awaits ≤ a.id)

/-- The work of a command (R238 to R248, R317 to R326): the numeric events that it counts. The rows of a TFETCH come in steps of their own. -/
def runCommand (c : Nat) (m : EngCmd) : Eng (List Nat) :=
  match m.op with
  | .copy d a n fill => do runCopy c d a n.toNat fill; pure []
  | .copym reg row a n _ => do runCopym c reg row a m.id (n.toNat / 256) 0; pure []
  | .mcast off a n ts => do runMcast c off.toNat a n.toNat ts; pure []
  | .tfetch _ _ _ => pure []
  | .gath d a x ty u n => do runGath c d a x ty u n; pure []
  | .scat d a x _ u n => do runScat c d a x u n; pure []
  | .gathmc d a l ty u ntx nty => do runGathmc c d a l ty u ntx nty; pure []
  | .sacc d x v opc ty n win => runSacc c d x v opc ty n win
  | .chain d a b ty dty rm sat useB n ops => runChain c d a b ty dty rm sat useB n ops
  | .cmask st fr la force => do runCmask c st fr la force; pure []
  | .tlist comp st re => do runTlist c comp st re; pure []
  | .tokz out text len dict cap => do runTokz c out text len.toNat dict cap; pure []
  | .ccvt d fr o ntx nty cset ofmt => runCcvt c d fr o ntx nty cset ofmt

/-- A command that meets an error is abandoned; those behind it go on (R294). -/
def State.dropCommand (s : State) (c : Nat) (e : Engine) : State :=
  (s.modCore c (fun k => k.setEngine e { k.engine e with active := (k.engine e).active.drop 1 })).answer c (.engine e)

/-- Carries a command out: the state, with the events noted in the command, or with the gang's fatal error. -/
def State.runEngine (s : State) (c : Nat) (e : Engine) (m : EngCmd) : State :=
  match (runCommand c m).run s with
  | (.ok evs, s) => s.modCore c (fun k => k.setEngine e { k.engine e with active := [{ m with events := evs }] })
  | (.error (kd, ad), s) => (raiseFatal s c kd ad).dropCommand c e

/-- Whether a command's accesses leave its core (R334): the ranges of a copy, a fetch or a chain show it; a command through indices, or of the
intake complex, does. -/
def EngCmd.travels (c : Nat) (m : EngCmd) : Bool :=
  let own := fun (r : Range) => 2 ^ 60 + spadKey c 0 ≤ r.lo && r.hi ≤ 2 ^ 60 + spadKey c (2 ^ 19)
  match m.op with
  | .copy _ _ _ _ | .copym _ _ _ _ _ | .tfetch _ _ _ | .chain _ _ _ _ _ _ _ _ _ _ => !(m.reads ++ m.writes).all own
  | .mcast _ _ _ ts => !m.reads.all own || ts.any (· != c)
  | _ => true

/-- Whether the head of an engine's queue can start now; during a drain none that would send (R334). -/
def State.engineReady (s : State) (c : Nat) (e : Engine) (m : EngCmd) : Bool :=
  (s.core c).resident && ((s.core c).engine e).active.isEmpty && s.gapOver c e && (s.core c).acquired m &&
    (s.draining.isNone || !m.travels c)

/-- ENGINE_COMMAND_START (R233, R234, R265). -/
def execEngineCommandStart (core : Nat) (eng : Engine) (s : State) : Res :=
  let x := (s.core core).engine eng
  match x.queue with
  | [] => .next s
  | m :: r =>
    if s.engineReady core eng m then
      let s := if m.travels core then s.request core (.engine eng) else s
      .next ((s.modCore core (fun k => k.setEngine eng { queue := r, active := [m], lastStart := s.cycle + 1 })).runEngine core eng m)
    else .next s

/-- SLUICE_ROW_FILL (R241): the next row of the sluice's command enters fq, which has room. -/
def execSluiceRowFill (core : Nat) (s : State) : Res :=
  let k := s.core core
  match k.sluiceE.active with
  | m :: _ =>
    match m.op with
    | .tfetch base stride rows =>
      if rows ≤ m.rowsDone || 4 ≤ k.fq.length || s.unanswered core (.engine .sluice) then .next s
      else
        match (engRead core (base + BitVec.ofNat 64 m.rowsDone * stride) 256).run s with
        | (.ok bs, s) =>
          .next (s.modCore core (fun k =>
            { k with
              fq := k.fq ++ [rowOfBytes bs]
              fqAt := (k.fqAt ++ [base + BitVec.ofNat 64 m.rowsDone * stride]).drop (k.fqAt.length - 3)
              sluiceE := { k.sluiceE with active := [{ m with rowsDone := m.rowsDone + 1 }] } }))
        | (.error (kd, ad), s) => .next ((raiseFatal s core kd ad).dropCommand core .sluice)
    | _ => .next s
  | [] => .next s

/-- Whether a command's work is done: the rows of a TFETCH are in fq, and the follow-on word of a COPYM has left the side port. -/
def CoreSt.commandDone (k : CoreSt) (m : EngCmd) : Bool :=
  match m.op with
  | .tfetch _ _ rows => rows ≤ m.rowsDone
  | .copym _ _ _ _ _ => m.presented && k.side.isNone
  | _ => true

/-- The release of a command (R232, R234, R263): at a scope beyond the core every engine write of the core enters the memory order, and every
dirty line of its stash is written back. -/
def State.release (s : State) (c : Nat) (m : EngCmd) : State := if m.rel && m.scope != 0 then (s.settle c).writeBack c else s

/-- A command leaves its engine: the copies counter falls, its scoreboard entry is free. -/
def CoreSt.finishEng (k : CoreSt) (e : Engine) : CoreSt :=
  { k.setEngine e { k.engine e with active := (k.engine e).active.drop 1 } with copies := k.copies - 1 }

/-- The address of the data that a command reads first, which a marked reply reports (R335). -/
def EngCmd.firstRead (m : EngCmd) : Nat := m.reads.head?.elim 0 (·.lo)

/-- ENGINE_COMMAND_COMPLETE (R162, R210, R233 to R236, R239): the replies that it awaits are there, and none is marked; the release; then a COPYM
presents its follow-on word; then the end, held while the token's counter is full (R39). -/
def execEngineCommandComplete (core : Nat) (eng : Engine) (s : State) : Res :=
  let k := s.core core
  match (k.engine eng).active with
  | [] => .next s
  | m :: r =>
    if s.unanswered core (.engine eng) then .next s
    else if s.replyMarked core (.engine eng) && !m.reads.isEmpty then .next ((raiseFatal s core kPoison m.firstRead).dropCommand core eng)
    else match m.op, m.presented with
    | .copym _ _ _ _ patch, false =>
      if k.side.isSome || k.tileops == 255 then .next s
      else
        .next ((s.release core m).modCore core (fun k =>
          (k.setEngine eng { k.engine eng with active := { m with presented := true } :: r }).presentSide patch))
    | _, _ =>
      if !k.commandDone m then .next s
      else
        match k.signalOpt? m.sig with
        | none => .next s
        | some k' => .next ((((s.setCore core (k'.finishEng eng)).answer core (.engine eng)).release core m).countEvents core 2 m.events)

end Sys2Proof.Machine
end

