-- ==== Sys2Proof/Machine/MStrand.lean ====
section
/-! DEFINITION. M: the licence (R200 to R203), templates (R207), the commands that enter the matrix queue (R208, R217, R218), and the side port
(R209, R210). -/

namespace Sys2Proof.Machine

/-- NOP_M (R93, R134). -/
def execNopM (s : State) : Res := issueCore s [] .ok

/-- MLIC_ACQ (R200, R201): while it may not take the licence it stalls with its request pending. -/
def execMlicAcq (s : State) : Res :=
  let c := s.cx.core
  if acqWaits s && !s.mayTakeLic c then .next (s.waitLic c) else issue s (licFaults s) (fun s => .ok (s.takeLic c))

/-- LICENCE_GRANT (R201): a free licence goes to the oldest pending request that stands. The MLIC.ACQ that it meets is executed with it: one that
a trap stops before then has had no effect (R137). -/
def execLicenceGrant (pair : Nat) (s : State) : Res :=
  let p := s.pair pair
  match p.holder, s.licAsked pair with
  | none, c :: _ =>
    let t := (s.setPair pair { p with holder := some c, pending := p.pending.filter (· != c) }).modCore c (fun k => { k with owed := false })
    (match strandSoon t c .m with
     | .run .mlicAcq u => if acqWaits u then execMlicAcq u else .next t
     | _ => .next t)
  | _, _ => .next s

/-- Whether a core holds the licence or is owed it (R203). -/
def State.licDue (s : State) (c : Nat) : Bool := s.holdsLic c || (s.core c).owed

/-- MLIC_REL (R200, R203). -/
def execMlicRel (s : State) : Res :=
  let c := s.cx.core
  issue s (licFaults s ++ fault? (!s.licDue c) .otherUse) (fun s => do
    need (!(s.core c).mq.any (fun m => m.op.isMx))
    .ok ((s.dropLic c).modCore c (fun k => { k with owed := false })))

/-- MLIC_TRY (R200, R201). -/
def execMlicTry (s : State) : Res :=
  let c := s.cx.core
  issue s (licFaults s) (fun s =>
    let b := s.mayTakeLic c
    .ok ((if b then s.takeLic c else s).modCore c (fun k => { k with m := k.m.setP 4 b })))

/-- The 16 bytes of a segment of a row. -/
def rowSegment (r : Row) (seg : BitVec 4) : BitVec 128 := r.extractLsb' (128 * seg.toNat) 128

/-- TPLLD (R126, R207). -/
def execTplld (tpl : BitVec 6) (row : BitVec 3) (seg : BitVec 4) (s : State) : Res :=
  issueCore s [] (fun k => do
    need (!k.rowBusy (.operand row.toNat))
    .ok { k with tpl := tset k.tpl tpl.toNat (rowSegment (k.row (.operand row.toNat)) seg) })

/-- MX (R208): it is checked when M reaches the word; without the licence it is fatal, or with a licence owed acquires it first. -/
def execMx (tpl : BitVec 6) (fsel : BitVec 5) (val : BitVec 16) (s : State) : Res :=
  let c := s.cx.core
  let t := mxForm s.cxCore tpl fsel val
  match worst (mxFaults s fsel val t ++ placeFaults s) with
  | some e => .next (raiseIll s e)
  | none =>
    if s.holdsLic c then
      issue s [] (fun s => do
        need s.cxCore.mqRoom
        .ok ((s.modCx (fun k => { k.enterTpl t s.cx.mods.sat s.cx.mods.sig with mqAt := s.cycle + 1 })).deferSig))
    else if !s.cxCore.owed then .next (raiseFatal s c kNoLicence 0)
    else if s.mayTakeLic c then .next (s.takeLic c)
    else .next (s.waitLic c)

/-- Enters a command of M's own into the queue (R208). -/
def enterOwn (faults : List IllCause) (op : CoreSt → MatOp) (s : State) : Res :=
  issue s faults (fun s => do
    need s.cxCore.mqRoom
    .ok ((s.modCx (fun k => { k.enterMat (op k) 0 0 s.cx.mods.sig with mqAt := s.cycle + 1 })).deferSig))

/-- MZERO (R208, R217). -/
def execMzero (acc : BitVec 1) (s : State) : Res := enterOwn [] (fun _ => .zero acc) s

/-- Whether the combination of fields of an MDRAIN is legal but for the demand (R218). -/
def drainOk (f : Drain) : Bool :=
  let rows := f.nrm1.toNat + 1
  f.tfmt.toNat ≤ 8 && (f.fn != 2 || f.tfmt == 7) && f.part.toNat * typeWidth f.tfmt < 4 && f.crow0.toNat + rows ≤ 64 &&
    (if f.dkind = 0 then f.drow0.toNat + rows ≤ 64 else f.drow0 == 0 && f.dreg.toNat < 4)

/-- The faults of an MDRAIN (R218). -/
def drainFaults (demand : Nat) (f : Drain) : List IllCause :=
  fault? (f.fn == 3 || f.dkind == 3) .reservedValue ++ fault? (!drainOk f) .templateValue ++
    fault? (f.dkind == 0 && demand ≤ f.dreg.toNat) .demand

/-- MDRAIN (R208, R218). -/
def execMdrain (f : Drain) (s : State) : Res :=
  enterOwn (drainFaults s.cxCore.demand f) (fun k => .drain f (physT k.m k.demand f.dreg.toNat) s.cx.mods.mode s.cx.mods.sat) s

/-! The side port (R209, R210). -/

/-- A command of M's own that its turn would now put into the queue. -/
def execEnter (i : Instr) (s : State) : Res :=
  match i with
  | .mx tpl fsel val => execMx tpl fsel val s
  | .mzero acc => execMzero acc s
  | .mdrain f => execMdrain f s
  | _ => .next s

/-- Whether M would put a command into the queue in this MAT cycle, and has put none into it yet: it goes before one of the side port (R209). -/
def State.mGoesFirst (s : State) (c : Nat) : Bool :=
  let k := s.core c
  let cyc := fun (n : Nat) => n / max 1 (k.div.toList.getD 2 1)
  (k.mqAt == 0 || cyc (k.mqAt - 1) != cyc s.cycle) &&
    (match strandSoon s c .m with
     | .run i s' =>
       (match execEnter i s' with
        | .next t => k.mq.length < (t.core c).mq.length
        | _ => false)
     | .idle _ => false)

/-- SIDE_PORT_COMMAND (R203, R209, R210): the follow-on command at the side port is judged for its licence once, which it acquires if it is owed,
and enters the queue when there is room, behind a command of M that enters in the same cycle. It counts in the tile operations from its passing to
the side port on (R59). -/
def execSidePortCommand (core : Nat) (s : State) : Res :=
  let k := s.core core
  match k.side with
  | none => .next s
  | some w =>
    if !w.judged && !s.holdsLic core && !k.owed then .next (raiseFatal s core kNoLicence 0)
    else if !w.judged && !s.holdsLic core then
      .next (if s.mayTakeLic core then (s.takeLic core).modCore core (fun k => { k with side := some { w with judged := true } }) else s.waitLic core)
    else if 16 ≤ k.mq.length || s.mGoesFirst core then .next (s.setCore core { k with side := some { w with judged := true } })
    else .next (s.modCore core (fun k => { k.enterTpl w.tpl false none with side := none, tileops := k.tileops }))

end Sys2Proof.Machine
end

