-- ==== Sys2Proof/Machine/Runnel.lean ====
section
/-! DEFINITION. Runnels: binding (R110), occupancy (R109), and the flow of rows and credits (R249). -/

namespace Sys2Proof.Machine

/-- An lo queue that holds nothing and is bound to nothing. -/
def Lo.reset : Lo := { rows := [], peer := none, flight := [], used := 0 }

/-- An lo queue of a core. -/
def CoreSt.loAt (k : CoreSt) (i : Nat) : Lo := k.lo.getD i .reset

/-- The rows of an li queue of a core. -/
def CoreSt.liAt (k : CoreSt) (i : Nat) : List Row := k.li.getD i []

/-- Changes an lo queue of a core. -/
def CoreSt.setLo (k : CoreSt) (i : Nat) (q : Lo) : CoreSt := { k with lo := k.lo.setIfInBounds i q }

/-- The (core, lo) pair from which li `m` of core `d` is bound, if one is: a member of the gang of core c. -/
def State.boundFrom (s : State) (c d m : Nat) : Option (Nat × Nat) :=
  ((c :: s.gang c).flatMap (fun e => [0, 1, 2, 3].map (fun j => (e, j)))).find? (fun p => ((s.core p.1).loAt p.2).peer == some (d, m))

/-- The faults of queue numbers (R110). -/
def queueFaults (l : List (BitVec 6)) : List IllCause := fault? (l.any (fun q => 3 < q.toNat)) .reservedValue

/-- QBIND_BIND (R110). -/
def execQbindBind (lo li : BitVec 6) (coord : BitVec 9) (s : State) : Res :=
  let c := s.cx.core
  issue s (queueFaults [lo, li] ++ coordFaults coord) (fun s => do
    let q := s.cxCore.loAt lo.toNat
    need (q.rows.isEmpty && q.flight.isEmpty)
    let d := (coreOfCoord coord).getD 0
    let from? := s.boundFrom c d li.toNat
    if !(d == c || s.inGang c d) || (from?.isSome && from? != some (c, lo.toNat)) then .error (.ill .otherUse)
    else if from?.isSome then .ok s
    else .ok (s.modCx (fun k => k.setLo lo.toNat { q with peer := some (d, li.toNat), used := ((s.core d).liAt li.toNat).length })))

/-- QBIND_UNBIND (R110): it waits for rows in flight as the bind form does (log entry 66, the model's choice). -/
def execQbindUnbind (lo : BitVec 6) (s : State) : Res :=
  issue s (queueFaults [lo]) (fun s => do
    let q := s.cxCore.loAt lo.toNat
    need (q.rows.isEmpty && q.flight.isEmpty)
    .ok (s.modCx (fun k => k.setLo lo.toNat { q with peer := none })))

/-- QDEPTH (R94, R109): IMM8 0 to 3 is lo0 to lo3, 4 to 7 is li0 to li3. -/
def execQdepth (d : BitVec 6) (idx : BitVec 8) (s : State) : Res :=
  let n := idx.toNat
  let q := s.cxCore.loAt n
  let (rows, bound) := if n < 4 then (q.rows.length + q.flight.length, q.peer.isSome)
    else ((s.cxCore.liAt (n - 4)).length, (s.boundFrom s.cx.core s.cx.core (n - 4)).isSome)
  issueCore s (xFaults d [] ++ fault? (7 < n) .reservedValue) (fun k =>
    writeX k d (BitVec.ofNat 32 (rows % 32 + if bound then 0 else 2 ^ 31)))

/-- RUNNEL_ROW_SEND (R249, R334): the oldest row leaves while the sender knows of a free slot and the network does not drain; to another core it is
a packet (R335). -/
def execRunnelRowSend (core : Nat) (lo : BitVec 2) (s : State) : Res :=
  let q := (s.core core).loAt lo.toNat
  match q.rows, q.peer with
  | r :: rs, some (d, _) =>
    if q.used < 8 && s.draining.isNone then
      .next ((if d = core then s else s.request core (.row lo.toNat)).modCore core (fun k =>
        k.setLo lo.toNat { q with rows := rs, flight := q.flight ++ [r], used := q.used + 1 }))
    else .next s
  | _, _ => .next s

/-- The rows that a core has on their way to core d, in the order sent. -/
def State.rowsTo (s : State) (c d : Nat) : List Outstanding :=
  s.outstanding.filter (fun o => o.core == c &&
    (match o.what with
     | .row j => ((s.core c).loAt j).peer.any (·.1 == d)
     | _ => false))

/-- RUNNEL_ROW_ARRIVE (R249, R333, R335): the oldest row in flight is accepted, behind every row that its core has sent to the same core before. -/
def execRunnelRowArrive (core : Nat) (lo : BitVec 2) (s : State) : Res :=
  let q := (s.core core).loAt lo.toNat
  match q.flight, q.peer with
  | r :: rs, some (d, m) =>
    let arrive := fun (s : State) (bad : Bool) =>
      (s.modCore core (fun k => k.setLo lo.toNat { q with flight := rs })).modCore d (fun k => k.pushLi m r bad)
    match s.rowsTo core d with
    | [] => .next (arrive s false)
    | o :: _ =>
      if o.what = .row lo.toNat ∧ o.sent ∧ !o.lost then
        .next (arrive { s with outstanding := s.outstanding.filter (fun p => p.tag != o.tag) } o.marked)
      else .next s
  | _, _ => .next s

/-- RUNNEL_CREDIT_RETURN (R249): the sender learns of a slot that a pop of li has freed. -/
def execRunnelCreditReturn (core : Nat) (lo : BitVec 2) (s : State) : Res :=
  let q := (s.core core).loAt lo.toNat
  match q.peer with
  | some (d, m) =>
    if q.flight.length + ((s.core d).liAt m).length < q.used then .next (s.modCore core (fun k => k.setLo lo.toNat { q with used := q.used - 1 }))
    else .next s
  | none => .next s

end Sys2Proof.Machine
end

