-- ==== Sys2Proof/Machine/Records.lean ====
section
/-! DEFINITION. Task records and tasks: the fields and the checks of a record (R276 to R278, R282), acceptance (R277, R281), dependences (R283),
effective priorities (R284), failure, and the instructions SPAWN and TSTAT (R111, R112, R285). -/

namespace Sys2Proof.Machine

/-- The field of n bits from bit lo up. -/
def nfield (w lo n : Nat) : Nat := w / 2 ^ lo % 2 ^ n

/-- Word i of bytes read as 64-bit words. -/
def w64 (bs : List Byte) (i : Nat) : Nat := natOfBytes ((bs.drop (8 * i)).take 8)

/-! The record. -/

/-- The fields of a record, with the shape table's entries (R276, R278). -/
def recOf (bs : List Byte) (shape : List (BitVec 16)) : Rec :=
  let w := w64 bs
  { domain := nfield (w 0) 48 8, hdlr := nfield (w 0) 24 1 == 1, ownprio := nfield (w 0) 23 1 == 1, weir := nfield (w 0) 22 1 == 1,
    lic := nfield (w 0) 21 1 == 1, restart := nfield (w 0) 20 1 == 1, prio := nfield (w 0) 16 4,
    text := nfield (w 1) 0 56, reloct := nfield (w 2) 0 56, nreloc := nfield (w 3) 32 16, tlen := nfield (w 3) 0 32,
    prologue := nfield (w 4) 32 32, tbase := nfield (w 4) 0 32, epilogue := nfield (w 5) 32 32, kernel := nfield (w 5) 0 32,
    kconst := nfield (w 6) 0 56, size := nfield (w 7) 56 8 + 1, shape := shape, ilimit := nfield (w 8) 32 32, stash := nfield (w 8) 16 5,
    spad := nfield (w 8) 8 6, tregs := nfield (w 8) 0 5, trip := nfield (w 9) 32 32, handler := nfield (w 9) 0 32,
    preds := [nfield (w 10) 0 32, nfield (w 10) 32 32, nfield (w 11) 0 32, nfield (w 11) 32 32].filter (· != 0),
    opnds := [12, 13, 14, 15].map (fun i => BitVec.ofNat 64 (w i)) }

/-- Whether a reserved field of a record is not zero (R276). -/
def recReserved (bs : List Byte) : Bool :=
  let w := w64 bs
  nfield (w 0) 56 8 != 0 || nfield (w 0) 25 23 != 0 || nfield (w 0) 12 4 != 0 || nfield (w 1) 56 8 != 0 || nfield (w 2) 56 8 != 0 ||
    nfield (w 3) 48 16 != 0 || nfield (w 6) 56 8 != 0 || nfield (w 8) 21 11 != 0 || nfield (w 8) 14 2 != 0 || nfield (w 8) 5 3 != 0

/-- The fields of an entry of a shape table (R278): STAGE, DZ, DY, DX. -/
def shapeStage (e : BitVec 16) : Nat := nfield e.toNat 12 4
def shapeDz (e : BitVec 16) : Nat := nfield e.toNat 8 1
def shapeDy (e : BitVec 16) : Nat := nfield e.toNat 4 4
def shapeDx (e : BitVec 16) : Nat := nfield e.toNat 0 4

/-- The relative position of an entry. -/
def shapePos (e : BitVec 16) : Nat := nfield e.toNat 0 9

/-- Whether a shape table is valid (R278). -/
def shapeOk (l : List (BitVec 16)) : Bool :=
  l.all (fun e => nfield e.toNat 9 3 == 0) && ((l.map shapePos).eraseDups.length == l.length)

/-- Whether a shape is paired (R278). -/
def pairedShape (l : List (BitVec 16)) : Bool :=
  l.all (fun e => l.any (fun f => shapePos f == (if shapeDz e = 1 then shapePos e - 2 ^ 8 else shapePos e + 2 ^ 8)))

/-- Whether an OPND word obeys R282. -/
def opndOk (o : Dword) : Bool :=
  let v := o.toNat
  if v < 2 ^ 63 then v == 0 else 8 ≤ nfield v 56 6 && nfield v 56 6 ≤ 40 && v % 256 == 0

/-- Whether the addresses and lengths of a record obey R276 (check 4 of R277). -/
def recAddrsOk (r : Rec) (addr shapet : Nat) : Bool :=
  addr % 128 == 0 && shapet % 2 == 0 && r.tlen % 32 == 0 && 32 ≤ r.tlen && r.tlen ≤ 2 ^ 24 && r.text % 32 == 0 && r.tbase % 32 == 0 &&
    r.kconst % 128 == 0 && [r.prologue, r.epilogue, r.kernel].all (fun e => e % 4 == 0 && r.tbase ≤ e && e < r.tbase + r.tlen) &&
    (r.nreloc == 0 || r.reloct % 8 == 0)

/-- The checks 2 to 9 of R277, in order: the number of the first that fails. -/
def recCheck (bs : List Byte) (r : Rec) (addr : Nat) : Option Nat :=
  if recReserved bs then some 2
  else if r.tregs = 0 ∨ 16 < r.tregs ∨ 16 < r.stash ∨ 32 < r.spad + r.stash then some 3
  else if !recAddrsOk r addr (nfield (w64 bs 7) 0 56) then some 4
  else if r.ilimit = 0 then some 5
  else if !shapeOk r.shape then some 6
  else if r.weir && (!pairedShape r.shape || !r.lic) then some 7
  else if !r.opnds.all opndOk then some 8
  else if r.hdlr && r.handler != 0 then some 9
  else none

/-- What the fountainhead learns as it reads a record (R169, R277): its fields, and the check that refuses it. `kconst` replaces KCONST in the record
that is submitted (R315). -/
def State.readRec (s : State) (part addr : Nat) (kconst : Option Nat) : State × Rec × Option Nat :=
  let (s, rd) := s.partFetch part addr 128
  match rd with
  | .error _ => (s, Rec.reset, some 1)
  | .ok bs =>
    let n := nfield (w64 bs 7) 56 8 + 1
    let (s, rd) := s.partFetch part (nfield (w64 bs 7) 0 56) (2 * n)
    match rd with
    | .error _ => (s, { recOf bs [] with trip := 0, kconst := kconst.getD (nfield (w64 bs 6) 0 56) }, some 1)
    | .ok sh =>
      let r := recOf bs ((List.range n).map (fun i => BitVec.ofNat 16 (natOfBytes ((sh.drop (2 * i)).take 2))))
      let r := { r with kconst := kconst.getD r.kconst }
      (s, r, recCheck bs r addr)

/-! Tasks and their dependences. -/

/-- The number by which the steps of the fountainhead name a task: its partition and its id (log entry 1). -/
def Task.key (t : Task) : Nat := t.part * 2 ^ 32 + t.id

/-- A task that has ended, complete or failed. -/
def Task.ended (t : Task) : Bool := t.phase == .complete || t.phase == .failed

/-- The fields of an OPND word that declares a range (R282): write, base, end. -/
def opndRange (o : Dword) : Option (Bool × Nat × Nat) :=
  if o.toNat < 2 ^ 63 then none
  else some (nfield o.toNat 62 1 == 1, nfield o.toNat 0 56, nfield o.toNat 0 56 + 2 ^ nfield o.toNat 56 6)

/-- Whether two declared ranges conflict (R282). -/
def rangesConflict (a b : Bool × Nat × Nat) : Bool := (a.1 || b.1) && a.2.1 < b.2.2 && b.2.1 < a.2.2

/-- Whether a range of one record conflicts with a range of another (R282). -/
def Rec.conflicts (a b : Rec) : Bool :=
  (a.opnds.filterMap opndRange).any (fun x => (b.opnds.filterMap opndRange).any (rangesConflict x))

/-- Whether task u, accepted after task t, names it as predecessor or conflicts with it in a dependence domain (R283): u depends on t while t
has not ended. -/
def Task.follows (u t : Task) : Bool :=
  u.part == t.part && t.order < u.order &&
    (u.recd.preds.contains t.id || (u.recd.domain != 0 && u.recd.domain == t.recd.domain && t.recd.conflicts u.recd))

/-- Whether task u depends on task t (R283). -/
def Task.dependsOn (u t : Task) : Bool := u.follows t && !t.ended

/-- Whether task u waits for its handler t (R292). -/
def Task.awaitsTask (u t : Task) : Bool :=
  match u.awaits with
  | .handler id _ _ _ => u.part == t.part && t.id == id
  | _ => false

/-- The task of the streams' pool that is the head of a stream (R286): a task to be placed again before those that have never run, and the
earliest accepted. -/
def State.headOf (s : State) (stream : Nat) : Option Task :=
  let l := s.tasks.filter (fun t => t.stream == stream && t.inPool)
  let l := if l.any (·.dispatched) then l.filter (·.dispatched) else l
  l.foldl (fun b t => match b with
    | none => some t
    | some h => if t.order < h.order then some t else some h) none

/-- A task leaves the ready pool undispatched: the deficit of the stream whose head it was is 0 (R286). -/
def State.leavePool (s : State) (t : Task) : State :=
  let s := if (s.headOf t.stream).any (fun h => h.id == t.id && h.part == t.part) then s.modStream t.stream (fun q => { q with deficit := 0 }) else s
  s.modTask t.part t.id (fun t => { t with inPool := false })

/-- A task fails or completes: its completion record is due (R295), and no core is reserved for it. -/
def State.endTask (s : State) (t : Task) (phase : TaskPhase) (kind detail addr : Nat) : State :=
  let s := if t.inPool then s.leavePool t else s
  ({ s with reserved := s.reserved.filter (fun r => !(r.2.1 == t.part && r.2.2 == t.id)) } : State).modTask t.part t.id (fun t =>
    { t with phase := phase, running := false, kind := kind, detail := detail, addr := addr, eprio := 0, recordDue := true, doneAt := s.cycle,
             images := none, boundary := none, atBoundary := false, spill := none, awaits := .nothing, preemptAt := none, preemptFor := none, saving := false, traps := [],
             fatal := none, cores := [] })

/-- A task fails, and with it each that waits on it, and so on (R283): kind 15, with the low bits of the failed predecessor's id. -/
def failTask : Nat → State → Task → Nat → Nat → Nat → State
  | 0, s, _, _, _, _ => s
  | n + 1, s, t, kind, detail, addr =>
    let s := s.endTask t .failed kind detail addr
    (s.tasks.filter (fun u => u.phase == .waiting && u.follows t)).foldl (fun s u =>
      match s.task? u.part u.id with
      | some v => if v.phase == .waiting then failTask n s v 15 (t.id % 2 ^ 16) 0 else s
      | none => s) s

/-- A task fails (R283, R294). -/
def State.fail (s : State) (t : Task) (kind detail addr : Nat) : State := failTask (s.tasks.length + 1) s t kind detail addr

/-! Acceptance. -/

/-- The next task id after one (R281). -/
def nextIdAfter (id : Nat) : Nat := if id + 1 < 2 ^ 32 then id + 1 else 1

/-- The number of tasks that a stream holds (R281): each accepted task whose record is not written. -/
def State.heldBy (s : State) (stream : Nat) : Nat := (s.tasks.filter (fun t => t.stream == stream && !t.recordWritten)).length

/-- Whether a stream is full (R281). -/
def State.streamFull (s : State) (stream : Nat) : Bool := 32 + (s.stream stream).spill ≤ s.heldBy stream

/-- The entry of a task beyond the 32 of its stream goes into the partition's spill area, through its translation (R344, log entry 73). -/
def State.spillEntry (s : State) (t : Task) : State :=
  let p := s.part t.part
  let used := s.tasks.filterMap (fun u => if u.part == t.part then u.spill.map (·.1) else none)
  match (List.range p.spillSize).find? (fun j => !used.contains j) with
  | none => s
  | some j =>
    let bs := bytesOfNat 128 (Config.spillRecord s.fresh).toNat
    ({ s.partWrite t.part (p.spillBase + 128 * j) bs with fresh := s.fresh + 1 } : State).modTask t.part t.id (fun t => { t with spill := some (j, bs) })

/-- Whether the entry of a task is as the device wrote it (R344): an entry of the spill area is, unless another agent has written there. -/
def State.spillIntact (s : State) (t : Task) : Bool :=
  match t.spill with
  | none => true
  | some (j, bs) =>
    match s.partRead t.part ((s.part t.part).spillBase + 128 * j) 128 with
    | .ok now => now == bs
    | .error _ => false

/-- Acceptance of the record at an address into a stream (R277, R281, R283): the id, and the state. A refused record gets an id and fails with
kind 11; one that names a failed predecessor fails with kind 15. `prio` replaces PRIO where OWNPRIO is 0 (R285); `kconst` replaces KCONST
(R315). After the ids have wrapped, a task replaces the one that has had its id; a PRED that names a task which has
failed fails the new one however long ago that was (log entry 76, the model's choices). -/
def State.accept (s : State) (part stream addr : Nat) (prio kconst : Option Nat) : Nat × State :=
  let p := s.part part
  let id := p.nextTask
  let (s, r, bad) := s.readRec part addr kconst
  let r := { r with prio := if r.ownprio then r.prio else prio.getD r.prio }
  let t : Task :=
    { Task.reset with id := id, part := part, stream := stream, recd := r, order := p.nextOrder, eprio := r.prio, poolSince := s.cycle }
  let beyond := 32 ≤ s.heldBy stream
  let s : State := { s.modPart part (fun p => { p with nextTask := nextIdAfter id, nextOrder := p.nextOrder + 1 }) with
    tasks := s.tasks.filter (fun (u : Task) => !(u.part == part && u.id == id)) ++ [t] }
  match bad with
  | some c => (id, s.fail t kRefused c 0)
  | none =>
    match s.tasks.find? (fun (u : Task) => u.phase == .failed && t.recd.preds.contains u.id && t.follows u) with
    | some u => (id, s.fail t kPredecessor (u.id % 2 ^ 16) 0)
    | none => (id, if beyond then s.spillEntry t else s)

/-! Effective priority. -/

/-- Whether task u waits on task t (R284, R292). -/
def Task.waitsOn (u t : Task) : Bool :=
  !u.ended && (u.dependsOn t || u.awaitsTask t || (u.part == t.part && u.stream == t.stream && t.order < u.order && !t.dispatched))

/-- Reference cycles in a microsecond (R15, R304). -/
def usCycles : Nat := 3200

/-- Whether a stream is aged (R284): AGE is not zero, and the stream's head of now has stood in the ready pool for longer than AGE µs since it
entered and since the stream's last dispatch. -/
def State.isAged (s : State) (stream : Nat) : Bool :=
  let q := s.stream stream
  q.age != 0 && (s.headOf stream).any (fun h => max h.poolSince q.lastDispatch + q.age * usCycles < s.cycle)

/-- The priority of a task with the boost of an aged stream (R284). -/
def State.basePrio (s : State) (t : Task) : Nat :=
  let head := (s.headOf t.stream).any (fun h => h.id == t.id && h.part == t.part)
  if head && s.isAged t.stream then max t.recd.prio (min (t.recd.prio + 1) 15) else t.recd.prio

/-- One round of the equations of R284 over all tasks. -/
def eprioRound (s : State) (l : List Task) : List Task :=
  l.map (fun t => if t.ended then { t with eprio := 0 }
    else { t with eprio := ((l.filter (fun u => u.waitsOn t)).map (·.eprio)).foldl max (s.basePrio t) })

/-- The least solution of R284: rounds from no inheritance at all. -/
def eprioFix (s : State) : Nat → List Task → List Task
  | 0, l => l
  | n + 1, l => eprioFix s n (eprioRound s l)

/-- EPRIO_UPDATE (R284). -/
def execEprioUpdate (s : State) : Res :=
  .next { s with tasks := eprioFix s s.tasks.length (s.tasks.map (fun t => { t with eprio := if t.ended then 0 else s.basePrio t })) }

/-- STREAM_AGED (R284): a stream that is aged has changed what the equations start from, so they are solved anew. -/
def execStreamAged (stream : Nat) (s : State) : Res := if s.isAged stream then execEprioUpdate s else .next s

/-! Readiness. -/

/-- The number of tasks in the ready pool (R283). -/
def State.poolCount (s : State) : Nat := (s.tasks.filter (·.inPool)).length

/-- Whether a task has entered the ready pool or been dispatched, in the sense of stream order (R281). -/
def Task.entered (t : Task) : Bool := t.inPool || t.dispatched || t.ended || t.recd.hdlr

/-- Whether a task that has never run may enter the pool but for the pool's room (R281, R283, R292). Its predecessors' completion records come
first (R267). -/
def State.canEnter (s : State) (t : Task) : Bool :=
  t.phase == .waiting && !s.tasks.any (fun (u : Task) => t.follows u && (!u.ended || (t.recd.preds.contains u.id && !u.recordWritten))) &&
    (if t.recd.hdlr then t.released
     else s.tasks.all (fun (u : Task) => !(u.part == t.part && u.stream == t.stream && u.order < t.order) || u.entered))

/-- Whether a stopped task is ready again. -/
def Task.canReturn (t : Task) : Bool := t.phase == .saved && t.awaits == .nothing

/-- The task that a step of the fountainhead names (log entry 1). -/
def State.taskKey? (s : State) (key : Nat) : Option Task := s.task? (key / 2 ^ 32) (key % 2 ^ 32)

/-- TASK_READY (R281, R283, R292): a task enters the pool; while it is full, or another that has run waits for the entry, it stays. An entry of the
spill area that another agent has written over fails with kind 11 (R344, log entry 73). -/
def execTaskReady (task : Nat) (s : State) : Res :=
  match s.taskKey? task with
  | none => .next s
  | some t =>
    if 1024 ≤ s.poolCount || t.inPool then .next s
    else if t.canReturn || (s.canEnter t && !s.tasks.any Task.canReturn) then
      if s.spillIntact t then
        .next (s.modTask t.part t.id (fun t => { t with phase := .ready, inPool := true, poolSince := s.cycle, spill := none }))
      else .next (s.fail t kRefused 1 0)
    else .next s

/-! SPAWN and TSTAT. -/

/-- The record address that S1 of a SPAWN names: all 64 bits of a k register, or a pair of g registers (R111). -/
def spawnAddr (k : CoreSt) (a : BitVec 6) : Dword :=
  if 40 ≤ a.toNat then k.kAt (a.toNat - 40)
  else (k.gAt (physG k.x (a.toNat + 1))) ++ (k.gAt (physG k.x a.toNat))

/-- The faults of a SPAWN's operands (R111). -/
def spawnFaults (d a b : BitVec 6) : List IllCause :=
  xFaults d [b] ++ fault? (!((40 ≤ a.toNat && a.toNat ≤ 55) || (a.toNat ≤ 30 && a.toNat % 2 == 0))) .operand

/-- Why a core of a partition may not read the record of a SPAWN at an address: the kind and the failing address (R111, R122, R294, log entry 62); for
uncorrectable data kind 7. -/
def State.spawnFault (s : State) (c part addr : Nat) : Option (Nat × Nat) :=
  match regionOf addr with
  | .none => some (kHighBits, addr)
  | .global =>
    match s.partRead part addr 128 with
    | .error (bad, some _) => some (kSpawnRead, bad)
    | .error (bad, none) => some (kPoison, bad)
    | .ok _ => none
  | _ => some (if (s.spadOf c addr).isSome then kSpawnRead else kSpad, addr)

/-- The stream and the record address of a SPAWN that meets what it waits for and its checks, with the operands read (R111, R280). -/
def State.spawnArgs (s : State) (a b : BitVec 6) : Try (Dword × Word × CoreSt) := do
  need (s.cxCore.stores == 0 && s.cxCore.copies == 0)
  let addr := spawnAddr s.cxCore a
  let (sid, k) ← readX s.cxCore b
  let q := s.stream sid.toNat
  illIf (addr.toNat % 128 != 0 || 2 ^ 12 ≤ sid.toNat || !q.en || q.part != k.part) .otherUse
  .ok (addr, sid, k)

/-- Whether the SPAWN of a core's X strand, whose request has reached the fountainhead, would enter a stream in this turn: nothing of its core holds
it, its token and the room for its id among them (R62, R111). -/
def State.spawnReady (s : State) (c sid : Nat) : Bool :=
  let into := fun (d a b : BitVec 6) (u : State) =>
    !(s.asked c .spawn).isEmpty && !s.unanswered c .spawn && (s.core c).spawned.isNone && (spawnFaults d a b ++ rsFault u).isEmpty && !u.sigStuck &&
      (match takeWait u >>= fun u => u.spawnArgs a b with
       | .ok (_, n, k) => n.toNat == sid && (writeX k d 0).isOk
       | .error _ => false)
  match strandTurn s c .x with
  | .run (.spawn d a b) u => into d a b u
  | .run (.spawnNb d a b) u => into d a b u
  | _ => false

/-- Whether a core of lower packed coordinate is to come first with a SPAWN into the same stream (R303). -/
def State.spawnYields (s : State) (c sid : Nat) : Bool := s.cores.any (fun e => decide (e.1 < c) && e.2.resident && s.spawnReady e.1 sid)

/-- What the fountainhead does with a SPAWN that has reached it (R111, R281, R303): the id that it answers, 0 for a full stream. -/
def State.spawnHome (s : State) (c : Nat) (nb : Bool) (addr sid : Nat) : Try (Nat × State) :=
  let k := s.core c
  if s.streamFull sid then (if nb then .ok (0, s) else .error .stall)
  else do
    need (!s.spawnYields c sid)
    match s.spawnFault c k.part addr with
    | some (kind, bad) => .error (.fatal kind bad)
    | none => .ok (s.accept k.part sid addr (some k.prio) none)

/-- SPAWN and SPAWN_NB (R111, R268, R280, R281, R285, R303): the release comes before the test for room. The request goes to the fountainhead, and X
stands at the word until the id is there (R335; log entry 46); an id that was recorded and whose reply was lost is taken as it is (R274). -/
def spawnTask (nb : Bool) (d a b : BitVec 6) (s0 : State) : Res :=
  let c := s0.cx.core
  issue s0 (spawnFaults d a b) (fun s => do
    let (addr, sid, k) ← s.spawnArgs a b
    let answered := fun (s : State) (id : Nat) => do
      let k ← writeX s.cxCore d (BitVec.ofNat 32 id)
      .ok ((s.setCore c ({ k with spawned := none }.setXp 4 (id == 0))).answer c .spawn)
    match s.cxCore.spawned with
    | some id =>
      need (!s.unanswered c .spawn)
      answered (s.setCore c k) id
    | none =>
      if (s.asked c .spawn).isEmpty then .ok (s0.request c .spawn).stay
      else do
        need (!s.unanswered c .spawn)
        let (id, s) ← (((s.setCore c k).settle c).writeBack c).spawnHome c nb addr.toNat sid.toNat
        answered s id)

/-- SPAWN (R111). -/
def execSpawn (d a b : BitVec 6) (s : State) : Res := spawnTask false d a b s

/-- SPAWN_NB (R111). -/
def execSpawnNb (d a b : BitVec 6) (s : State) : Res := spawnTask true d a b s

/-- The state of a task that TSTAT and the host see (R112): a task that has been stopped reads as pre-empted until it runs again. -/
def Task.stat (t : Task) : Nat :=
  match t.phase with
  | .waiting => 1
  | .ready => if t.images.isSome then 4 else 2
  | .running => 3
  | .saved => 4
  | .noCapacity => 5
  | .complete => 6
  | .failed => 7

/-- The value of TSTAT for an id (R112, R295): an id that ended is known until 2^20 further ids have been issued. -/
def State.tstat (s : State) (part id : Nat) : Nat :=
  match s.task? part id with
  | none => 0
  | some t => if t.ended then (if (s.part part).nextOrder ≤ t.order + 2 ^ 20 then t.stat else 0) else t.eprio % 16 * 16 + t.stat

/-- TSTAT (R112). -/
def execTstat (d a : BitVec 6) (s : State) : Res :=
  issueCore s (xFaults d [a]) (fun k => do
    let (v, k) ← readX k a
    writeX k d (BitVec.ofNat 32 (s.tstat k.part v.toNat)))

end Sys2Proof.Machine
end

