-- ==== Sys2Proof/Machine/Placement.lean ====
section
/-! DEFINITION. Placement, dispatch and restore of gangs (R89, R286 to R289, R291, R305, R347, R350), and requests for pre-emption (R57, R288,
R290). -/

namespace Sys2Proof.Machine

/-! Placement. -/

/-- The quad of a core as PART_CFG numbers it (R344). -/
def quadOf (c : Nat) : Nat := c / 128 * 32 + c % 128 / 16 / 2 * 8 + c % 16 / 2

/-- The cores of a shape at (zb, y0, x0) by rank (R278); none where a rank is off the die. -/
def placeCores (shape : List (BitVec 16)) (p : Nat × Nat × Nat) : Option (List Nat) :=
  shape.mapM (fun e =>
    let y := p.2.1 + shapeDy e
    let x := p.2.2 + shapeDx e
    let z := if shapeDz e = 0 then p.1 else 3 - p.1
    if y < 8 ∧ x < 16 then some ((z - 1) * 128 + y * 16 + x) else none)

/-- Every triple in the order in which place tries them (R287). -/
def placements : List (Nat × Nat × Nat) :=
  [1, 2].flatMap (fun z => (List.range 8).flatMap (fun y => (List.range 16).map (fun x => (z, y, x))))

/-- Whether a core may ever hold a member of a task (R26, R30, R287, R344). -/
def State.coreFits (s : State) (t : Task) (c : Nat) : Bool :=
  !(s.core c).withdrawn && (s.part t.part).quads.getLsbD (quadOf c) && t.recd.tregs ≤ (s.core c).tregCount

/-- Whether a core holds no context, those of `freed` apart, and is reserved for no other task (R287). -/
def State.coreFree (s : State) (t : Task) (freed : List Nat) (c : Nat) : Bool :=
  (!(s.core c).resident || freed.contains c) && s.reserved.all (fun r => r.1 != c || (r.2.1 == t.part && r.2.2 == t.id))

/-- The first placement of a task whose every core meets a condition. -/
def placeBy (t : Task) (ok : Nat → Bool) : Option (List Nat) :=
  (placements.filterMap (placeCores t.recd.shape)).find? (fun l => l.all ok)

/-- place(t) (R287), with the cores of `freed` counted free. -/
def State.place (s : State) (t : Task) (freed : List Nat) : Option (List Nat) :=
  let ok := fun c => s.coreFits t c && s.coreFree t freed c
  let twinOk := fun c => !((s.core (twinOf c)).resident && (s.core (twinOf c)).lic)
  if t.recd.lic then
    match placeBy t (fun c => ok c && twinOk c) with
    | some l => some l
    | none => placeBy t ok
  else placeBy t ok

/-- Whether a task has a placement with every core that has not been withdrawn free (R287). -/
def State.hasCapacity (s : State) (t : Task) : Bool := (placeBy t (s.coreFits t)).isSome

/-! Clocks of a core that a gang comes to. -/

/-- The smallest divisor that a voltage level allows (R347). -/
def divAt (level : Nat) : Nat := if 7 ≤ level then 1 else if 5 ≤ level then 2 else if 3 ≤ level then 3 else 5

/-- What the counter sampler notes of a core whose divisors change (R354): domain, old divisor, reference cycle. -/
def divChanges (old new : Vector Nat 4) (cycle : Nat) : List (Nat × Nat × Nat) :=
  ([0, 1, 2, 3].filter (fun i => old.toList.getD i 1 != new.toList.getD i 1)).map (fun i => (i, old.toList.getD i 1, cycle))

/-- The divisors of a core at a dispatch or a restore (R350). -/
def State.startClocks (s : State) (part c : Nat) (k : CoreSt) : CoreSt :=
  let level := (s.rail (railOf c)).level
  let d := (s.part part).defaults
  let div := d.map (fun d => if levelOf d ≤ level then d else divAt level)
  { k with
    div := div
    divPast := k.divPast ++ divChanges (s.core c).div div s.cycle
    divReq := d.map (fun d => if levelOf d ≤ level then none else some { d := d, deferred := true, keep := true, begun := false }) }

/-- A core's state at the start of a context: what belongs to the core and not to a context stays as `k` has it (R28, R301, R350, R354). -/
def CoreSt.keepOwn (n k : CoreSt) : CoreSt :=
  { n with seq := k.seq, samplerSeq := k.samplerSeq, samplerLost := k.samplerLost, sampledAt := k.sampledAt, divPast := k.divPast,
           floorUp := k.floorUp,
           bankmap := k.bankmap, withdrawn := k.withdrawn, nextId := k.nextId }

/-- The scratchpad of a core holds zeros (R28). -/
def State.clearSpad (s : State) (c : Nat) : State :=
  { s with mem := mclear s.mem (spadKey c 0) (spadKey c (2 ^ 19)),
           poison := s.poison.filter (fun l => !(spadKey c 0 ≤ l * 128 && l * 128 < spadKey c (2 ^ 19))) }

/-! Text. -/

/-- Whether a word is the first of one of the four instructions that carry a coordinate (R87). -/
def takesCoord (w : Word) : Bool :=
  match decodeHead w 0 with
  | .ok (.acoord ..) => true
  | .ok (.qbindBind ..) => true
  | .ok (.qbindUnbind ..) => true
  | .ok (.mcast ..) => true
  | .ok (.bar ..) => true
  | _ => false

/-- The word at an index of a text begins an instruction that takes a relocation (R89). -/
def relocatable (text : List Word) (i : Nat) : Bool :=
  match ({ CoreSt.reset with text := text } : CoreSt).slot i with
  | some (w, .head _) => takesCoord w
  | _ => false

/-- A relocation entry as rank and index of word 0; none where fkld rejects it (R89). -/
def relocOf (text : List Word) (size e : Nat) : Option (Nat × Nat) :=
  let off := nfield e 0 32
  if nfield e 48 16 = 0 ∧ nfield e 32 8 = 0 ∧ nfield e 40 8 < size ∧ off % 4 = 0 ∧ relocatable text (off / 4) = true then
    some (nfield e 40 8, off / 4)
  else none

/-- What the fountainhead reads at a first dispatch (R169, R277, R289); none where a read or the relocation table fails. -/
def State.loadTask (s : State) (t : Task) : State × Option Loaded :=
  let r := t.recd
  let (s, kc) := s.partFetch t.part r.kconst 128
  let (s, tx) := s.partFetch t.part r.text r.tlen
  let (s, rl) := s.partFetch t.part r.reloct (8 * r.nreloc)
  (s, match kc, tx, rl with
  | .ok kc, .ok tx, .ok rl =>
    let text := (List.range (r.tlen / 4)).map (fun i => BitVec.ofNat 32 (natOfBytes ((tx.drop (4 * i)).take 4)))
    ((List.range r.nreloc).mapM (fun i => relocOf text r.size (w64 rl i))).map (fun l =>
      { text := text, relocs := l, consts := (List.range 16).map (fun i => BitVec.ofNat 64 (w64 kc i)) })
  | _, _, _ => none)

/-- The text of a placement (R89): each relocated field names the core of its rank. -/
def relocated (l : Loaded) (cores : List Nat) : List Word :=
  l.relocs.foldl (fun tx r =>
    let w := (tx.getD (r.2 + 1) 0).toNat
    tx.set (r.2 + 1) (BitVec.ofNat 32 (w - w % 2 ^ 9 + coordOfCore (cores.getD r.1 0)))) l.text

/-! Dispatch and restore. -/

/-- A core of a placement at the dispatch of a task that has never run (R28, R34, R289). -/
def startCore (t : Task) (l : Loaded) (text : List Word) (rank : Nat) (k : CoreSt) : CoreSt :=
  let r := t.recd
  let st := { StrandSt.reset with pc := BitVec.ofNat 32 r.prologue, phase := .prologue }
  { CoreSt.reset.keepOwn k with
    resident := true
    task := t.id
    part := t.part
    rank := rank
    gangSize := r.size
    stage := shapeStage (r.shape.getD rank 0)
    stream := t.stream
    prio := r.prio
    demand := r.tregs
    lic := r.lic
    weir := r.weir
    spad := r.spad
    stashUnits := r.stash
    text := text
    tbase := r.tbase
    kernel := BitVec.ofNat 32 r.kernel
    epilogue := BitVec.ofNat 32 r.epilogue
    x := st
    a := st
    v := st
    m := st
    k := Vector.ofFn (fun i => l.consts.getD i.val 0) }

/-- A task comes to run on the cores of a placement (R289, R291). -/
def Task.started (t : Task) (cores : List Nat) (n : Nat) (l : Loaded) : Task :=
  { t with phase := .running, running := true, dispatched := true, inPool := false, cores := cores, startedAt := n, loaded := some l,
           images := none, atBoundary := false, awaits := .nothing, preemptAt := none, preemptFor := none, saving := false, traps := [], fatal := none,
           capSince := none }

/-- The weir rows between members of a gang are empty (R225). -/
def State.clearWeir (s : State) (cores : List Nat) : State :=
  cores.foldl (fun s c =>
    if cores.contains (twinOf c) then s.setPair (pairOf c) { s.pair (pairOf c) with tw := Vector.replicate 4 0, twFull := Vector.replicate 4 false }
    else s) s

/-- The dispatch of a task that starts at its prologue (R289). -/
def State.dispatchNew (s : State) (t : Task) (l : Loaded) (cores : List Nat) : State :=
  let text := relocated l cores
  let s := (List.range cores.length).foldl (fun s r =>
    let c := cores.getD r 0
    (s.clearSpad c).setCore c (s.startClocks t.part c (startCore t l text r (s.core c)))) s
  s.clearWeir cores

/-- An address register at a restore (R228, R305): a remote window address of a core that held a member names the core that its rank has now. Its
offset must lie below the scratchpad's size of `spad` units. -/
def rewriteAddr (spad : Nat) (old new : List Nat) (v : Dword) : Dword :=
  match regionOf v.toNat with
  | .remote f =>
    let z := f / 2 ^ 32 % 4
    let c := (z - 1) * 128 + f / 2 ^ 28 % 8 * 16 + f / 2 ^ 24 % 16
    if f / 2 ^ 34 = 0 ∧ (z = 1 ∨ z = 2) ∧ f / 2 ^ 31 % 2 = 0 ∧ f % 2 ^ 24 < spad * 2 ^ 14 then
      match old.idxOf? c with
      | some r =>
        let d := new.getD r c
        BitVec.ofNat 64 (v.toNat - f + (d / 128 + 1) * 2 ^ 32 + d % 128 / 16 * 2 ^ 28 + d % 16 * 2 ^ 24 + f % 2 ^ 24)
      | none => v
    else v
  | _ => v

/-- A strand at a restore: it holds no more, and its text is to be fetched again (R291). -/
def StrandSt.resume (t : StrandSt) : StrandSt := { t with holding := false, fetched := none }

/-- A core of a placement at a restore (R291, R305). The pacing gaps that its programs asked for come back with the context: R290's list does not
name them, and R350 leaves out only the divisors (log entry 66, the model's choice). -/
def restoreCore (t : Task) (old new : List Nat) (text : List Word) (im : Image) (k : CoreSt) : CoreSt :=
  let st := im.st
  { st.keepOwn k with
    resident := true
    text := text
    x := st.x.resume
    a := st.a.resume
    v := st.v.resume
    m := st.m.resume
    ar := st.ar.map (rewriteAddr st.spad old new)
    fqAt := []
    lo := st.lo.map (fun q => { q with peer := q.peer.map (fun p => (new.getD p.1 0, p.2)) })
    tlb := []
    stash := []
    timeh := 0
    hold := .none
    task := t.id }

/-- The bytes of a scratchpad return to a core, with the lines that are marked uncorrectable (R270, R291). -/
def State.putSpad (s : State) (c : Nat) (bs : List Host.Cell) (marks : List Nat) : State :=
  let s := s.clearSpad c
  { s with
    mem := bs.foldl (fun m e => mset m (spadKey c e.1) e.2) s.mem
    poison := s.poison ++ marks.map (fun l => spadKey c 0 / 128 + l) }

/-- The restore of a saved gang (R291). -/
def State.restoreGang (s : State) (t : Task) (l : Loaded) (ims : List Image) (cores : List Nat) : State :=
  let text := relocated l cores
  let old := ims.map (·.core)
  (ims.zip cores).foldl (fun s p =>
    let (im, c) := p
    let s := (s.putSpad c im.spadBytes im.spadMarks).setCore c (s.startClocks t.part c (restoreCore t old cores text im (s.core c)))
    match im.tw with
    | some (tw, fl) => s.setPair (pairOf c) { s.pair (pairOf c) with tw := tw, twFull := fl }
    | none => s) s

/-- The dispatch of a task onto a placement (R277, R289, R291). One that is dispatched again from its prologue (R300) has its constants, its text and
its relocations from the copy that its first dispatch made (log entry 76, the model's choice). -/
def State.dispatch (s : State) (t : Task) (cores : List Nat) : State :=
  let s := ({ s with reserved := s.reserved.filter (fun r => !(r.2.1 == t.part && r.2.2 == t.id)), fresh := s.fresh + 1 } : State).modStream
    t.stream (fun q => { q with lastDispatch := s.cycle })
  let s := s.modTask t.part t.id (fun t => { t with inPool := false })
  let (s, loaded) := match t.loaded with
    | some l => (s, some l)
    | none => s.loadTask t
  match loaded with
  | none => s.fail { t with inPool := false } kRefused 10 0
  | some l =>
    let s := match t.images with
      | some ims => s.restoreGang t l ims cores
      | none => s.dispatchNew t l cores
    s.modTask t.part t.id (·.started cores s.fresh l)

/-! Pre-emption. -/

/-- The bytes of a gang's save (R290). -/
def Task.saveBytes (t : Task) : Nat := t.recd.size * (956 * 1024)

/-- The saves that a task holds or is to hold (R290), each by whether it lies in the grotto: the boundary save that is kept (R300), and beside it a
newer save, taken or reserved. -/
def Task.saves (t : Task) : List Bool :=
  (if t.boundary.isSome then [t.boundGrotto] else []) ++
    (if (t.images.isSome && !t.atBoundary) || t.preemptAt.isSome then [t.inGrotto] else [])

/-- The save space in use of the grotto, or of a partition's area (R290). -/
def State.saveUsed (s : State) (grotto : Bool) (part : Nat) : Nat :=
  ((s.tasks.filter (fun t => grotto || t.part == part)).map (fun t => (t.saves.filter (· == grotto)).length * t.saveBytes)).sum

/-- Where a gang's next save goes (R290): true for the grotto, false for the partition's area, none without room. Room that has been reserved for it
is its own. -/
def State.saveRoom (s : State) (t : Task) : Option Bool :=
  if t.preemptAt.isSome then some t.inGrotto
  else if t.recd.size ≤ 64 ∧ s.saveUsed true t.part + t.saveBytes ≤ 128 * 2 ^ 20 then some true
  else if s.saveUsed false t.part + t.saveBytes ≤ (s.part t.part).saveSize then some false
  else none

/-- The outermost iteration in which a strand stands inside the kernel's loop (R57). -/
def StrandSt.outerIter (t : StrandSt) : Option Nat := (t.loops.find? (·.outermost)).map (·.i)

/-- The hold point that a core chooses (R57). -/
def CoreSt.chooseHold (k : CoreSt) : Hold :=
  match (strands.filterMap (fun t => (k.strand t).outerIter)) with
  | [] => .beforeFirst
  | f :: r => .afterIter (r.foldl max f)

/-- Whether a strand is past its kernel. -/
def StrandSt.pastKernel (t : StrandSt) : Bool := t.phase == .epilogue || t.phase == .stopped

/-- Whether a member has a strand past its kernel (R57): it takes no hold point and runs to its END (log entry 34). -/
def CoreSt.pastKernel (k : CoreSt) : Bool := k.finished || strands.any (fun t => (k.strand t).pastKernel)

/-- Whether every strand of a member is past its kernel. -/
def CoreSt.allPast (k : CoreSt) : Bool := k.finished || strands.all (fun t => (k.strand t).pastKernel)

/-- A request for the pre-emption of a gang, whose cores are reserved for task `h` (R288); it is not taken when every strand is past the kernel
(R57). -/
def State.requestHold (s : State) (h v : Task) : State :=
  let taken := !v.cores.all (fun c => (s.core c).allPast) && !v.halted
  let g := (s.saveRoom v).getD true
  let s := ({ s with reserved := s.reserved ++ v.cores.map (fun c => (c, h.part, h.id)) } : State).modTask v.part v.id (fun v =>
    { v with preemptFor := some h.key, preemptAt := if taken then some s.cycle else none, inGrotto := g })
  if taken then v.cores.foldl (fun s c => s.modCore c (fun k => { k with hold := if k.pastKernel then .none else k.chooseHold })) s else s

/-- Inserts a task into a list in the order in which victims are taken (R288): ascending eprio, the latest dispatched first. -/
def insertVictim (v : Task) : List Task → List Task
  | [] => [v]
  | u :: r => if v.eprio < u.eprio ∨ (v.eprio = u.eprio ∧ u.startedAt < v.startedAt) then v :: u :: r else u :: insertVictim v r

/-- The running gangs that may be victims of a task, in order (R288): of every partition (log entry 39). -/
def State.candidates (s : State) (h : Task) : List Task :=
  (s.tasks.filter (fun v => v.phase == .running && v.eprio < h.eprio && v.preemptFor.isNone)).foldl
    (fun l v => insertVictim v l) []

/-- A state in which save space is set aside for the victims chosen so far (R288, R290). -/
def State.reserveSaves (s : State) (chosen : List Task) : State :=
  chosen.foldl (fun s u => s.modTask u.part u.id (fun u => { u with preemptAt := some 0, inGrotto := (s.saveRoom u).getD true })) s

/-- The victims of a request (R288, R302): candidates in order until the task has a placement; one without save space is not chosen. -/
def State.chooseVictims (s : State) (h : Task) : List Task → List Task → Option (List Task)
  | [], _ => none
  | v :: r, chosen =>
    if ((s.reserveSaves chosen).saveRoom v).isNone then s.chooseVictims h r chosen
    else if (s.place h ((chosen ++ [v]).flatMap (·.cores))).isSome then some (chosen ++ [v])
    else s.chooseVictims h r (chosen ++ [v])

/-- Requests pre-emption for a task (R288): nothing where no victims do, or while a request for it is pending. -/
def State.requestPreemption (s : State) (h : Task) : State :=
  if s.tasks.any (fun v => v.preemptFor == some h.key) then s
  else match s.chooseVictims h (s.candidates h) [] with
    | some vs => vs.foldl (fun s v => s.requestHold h v) s
    | none => s

/-! The decision. -/

/-- The next stream of C after s, cyclically (R286). -/
def nextStream (c : List Nat) (s : Nat) : Nat := (c.find? (fun x => s < x)).getD (c.headD 0)

/-- What the visits of one level come to (R286): the state, the streams that had credit and found no placement, whether one was dispatched. -/
structure Visits where
  s : State
  failed : List Nat
  done : Bool

/-- The visits of one level (R286), at most `n`. -/
def visitLevel (lv : Nat) (c : List Nat) : Nat → State → List Nat → Visits
  | 0, s, failed => ⟨s, failed, false⟩
  | n + 1, s, failed =>
    let p := tget 0 s.ptr lv
    let move := fun (s : State) => { s with ptr := tset s.ptr lv (nextStream c p), cred := tset s.cred lv false }
    if !c.contains p then visitLevel lv c n (move s) failed
    else
      let s := if tget false s.cred lv then s
        else
          ({ s with cred := tset s.cred lv true } : State).modStream p (fun q => { q with deficit := min (q.deficit + 16 * q.weight) 4096 })
      match s.headOf p with
      | none => ⟨s, failed, false⟩
      | some h =>
        if h.recd.size ≤ (s.stream p).deficit then
          match s.place h [] with
          | some cores =>
            ⟨(s.dispatch h cores).modStream p (fun q => { q with deficit := q.deficit - h.recd.size }), failed, true⟩
          | none =>
            let failed := if failed.contains p then failed else failed ++ [p]
            if failed.length = c.length then ⟨move s, failed, false⟩ else visitLevel lv c n (move s) failed
        else visitLevel lv c n (move s) failed

/-- The streams whose head has an effective priority, ascending (R286). -/
def State.levelStreams (s : State) (lv : Nat) : List Nat :=
  (s.streams.map (·.1)).filter (fun i => (s.headOf i).any (fun h => h.eprio == lv))

/-- The decision over levels, the highest first (R286). -/
def decideLevels : List Nat → State → State
  | [], s => s
  | lv :: r, s =>
    let c := s.levelStreams lv
    if c.isEmpty then decideLevels r s
    else
      let v := visitLevel lv c (17 * c.length + 2) s []
      if v.done then v.s
      else decideLevels r (match v.failed.head?.bind v.s.headOf with
        | some h => v.s.requestPreemption h
        | none => v.s)

/-- A task of the pool has a placement or waits for capacity (R287). -/
def State.judgeCapacity (s : State) (t : Task) : Task :=
  if !t.inPool then t
  else if s.hasCapacity t then { t with phase := .ready, capSince := none }
  else { t with phase := .noCapacity, capSince := t.capSince.or (some s.cycle) }

/-- DISPATCH_DECISION (R286 to R289, R291). -/
def execDispatchDecision (s : State) : Res :=
  .next (decideLevels ((List.range 16).reverse) { s with tasks := s.tasks.map s.judgeCapacity })

/-- Whether a task's wait for capacity is due to be reported (R287). -/
def State.noticeDue (s : State) (t : Task) : Bool :=
  t.phase == .noCapacity && !t.capNoted && t.capSince.any (fun c => c + (s.part t.part).capUs * usCycles ≤ s.cycle)

/-- CAPACITY_NOTICE (R287, R346): each task that has waited for the capacity-notice time is reported once. -/
def execCapacityNotice (s : State) : Res :=
  .next ((s.tasks.filter s.noticeDue).foldl (fun s t =>
    (s.postEvent (some t.part) 2 t.stream t.id 0).modTask t.part t.id (fun t => { t with capNoted := true })) s)

end Sys2Proof.Machine
end

