-- ==== Sys2Proof/Machine/Ends.lean ====
section
/-! DEFINITION. How a gang stops and ends: completion of an instance (R50, R202, R232, R267), the hold, the save and its limit (R57, R203, R290),
traps and their handlers (R292, R293, R299), fatal context errors (R294), completion records (R295), and faults of the silicon (R300). -/

namespace Sys2Proof.Machine

/-! Freeing a gang's cores. -/

/-- A core's context ends or leaves: its writes enter the memory order, its dirty lines are written back, its licence is free, its requests are
forgotten, but for the rows on their way (R202, R232, R267, R294; log entry 35). -/
def State.releaseCore (s : State) (c : Nat) : State :=
  let s := ((s.settle c).writeBack c).dropLic c
  { s with outstanding := s.outstanding.filter (fun o => o.core != c || (match o.what with
      | .row _ => true
      | _ => false)) }

/-- A core holds no context, and nothing of it is on the network. -/
def State.freeCore (s : State) (c : Nat) : State :=
  let s := s.releaseCore c
  ({ s with outstanding := s.outstanding.filter (fun o => o.core != c) } : State).setCore c { CoreSt.reset.keepOwn (s.core c) with div := (s.core c).div }

/-- A gang's cores hold no context, and the weir rows between them are empty (R225). -/
def State.freeGang (s : State) (cores : List Nat) : State := cores.foldl State.freeCore (s.clearWeir cores)

/-- The ITERIDX of rank 0 and the saturation flags of all members (R220, R295). -/
def finalCounts (l : List CoreSt) : Nat × Nat :=
  let sat := fun i => l.any (fun k => k.accSat.toList.getD i false)
  ((l.head?.elim 0 (·.iteridx.toNat)), (if sat 0 then 1 else 0) + (if sat 1 then 2 else 0))

/-- Notes what a completion record reports of a gang's cores. -/
def State.noteCounts (s : State) (t : Task) (l : List CoreSt) : State :=
  s.modTask t.part t.id (fun t => { t with iter := (finalCounts l).1, sat := (finalCounts l).2 })

/-- Ends a gang that runs as failed (R294): its cores are free, and its record is due. -/
def State.endGang (s : State) (t : Task) (kind detail addr : Nat) : State :=
  let s := s.noteCounts t (t.cores.map s.core)
  (s.freeGang t.cores).fail t kind detail addr

/-- The counts of a task's saved images, where it has any. -/
def State.noteImages (s : State) (t : Task) : State :=
  match t.images with
  | some ims => s.noteCounts t (ims.map (·.st))
  | none => s

/-! Completion of an instance. -/

/-- What an instance leaves behind: a core that waits for the end of its gang (R50, R221, R232). The rows in its lo and li queues are lost; those in
flight still arrive (R251, log entry 35). -/
def CoreSt.finish (k : CoreSt) : CoreSt :=
  { k with
    finished := true
    owed := false
    stash := []
    fq := []
    lo := k.lo.map (fun q => { q with rows := [] })
    li := Vector.replicate 4 []
    liBad := Vector.replicate 4 [] }

/-- INSTANCE_COMPLETE (R50, R202, R225, R232, R267): the instance's writes are released, its licence is free, its stash written back. With the
last member the task is complete. -/
def execInstanceComplete (s : State) : Res :=
  let c := s.cx.core
  if !(s.core c).instanceDone then .next s
  else
    let s := (s.releaseCore c).modCore c CoreSt.finish
    match s.taskOf c with
    | none => .next (s.freeCore c)
    | some t =>
      let tw := twinOf c
      let s := if s.inGang c tw && (s.core tw).finished then s.clearWeir [c, tw] else s
      if !t.cores.all (fun d => (s.core d).finished) then .next s
      else
        let s := s.noteCounts t (t.cores.map s.core)
        .next ((s.freeGang t.cores).endTask t .complete 0 0 0)

/-! Saves. -/

/-- Whether a core's work in flight is done (R137, R203, R251, R290). -/
def CoreSt.quiet (k : CoreSt) : Bool :=
  k.loads == 0 && k.stores == 0 && k.copies == 0 && k.tileops == 0 && k.mq.isEmpty && k.aq.isEmpty && k.fe.isNone && k.side.isNone &&
    [k.copyE, k.sluiceE, k.confE, k.gathE, k.chainE].all (fun e => e.queue.isEmpty && e.active.isEmpty) &&
    k.lo.toList.all (fun q => q.flight.isEmpty)

/-- A barrier-free view of bindings: the lo queues of a core with their peers named by rank (R110, R251). -/
def CoreSt.bindRanks (k : CoreSt) (cores : List Nat) : CoreSt :=
  { k with lo := k.lo.map (fun q => { q with peer := q.peer.map (fun p => ((cores.idxOf? p.1).getD 0, p.2)) }) }

/-- The save image of a member (R203, R290): its licence is owed, its stash invalid. -/
def State.imageOf (s : State) (t : Task) (c : Nat) : Image :=
  let k := s.core c
  let p := s.pair (pairOf c)
  { core := c
    st := { k.bindRanks t.cores with owed := k.owed || s.holdsLic c, stash := [], tlb := [], probe := none }
    spadMarks := (s.poison.filter (fun l => spadKey c 0 ≤ l * 128 && l * 128 < spadKey c (2 ^ 19))).map (· - spadKey c 0 / 128)
    spadBytes := (s.mem.filter (fun e => spadKey c 0 ≤ e.1 && e.1 < spadKey c (2 ^ 19))).map (fun e => (e.1 - spadKey c 0, e.2))
    tw := if c < 128 ∧ t.cores.contains (twinOf c) then some (p.tw, p.twFull) else none }

/-- The images of a gang, taken once every engine write has entered the memory order (R263, R290). -/
def State.takeImages (s : State) (t : Task) : State × List Image :=
  let s := t.cores.foldl State.settle s
  (s, t.cores.map (s.imageOf t))

/-- Whether every strand of a gang holds at its hold point (R57), or its member is complete (log entry 34); a TFETCH whose rows have not all entered fq keeps it from being reached
(R242). -/
def State.holdDone (s : State) (t : Task) : Bool :=
  t.cores.all (fun c =>
    let k := s.core c
    (k.finished || strands.all (fun u => (k.strand u).holding)) && k.sluiceE.queue.isEmpty && k.sluiceE.active.isEmpty)

/-- HOLD_REACHED (R203, R290): every member holds and its work is done; the gang's images are taken, and its licences are released and owed. -/
def execHoldReached (task : Nat) (s : State) : Res :=
  match s.taskKey? task with
  | none => .next s
  | some t =>
    if t.phase == .running && t.preemptAt.isSome && !t.halted && s.holdDone t && t.cores.all (fun c => (s.core c).quiet) then
      let (s, ims) := s.takeImages t
      let s := t.cores.foldl State.releaseCore s
      .next (s.modTask t.part t.id (fun t => { t with saving := true, images := some ims, atBoundary := false, preemptAt := none }))
    else .next s

/-- SAVE_COMPLETE (R288, R290, R300): the cores of a gang that has been saved are free; of a restartable task the boundary save is kept. -/
def execSaveComplete (task : Nat) (s : State) : Res :=
  match s.taskKey? task with
  | none => .next s
  | some t =>
    if t.phase == .running && t.saving && t.fatal.isNone then
      .next ((s.freeGang t.cores).modTask t.part t.id (fun t =>
        { t with phase := .saved, running := false, saving := false, preemptFor := none, cores := [], awaits := .nothing,
                 boundary := if t.recd.restart then t.images else t.boundary, atBoundary := t.recd.restart,
                 boundGrotto := if t.recd.restart then t.inGrotto else t.boundGrotto }))
    else .next s

/-! Traps. -/

/-- A full/empty operation that waits has had no effect (R62, R137): its request is withdrawn, with its count and its reservation, and its token is
back. -/
def CoreSt.withdrawFe (k : CoreSt) : CoreSt :=
  match k.fe with
  | none => k
  | some r =>
    (match r.op with
     | .load b _ (.queue q) =>
       let l := k.ax.getD q.toNat []
       { k with fe := none, loads := k.loads - 1, ax := k.ax.setIfInBounds q.toNat (l.take (l.length - (if b = 8 then 2 else 1))) }
     | .load _ _ _ => { k with fe := none, loads := k.loads - 1 }
     | .loadRow row => { k with fe := none, loads := k.loads - 1, busy := k.busy.filter (fun b => !(b.row == row && b.owner == r.id)) }
     | _ => { k with fe := none, stores := k.stores - 1 }).signalOwe .a r.wait.toList

/-- A chain that is not closed is discarded (R248): A stands at the CHAIN again, whose token is back, or is owed where other signals have filled its
counter meanwhile (R39; log entry 45). -/
def CoreSt.dropChain (k : CoreSt) : CoreSt :=
  match k.chain with
  | none => k
  | some ch =>
    let k := { k with chain := none, a := { k.a with pc := ch.pc, walked := ch.walked, atEnd := false } }
    k.signalOwe .a ch.wait.toList

/-- The lowest of a gang's stops by rank, and on one core in the order X, A, V, M (R292). -/
def State.firstTrap (s : State) : List TrapReq → Option TrapReq
  | [] => none
  | r :: rest =>
    match s.firstTrap rest with
    | none => some r
    | some q => if (s.core q.core).rank * 4 + strandNum q.strand < (s.core r.core).rank * 4 + strandNum r.strand then some q else some r

/-- A reported ILL or NUM that was due at its strand's boundary is due no more (R165, R210). -/
def CoreSt.clearDue (k : CoreSt) (r : TrapReq) : CoreSt :=
  if !r.due then k
  else if r.cls = 1 then { k with nev := { k.nev with due := k.nev.due.erase (r.code % 16, r.code / 16) } }
  else { k with mIll := none }

/-- Whether a trap is that of a TRAP or a BRK (R116). -/
def TrapReq.asked (r : TrapReq) : Bool := r.cls == 2 || r.cls == 3

/-- What a reported TRAP or BRK does as it is taken (R116): it signals, and its strand stands at the following word. -/
def CoreSt.passTrap (k : CoreSt) (r : TrapReq) : CoreSt :=
  if r.asked then (k.setStrand r.strand ((k.strand r.strand).advance r.next r.words)).signalOwe r.strand r.sig.toList else k

/-- A TRAP or a BRK that is not the one reported is executed again at the resumption (R292): its token is back. -/
def State.undoTrap (s : State) (r : TrapReq) : State :=
  if r.asked then s.modCore r.core (fun k => k.signalOwe r.strand r.wait.toList) else s

/-- The trap record (R293). -/
def trapRecord (task : Nat) (r : TrapReq) (c : Nat) (k : CoreSt) (kaddr : Nat) : List Byte :=
  bytesOfNat 8 (task * 2 ^ 32 + strandNum r.strand * 2 ^ 16 + r.cause * 2 ^ 8 + r.cls) ++
    bytesOfNat 8 (k.iteridx.toNat * 2 ^ 32 + r.code % 2 ^ 14) ++
    bytesOfNat 8 (k.a.pc.toNat * 2 ^ 32 + k.x.pc.toNat) ++
    bytesOfNat 8 (k.m.pc.toNat * 2 ^ 32 + k.v.pc.toNat) ++
    bytesOfNat 8 (k.seq.toNat * 2 ^ 32 + k.rank * 2 ^ 16 + coordOfCore c) ++
    bytesOfNat 8 (kaddr % 2 ^ 56) ++ List.replicate 16 0

/-- The first of n bytes at a virtual address of a partition that may not be written, or whose line carries an uncorrectable error
(R292, R295). -/
def State.partUnwritable (s : State) (part va n : Nat) : Option Nat :=
  match s.partWritable part va n with
  | some a => some a
  | none => ((List.range n).find? (fun i =>
      match s.partAddr part (va + i) true with
      | .ok pa => s.poisoned pa 1
      | .error _ => true)).map (va + ·)

/-- The handler that a trap of a task may release (R292). -/
def State.handlerOf (s : State) (t : Task) : Option Task :=
  if t.recd.handler = 0 then none
  else (s.task? t.part t.recd.handler).filter (fun h => h.recd.hdlr && !h.released && !h.ended)

/-- A stopped task's trap goes to its handler (R292, R293): the record is written into the handler's constant block and the handler is
released; without a handler, or where the record cannot be written, the task fails with kind 9. -/
def State.deliverTrap (s : State) (t : Task) (r : TrapReq) (k : CoreSt) : State :=
  let detail := r.cls + r.cause * 2 ^ 8
  match s.handlerOf t with
  | none => s.fail t kNoHandler detail 0
  | some h =>
    let va := h.recd.kconst + 0x40
    if (s.partUnwritable t.part va 64).isSome then s.fail t kNoHandler detail 0
    else
      let s := (s.partWrite t.part va (trapRecord t.id r r.core k h.recd.kconst)).modCore r.core (fun k => { k with seq := k.seq + 1 })
      (s.modTask h.part h.id (fun h => { h with released := true })).modTask t.part t.id (fun t =>
        { t with awaits := .handler h.id r.cls r.cause h.recd.kconst })

/-- A core as a stop leaves it (R137): the full/empty operation, the arrival and the SPAWN that its strands stall in have had no effect, and their
requests are withdrawn; of one that its home has performed and whose reply was lost, the result is kept (R274): a core that is released from
its barrier passes it, and a full/empty operation ends first. -/
def State.stopCore (s : State) (c : Nat) : State :=
  let s := if (s.recorded c .bar).isSome then s.modCore c CoreSt.passBar else s
  let s := (s.answer c .bar).answer c .spawn
  match (s.core c).fe with
  | some r => if (s.recorded c (.access r.id)).isSome then s else (s.answer c (.access r.id)).modCore c CoreSt.withdrawFe
  | none => s

/-- The gang's cores as a stop leaves them (R137). -/
def State.stopGang (s : State) (cores : List Nat) : State := cores.foldl State.stopCore s

/-- GANG_TRAP_STOP (R137, R290, R292, R293, R299): the gang has stopped and its work in flight is done; a stop save is taken, and the trap goes
to its handler. A PROBE alone leaves the task to wait for its service. -/
def execGangTrapStop (task : Nat) (s : State) : Res :=
  match s.taskKey? task with
  | none => .next s
  | some t =>
    if t.phase != .running || t.traps.isEmpty || t.fatal.isSome || t.saving then .next s
    else
      let s := s.stopGang t.cores
      match t.cores.all (fun c => (s.core c).quiet), s.saveRoom t with
      | true, some g =>
        let real := t.traps.filter (fun r => r.cls != probeClass)
        let first := s.firstTrap real
        let s := t.cores.foldl (fun s c => s.modCore c (fun k => strands.foldl (fun k u => k.endBodies 8 u) k.dropChain)) s
        let k := first.elim CoreSt.reset (fun r => s.core r.core)
        let s := (real.filter (fun r => first != some r)).foldl State.undoTrap s
        let s := match first with
          | some r => s.modCore r.core (fun k => (k.clearDue r).passTrap r)
          | none => s
        let (s, ims) := s.takeImages t
        let s := s.noteCounts t (ims.map (·.st))
        let s := (s.freeGang t.cores).modTask t.part t.id (fun t =>
          { t with phase := .saved, running := false, cores := [], images := some ims, inGrotto := g, atBoundary := false, traps := [], preemptAt := none,
                   preemptFor := none, awaits := .service })
        match first, s.task? t.part t.id with
        | some r, some t => .next (s.deliverTrap t r k)
        | _, _ => .next s
      | _, _ => .next s

/-- HANDLER_DISPOSITION (R292): when the handler of a trapped task has completed, DISP is read: 1 makes the task ready; any other value, one that
cannot be read, or a handler that failed ends it with kind 10. -/
def execHandlerDisposition (task : Nat) (s : State) : Res :=
  match s.taskKey? task with
  | none => .next s
  | some t =>
    match t.awaits with
    | .handler id cls cause kaddr =>
      let bad : Res := .next (s.fail t kByHandler (cls + cause * 2 ^ 8) 0)
      (match s.task? t.part id with
       | none => bad
       | some h =>
         if !h.ended then .next s
         else if h.phase == .failed then bad
         else match s.partRead t.part (kaddr + 0x7C) 4 with
           | .ok bs => if natOfBytes bs = 1 then .next (s.modTask t.part t.id (fun t => { t with awaits := .nothing })) else bad
           | .error _ => bad)
    | _ => .next s

/-! Fatal context errors and faults of the silicon. -/

/-- Whether a kind reports a failing address (R295). -/
def kindHasAddr (k : Nat) : Bool := [kTranslation, kViewStore, kSpad, kPoison, kHighBits].contains k

/-- Whether the command in an engine, or the first in its queue, can go no further once the strands have stopped (R294): it waits on a token, on fq,
on the side port, or, by its acquire, on a full/empty bit; or there is none. -/
def State.engineStopped (s : State) (c : Nat) (e : Engine) : Bool :=
  let k := s.core c
  match (k.engine e).active, (k.engine e).queue with
  | [], [] => true
  | [], m :: _ => k.fe.any (fun r => decide (r.id < m.awaits))
  | m :: _, _ =>
    !s.unanswered c (.engine e) &&
      ((k.commandDone m && (k.signalOpt? m.sig).isNone) ||
        (match m.op with
         | .copym _ _ _ _ _ => k.side.isSome || k.tileops == 255
         | .tfetch _ _ rows => decide (m.rowsDone < rows ∧ 4 ≤ k.fq.length)
         | _ => false))

/-- A step of the array at the head of its queue. -/
def execArray (c : Nat) (s : State) : Res :=
  match s.headCmd c with
  | none => .next s
  | some m =>
    match m.op with
    | .tpl t _ => if tOpk t = 0 then execMmaExecute c s else execMxposeExecute c s
    | .zero _ => execMzeroExecute c s
    | .drain _ _ _ _ => execMdrainExecute c s

/-- Whether the array of a core can go no further once the strands have stopped (R294): its queue is empty, or its head waits on a token, a row or a
busy bit, so that a step of it changes nothing of it, or it has met the error itself. -/
def State.arrayStopped (s : State) (c : Nat) : Bool :=
  match s.headCmd c with
  | none => true
  | some m =>
    if m.executed then ((s.core c).signalAll? m.tokens).isNone
    else (m.started || m.rowsOut != 0 || s.arrayGap c) &&
      (match execArray c s with
       | .next t => t.headCmd c == some m
       | _ => true)

/-- Whether the command at a core's side port can go no further: the queue is full, its licence lies with a twin of its own gang, or it has met the
error itself. -/
def State.sideStopped (s : State) (c : Nat) : Bool :=
  let k := s.core c
  match k.side with
  | none => true
  | some w =>
    if w.judged || s.holdsLic c then 16 ≤ k.mq.length
    else !k.owed || (!s.mayTakeLic c && s.inGang c (twinOf c))

/-- Whether the commands of a gang have come to rest. -/
def State.gangAtRest (s : State) (t : Task) : Bool :=
  t.cores.all (fun c => [Engine.copy, .sluice, .confluence, .gather, .chain].all (s.engineStopped c) && s.arrayStopped c && s.sideStopped c)

/-- The queues, fq as none and an li by its number, that a core's array waits for a row of, and that are empty (R221): those of a command that it has
taken. -/
def CoreSt.dryQueues (k : CoreSt) : List (Option Nat) :=
  match k.mq.head? with
  | none => []
  | some m =>
    match m.op with
    | .tpl t _ =>
      let dry := fun (kind idx : Nat) =>
        if kind = 1 ∧ k.fq.isEmpty then [none] else if kind = 2 ∧ (k.li.toList.getD idx []).isEmpty then [some idx] else []
      (if m.started ∧ m.gotA.length < tM t then dry (tAKind t) (tAIdx t) else []) ++
        (if m.started ∧ tOpk t = 0 ∧ m.gotB.length < tRowsB t then dry (tBKind t) (tBIdx t) else [])
    | _ => []

/-- Whether a matrix command will still push a row into an lo queue (R219). -/
def MatCmd.pushes (m : MatCmd) (lo : Nat) : Bool :=
  match m.op with
  | .drain f _ _ _ => f.dkind == 1 && f.dreg.toNat == lo && !m.executed
  | _ => false

/-- Whether a matrix command will still fill a row of the weir (R204, R219). -/
def MatCmd.fillsWeir (m : MatCmd) : Bool :=
  match m.op with
  | .drain f _ _ _ => f.dkind == 2 && !m.executed
  | _ => false

/-- Whether a matrix command still reads operand rows of a kind, of one index or of any (R211). -/
def MatCmd.reads (m : MatCmd) (kind : Nat) (idx : Option Nat) : Bool :=
  match m.op with
  | .tpl t _ =>
    let hit := fun (k i : Nat) => k == kind && idx.all (· == i)
    !m.executed && ((m.gotA.length < tM t && hit (tAKind t) (tAIdx t)) ||
      (tOpk t == 0 && m.gotB.length < tRowsB t && hit (tBKind t) (tBIdx t)))
  | _ => false

/-- Whether a row may still come to a queue of core c, of a gang whose strands all hold: its sluice has a TFETCH to finish, or an lo that is bound to
it has rows, or an MDRAIN that is to push into it lies in the queue of an array that is not itself among those given up. -/
def State.mayFill (s : State) (t : Task) (given : List Nat) (c : Nat) : Option Nat → Bool
  | none => !((s.core c).sluiceE.active.isEmpty && (s.core c).sluiceE.queue.isEmpty)
  | some i => t.cores.any (fun d => [0, 1, 2, 3].any (fun j =>
      let q := (s.core d).loAt j
      q.peer == some (c, i) &&
        (!q.rows.isEmpty || !q.flight.isEmpty || (!given.contains d && (s.core d).mq.any (fun m => m.pushes j)))))

/-- Whether room may still come to an lo queue of core c, of a gang whose strands all hold: a row of it can leave, a credit is on its way, or an array
that is not among those given up will pop what it is bound to. -/
def State.mayDrain (s : State) (given : List Nat) (c lo : Nat) : Bool :=
  let q := (s.core c).loAt lo
  q.rows.length < 8 ||
    (match q.peer with
     | none => true
     | some (d, i) =>
       q.used < 8 || q.flight.length + ((s.core d).liAt i).length < q.used ||
         (!given.contains d && (s.core d).mq.any (fun m => m.reads 2 (some i))))

/-- Whether an engine of core c can do nothing more, its strands holding and its array at rest for good. -/
def State.engineStuck (s : State) (c : Nat) (e : Engine) : Bool := s.engineStopped c e && ((s.core c).side.isNone || s.sideStopped c)

/-- Whether a token may still come to core c, its strands holding and its array at rest for good: it is there, or a strand, an access or an engine that
can go on has it to signal (R39, R62). -/
def State.tokenMayCome (s : State) (c : Nat) (tk : BitVec 4) : Bool :=
  let k := s.core c
  k.tk.get tk.toFin != 0 || strands.any (fun u => (k.strand u).sigDue.contains tk) || k.aq.any (fun a => a.sig == some tk) ||
    [Engine.copy, .sluice, .confluence, .gather, .chain].any (fun e =>
      !s.engineStuck c e && ((k.engine e).active ++ (k.engine e).queue).any (fun m => m.sig == some tk))

/-- Whether the array of core c, of a gang whose strands all hold, can still go on where those of some cores never will (R204, R209, R211, R219): the
counter, the token, the rows or the room that its head command waits for may come. -/
def State.arrayHopes (s : State) (t : Task) (given : List Nat) (c : Nat) : Bool :=
  let k := s.core c
  let lives := fun (use : MatCmd → Bool) => !given.contains (twinOf c) && (s.core (twinOf c)).mq.any use
  match s.headCmd c with
  | none => true
  | some m =>
    if m.executed then (k.signalAll? m.tokens).isSome
    else match m.op with
      | .zero _ => true
      | .drain f _ _ _ =>
        if f.dkind = 1 then s.mayDrain given c f.dreg.toNat
        else f.dkind != 2 || !(s.pair (pairOf c)).twFull.getD ((f.dreg.toNat + m.rowsOut) % 4) false || lives (·.reads 3 none)
      | .tpl w _ =>
        let weir := fun (kind idx got rows : Nat) =>
          kind != 3 || rows ≤ got || (s.pair (pairOf c)).twFull.getD ((idx + got) % 4) false || lives MatCmd.fillsWeir
        if !m.started then (tokenOf (tWaitTk w)).all (s.tokenMayCome c)
        else k.dryQueues.all (s.mayFill t given c) && weir (tAKind w) (tAIdx w) m.gotA.length (tM w) &&
          (tOpk w != 0 || weir (tBKind w) (tBIdx w) m.gotB.length (tRowsB w))

/-- Of some cores whose arrays are at rest, those whose array will never go on, the others being found out one round after another. -/
def State.starving (s : State) (t : Task) : Nat → List Nat → List Nat
  | 0, l => l
  | n + 1, l => State.starving s t n (l.filter (fun c => !s.arrayHopes t l c))

/-- Whether the array of a member waits for a row that will never arrive (R221). -/
def State.arrayStarves (s : State) (t : Task) (c : Nat) : Bool :=
  let l := s.starving t t.cores.length (t.cores.filter (fun d => (s.headCmd d).isSome && s.arrayStopped d))
  l.contains c && (s.core c).dryQueues.any (fun q => !s.mayFill t l c q)

/-- ITERATION_LIMIT_EXPIRY (R44, R221, R290): the limit has passed and the hold is not complete, or the array waits for rows that will never arrive
(log entry 24). A trap satisfies the request with its stop save (R303), so the limit runs on until that is taken (log entry 76, the model's
choice). -/
def execIterationLimitExpiry (task : Nat) (s : State) : Res :=
  match s.taskKey? task with
  | none => .next s
  | some t =>
    match t.preemptAt with
    | none => .next s
    | some c =>
      if t.phase == .running && t.fatal.isNone && c + t.recd.ilimit * 1024 ≤ s.cycle && (!s.holdDone t || t.cores.any (s.arrayStarves t)) then
        .next (s.modTask t.part t.id (fun t => { t with fatal := some (kLimit, 0) }))
      else .next s

/-- A gang that a fault of the silicon has stopped, of a restartable task (R300): it is restored from its last boundary save, or dispatched again. -/
def State.restartGang (s : State) (t : Task) : State :=
  (s.freeGang t.cores).modTask t.part t.id (fun t =>
    { t with phase := .saved, running := false, cores := [], images := t.boundary, atBoundary := t.boundary.isSome,
             inGrotto := t.boundGrotto, restarts := t.restarts + 1, traps := [], fatal := none,
             saving := false, preemptAt := none, preemptFor := none, awaits := .nothing })

/-- FATAL_CONTEXT_ERROR (R294, R300): once the commands in flight are complete or wait on what only the gang could supply, the gang ends, what is left
is abandoned, and its record is due; a restartable task that a fault of the silicon has stopped goes on from its last boundary save, three times
at most. -/
def execFatalContextError (task : Nat) (s : State) : Res :=
  match s.taskKey? task with
  | none => .next s
  | some t =>
    match t.fatal with
    | some (kind, addr) =>
      if t.phase == .running && s.gangAtRest t then
        .next (if kind = kHardware ∧ t.recd.restart ∧ t.restarts < 3 then s.restartGang t
          else s.endGang t kind 0 (if kindHasAddr kind then addr % 2 ^ 56 else 0))
      else .next s
    | none => .next s

/-- A router's coordinate, z 0 to 2, as its packed number (R14). -/
def routerAt (z y x : Nat) : Nat := z * 128 + y * 16 + x

/-- Whether a link is marked (R336). -/
def State.linkMarked (s : State) (router dir : Nat) : Bool := (tget Link.reset s.links (router * 8 + dir)).marked

/-- The links along x on a layer and row (R331): router and direction by the numbers of R362. -/
def hopsX (z y x x' : Nat) : List (Nat × Nat) :=
  if x ≤ x' then (List.range (x' - x)).map (fun i => (routerAt z y (x + i), 0)) else (List.range (x - x')).map (fun i => (routerAt z y (x - i), 1))

/-- The links along y on a layer and column. -/
def hopsY (z x y y' : Nat) : List (Nat × Nat) :=
  if y ≤ y' then (List.range (y' - y)).map (fun i => (routerAt z (y + i) x, 2)) else (List.range (y - y')).map (fun i => (routerAt z (y - i) x, 3))

/-- The vertical links of a column between two layers. -/
def hopsZ (y x z z' : Nat) : List (Nat × Nat) :=
  if z ≤ z' then (List.range (z' - z)).map (fun i => (routerAt (z + i) y x, 4)) else (List.range (z - z')).map (fun i => (routerAt (z - i) y x, 5))

/-- The links that a packet takes from one router to another (R331, R336): along x and then y, or y and then x where an in-plane link of its R331 route
is marked; a marked vertical link is passed in the adjacent column. -/
def State.route (s : State) (src dst : Nat × Nat × Nat) : List (Nat × Nat) :=
  let (zs, ys, xs) := src
  let (zd, yd, xd) := dst
  let zm := min zs zd
  let marked := fun (l : List (Nat × Nat)) => l.any (fun h => s.linkMarked h.1 h.2)
  let beside := fun (x : Nat) => if x = 15 then 14 else x + 1
  let xa := if marked (hopsZ ys xs zs zm) then beside xs else xs
  let xb := if marked (hopsZ yd xd zm zd) then beside xd else xd
  let inPlane := hopsX zm ys xs xd ++ hopsY zm xd ys yd
  let way1 := hopsX zm ys xa xb ++ hopsY zm xb ys yd
  let way2 := hopsY zm xa ys yd ++ hopsX zm yd xa xb
  hopsX zs ys xs xa ++ hopsZ ys xa zs zm ++ (if marked inPlane then way2 else way1) ++ hopsZ yd xb zm zd ++ hopsX zd yd xb xd

/-- An agent on z0 besides the basins (R332). -/
inductive Z0Agent where
  | hbm (k : Nat)
  | port (n : Nat)
  | wellhead | fountainhead | decoders | tokenizer | skimmer
  deriving DecidableEq, Repr

/-- A router by layer, row and column. -/
abbrev Router := Nat × Nat × Nat

/-- The router of an agent on z0 (R332); the decoders' router is the colour converter's too. -/
def Z0Agent.router : Z0Agent → Router
  | .hbm k => if k < 4 then (0, 0, 4 * k + 1) else (0, 7, 4 * (k - 4) + 1)
  | .port n => if n = 0 then (0, 3, 0) else (0, 4, 15)
  | .wellhead => (0, 4, 0)
  | .fountainhead => (0, 3, 15)
  | .decoders => (0, 3, 7)
  | .tokenizer => (0, 4, 8)
  | .skimmer => (0, 4, 7)

/-- The router of a core (R14, R23). -/
def coreRouter (c : Nat) : Router := (c / 128 + 1, c % 128 / 16, c % 16)

/-- The router of a basin (R229). -/
def basinRouter (b : Nat) : Router := (0, b / 16, b % 16)

/-- The trips that an access of a core to a key makes (R228, R229, R340): to another core; to the line's home, and on to the HBM controller, or to
the port of host memory; to the port through which a peer's memory is reached (log entry 46). -/
def tripsOf (c key : Nat) : List (Router × Router) :=
  if 2 ^ 52 ≤ key then [(coreRouter c, coreRouter ((key - 2 ^ 52) / 2 ^ 19))]
  else
    let home := basinRouter (homeOf key)
    match paKind key with
    | .host n => [(coreRouter c, home), (home, (Z0Agent.port n).router)]
    | .peer n => [(coreRouter c, (Z0Agent.port (Config.peerPort n)).router)]
    | _ => [(coreRouter c, home), (home, (Z0Agent.hbm (Config.hbmController key).toNat).router)]

/-- The key that an address of a core reaches, if any. -/
def State.keyList (s : State) (c ea : Nat) : List Nat :=
  match s.keyOf c ea false with
  | .ok key => [key]
  | .error _ => []

/-- The keys, one of each line, of n bytes at an address. -/
def State.lineKeys (s : State) (c lo n : Nat) : List Nat :=
  (List.range ((lo + n - 1) / 128 - lo / 128 + 1)).flatMap (fun i => s.keyList c (max lo ((lo / 128 + i) * 128)))

/-- The keys, one of each line, of a range as the scoreboard numbers it (R235). -/
def State.rangeKeys (s : State) (c : Nat) (r : Range) : List Nat :=
  if 2 ^ 60 ≤ r.lo then [r.lo - 2 ^ 60] else s.lineKeys c r.lo (r.hi - r.lo)

/-- The agent on z0 that carries out a command (R317 to R324). -/
def EngOp.agent : EngOp → List Z0Agent
  | .tokz _ _ _ _ _ => [.tokenizer]
  | .ccvt _ _ _ _ _ _ _ => [.decoders]
  | .cmask _ _ _ _ => [.skimmer]
  | .tlist _ _ _ => [.skimmer]
  | _ => []

/-- The index that a command reads from its index array, unless it is absent or cannot be read. -/
def State.indexAt (s : State) (c : Nat) (x : Dword) (i : Nat) : Option Nat :=
  match (engNat c (plus x (4 * i)) 4).run s with
  | (.ok v, _) => if v = 2 ^ 31 then none else some v
  | (.error _, _) => none

/-- The places that a command reaches besides its ranges: through its indices (R243, R244), and of the intake complex its records (R317 to R324). -/
def EngOp.places (s : State) (c : Nat) : EngOp → List (Dword × Nat)
  | .gath _ a x _ u n => (List.range n).filterMap (fun i => (s.indexAt c x i).map (fun v => (plus a (int32 v * u), u)))
  | .scat d _ x _ u n => (List.range n).filterMap (fun i => (s.indexAt c x i).map (fun v => (plus d (int32 v * u), u)))
  | .sacc d x _ _ ty n _ =>
    (List.range n).filterMap (fun i => (s.indexAt c x i).map (fun v => (plus d (int32 v * typeWidth ty), typeWidth ty)))
  | .cmask st fr la _ => [(st, 32), (fr, 64), (la, 32)]
  | .tlist comp st re => [(comp, 4), (st, 32), (re, 8)]
  | .ccvt _ fr _ _ _ _ _ => [(fr, 64)]
  | _ => []

/-- The other cores that a command writes to (R240). -/
def EngOp.others : EngOp → List Nat
  | .mcast _ _ _ ts => ts
  | _ => []

/-- The trips of a request that is awaited (R300, R332, R335). -/
def State.requestTrips (s : State) (o : Outstanding) : List (Router × Router) :=
  let c := o.core
  let k := s.core c
  match o.what with
  | .line l => (s.keyList c (l * 128)).flatMap (tripsOf c)
  | .access id =>
    (k.aq.filter (fun a => a.id == id)).flatMap (fun a => (s.keyList c (addrPlus a.ea (min a.done (a.places - 1) * a.placeSize))).flatMap (tripsOf c)) ++
      (k.fe.toList.filter (fun r => r.id == id)).flatMap (fun r => (s.keyList c r.ea.toNat).flatMap (tripsOf c))
  | .engine e =>
    (k.engine e).active.flatMap (fun m =>
      ((m.reads ++ m.writes).flatMap (s.rangeKeys c) ++ (m.op.places s c).flatMap (fun p => s.lineKeys c p.1.toNat p.2)).flatMap (tripsOf c) ++
        m.op.others.map (fun d => (coreRouter c, coreRouter d)) ++ m.op.agent.map (fun a => (coreRouter c, a.router)))
  | .row j => ((k.loAt j).peer.map (fun p => (coreRouter c, coreRouter p.1))).toList
  | .bar => (k.barAt.bind (fun b => (coreOfCoord b.2.2).map (fun h => (coreRouter c, coreRouter h)))).toList
  | .spawn => [(coreRouter c, Z0Agent.fountainhead.router)]

/-- The rows that a V instruction names (R77): a lane or an immediate in the place of a source is none. -/
def rowsNamed (i : Instr) (f : FV) : List (BitVec 13) :=
  match i with
  | .vseti _ => [f.dst]
  | .viota _ => [f.dst]
  | .vbcast _ => [f.dst, f.src1]
  | .vrot _ => [f.dst, f.src1]
  | _ => [f.dst, f.src1, f.src2]

/-- Whether the V strand or the array of a core stands at a row of the weir (R175, R204). -/
def State.atWeir (s : State) (c : Nat) : Bool :=
  let k := s.core c
  (match strandTurn s c .v with
   | .run i u =>
     let w := (k.slot (k.textIdx u.cx.head)).elim 0 (·.1)
     selOf w == 1 && (rowsNamed i (fv w ((k.slot (k.textIdx u.cx.head + 1)).elim 0 (·.1)))).any (fun d => dLv d == 2 && 8 ≤ dReg d && dReg d < 12)
   | .idle _ => false) ||
    (match s.headCmd c with
     | some m =>
       (match m.op with
        | .tpl t _ => (tAKind t == 3 && m.gotA.length < tM t) || (tOpk t == 0 && tBKind t == 3 && m.gotB.length < tRowsB t)
        | .drain f _ _ _ => f.dkind == 2 && m.rowsOut ≤ f.nrm1.toNat
        | .zero _ => false)
     | none => false)

/-- The trips of everything that a core has on the network (R24, R300): its requests; of an upper twin, its access to a row of the weir, which lies
with the z1 member (R204); and a divisor that it has asked the wellhead for and that has not come (R332, R348; log entry 46). -/
def State.tripsFrom (s : State) (c : Nat) : List (Router × Router) :=
  (s.outstanding.filter (·.core == c)).flatMap s.requestTrips ++
    (if 128 ≤ c && s.weirOk c && s.atWeir c then [(coreRouter c, coreRouter (twinOf c))] else []) ++
    (if (s.core c).divReq.toList.any Option.isSome then [(coreRouter c, Z0Agent.wellhead.router)] else [])

/-- Whether a trip passes a link, on its way or on the way back. -/
def State.tripCrosses (s : State) (router dir : Nat) (t : Router × Router) : Bool := (s.route t.1 t.2 ++ s.route t.2 t.1).contains (router, dir)

/-- Whether a fault of a basin or a link lies on a trip. -/
def State.hits (s : State) (f : HwFault) (t : Router × Router) : Bool :=
  match f with
  | .core _ => false
  | .basin b => t.2 == basinRouter b
  | .link router dir => s.tripCrosses router dir t

/-- The cores that a fault of the silicon strikes (R300): those with a request outstanding to the basin or over the link. -/
def State.struck (s : State) (f : HwFault) : List Nat :=
  match f with
  | .core c => [c]
  | f => (s.cores.map (·.1)).filter (fun c => (s.tripsFrom c).any (s.hits f))

/-- A request that a fault of the silicon has met: what waits for it goes no further (R294). -/
def State.dropRequest (s : State) (o : Outstanding) : State :=
  let s : State := { s with outstanding := s.outstanding.filter (fun p => p.tag != o.tag) }
  match o.what with
  | .line l =>
    s.modCore o.core (fun k =>
      { k with stash := k.stash.filter (fun x => x.line != l), aq := k.aq.filter (fun a => !(k.waitersOf l).contains a.id) })
  | .access id => s.modCore o.core (fun k => { k with aq := k.aq.filter (fun a => a.id != id), fe := k.fe.filter (fun r => r.id != id) })
  | .engine e => s.dropCommand o.core e
  | _ => s

/-- The work of a core that has failed goes no further. -/
def State.dropWork (s : State) (c : Nat) : State :=
  ({ s with outstanding := s.outstanding.filter (fun o => o.core != c) } : State).modCore c (fun k =>
    { k with aq := [], fe := none, mq := [], side := none, copyE := .reset, sluiceE := .reset, confE := .reset, gathE := .reset, chainE := .reset })

/-- A gang that a fault of the silicon has struck stops as at a fatal context error (R294, R300), what met the fault going no further. -/
def State.hardwareFault (s : State) (t : Task) (met : List Outstanding) : State :=
  (met.foldl State.dropRequest s).modTask t.part t.id (fun t => { t with fatal := t.fatal.or (some (kHardware, 0)) })

/-- CORE_BASIN_LINK_FAULT (R300). -/
def execCoreBasinLinkFault (f : HwFault) (s : State) : Res :=
  let gangs := s.tasks.filter (fun t => t.phase == .running && t.cores.any (s.struck f).contains)
  let met := s.outstanding.filter (fun o => (s.requestTrips o).any (s.hits f))
  let s := match f with
    | .core c => if gangs.isEmpty then s else s.dropWork c
    | _ => s
  .next (gangs.foldl (fun s t => s.hardwareFault t (met.filter (fun o => t.cores.contains o.core))) s)

/-! Completion records. -/

/-- The next completion record of a stream (R281, R295): of an ended handler, or of the earliest task that is no handler, if it has ended. -/
def State.nextRecord (s : State) (stream : Nat) : Option Task :=
  let l := s.tasks.filter (fun t => t.stream == stream && !t.recordWritten)
  let first := (l.filter (fun t => !t.recd.hdlr)).foldl (fun b t => match b with
    | none => some t
    | some (h : Task) => if t.order < h.order then some t else some h) none
  (l.find? (fun t => t.recd.hdlr && t.ended)).or (first.filter Task.ended)

/-- The bytes of a completion record (R295). -/
def completionRecord (q : Stream) (t : Task) : List Byte :=
  bytesOfNat 8 (t.kind * 2 ^ 56 + t.stat * 2 ^ 48 + t.stream * 2 ^ 32 + t.id) ++ bytesOfNat 8 (t.recd.trip * 2 ^ 32 + t.iter) ++
    bytesOfNat 8 (q.seq.toNat * 2 ^ 32 + t.sat * 2 ^ 16 + t.detail % 2 ^ 16) ++ bytesOfNat 8 t.addr

/-- Tries to write a completion record (R295, R301): held while the ring is full, also where PROD - CONS is
above 2^L2ENT (log entry 76, the model's choice); held with one kind 10 event where it cannot be written. -/
def State.tryRecord (s : State) (stream : Nat) (t : Task) : State :=
  let q := s.stream stream
  if 2 ^ q.l2ent ≤ (q.prod - q.cons).toNat then s
  else
    let va := q.crbase + 32 * (q.prod.toNat % 2 ^ q.l2ent)
    match s.partUnwritable t.part va 32 with
    | some a =>
      let s := if t.recordFault.isNone then s.postEvent (some t.part) 10 stream t.id a else s
      s.modTask t.part t.id (fun t => { t with recordFault := some s.cycle })
    | none =>
      let s := (s.partWrite t.part va (completionRecord q t)).modStream stream (fun q => { q with prod := q.prod + 1, seq := q.seq + 1 })
      (s.modTask t.part t.id (fun t => { t with recordWritten := true, recordDue := false, recordFault := none })).msix t.part 3

/-- COMPLETION_RECORD_WRITE (R267, R281, R295). -/
def execCompletionRecordWrite (stream : Nat) (s : State) : Res :=
  match s.nextRecord stream with
  | some t => if t.recordFault.isNone then .next (s.tryRecord stream t) else .next s
  | none => .next s

/-- COMPLETION_RECORD_RETRY (R295): a record that could not be written is tried again once 1,024 reference cycles have passed. -/
def execCompletionRecordRetry (stream : Nat) (s : State) : Res :=
  match s.nextRecord stream with
  | some t => if t.recordFault.any (fun c => c + 1024 ≤ s.cycle) then .next (s.tryRecord stream t) else .next s
  | none => .next s

end Sys2Proof.Machine
end

