-- ==== Sys2Proof/Machine/Fabric.lean ====
section
/-! DEFINITION. The network (R334 to R336), accesses of the host and of peers (R269, R338, R341, R355), mailboxes (R342, R343), and the copying of
lines in a page migration (R252, R274). -/

namespace Sys2Proof.Machine

/-! Drains, headers and retransmission. A network cycle is a reference cycle (R335). -/

/-- NETWORK_DRAIN (R334). -/
def execNetworkDrain (s : State) : Res :=
  if s.draining.isNone && s.lastDrain + 65536 ≤ s.cycle then
    .next { s with draining := some s.cycle, lastDrain := s.cycle / 65536 * 65536 }
  else .next s

/-- DRAIN_END (R334): no buffer holds a flit, of a row on its way for one, or 192 cycles have passed (`State.drainLimit`). -/
def execDrainEnd (s : State) : Res :=
  if s.outstanding.any (fun o => o.sent && !o.lost && (match o.what with
    | .row _ => true
    | _ => false)) then .next s
  else .next s.endDrain

/-- A counter of a link rises, saturating (R362). -/
def satUp (n : Nat) : Nat := min (n + 1) (2 ^ 32 - 1)

/-- A link. -/
def State.link (s : State) (router dir : Nat) : Link := tget Link.reset s.links (router * 8 + dir)

/-- HEADER_CORRECTED (R335). -/
def execHeaderCorrected (router : BitVec 9) (dir : Nat) (s : State) : Res :=
  let l := s.link router.toNat dir
  if 5 < dir then .next s
  else .next { s with links := tset s.links (router.toNat * 8 + dir) { l with corrected := satUp l.corrected } }

/-- The tag of a packet. -/
def packetTag : PacketKind → Nat
  | .request t => t
  | .reply t => t

/-- A packet of a request is lost. -/
def State.lose (s : State) (tag : Nat) : State :=
  { s with outstanding := s.outstanding.map (fun o => if o.tag = tag then { o with lost := true } else o) }

/-- An access of a core takes all of its places at its home without its core having the reply. -/
def State.performHome (c id : Nat) : Nat → State → State
  | 0, s => s
  | fuel + 1, s =>
    match (s.core c).aq.find? (fun a => !a.performed) with
    | some a => if a.id = id then State.performHome c id fuel ((s.nextPlace c a).getD s) else s
    | none => s

/-- The id that a SPAWN of a core's X strand gets at the fountainhead, and the state (R111); none while it waits there. -/
def State.spawnNow (s : State) (c : Nat) : Option (Nat × State) :=
  let at_ := fun (nb : Bool) (a b : BitVec 6) (u : State) =>
    (do
      let (addr, sid, _) ← u.spawnArgs a b
      ((s.settle c).writeBack c).spawnHome c nb addr.toNat sid.toNat).toOption
  match strandTurn s c .x with
  | .run (.spawn _ a b) u => at_ false a b u
  | .run (.spawnNb _ a b) u => at_ true a b u
  | _ => none

/-- Whether a core's arrival at a barrier has been counted (R58). -/
def State.barCounted (s : State) (c : Nat) : Bool :=
  match (s.core c).barAt with
  | some (_, slot, coord) =>
    (coreOfCoord coord).any (fun h => ((s.core h).bars.get slot.toFin).ranks.contains (s.core c).rank)
  | none => false

/-- The reply of a request is lost (R274, R335): what was asked has been performed at its home, which keeps the result, and the requester waits until
it has asked again. Where the home could not yet perform it there is no such reply. -/
def State.loseReply (s : State) (o : Outstanding) : State :=
  let c := o.core
  if !o.sent || o.lost then s
  else match o.what with
    | .line line => (s.homeLine c line).lose o.tag
    | .engine _ => s.lose o.tag
    | .row _ => s
    | .bar => if s.barCounted c then s.lose o.tag else s
    | .spawn =>
      (match s.spawnNow c with
       | some (id, t) => (t.modCore c (fun k => { k with spawned := some id })).lose o.tag
       | none => s)
    | .access id =>
      (match (s.core c).fe with
       | some r =>
         if r.id ≠ id then s
         else if o.result.isSome then s.lose o.tag
         else
           (match s.feAct c r with
            | .ok (got, t) => (t.record c (.access id) got).lose o.tag
            | .error _ => s)
       | none =>
         let t := State.performHome c id (((s.core c).aq.map Access.places).sum) s
         if (t.core c).aq.any (fun a => a.id == id && a.performed) then t.lose o.tag else s)

/-- HEADER_UNCORRECTABLE (R335, R336): the packet is dropped, the link is charged, and marked at the third error. -/
def execHeaderUncorrectable (router : BitVec 9) (dir : Nat) (pkt : PacketKind) (s : State) : Res :=
  let l := s.link router.toNat dir
  if 5 < dir then .next s
  else
    let n := satUp l.errors
    let marks := !l.marked && 3 ≤ n
    let s := { s with links := tset s.links (router.toNat * 8 + dir) { l with errors := n, marked := l.marked || marks } }
    let s := if marks then s.postEvent none 5 router.toNat dir n else s
    .next (match pkt with
      | .request tag => s.lose tag
      | .reply tag => (s.outstanding.find? (fun o => o.tag == tag)).elim s s.loseReply)

/-- Whether a request waits where it was sent to for something other than the network: a full/empty operation at its lines, an arrival at its
barrier, a SPAWN at its stream. Its home answers that it has it (R65; log entry 46). -/
def State.heldThere (s : State) (o : Outstanding) : Bool :=
  o.sent && !o.lost &&
    (match o.what with
     | .access id => (s.core o.core).fe.any (fun r => r.id == id)
     | .bar => s.barCounted o.core
     | .spawn => true
     | _ => false)

/-- REQUEST_RETRANSMIT (R274, R334 to R336, R341): a request whose reply is lost or late is sent again; after three times it is a link fault, also of a
peer that has stopped answering. -/
def execRequestRetransmit (tag : Nat) (s : State) : Res :=
  match s.outstanding.find? (fun o => o.tag == tag) with
  | none => .next s
  | some o =>
    if !o.sent || s.cycle < o.sentAt + 8192 || s.draining.isSome || s.heldThere o then .next s
    else if o.retries < 3 then
      let p := { o with sentAt := s.cycle, retries := o.retries + 1, lost := false }
      .next (({ s with outstanding := s.outstanding.map (fun q => if q.tag = tag then p else q) } : State).leaves p)
    else match s.taskOf o.core with
      | some t => if t.phase == .running then .next (s.hardwareFault t [o]) else .next s
      | none => .next { s with outstanding := s.outstanding.filter (fun p => p.tag != tag) }

/-! The host and the peers. -/

/-- Whether a request of the non-secure world to n bytes of BAR2, of the size it has, is performed (R337, R338, R355). -/
def State.bar2Ok (s : State) (offset n : Nat) : Bool :=
  offset + n ≤ 2 ^ min s.bar2 39 && (List.range n).all (fun i => !s.secureAt (s.forward (offset + i)))

/-- What the device answers. -/
def State.put (s : State) (o : Output) : State := { s with outputs := s.outputs ++ [o] }

/-- HOST_BAR2_ACCESS (R269, R338, R355). -/
def execHostBar2Access (fn : Nat) (acc : HostAccess) (s : State) : Res :=
  match acc with
  | .read off n => if s.bar2Ok off n then .next (s.put (.data fn (s.readPa off n))) else .next (s.put (.unsupported fn))
  | .write off bs => if s.bar2Ok off bs.length then .next (s.writePa off bs) else .next (s.put (.unsupported fn))

/-- The number by which the outputs name a peer (log entry 12). -/
def peerFn (aperture : Nat) : Nat := 32 + aperture

/-- What an update by the confluence leaves at its target (R244, R245); none for the reserved operation. -/
def updateOf (opc : BitVec 3) (ty : BitVec 4) (value new : Nat) : Option (Nat → Nat) :=
  match opc.toNat with
  | 5 => some (fun _ => value)
  | 6 => some (fun old => if old = value then new else old)
  | 7 => none
  | _ => some (fun old => (saccStep opc ty old value).1)

/-- A request of a peer (R274): performed at its home once, with its result recorded under its tag; sent again, it is answered from the record. -/
def State.peerOnce (s : State) (aperture tag : Nat) (act : State → List Byte × State) : State :=
  match s.peerDone.find? (fun d => d.1 == aperture && d.2.1 == tag) with
  | some d => s.put (.data (peerFn aperture) d.2.2)
  | none =>
    let (bs, s) := act s
    let s := s.put (.data (peerFn aperture) bs)
    { s with peerDone := s.peerDone ++ [(aperture, tag, bs)] }

/-- An update by a peer's confluence (R252, R266, R274): its old value. -/
def State.peerUpdate (s : State) (aperture tag offset : Nat) (ty : BitVec 4) (f : Nat → Nat) : State :=
  s.peerOnce aperture tag (fun s =>
    let w := typeWidth ty
    let s := (List.range w).foldl (fun s i => s.flush (s.forward (offset + i)) 1) s
    let old := s.readPa offset w
    (old, s.writePa offset (bytesOfNat w (f (natOfBytes old)))))

/-- The first physical address of a peer aperture (R340). -/
def apertureBase (aperture : Nat) : Nat := 2 ^ 49 + 2 ^ 39 * aperture

/-- PEER_MESSAGE (R252, R256, R274, R340, R341, R355): a peer's read, write or confluence update of this device's memory, performed at the home once for each tag; a store of
the peer into its own memory, and the times of a line of it, as this device sees them through the aperture; an acknowledgement; a PEER_JOIN
that the peer has received. A request of a peer that no partition has joined is refused. -/
def execPeerMessage (aperture : Nat) (msg : PeerMsg) (s : State) : Res :=
  let fn := peerFn aperture
  let ok := s.parts.any (fun e => s.isJoined e.1 aperture)
  match msg with
  | .read tag off n => if ok && s.bar2Ok off n then .next (s.peerOnce aperture tag (fun s => (s.readPa off n, s))) else .next (s.put (.unsupported fn))
  | .write tag off bs =>
    if ok && s.bar2Ok off bs.length then .next (s.peerOnce aperture tag (fun s => ([], s.writePa off bs))) else .next (s.put (.unsupported fn))
  | .update tag off opc ty value new =>
    match updateOf opc ty value new with
    | some f =>
      if ok && s.bar2Ok off (typeWidth ty) && off % typeWidth ty == 0 then .next (s.peerUpdate aperture tag off ty f)
      else .next (s.put (.unsupported fn))
    | none => .next (s.put (.unsupported fn))
  | .ack tag => .next { s with peerDone := s.peerDone.filter (fun d => !(d.1 == aperture && d.2.1 == tag)) }
  | .own off bs => if ok && off + bs.length ≤ 2 ^ 39 then .next (s.write (apertureBase aperture + off) bs) else .next s
  | .times off w l =>
    if ok && off < 2 ^ 39 then .next { s with times := tset s.times ((apertureBase aperture + off) / 128) { write := w, lease := l } } else .next s
  | .join p part => .next (if s.peerJoins.contains (aperture, p, part) then s else { s with peerJoins := s.peerJoins ++ [(aperture, p, part)] })

/-! Mailboxes. -/

/-- A mailbox of a function. -/
def State.mailbox (s : State) (fn : Nat) : Mailbox := tget Mailbox.reset s.mailboxes fn

/-- Replaces a mailbox. -/
def State.setMailbox (s : State) (fn : Nat) (m : Mailbox) : State := { s with mailboxes := tset s.mailboxes fn m }

/-- The STATUS values (R343). -/
def stOk : Nat := 0
def stBusy : Nat := 1
def stBadArg : Nat := 2
def stDenied : Nat := 3
def stUnsupported : Nat := 4
def stNoRoom : Nat := 5
def stAuthFail : Nat := 6
def stRollback : Nat := 7
def stNotReady : Nat := 8

/-- The command that a function has posted (R342): its OP. -/
def Mailbox.op (m : Mailbox) : Nat := (tget 0 m.cmd 0).toNat % 2 ^ 16

/-- A command completes (R342): the response with its TAG, the bits, and the interrupt. -/
def State.respond (s : State) (fn status : Nat) (data : List Nat) : State :=
  let m := s.mailbox fn
  let words := ((tget 0 m.cmd 0).toNat / 2 ^ 32 * 2 ^ 32 + status) :: data
  let rsp : Tbl Dword := (List.range words.length).map (fun i => (i, BitVec.ofNat 64 (words.getD i 0)))
  (({ s with goOrder := s.goOrder.filter (· != fn) } : State).setMailbox fn { m with busy := false, done := true, rsp := rsp }).msix fn 0

/-- What a command does: its status and results, or none while it is under way and does not answer yet, and the state with its effects. -/
abbrev CmdResult := Option (Nat × List Nat) × State

/-- A command of a function (R342 to R344): it is the oldest posted, and the device is ready or `early` allows it in STATE 7. -/
def command (fn op : Nat) (early : Bool) (body : State → CmdResult) (s : State) : Res :=
  let m := s.mailbox fn
  if !m.busy || m.op != op || s.goOrder.head? != some fn then .next s
  else if s.bootState ≠ 6 ∧ !(early && s.bootState == 7) then .next (s.respond fn stNotReady [])
  else match body s with
    | (none, s') => .next s'
    | (some (status, data), s') => .next (s'.respond fn status data)

/-- A command ends with a status and no other effect. -/
def refuse (s : State) (status : Nat) : CmdResult := (some (status, []), s)

/-- A command ends well. -/
def accept (s : State) : CmdResult := (some (stOk, []), s)

/-- The commands posted, with one more (R342, R361): in the order of their GO writes, the PF's ahead of those of its cycle. -/
def State.withGo (s : State) (fn : Nat) : List Nat :=
  let now := fun (f : Nat) => (s.mailbox f).goAt == s.cycle
  if fn = pfFn then s.goOrder.filter (fun f => !now f) ++ [fn] ++ s.goOrder.filter now else s.goOrder ++ [fn]

/-- REGISTER_WRITE (R11, R12, R280, R338, R342): GO, the DONE bit, the command buffer, and CONS of the stream table; every other register
takes no write of the host. -/
def execRegisterWrite (fn offset : Nat) (value : BitVec 64) (s : State) : Res :=
  let m := s.mailbox fn
  let v := value.toNat
  if 16 < fn then .next s
  else if offset = 0x1000 then
    (if v % 2 = 1 && !m.busy then .next (({ s with goOrder := s.withGo fn } : State).setMailbox fn { m with busy := true, goAt := s.cycle }) else .next s)
  else if offset = 0x1008 then (if v / 2 % 2 = 1 then .next (s.setMailbox fn { m with done := false }) else .next s)
  else if 0x1100 ≤ offset ∧ offset < 0x1200 ∧ offset % 8 = 0 then
    .next (s.setMailbox fn { m with cmd := tset m.cmd ((offset - 0x1100) / 8) value })
  else if 0x20000 ≤ offset ∧ offset < 0x40000 ∧ offset % 32 = 0x10 then
    let i := (offset - 0x20000) / 32
    (if fn = pfFn ∨ (thas s.streams i ∧ (s.stream i).part = fn) then .next (s.modStream i (fun q => { q with cons := BitVec.ofNat 32 (v / 2 ^ 32) }))
     else .next s)
  else .next s

/-! Migration. -/

/-- The leaf of a virtual address and the address of its entry (R296). -/
def State.leafEntry (s : State) (part va : Nat) : Option (TlbEntry × Nat) :=
  match s.walkPages part va with
  | .error _ => none
  | .ok l =>
    let e1 := s.pte (s.part part).ptbase (va / 2 ^ 42 % 2 ^ 14)
    let t2 := e1 / 2 ^ 16 % 2 ^ 36 * 2 ^ 16
    if l.units ≠ 1 then some (l, t2 + 8 * (va / 2 ^ 29 % 2 ^ 13))
    else
      let e2 := s.pte t2 (va / 2 ^ 29 % 2 ^ 13)
      some (l, e2 / 2 ^ 16 % 2 ^ 36 * 2 ^ 16 + 8 * (va / 2 ^ 16 % 2 ^ 13))

/-- Drops a virtual range of a partition from every TLB (R297); none is all. -/
def State.shootdown (s : State) (part : Nat) (range : Option (Nat × Nat)) : State :=
  let keep := fun (e : TlbEntry) => match range with
    | none => false
    | some (lo, hi) => hi ≤ e.vpage * 2 ^ 16 || (e.vpage + e.units) * 2 ^ 16 ≤ lo
  { s with cores := s.cores.map (fun e => if e.2.resident && e.2.part == part then (e.1, { e.2 with tlb := e.2.tlb.filter keep }) else e) }

/-- Copies a line to its new home (R252, R260): its bytes, with what cores had still to write to it, its mark and its logical times. -/
def State.copyLine (s : State) (src dst : Nat) : State :=
  let s := s.flush src 128
  let s := s.write dst (s.bytesAt src 128)
  { s with
    poison := s.poison.filter (fun l => l != dst / 128) ++ (if s.poison.contains (src / 128) then [dst / 128] else [])
    times := tset s.times (dst / 128) (s.timeOf src) }

/-- The end of a migration (R252, R297): the entry names the new page, the TLBs drop the page, and the command returns. -/
def State.endMigration (s : State) (part : Nat) (m : Migration) : State :=
  let s := match s.leafEntry part (m.vpage * 2 ^ 16) with
    | some (_, at_) =>
      let e := natOfBytes (s.readPa at_ 8)
      s.writePa at_ (bytesOfNat 8 (e - e / 2 ^ 16 % 2 ^ 36 * 2 ^ 16 + m.dst))
    | none => s
  let s := (s.modPart part (fun p => { p with migration := none })).shootdown part
    (some (m.vpage * 2 ^ 16, m.vpage * 2 ^ 16 + m.lines * 128))
  s.respond m.fn stOk []

/-- MIGRATION_LINE_COPIED (R252, R274). -/
def execMigrationLineCopied (part : Nat) (s : State) : Res :=
  match (s.part part).migration with
  | none => .next s
  | some m =>
    if m.copied < m.lines then
      .next ((s.copyLine (m.src + 128 * m.copied) (m.dst + 128 * m.copied)).modPart part (fun p =>
        { p with migration := some { m with copied := m.copied + 1 } }))
    else .next (s.endMigration part m)

end Sys2Proof.Machine
end

