-- ==== Sys2Proof/Machine/Digest.lean ====
section
/-! DEFINITION. SHA-384, which R358 names for the digests of an attestation report: the Secure Hash Standard's function, written from its definition
(log entry 8). Its constants are computed, not listed: fractional parts of square and cube roots of primes. Words are numbers below 2^64. -/

namespace Sys2Proof.Machine

/-- The modulus of a word of the digest. -/
def shaMod : Nat := 18446744073709551616

/-- Whether a number of at least 2 is prime, by trial division. -/
def isPrime (n : Nat) : Bool := (List.range (n - 2)).all (fun d => n % (d + 2) != 0)

/-- The first 80 primes: those up to 409. -/
def shaPrimes : List Nat := ((List.range 408).map (· + 2)).filter isPrime

/-- The largest r below 2^n whose k-th power is at most v, one bit at a time from the top; `r` is what the bits above give. -/
def rootBits (k v : Nat) : Nat → Nat → Nat
  | 0, r => r
  | n + 1, r => rootBits k v n (if (r + 2 ^ n) ^ k ≤ v then r + 2 ^ n else r)

/-- The first 64 bits of the fractional part of the k-th root of a number below 512. -/
def rootFraction (k p : Nat) : Nat := rootBits k (p * 2 ^ (64 * k)) 73 0 % shaMod

/-- The 80 round constants: of the cube roots of the first 80 primes. -/
def shaRounds : List Nat := shaPrimes.map (rootFraction 3)

/-- The initial hash value of SHA-384: of the square roots of the ninth to the sixteenth prime. -/
def shaInit : List Nat := ((shaPrimes.drop 8).take 8).map (rootFraction 2)

/-- A word rotated and shifted right. -/
def rotWord (n x : Nat) : Nat := x / 2 ^ n + x % 2 ^ n * 2 ^ (64 - n)
def shrWord (n x : Nat) : Nat := x / 2 ^ n

/-- The exclusive or of three rotations, or of two and a shift. -/
def bigSigma (a b c x : Nat) : Nat := rotWord a x ^^^ rotWord b x ^^^ rotWord c x
def smallSigma (a b c x : Nat) : Nat := rotWord a x ^^^ rotWord b x ^^^ shrWord c x

/-- The message schedule, latest word first: each further word comes from those 2, 7, 15 and 16 before it. -/
def scheduleWords : Nat → List Nat → List Nat
  | 0, w => w
  | n + 1, w =>
    let at_ := fun (i : Nat) => w.getD (i - 1) 0
    scheduleWords n ((smallSigma 19 61 6 (at_ 2) + at_ 7 + smallSigma 1 8 7 (at_ 15) + at_ 16) % shaMod :: w)

/-- The eight working variables. -/
structure ShaVars where
  a : Nat
  b : Nat
  c : Nat
  d : Nat
  e : Nat
  f : Nat
  g : Nat
  h : Nat
  deriving DecidableEq, Repr

/-- The variables as a list, and from one. -/
def ShaVars.list (v : ShaVars) : List Nat := [v.a, v.b, v.c, v.d, v.e, v.f, v.g, v.h]
def shaVarsOf (l : List Nat) : ShaVars :=
  let x := fun (i : Nat) => l.getD i 0
  ⟨x 0, x 1, x 2, x 3, x 4, x 5, x 6, x 7⟩

/-- One round, with its constant and its word of the schedule: where e has a 1 the bit is f's, else g's; the majority of a, b and c. -/
def shaRound (v : ShaVars) (kw : Nat × Nat) : ShaVars :=
  let choice := (v.e &&& v.f) ^^^ ((v.e ^^^ (shaMod - 1)) &&& v.g)
  let majority := (v.a &&& v.b) ^^^ (v.a &&& v.c) ^^^ (v.b &&& v.c)
  let x := v.h + bigSigma 14 18 41 v.e + choice + kw.1 + kw.2
  { a := (x + bigSigma 28 34 39 v.a + majority) % shaMod
    b := v.a
    c := v.b
    d := v.c
    e := (v.d + x) % shaMod
    f := v.e
    g := v.f
    h := v.g }

/-- Splits a list into parts of n, at most the given number of them. -/
def partsOf {α : Type} (n : Nat) : Nat → List α → List (List α)
  | 0, _ => []
  | m + 1, l => if l.isEmpty then [] else l.take n :: partsOf n m (l.drop n)

/-- A number from bytes, the first one highest, and back. -/
def bigEndian (bs : List Byte) : Nat := natOfBytes bs.reverse
def bigEndianBytes (n v : Nat) : List Byte := (bytesOfNat n v).reverse

/-- A message padded to whole blocks of 128 bytes: a 1 bit, zeros, and its length in bits in 16 bytes. -/
def shaPadded (bs : List Byte) : List Byte :=
  bs ++ 0x80 :: List.replicate ((239 - bs.length % 128) % 128) 0 ++ bigEndianBytes 16 (8 * bs.length)

/-- The hash value after a block. -/
def shaBlock (hv : List Nat) (blk : List Byte) : List Nat :=
  let w := (scheduleWords 64 ((partsOf 8 16 blk).map bigEndian).reverse).reverse
  let v := (shaRounds.zip w).foldl shaRound (shaVarsOf hv)
  List.zipWith (fun x y => (x + y) % shaMod) hv v.list

/-- The digest of bytes under SHA-384 (R358): 48 bytes, in the standard's order. -/
def sha384 (bs : List Byte) : List Byte :=
  (((partsOf 128 (bs.length / 128 + 2) (shaPadded bs)).foldl shaBlock shaInit).take 6).flatMap (bigEndianBytes 8)

end Sys2Proof.Machine
end

