-- ==== Sys2Proof/Machine/Intake.lean ====
section
/-! DEFINITION. The intake: decoder turns and credit (R308, R330), frames in memory (R309 to R314, R317), and auto-submission (R315). -/

namespace Sys2Proof.Machine

/-- A multiple of 256 at or above a number. -/
def up256 (n : Nat) : Nat := 256 * ceilDiv n 256

/-- A size made even (R307). -/
def evened (n : Nat) : Nat := n + n % 2

/-- The sizes of the five areas of a slot after the record (R311): Y, Cb and Cr, vectors, residuals, converted tiles of width w. -/
def slotAreas (w h b : Nat) (conv : Bool) (cw : Nat) : List Nat :=
  let bw := ceilDiv w 8
  let bh := ceilDiv h 8
  [rowPitch w b * h, rowPitch w b * (h / 2), 4 * bw * bh, 2 * bw * bh, if conv then 256 * cw * bw * bh else 0]

/-- The offsets of areas of some sizes from an offset on, each at a multiple of 256. -/
def areaOffsets : Nat → List Nat → List Nat
  | _, [] => []
  | off, n :: r => off :: areaOffsets (up256 (off + n)) r

/-- The bytes that a slot needs (R311). -/
def slotBytes (w h b : Nat) (conv : Bool) (cw : Nat) : Nat :=
  (slotAreas w h b conv cw).foldl (fun off n => up256 (off + n)) 256

/-- A camera stream is running (R306). -/
def Camera.running (c : Camera) : Bool := c.state == 1

/-- The bytes that a stream holds undecoded. -/
def Camera.held (c : Camera) : Nat := (c.units.map (·.len)).sum

/-- A decoder instance whose unit, of a stream, has been discarded (R328): its turn runs to its end and gives nothing. -/
def Decoder.drop (d : Decoder) (cam : Nat) : Decoder := { d with void := d.void || d.serving == some cam }

/-- A stream's undecoded bytes are discarded, with a kind 4 record (R309, R346). -/
def State.discardUnits (s : State) (cam : Nat) : State :=
  let c := s.camera cam
  let n := c.held + c.skipped
  let s := { s with decoders := s.decoders.map (fun (e : Nat × Decoder) => (e.1, e.2.drop cam)) }.modCamera cam (fun c =>
    { c with units := [], decoded := [], skipped := 0 })
  if n = 0 then s else s.postEvent (some c.part) 4 cam n 0

/-- A stream error (R310): STATE 2, the bytes discarded, the host notified. -/
def State.cameraError (s : State) (cam code : Nat) : State :=
  let c := s.camera cam
  ((s.modCamera cam (fun c => { c with state := 2 })).discardUnits cam).postEvent (some c.part) 3 cam c.frame code

/-! Decoder turns. -/

/-- A decoder instance. -/
def State.decoder (s : State) (i : Nat) : Decoder := tget Decoder.reset s.decoders i

/-- Replaces a decoder instance. -/
def State.setDecoder (s : State) (i : Nat) (d : Decoder) : State := { s with decoders := tset s.decoders i d }

/-- The credit of a stream at the opening of a period (R308). -/
def Camera.openPeriod (c : Camera) : Camera :=
  if c.running then { c with credit := min c.credit 0 + ((8000 * c.budget / 1024 : Nat) : Int) } else c

/-- Reference cycles in a millisecond. -/
def msCycles : Nat := 3200000

/-- DECODE_PERIOD (R308): the next period of 8 ms opens, once its time has come. -/
def execDecodePeriod (s : State) : Res :=
  if s.cycle < s.decodePeriods * (8 * msCycles) then .next s
  else .next { s with cameras := s.cameras.map (fun e => (e.1, e.2.openPeriod)), decodePeriods := s.decodePeriods + 1 }

/-- The stream that an instance serves next (R308): after the last one, cyclically, of those that have a ready slice; those with positive
credit first. -/
def State.nextCamera (s : State) (inst : Nat) : Option Nat :=
  let last := (s.decoder inst).last
  let ready := s.cameras.filter (fun e => e.2.running && e.2.inst == inst && !e.2.units.isEmpty && !e.2.blocked)
  let pick := fun (l : Tbl Camera) => ((l.find? (fun e => last < e.1)).or l.head?).map (·.1)
  (pick (ready.filter (fun e => 0 < e.2.credit))).or (pick ready)

/-- The decoder writes into the reference area of a partition, through its translation (R314, R344): bytes that no rule fixes, never outside the
area (log entry 73). -/
def State.writeRefs (s : State) (part : Nat) : State :=
  let p := s.part part
  if p.refSize = 0 then s
  else ((Config.refWrites s.fresh).filter (fun e => e.1 < 2 ^ 16 * p.refSize)).foldl (fun s e => s.partWrite part (p.refBase + e.1) [e.2])
    { s with fresh := s.fresh + 1 }

/-- Whether the access unit of a slice is a key frame. -/
def keyUnit : SliceHead → Bool
  | .ok k => k
  | .unsupported _ k => k

/-- After an error recovery the decoder discards an access unit before the next key frame (R310). -/
def Camera.skipUnit (c : Camera) : Camera :=
  match c.units with
  | u :: r => { c with units := r, skipped := c.skipped + u.len }
  | [] => c

/-- The key frame after an error recovery has come: the discard is reported (R310). -/
def State.endSkip (s : State) (cam : Nat) : State :=
  let c := s.camera cam
  if c.skipToKey then
    (if 0 < c.skipped then s.postEvent (some c.part) 4 cam c.skipped 0 else s).modCamera cam (fun c => { c with skipToKey := false, skipped := 0 })
  else s

/-- DECODE_TURN_START (R308, R310): decoding begins; a slice that uses an unsupported feature is a stream error; its turn too is charged at its end
(R330). After an error recovery a unit before the next key frame is discarded whatever it holds, and takes no turn. -/
def execDecodeTurnStart (inst : Nat) (sl : SliceHead) (s : State) : Res :=
  let d := s.decoder inst
  match d.serving, s.nextCamera inst with
  | none, some cam =>
    if (s.camera cam).skipToKey && !keyUnit sl then .next (s.modCamera cam Camera.skipUnit)
    else
      let s := (s.endSkip cam).setDecoder inst { serving := some cam, since := s.cycle, last := cam, expired := false, void := false }
      (match sl with
       | .ok _ => .next (s.writeRefs (s.camera cam).part)
       | .unsupported code _ => .next (s.cameraError cam code))
  | _, _ => .next s

/-- DECODE_QUANTUM_EXPIRY (R308): 250 µs of a turn have passed; the slice is suspended at its next row. -/
def execDecodeQuantumExpiry (inst : Nat) (s : State) : Res :=
  let d := s.decoder inst
  if d.serving.isSome ∧ d.since + 250 * usCycles ≤ s.cycle then .next (s.setDecoder inst { d with expired := true }) else .next s

/-- The access unit that has been decoded leaves the ingress buffer and waits to be shown. -/
def Camera.unitDone (c : Camera) : Camera :=
  match c.units with
  | u :: r => if c.running then { c with units := r, decoded := c.decoded ++ [u] } else c
  | [] => c

/-- DECODE_TURN_END (R308, R328, R330): the time is charged, and what was decoded stands in the reference area (R344); of a unit that has been discarded
meanwhile nothing is left. -/
def execDecodeTurnEnd (inst : Nat) (us : Nat) (sl : SliceOut) (s : State) : Res :=
  let d := s.decoder inst
  match d.serving with
  | none => .next s
  | some cam =>
    let s := (s.setDecoder inst { d with serving := none, expired := false }).modCamera cam (fun c =>
      { c with credit := max (c.credit - (us : Int)) (-(2 : Int) ^ 31) })
    let s := s.writeRefs (s.camera cam).part
    (match sl with
     | .sliceOnly => .next s
     | .accessUnit => .next (if d.void then s else s.modCamera cam Camera.unitDone))

/-! Frames. -/

/-- The address of the record of frame f's slot (R311). -/
def Camera.slotAddr (c : Camera) (f : Nat) : Nat := c.fbase + c.slotSize * 4096 * (f % c.nslot)

/-- Whether the slot of a stream's next frame is held (R314). -/
def State.slotHeld (s : State) (cam : Nat) : Bool :=
  let c := s.camera cam
  s.partNat c.part (c.slotAddr c.frame) 8 / 2 ^ 48 % 2 == 1

/-- A stream waits where the slot of its next frame is held (R314). -/
def State.blockCamera (s : State) (cam : Nat) : State := s.modCamera cam (fun c => { c with blocked := s.slotHeld cam })

/-- The unit of the least presentation time. -/
def firstShown : List AccessUnit → Option AccessUnit
  | [] => none
  | u :: r =>
    match firstShown r with
    | none => some u
    | some v => if v.pts.toNat < u.pts.toNat then some v else some u

/-- The width and the height of a frame, made even (R307). -/
def frameW (f : FrameData) : Nat := evened f.width
def frameH (f : FrameData) : Nat := evened f.height

/-- A luma sample of a frame: its last column and its last row are repeated where the size is odd (R307). -/
def frameY (f : FrameData) (px py : Nat) : Nat :=
  f.luma.getD (min py (f.height - 1) * f.width + min px (f.width - 1)) 0 % 2 ^ f.bits

/-- The chroma sample of a pair of columns and rows: Cb for c = 0, Cr for c = 1. -/
def frameUv (f : FrameData) (px py c : Nat) : Nat := f.chroma.getD (2 * (py * (frameW f / 2) + px) + c) 0 % 2 ^ f.bits

/-- The bytes of a sample (R311). -/
def frameSampleBytes (f : FrameData) : Nat := if f.bits = 8 then 1 else 2

/-- The rows of the Y plane, and of the interleaved Cb,Cr plane (R311). -/
def frameYRows (f : FrameData) : List (List Byte) :=
  (List.range (frameH f)).map (fun j => (List.range (frameW f)).flatMap (fun i => bytesOfNat (frameSampleBytes f) (frameY f i j)))
def frameUvRows (f : FrameData) : List (List Byte) :=
  (List.range (frameH f / 2)).map (fun j => (List.range (frameW f)).flatMap (fun i => bytesOfNat (frameSampleBytes f) (frameUv f (i / 2) j (i % 2))))

/-- A block of a frame, in raster order; one that the operand leaves out is intra-coded. -/
def frameBlock (f : FrameData) (i : Nat) : BlockData := f.blocks.getD i { resid := .intra, vec := none }

/-- The vector entry of a block (R312): vx in [15:0] and vy in [31:16] in quarter-pel, negated where the codec's convention points the other way;
absent in both halves without a vector, and in a key frame. -/
def vecEntry (key : Bool) (b : BlockData) : Nat :=
  match key, b.resid, b.vec with
  | false, .skipped, some v | false, .samples _, some v =>
    let half := fun (x : Int) => (BitVec.ofInt 16 (if v.away then -x else x)).toNat
    half v.y * 2 ^ 16 + half v.x
  | _, _, _ => 0x80008000

/-- The residual entry of a block (R313). -/
def resEntry (bits : Nat) (b : BlockData) : Nat :=
  match b.resid with
  | .intra => 65535
  | .skipped => 0
  | .samples d => min 65535 (((d.map (fun x => let y := if bits = 10 then Int.tdiv x 4 else x; (y * y).natAbs)).sum) / 64)

/-- The number of blocks of a frame (R311). -/
def frameBlockCount (f : FrameData) : Nat := ceilDiv (frameW f) 8 * ceilDiv (frameH f) 8

/-- The motion-vector map and the residual map of a frame (R311 to R313). -/
def frameVecMap (f : FrameData) : List Byte := (List.range (frameBlockCount f)).flatMap (fun i => bytesOfNat 4 (vecEntry f.key (frameBlock f i)))
def frameResMap (f : FrameData) : List Byte := (List.range (frameBlockCount f)).flatMap (fun i => bytesOfNat 2 (resEntry f.bits (frameBlock f i)))

/-- Whether a block is one that a decoder can give (R312, R313): no component of its vector is -32,768, and a residual has 64 samples. -/
def blockOk (b : BlockData) : Bool :=
  b.vec.all (fun v => decide (v.x.natAbs < 2 ^ 15 ∧ v.y.natAbs < 2 ^ 15)) &&
    (match b.resid with
     | .samples d => d.length == 64
     | _ => true)

/-- The tiles of the intake's own conversion of a frame (R317, R325) and how many elements saturated. -/
def convertFrame (S : CcSet) (ofmt : BitVec 2) (f : FrameData) : List Byte × Nat :=
  let bw := ceilDiv (frameW f) 8
  let px := (List.range (frameBlockCount f)).flatMap (fun t => (List.range 64).map (fun p =>
    let x := 8 * (t % bw) + p % 8
    let y := 8 * (t / bw) + p / 8
    if (frameW f) ≤ x ∨ (frameH f) ≤ y then (ccOutside ofmt, [])
    else ccPixel S ofmt (2 ^ f.bits - 1) (frameY f x y) (frameUv f (x / 2) (y / 2) 0) (frameUv f (x / 2) (y / 2) 1)))
  (px.flatMap (·.1), (px.flatMap (fun e => e.2.filter (· == evSAT))).length)

/-- The words of a frame record (R311), the first last. -/
def frameRecord (c : Camera) (cam : Nat) (f : FrameData) (u : AccessUnit) (late corrupt : Bool) (addr : Nat) (offs : List Nat) : List Byte × List Byte :=
  let bit := fun (b : Bool) (i : Nat) => if b then 2 ^ i else 0
  let area := fun (i : Nat) => bytesOfNat 8 ((addr + offs.getD i 0) % 2 ^ 56)
  (bytesOfNat 8 (bit c.conv 53 + bit c.disc 52 + bit f.key 51 + bit corrupt 50 + bit late 49 + 2 ^ 48 + c.frame % c.nslot * 2 ^ 40 + cam * 2 ^ 32 +
      c.frame),
   bytesOfNat 8 u.pts.toNat ++ bytesOfNat 8 (f.bits * 2 ^ 32 + (frameH f) * 2 ^ 16 + (frameW f)) ++ area 0 ++ area 1 ++ area 2 ++ area 3 ++
     (if c.conv then area 4 else bytesOfNat 8 0))

/-- Writes the rows of a plane, each at its pitch (R311). The bytes between a row's end and the next row stay. -/
def State.writeRows (part : Nat) (pitch : Nat) : State → Nat → List (List Byte) → State
  | s, _, [] => s
  | s, va, r :: rs => State.writeRows part pitch (s.partWrite part va r) (va + pitch) rs

/-- Writes a frame into its slot and makes it visible (R309, R311, R314, R317). -/
def State.writeFrame (s : State) (cam : Nat) (f : FrameData) (u : AccessUnit) : State :=
  let c := s.camera cam
  let ofmt := BitVec.ofNat 2 c.ofmt
  let (tiles, sat) := if c.conv then convertFrame (tget CcSet.reset (s.part c.part).ccsets c.cset) ofmt f else ([], 0)
  let sizes := slotAreas (frameW f) (frameH f) (frameSampleBytes f) c.conv (typeWidth (ofmtType ofmt))
  let offs := areaOffsets 256 sizes
  let addr := c.slotAddr c.frame
  let late := decide (u.arrived + c.lat * msCycles < s.cycle)
  let corrupt := f.damaged || (c.corrupt && !f.key)
  let (w0, rest) := frameRecord c cam f u late corrupt addr offs
  let at_ := fun (i : Nat) => addr + offs.getD i 0
  let pitch := rowPitch (frameW f) (frameSampleBytes f)
  let s := State.writeRows c.part pitch s (at_ 0) (frameYRows f)
  let s := State.writeRows c.part pitch s (at_ 1) (frameUvRows f)
  let s := ((s.partWrite c.part (at_ 2) (frameVecMap f)).partWrite c.part (at_ 3) (frameResMap f)).partWrite c.part (at_ 4) tiles
  let s := (s.partWrite c.part (addr + 8) rest).partWrite c.part addr w0
  let s := s.modCamera cam (fun c =>
    { c with
      frame := (c.frame + 1) % 2 ^ 32
      disc := false
      corrupt := corrupt
      convsat := min (c.convsat + sat) 0xFFFF
      latecnt := if late then min (c.latecnt + 1) 0xFFFFFFFF else c.latecnt
      decoded := c.decoded.erase u
      toSubmit := if c.auto then c.toSubmit ++ [(c.frame % c.nslot, c.frame, addr)] else c.toSubmit })
  s.blockCamera cam

/-- Whether a frame lies within the stream's limits, by the size that its stream codes (R306, R307, R310). -/
def Camera.frameOk (c : Camera) (f : FrameData) : Bool := f.width ≤ c.maxw && f.height ≤ c.maxh && (f.bits == 8 || f.bits == 10)

/-- The unit whose frame is shown next, once it is decoded (R307): of all that the stream holds the one of the least presentation time. -/
def Camera.nextShown (c : Camera) : Option AccessUnit := (firstShown (c.decoded ++ c.units)).filter c.decoded.contains

/-- FRAME_PUBLISH (R310, R311, R314): the next decoded frame in display order; while its slot is held it waits. After an error recovery,
frames before the next key frame are discarded. The kind 3 record of a size above the limits carries feature code 0: no rule names it (log entry 75,
the model's choice). -/
def execFramePublish (camera : Nat) (f : FrameData) (s : State) : Res :=
  let c := s.camera camera
  match c.running && f.blocks.all blockOk, c.nextShown with
  | true, some u =>
    if c.skipToKey && !f.key then
      .next (s.modCamera camera (fun c => { c with skipped := c.skipped + u.len, decoded := c.decoded.erase u }))
    else if !c.frameOk f then .next (s.cameraError camera 0)
    else if s.slotHeld camera then .next (s.modCamera camera (fun c => { c with blocked := true }))
    else .next ((s.endSkip camera).writeFrame camera f u)
  | _, _ => .next s

/-- INTAKE_SLOT_FREED (R314). -/
def execIntakeSlotFreed (camera : Nat) (s : State) : Res :=
  if (s.camera camera).blocked && !s.slotHeld camera then .next (s.modCamera camera (fun c => { c with blocked := false })) else .next s

/-- AUTO_SUBMIT (R280, R302, R315): submissions in frame order; held while the stream is full or not enabled. One whose stream has passed to another
partition is held too: no rule speaks of it (log entry 75, the model's choice). -/
def execAutoSubmit (camera : Nat) (s : State) : Res :=
  let c := s.camera camera
  match c.toSubmit with
  | [] => .next s
  | (slot, frame, addr) :: r =>
    let q := s.stream c.tstream
    if !q.en || q.part != c.part || s.streamFull c.tstream then .next s
    else
      let kc := c.kbase + 128 * slot
      let s := s.partWrite c.part (kc + 0x70) (bytesOfNat 8 frame ++ bytesOfNat 8 addr)
      .next ((s.accept c.part c.tstream c.rcd none (some kc)).2.modCamera camera (fun c => { c with toSubmit := r }))

end Sys2Proof.Machine
end

