-- ==== Sys2Proof/Machine/Power.lean ====
section
/-! DEFINITION. Rails, divisors and throttles (R347 to R351), undervolting (R352, R353), and the counter sampler (R354). -/

namespace Sys2Proof.Machine

/-- The cores that a rail feeds (R347). -/
def railCores (r : Nat) : List Nat := (List.range 256).filter (fun c => railOf c == r)

/-- The level that a domain of a core needs: of its divisor, and of a change that is granted and has yet to take effect (R347, R349). -/
def CoreSt.domainLevel (k : CoreSt) (i : Nat) : Nat :=
  let d := levelOf (k.div.getD i 1)
  match (k.divReq.getD i none) with
  | some r => if !r.deferred || r.begun then max d (levelOf r.d) else d
  | none => d

/-- The required level of a core: a core that holds no context counts at divisor 16 (R347). -/
def CoreSt.requiredLevel (k : CoreSt) : Nat :=
  if k.resident then ([0, 1, 2, 3].map k.domainLevel).foldl max 1 else levelOf 16

/-- The required level of a rail (R347). -/
def State.requiredLevel (s : State) (r : Nat) : Nat := ((railCores r).map (fun c => (s.core c).requiredLevel)).foldl max 1

/-- The deferred requests of a core at a boundary where its rail, of a MAXLEVEL, is not throttled: they begin (R348); one that MAXLEVEL has come
to forbid is dropped (R347; log entry 72). -/
def CoreSt.beginRaises (k : CoreSt) (maxLevel : Nat) : CoreSt :=
  { k with divReq := k.divReq.map (fun r =>
      (r.filter (fun q => !q.deferred || q.begun || levelOf q.d ≤ maxLevel)).map (fun q => if q.deferred then { q with begun := true } else q)) }

/-- The deferred requests of a core at a boundary where its rail is throttled (R348, R350): those whose raise has not begun are dropped, but a
default of the partition waits on. -/
def CoreSt.dropRaises (k : CoreSt) : CoreSt :=
  { k with divReq := k.divReq.map (fun r => r.filter (fun q => !q.deferred || q.begun || q.keep)) }

/-- CUFLOOR (R351). -/
def cuFloor (level engine : Nat) : Nat :=
  match level with
  | 0 => 0
  | 1 => if engine = 1 then 2 else 1
  | 2 => if engine = 1 then 8 else 4
  | _ => if engine = 1 then 32 else 16

/-- Undervolting at a control interval (R352, R353), from the canary count. -/
def Rail.canary (r : Rail) (cc : Nat) : Rail :=
  let held := 0 < r.holdoff
  let r := if 0 < r.holdoff then { r with holdoff := r.holdoff - 1 }
    else if r.margin < 15 then
      (if r.cleanRun + 1 = 100000 then { r with margin := r.margin + 1, cleanRun := 0 } else { r with cleanRun := r.cleanRun + 1 })
    else r
  if !r.undervolt then { r with offset := 0, goodRun := 0 }
  else if r.celim < cc then { r with offset := r.offset - 1, goodRun := 0 }
  else if 100 ≤ r.goodRun + 1 ∧ r.offset < r.margin ∧ !held then { r with offset := r.offset + 1, goodRun := 0 }
  else { r with goodRun := r.goodRun + 1 }

/-- A rail's level is changed (R352). -/
def Rail.setLevel (r : Rail) (l : Nat) : Rail := if l = r.level then r else { r with level := l, offset := 0, goodRun := 0 }

/-- What the wellhead decides for one rail at a control interval (R348, R349, R351, R352). -/
def State.railInterval (s : State) (h c cc r : Nat) : State :=
  let throttled := 0 < c || 0 < h
  let s := s.modRail r (fun q => { (q.canary cc) with cur := c, throttled := throttled })
  let cores := railCores r
  let s := cores.foldl (fun s n => if thas s.cores n || 0 < c then s.modCore n (fun k =>
      let k := if throttled then k.dropRaises else k.beginRaises (s.rail r).maxLevel
      { k with floorUp := Vector.ofFn (fun e => BitVec.ofNat 16 (cuFloor c e.val)) }) else s) s
  let need := s.requiredLevel r
  let q := s.rail r
  if q.raiseTo.isSome then s
  else if q.level < need then s.modRail r (fun q => { q with raiseTo := some (min need q.maxLevel), raiseAt := s.cycle })
  else s.modRail r (fun q => q.setLevel need)

/-- CONTROL_INTERVAL (R351): thermal level, throttles, floors, raises, levels and undervolting of every rail; a change of a throttle level
writes a kind 8 record. -/
def execControlInterval (rd : Readings) (s : State) : Res :=
  let h := min rd.thermal 5
  let cur := fun r => min (rd.current.getD r 0) 3
  let changed := h ≠ s.thermal ∨ (List.range 16).any (fun r => cur r != (s.rail r).cur)
  let s := (List.range 16).foldl (fun s r => s.railInterval h (cur r) (rd.canary.getD r 0) r) { s with thermal := h }
  let map := ((List.range 16).map (fun r => if 0 < cur r then 2 ^ r else 0)).sum
  .next (if changed then s.postEvent none 8 0 h map else s)

/-- RAIL_RAISE_COMPLETE (R348, R352): the rail has its new level; what was deferred to it is due. -/
def execRailRaiseComplete (rail : Nat) (s : State) : Res :=
  match (s.rail rail).raiseTo with
  | some l => .next (s.modRail rail (fun q => { (q.setLevel (max q.level (min l q.maxLevel))) with raiseTo := none }))
  | none => .next s

/-- Whether a clock domain of a core is at a command boundary (R253, R348): no command of its engines is begun and not complete. -/
def CoreSt.atBoundary (k : CoreSt) (dom : Nat) : Bool :=
  match dom with
  | 2 => k.mq.head?.all (fun m => !m.started && m.rowsOut == 0 && !m.executed)
  | 3 => [k.copyE, k.sluiceE, k.confE, k.gathE, k.chainE].all (·.active.isEmpty)
  | _ => true

/-- A divisor changes: the cycles of the interval at the old one are noted for the counter sampler (R354). -/
def CoreSt.setDiv (k : CoreSt) (dom : BitVec 2) (d cycle : Nat) : CoreSt :=
  { k with
    div := k.div.set dom.toNat d dom.isLt
    divReq := k.divReq.set dom.toNat none dom.isLt
    divPast := k.divPast ++ [(dom.toNat, k.div.get dom.toFin, cycle)] }

/-- DIVISOR_CHANGE (R348, R349, R350): at a command boundary of its domain, a granted divisor, or a deferred one whose raise is complete, takes
effect. -/
def execDivisorChange (core : Nat) (dom : BitVec 2) (s : State) : Res :=
  let k := s.core core
  match k.divReq.get dom.toFin with
  | none => .next s
  | some r =>
    let rail := s.rail (railOf core)
    if k.atBoundary dom.toNat && (!r.deferred || (r.begun && rail.raiseTo.isNone && levelOf r.d ≤ rail.level)) then
      .next (s.setCore core (k.setDiv dom r.d s.cycle))
    else .next s

/-- UNDERVOLT_REFLEX (R353): an uncorrectable error on a rail; a line whose data has no clean copy is lost. -/
def execUndervoltReflex (rail : Nat) (dirtyLine : Option Nat) (s : State) : Res :=
  let q := s.rail rail
  let s := match dirtyLine with
    | some l => { s with poison := s.poison.filter (· != l) ++ [l] }
    | none => s
  if 15 < rail then .next s
  else if q.offset = 0 then .next (s.modRail rail (fun q => { q with cleanRun := 0 }))
  else
    .next ((s.modRail rail (fun q => { q with offset := 0, margin := q.offset - 2, holdoff := 10000, cleanRun := 0, goodRun := 0 })).postEvent none 6
      rail q.offset (q.offset - 2))

/-- The counter record (R354). -/
def counterRecord (k : CoreSt) (c : Nat) (counts : List EngineCounts) : List Byte :=
  bytesOfNat 8 (k.samplerSeq.toNat * 2 ^ 32 + min k.samplerLost 255 * 2 ^ 24 + coordOfCore c) ++
    counts.flatMap (fun e => bytesOfNat 8 (e.idle.toNat * 2 ^ 48 + e.qfull.toNat * 2 ^ 32 + e.ostall.toNat * 2 ^ 16 + e.busy.toNat))

/-- The bounds on the cycles of a domain's clock that begin in an interval of 32,000 reference cycles from `start` on (R354): of each stretch at
one divisor, the floor and the ceiling. `past` are the changes since: old divisor and reference cycle. -/
def cycleBounds (d : Nat) : Nat → Nat → List (Nat × Nat) → Nat × Nat
  | pos, stop, [] => ((stop - pos) / d, (stop - pos + d - 1) / d)
  | pos, stop, (old, at_) :: r =>
    let b := cycleBounds d (max pos at_) stop r
    ((max pos at_ - pos) / old + b.1, (max pos at_ - pos + old - 1) / old + b.2)

/-- The clock domain of an engine as PACE numbers it (R31). -/
def engineDomain (e : Nat) : Nat := if e = 0 then 1 else if e = 1 then 2 else 3

/-- Whether counts are of the interval that ends at a cycle (R354): one set for each of seven engines, which sum to its cycles. -/
def CoreSt.countsOk (k : CoreSt) (counts : List EngineCounts) (cycle : Nat) : Bool :=
  counts.length == 7 && (List.range 7).all (fun e =>
    let c := counts.getD e { idle := 0, qfull := 0, ostall := 0, busy := 0 }
    let dom := engineDomain e
    let past := (k.divPast.filter (fun p => p.1 == dom && cycle - 32000 < p.2.2)).map (·.2)
    let b := cycleBounds (k.div.toList.getD dom 1) (cycle - 32000) cycle past
    let sum := c.idle.toNat + c.qfull.toNat + c.ostall.toNat + c.busy.toNat
    b.1 ≤ sum && sum ≤ b.2)

/-- COUNTER_SAMPLE (R345, R354): every 32,000 reference cycles each core with a context writes the counts of the interval. -/
def execCounterSample (core : Nat) (counts : List EngineCounts) (s : State) : Res :=
  let k := s.core core
  if !k.resident || !(s.part k.part).counters.on || s.cycle < k.sampledAt + 32000 || !k.countsOk counts s.cycle then .next s
  else
    let (ok, s) := s.ringPut (some k.part) (s.part k.part).counters (counterRecord k core counts)
    let e := if ok then (k.samplerSeq + 1, 0) else (k.samplerSeq, k.samplerLost + 1)
    .next (s.modCore core (fun k => { k with samplerSeq := e.1, samplerLost := e.2, sampledAt := s.cycle, divPast := [] }))

end Sys2Proof.Machine
end

