-- ==== Sys2Proof/Machine/Host.lean ====
section
/-! DEFINITION. The firmware command set (R280, R297, R306, R310, R316, R318, R341, R344 to R347, R352, R354, R356 to R358, R362), bring-up and
resets (R26, R359, R360). A command's parameters come with its step; its OP and TAG are those of the mailbox (log entry 12). -/

namespace Sys2Proof.Machine

/-- Why a function may not act for a partition (R343, R344); none where it may. -/
def partStop (fn part : Nat) : Option Nat := if fn ≠ pfFn ∧ fn ≠ part then some stDenied else if 16 ≤ part then some stBadArg else none

/-- A command that only the PF may give. -/
def pfOnly (fn : Nat) (s : State) (body : CmdResult) : CmdResult := if fn = pfFn then body else refuse s stDenied

/-- A command for a partition. -/
def forPart (fn part : Nat) (s : State) (body : CmdResult) : CmdResult :=
  match partStop fn part with
  | some st => refuse s st
  | none => body

/-- Refuses with BADARG unless a condition holds. -/
def argsOk (b : Bool) (s : State) (body : CmdResult) : CmdResult := if b then body else refuse s stBadArg

/-! Queries. -/

/-- The withdrawn cores as a map (R339). -/
def State.wdrawn (s : State) (i : Nat) : Nat := ((List.range 64).map (fun j => if (s.core (64 * i + j)).withdrawn then 2 ^ j else 0)).sum

/-- QUERY (R339, R344). -/
def execQuery (fn : Nat) (s : State) : Res :=
  command fn 0x01 true (fun s =>
    (some (stOk, [s.patchver.toNat * 2 ^ 32 + s.romver.toNat, s.wdrawn 0, s.wdrawn 1, s.wdrawn 2, s.wdrawn 3, s.bootState, if fn = pfFn then Config.pfQuads.toNat else (s.part fn).quads.toNat]), s)) s

/-- LINK_QUERY (R362). -/
def execLinkQuery (fn : Nat) (router : BitVec 9) (dir : Nat) (s : State) : Res :=
  command fn 0x16 false (fun s => pfOnly fn s (argsOk (dir ≤ 5 && router.toNat / 128 ≤ 2) s (
    let l := s.link router.toNat dir
    (some (stOk, [l.errors * 2 ^ 32 + l.corrected, if l.marked then 1 else 0]), s)))) s

/-- UNSUPPORTED_COMMAND (R344): an OP with no assignment. -/
def execUnsupportedCommand (fn : Nat) (op : BitVec 16) (s : State) : Res :=
  if op.toNat = 0 ∨ 0x17 ≤ op.toNat then command fn op.toNat false (fun s => refuse s stUnsupported) s else .next s

/-! Partitions and streams. -/

/-- Whether every page of n bytes from a virtual address is mapped writable (R344). -/
def State.pagesWritable (s : State) (part va n : Nat) : Bool :=
  (List.range ((va % 2 ^ 16 + n + 2 ^ 16 - 1) / 2 ^ 16)).all (fun i =>
    match s.partAddr part ((va / 2 ^ 16 + i) * 2 ^ 16) true with
    | .ok pa => paKind pa != .view
    | .error _ => false)

/-- The entries by which a partition's streams may exceed 32 (R280, R344), one stream left out. -/
def State.spillSum (s : State) (part except : Nat) : Nat :=
  ((s.streams.filter (fun e => e.2.part == part && e.1 != except)).map (·.2.spill)).sum

/-- The units of 64 KiB that a camera reserves of the reference area (R344). -/
def Camera.refUnits (c : Camera) : Nat := ceilDiv (17 * 3 * c.maxw * c.maxh) (2 ^ 16)

/-- The units that a partition's enabled cameras reserve, one left out. -/
def State.refSum (s : State) (part except : Nat) : Nat :=
  ((s.cameras.filter (fun e => e.2.part == part && e.2.en && e.1 != except)).map (fun e => e.2.refUnits)).sum

/-- The limits of PART_CFG's parameters (R259, R280, R296, R298, R344). -/
def partParamsOk (c : PartParams) : Bool :=
  c.part < 16 && c.ptbase.toNat % 2 ^ 17 == 0 && c.ptbase.toNat < 2 ^ 52 && 16 ≤ c.lease.toNat && c.lease.toNat ≤ 1024 && 6 ≤ c.frN && c.frN ≤ 16 &&
    c.frBase.toNat % 64 == 0 && c.frBase.toNat < 2 ^ 56 && c.spillBase.toNat % 128 == 0 && c.refBase.toNat % 2 ^ 16 == 0

/-- A partition with the parameters of PART_CFG: its fault ring is empty (R298). -/
def Part.configured (p : Part) (c : PartParams) : Part :=
  { p with quads := c.quads, ptbase := c.ptbase.toNat, lease := c.lease.toNat, saveBase := c.saveBase.toNat, saveSize := c.saveSize.toNat,
           capUs := c.capUs, frBase := c.frBase.toNat, frN := c.frN, frOn := true, frProd := 0, frCons := 0, spillBase := c.spillBase.toNat,
           spillSize := c.spillSize, refBase := c.refBase.toNat, refSize := c.refSize }

/-- Whether the device has partitions: a stored record that its boot found not valid leaves it without (R359). A record that is written later takes
effect at the next reset (R357, R361). -/
def State.hasParts (s : State) : Bool := s.config.valid

/-- PART_CFG (R344). -/
def execPartCfg (fn : Nat) (c : PartParams) (s : State) : Res :=
  command fn 0x02 false (fun s => pfOnly fn s (argsOk (partParamsOk c && s.hasParts && s.spillSum c.part 4096 ≤ c.spillSize && s.refSum c.part 256 ≤ c.refSize) s (
    let s' := s.modPart c.part (fun p => p.configured c)
    if (c.spillSize == 0 || s'.pagesWritable c.part c.spillBase.toNat (128 * c.spillSize)) &&
        (c.refSize == 0 || s'.pagesWritable c.part c.refBase.toNat (2 ^ 16 * c.refSize)) then
      accept (s'.partWrite c.part c.frBase.toNat (List.replicate 64 0))
    else refuse s stBadArg))) s

/-- The partition in whose name a function acts on a stream or a camera whose owner is `owner` (log entry 7): a VF for its own, the PF for
the owner. -/
def actsFor (fn owner : Nat) : Nat := if fn = pfFn then owner else fn

/-- Whether a stream belongs to another partition than a function's (R280): it is enabled there or holds its tasks. -/
def State.streamDenied (s : State) (fn i : Nat) : Bool :=
  fn != pfFn && (s.stream i).part != fn &&
    ((s.stream i).en || s.tasks.any (fun t => t.stream == i && t.part == (s.stream i).part && !t.recordWritten))

/-- The limits of STREAM_CFG's parameters (R280). -/
def streamArgsOk (stream sctl crbase crsize : Nat) : Bool :=
  stream < 4096 && nfield sctl 48 16 == 0 && nfield sctl 1 7 == 0 && nfield sctl 8 8 != 0 && crbase < 2 ^ 56 && crbase % 32 == 0 &&
    4 ≤ crsize && crsize ≤ 16

/-- STREAM_CFG (R280, R295, R344): afterwards a record that could not be written is tried again. -/
def execStreamCfg (fn stream : Nat) (sctl crbase crsize : BitVec 64) (s : State) : Res :=
  command fn 0x03 false (fun s =>
    if s.streamDenied fn stream then refuse s stDenied
    else argsOk (streamArgsOk stream sctl.toNat crbase.toNat crsize.toNat) s (
      let part := actsFor fn (s.stream stream).part
      let spill := nfield sctl.toNat 32 16
      if (s.part part).spillSize < s.spillSum part stream + spill then refuse s stNoRoom
      else
        let s := s.modStream stream (fun q =>
          { q with part := part, spill := spill, age := nfield sctl.toNat 16 16, weight := nfield sctl.toNat 8 8, en := sctl.toNat % 2 == 1,
                   crbase := crbase.toNat, l2ent := crsize.toNat })
        match s.nextRecord stream with
        | some t => accept (if t.recordFault.isSome then s.tryRecord stream t else s)
        | none => accept s)) s

/-- SUBMIT (R277, R280, R344). -/
def execSubmit (fn stream : Nat) (addr : BitVec 64) (s : State) : Res :=
  command fn 0x04 false (fun s =>
    let q := s.stream stream
    if 4096 ≤ stream then refuse s stBadArg
    else if fn ≠ pfFn ∧ q.part ≠ fn then refuse s stDenied
    else if !q.en then refuse s stBadArg
    else if s.streamFull stream then refuse s stNoRoom
    else
      let (id, s) := s.accept q.part stream addr.toNat none none
      (some (stOk, [id]), s)) s

/-- The partition and the id that a function names: a VF an id of its own partition, the PF any task by its key (log entry 12). -/
def taskName (fn task : Nat) : Nat × Nat := if fn = pfFn then (task / 2 ^ 32, task % 2 ^ 32) else (fn, task % 2 ^ 32)

/-- TASK_END (R44, R294, R342, R344, R361): a gang that runs is ended as by a fatal context error, and the command answers once it has ended. -/
def execTaskEnd (fn task : Nat) (s : State) : Res :=
  command fn 0x05 false (fun s =>
    let (part, id) := taskName fn task
    match s.task? part id with
    | none => refuse s stBadArg
    | some t =>
      if s.tstat part id = 0 then refuse s stBadArg
      else if t.ended then accept s
      else if t.phase == .running then (none, s.modTask part id (fun t => { t with fatal := t.fatal.or (some (kByHost, 0)) }))
      else accept ((s.noteImages t).fail t kByHost 0 0)) s

/-- FAULT_SERVICE (R299). A report that comes between the records of the PROBE and its stop save finds no task that waits, and is dropped (log entry 76,
the model's choice). -/
def execFaultService (fn task : Nat) (s : State) : Res :=
  command fn 0x06 false (fun s =>
    let (part, id) := taskName fn task
    accept (s.modTask part id (fun t => if t.awaits == .service then { t with awaits := .nothing } else t))) s

/-! Translation and windows. -/

/-- SHOOTDOWN (R297). -/
def execShootdown (fn part : Nat) (range : Option (BitVec 64 × BitVec 64)) (s : State) : Res :=
  command fn 0x07 false (fun s => forPart fn part s (accept (s.shootdown part (range.map (fun r => (r.1.toNat, r.2.toNat)))))) s

/-- The physical ranges of an enabled window: its view, its stored data, its scale bytes or presence records (R167, R168). The stored data of an
absent-elided window reach as far as its offsets can. -/
def Window.ranges (v : Window) : List (Nat × Nat) :=
  let n := (v.vlim - v.vbase) / typeWidth v.cfmt
  if v.form < 4 then [(v.vbase, v.vlim), (v.data, v.data + n), (v.aux, v.aux + ceilDiv n 64)]
  else [(v.vbase, v.vlim), (v.data, v.data + 2 ^ 32 + 64 * typeWidth v.cfmt), (v.aux, v.aux + 16 * ceilDiv n 64)]

/-- Whether a physical page touches what an enabled window holds (R252). -/
def State.inWindow (s : State) (pa n : Nat) : Bool :=
  (List.range 16).any (fun w => (s.window w).en && (s.window w).ranges.any (fun r => pa < r.2 && r.1 < pa + n))

/-- Whether a page may move (R252): from HBM to host memory, from host memory to HBM, or to a peer's memory. -/
def migrationWay (src dst : Nat) : Bool :=
  match paKind src, paKind dst with
  | .hbm, .host _ => true
  | .host _, .hbm => true
  | .hbm, .peer _ => true
  | .host _, .peer _ => true
  | _, _ => false

/-- What a MIGRATE comes to (R252): refused, or the migration begins. -/
def State.startMigration (s : State) (fn part page dest : Nat) : CmdResult :=
  match s.leafEntry part page with
  | none => refuse s stBadArg
  | some (l, _) =>
    let n := l.units * 2 ^ 16
    if page < 2 ^ 56 ∧ page % n = 0 ∧ dest % n = 0 ∧ s.pageOk part dest l.units ∧ migrationWay l.pa dest ∧ !s.inWindow l.pa n ∧ !s.inWindow dest n then
      let s := s.modPart part (fun p =>
        { p with migration := some { vpage := page / 2 ^ 16, src := l.pa, dst := dest, copied := 0, lines := l.units * 512, fn := fn } })
      (none, { s with goOrder := s.goOrder.filter (· != fn) })
    else refuse s stBadArg

/-- MIGRATE (R252, R344): the command returns with the shoot-down, and the commands of other functions go on meanwhile (log entry 12). While a
migration of the partition runs, it waits. -/
def execMigrate (fn part : Nat) (page dest : BitVec 64) (s : State) : Res :=
  if (s.part part).migration.isSome then .next s
  else command fn 0x08 false (fun s => forPart fn part s (s.startMigration fn part page.toNat dest.toNat)) s

/-- The lines of a range of physical addresses leave L2 (R166, R169). -/
def State.dropViews (s : State) (lo hi : Nat) : State :=
  { s with viewLines := s.viewLines.filter (fun e => e.1 * 128 + 128 ≤ lo || hi ≤ e.1 * 128) }

/-- Whether n regions of physical memory, each from a base to a limit, cover none of some ranges (R355). -/
def regionsClear (rs : List Region) (l : List (Nat × Nat)) : Bool := l.all (fun p => rs.all (fun r => r.limit ≤ p.1 || p.2 ≤ r.base))

/-- Whether a window's registers are ones that the firmware accepts (R166, R355), whatever EN is (log entry 66, the model's choice); its storage lies
in no region (log entry 8). -/
def State.windowOk (s : State) (win : Nat) (v : Window) : Bool :=
  let ty := v.cfmt.toNat
  (if v.form < 4 then ty == 1 || ty == 2 || ty == 3 else v.form == 4 && ty ≤ 8) && v.vbase < v.vlim && 2 ^ 44 ≤ v.vbase && v.vlim ≤ 2 ^ 44 + 2 ^ 40 &&
    (List.range 16).all (fun w => w == win || !(s.window w).en || v.vlim ≤ (s.window w).vbase || (s.window w).vlim ≤ v.vbase) &&
    regionsClear s.regions (v.ranges.drop 1)

/-- FMTWIN (R166): the view's lines are invalid before the registers are written. A non-zero reserved bit of a register is answered BADARG: the spec
names no refusal for it (log entry 75, the model's choice). -/
def execFmtwin (fn win : Nat) (ctl : WindowCtl) (vbase vlim dbase abase : BitVec 64) (s : State) : Res :=
  command fn 0x09 false (fun s => pfOnly fn s (
    let old := s.window win
    let c := ctl.ctl.toNat
    let v : Window :=
      { en := nfield c 63 1 == 1, form := nfield c 28 4, cfmt := BitVec.ofNat 4 (nfield c 24 4), vbase := vbase.toNat,
        vlim := vlim.toNat, data := dbase.toNat, aux := abase.toNat, satcnt := ctl.stat.toNat }
    let fields := win < 16 && ctl.stat.toNat < 2 ^ 32 && nfield c 32 31 == 0 && nfield c 0 24 == 0 && v.form < 5 &&
      [(v.vbase, 16), (v.vlim, 16), (v.data, 6), (v.aux, 4)].all (fun p => p.1 < 2 ^ 52 && p.1 % 2 ^ p.2 == 0)
    argsOk (fields && s.windowOk win v) s (
      accept { (s.dropViews old.vbase old.vlim).dropViews v.vbase v.vlim with windows := tset s.windows win v }))) s

/-! The intake's configuration. -/

/-- A camera entry with the registers that CAMERA_CFG gives (R306). -/
def Camera.withRegs (c : Camera) (p : CameraParams) : Camera :=
  let v := p.ctl.toNat
  let d := p.dim.toNat
  { c with lat := nfield v 40 8, nslot := nfield v 32 8, budget := nfield v 16 11, inst := nfield v 11 3, cset := nfield v 7 4,
           ofmt := nfield v 5 2, conv := nfield v 4 1 == 1, auto := nfield v 3 1 == 1, codec := nfield v 1 2, en := nfield v 0 1 == 1,
           part := nfield d 36 4, maxh := nfield d 16 16, maxw := nfield d 0 16, fbase := p.fbase.toNat, slotSize := p.slot.toNat / 2 ^ 12,
           kbase := p.kbase.toNat, rcd := p.task.toNat, tstream := p.tstrm.toNat, ingress := p.ingress }

/-- Whether the reserved bits of an entry's registers are zero (R306). -/
def cameraReservedOk (p : CameraParams) : Bool :=
  nfield p.ctl.toNat 48 16 == 0 && nfield p.ctl.toNat 27 5 == 0 && nfield p.ctl.toNat 14 2 == 0 && nfield p.dim.toNat 40 24 == 0 &&
    nfield p.dim.toNat 32 4 == 0 && p.fbase.toNat < 2 ^ 56 && p.fbase.toNat % 2 ^ 12 == 0 && p.slot.toNat < 2 ^ 32 && p.slot.toNat % 2 ^ 12 == 0 &&
    p.kbase.toNat < 2 ^ 56 && p.kbase.toNat % 2 ^ 7 == 0 && p.task.toNat < 2 ^ 56 && p.task.toNat % 2 ^ 7 == 0 && p.tstrm.toNat < 2 ^ 12

/-- Whether an entry's values lie in their limits (R306, R344). SIZE is judged by the layout of 10-bit frames, two bytes a sample, since an entry names
no depth (log entry 76, the model's choice). -/
def Camera.limitsOk (c : Camera) : Bool :=
  c.ofmt != 3 && c.codec != 3 && 1 ≤ c.lat && 2 ≤ c.nslot && c.nslot ≤ 64 && 1 ≤ c.budget && c.budget ≤ 1024 && 16 ≤ c.maxh && c.maxh ≤ 2304 &&
    16 ≤ c.maxw && c.maxw ≤ 4096 && 2 ^ 16 ≤ c.ingress && c.ingress ≤ 2 ^ 24 &&
    slotBytes (evened c.maxw) (evened c.maxh) 2 c.conv (typeWidth (ofmtType (BitVec.ofNat 2 c.ofmt))) ≤ c.slotSize * 4096

/-- Whether an entry agrees with the rest of the device (R306). -/
def State.cameraFits (s : State) (cam : Nat) (c : Camera) : Bool :=
  let others := s.cameras.filter (fun e => e.2.en && e.2.inst == c.inst && e.1 != cam)
  (!c.en || (others.map (·.2.budget)).sum + c.budget ≤ 1024) &&
    (!c.conv || (tget CcSet.reset (s.part c.part).ccsets c.cset).en) &&
    (!c.auto || (thas s.streams c.tstream && (s.stream c.tstream).part == c.part))

/-- A camera stream takes its new entry (R310, R314, R330): it starts, recovers or stops, and waits where the slot of its next frame is held, which at a
start is slot 0. The spec leaves open, and the model chooses (log entry 75): an
entry with EN 1 lets a stream in STATE 1 run on with its units, its credit and its FRAME, also under another INST; an error recovery enables the
stream and so sets its credit to 0. -/
def State.setCameraEntry (s : State) (cam : Nat) (c : Camera) : State :=
  let old := s.camera cam
  let drops := !c.en || old.state == 2
  let s := if drops then s.discardUnits cam else s
  let c := if drops then { c with units := [], decoded := [], skipped := 0 } else c
  if !c.en then { s with cameras := tset s.cameras cam { c with state := 0 } }
  else
    let c := match old.state with
      | 0 => { c with
        state := 1
        frame := 0
        disc := true
        corrupt := false
        skipToKey := false
        credit := 0
        units := []
        decoded := [] }
      | 2 => { c with
        state := 1
        disc := true
        corrupt := false
        skipToKey := true
        credit := 0 }
      | _ => c
    { s with cameras := tset s.cameras cam c }.blockCamera cam

/-- A command on a camera ends well: its result is the stream's credit, by which the host reads it (R330; log entry 51, the model's choice). -/
def acceptCamera (s : State) (cam : Nat) : CmdResult := (some (stOk, [(BitVec.ofInt 32 (s.camera cam).credit).toNat]), s)

/-- CAMERA_CFG (R306, R310, R330, R344). -/
def execCameraCfg (fn camera : Nat) (p : CameraParams) (s : State) : Res :=
  command fn 0x0A false (fun s =>
    let old := s.camera camera
    let c := old.withRegs p
    if fn ≠ pfFn ∧ (c.part ≠ fn ∨ (old.state ≠ 0 ∧ old.part ≠ fn)) then refuse s stDenied
    else argsOk (camera < 256 && cameraReservedOk p && c.limitsOk && s.cameraFits camera c) s (
      if c.en && (s.part c.part).refSize < s.refSum c.part camera + c.refUnits then refuse s stNoRoom
      else acceptCamera (s.setCameraEntry camera c) camera)) s

/-- CAMERA_AU (R309, R310, R330, R344). -/
def execCameraAu (fn camera : Nat) (_bus : BitVec 64) (len : Nat) (pts : BitVec 64) (s : State) : Res :=
  command fn 0x0B false (fun s =>
    let c := s.camera camera
    if fn ≠ pfFn ∧ c.part ≠ fn then refuse s stDenied
    else argsOk (camera < 256 && c.running) s (
      if c.ingress < c.held + len then refuse s stBusy
      else acceptCamera (s.modCamera camera (fun c => { c with units := c.units ++ [{ len := len, pts := pts, arrived := s.cycle }] })) camera)) s

/-- Whether a coefficient is one that the firmware accepts (R316). -/
def coefOk (w : BitVec 32) : Bool :=
  match decodeVal (kindOfType 0) w.toNat with
  | .fin .. => true
  | _ => false

/-- The FP32 code nearest to a rational number (R154). -/
def fp32Of (x : Rat) : BitVec 32 :=
  let n := x.num.natAbs * 2 ^ 64
  BitVec.ofNat 32 (roundVal (.fin (x.num < 0) (n / x.den) (-64) (n % x.den != 0)) (kindOfType 0) 0 false).1

/-- Kr and Kb of BT.601, BT.709 and BT.2020 (log entry 10). -/
def lumaWeights (std : Nat) : Rat × Rat :=
  match std with
  | 0 => (299 / 1000, 114 / 1000)
  | 1 => (2126 / 10000, 722 / 10000)
  | _ => (2627 / 10000, 593 / 10000)

/-- A preset (R316, log entry 10): the standard's equations from Y, Cb and Cr to R, G and B, on samples divided by full scale; the offsets are
those of 8 bits; the mean is 0 and the scale 1. -/
def ccPreset (std : Nat) (full : Bool) : CcSet :=
  let (kr, kb) := lumaWeights std
  let kg := 1 - kr - kb
  let ay : Rat := if full then 1 else 255 / 219
  let ac : Rat := if full then 1 else 255 / 224
  let y0 : Rat := if full then 0 else 16 / 255
  let c0 : Rat := 128 / 255
  let rows : List (Rat × Rat) :=
    [(0, ac * (2 * (1 - kr))), (-(ac * (2 * kb * (1 - kb) / kg)), -(ac * (2 * kr * (1 - kr) / kg))), (ac * (2 * (1 - kb)), 0)]
  { en := true
    m := rows.flatMap (fun r => [fp32Of ay, fp32Of r.1, fp32Of r.2])
    off := rows.map (fun r => fp32Of (-(ay * y0) - (r.1 + r.2) * c0))
    mean := List.replicate 3 (fp32Of 0)
    scl := List.replicate 3 (fp32Of 1) }

/-- The conversion set that CCSET writes (R316); none where it is refused. -/
def ccParams (p : CcParams) : Option CcSet :=
  match p with
  | .preset std full => if 2 < std then none else some (ccPreset std full)
  | .values ctl m off mean scl =>
    if ctl.toNat < 2 ∧ m.length = 9 ∧ off.length = 3 ∧ mean.length = 3 ∧ scl.length = 3 ∧ (m ++ off ++ mean ++ scl).all coefOk then
      some { en := ctl == 1, m := m, off := off, mean := mean, scl := scl }
    else none

/-- CCSET (R316). -/
def execCcset (fn part set : Nat) (p : CcParams) (s : State) : Res :=
  command fn 0x0C false (fun s => forPart fn part s (
    match ccParams p with
    | some c => argsOk (set < 16) s (accept (s.modPart part (fun q => { q with ccsets := tset q.ccsets set c })))
    | none => refuse s stBadArg)) s

/-- DICT (R318). -/
def execDict (fn part n : Nat) (ctl node edge nedge : BitVec 64) (s : State) : Res :=
  command fn 0x0D false (fun s => forPart fn part s (
    argsOk (n < 4 && ctl.toNat ≤ 262144 && node.toNat < 2 ^ 56 && node.toNat % 8 == 0 && edge.toNat < 2 ^ 56 && edge.toNat % 4 == 0 &&
        nedge.toNat < 2 ^ 23) s (
      accept (s.modPart part (fun q =>
        { q with dicts := tset q.dicts n { nnodes := ctl.toNat, node := node.toNat, edge := edge.toNat, nedges := nedge.toNat } }))))) s

/-- EVENT_RING (R345): of a partition, or, from the PF and for no partition, of the device; the ring begins empty (log entry 13). -/
def execEventRing (fn part : Nat) (base : BitVec 64) (n : Nat) (s : State) : Res :=
  let ring : Ring := { on := true, base := base.toNat, n := n }
  command fn 0x0E false (fun s =>
    let ok := 6 ≤ n && n ≤ 16 && base.toNat < 2 ^ 56
    if fn = pfFn ∧ 16 ≤ part then
      argsOk ok s (accept (({ s with devEvents := ring } : State).ringWrite none base.toNat (List.replicate 64 0)))
    else forPart fn part s (argsOk ok s (
      accept ((s.modPart part (fun q => { q with events := ring })).ringWrite (some part) base.toNat (List.replicate 64 0))))) s

/-- COUNTER_RING (R345, R354). -/
def execCounterRing (fn part : Nat) (base : BitVec 64) (n : Nat) (s : State) : Res :=
  command fn 0x0F false (fun s => forPart fn part s (argsOk (6 ≤ n && n ≤ 16 && base.toNat < 2 ^ 56) s (
    accept ((s.modPart part (fun q => { q with counters := { on := true, base := base.toNat, n := n } })).ringWrite (some part) base.toNat
      (List.replicate 64 0))))) s

/-- PEER_JOIN (R341). -/
def execPeerJoin (fn part aperture peer : Nat) (s : State) : Res :=
  command fn 0x10 false (fun s => pfOnly fn s (argsOk (part < 16 && aperture < 16 && peer < 16) s (
    accept (s.modPart part (fun q => { q with joined := q.joined.filter (fun j => j.1 != aperture) ++ [(aperture, peer)] }))))) s

/-! Clocks and power. -/

/-- The rails on which a partition has a quad (R347). -/
def Part.rails (p : Part) : List Nat :=
  ((List.range 64).filter (fun q => p.quads.getLsbD q)).map (fun q => railOf (q / 32 * 128 + q % 32 / 8 * 32 + q % 8 * 2))

/-- The limits of CLK_CFG's parameters (R344, R347). -/
def State.clkOk (s : State) (c : ClkParams) : Bool :=
  let div := fun (d : Nat) => 1 ≤ d && d ≤ 16
  let level := fun (r : Nat) => c.maxLevel.getD r 0
  c.part < 16 && c.floors.length == 4 && c.floors.all div && c.defaults.length == 4 && c.defaults.all div && c.pacing.length == 7 &&
    c.pacing.all (· < 2 ^ 16) && c.maxLevel.length == 16 && c.maxLevel.all (fun l => 1 ≤ l && l ≤ 7) &&
    (List.range 16).all (fun r => s.requiredLevel r ≤ level r) &&
    (List.range 16).all (fun p =>
      let ds := if p = c.part then c.defaults else (s.part p).defaults.toList
      (s.part p).rails.all (fun r => ds.all (fun d => levelOf d ≤ level r)))

/-- A rail whose MAXLEVEL is set (R347): it never runs above it, so its level and a raise under way fall with it at once (log entry 72). -/
def Rail.capped (n : Nat) (q : Rail) : Rail := { (q.setLevel (min q.level n)) with maxLevel := n, raiseTo := q.raiseTo.map (min · n) }

/-- CLK_CFG (R344, R347, R350). -/
def execClkCfg (fn : Nat) (c : ClkParams) (s : State) : Res :=
  command fn 0x11 false (fun s => pfOnly fn s (argsOk (s.clkOk c) s (
    let s := s.modPart c.part (fun q =>
      { q with
        floors := Vector.ofFn (fun i => c.floors.getD i.val 1)
        defaults := Vector.ofFn (fun i => c.defaults.getD i.val 1) })
    let s := { s with pacing := Vector.ofFn (fun i => BitVec.ofNat 16 (c.pacing.getD i.val 0)) }
    accept ((List.range 16).foldl (fun s r => s.modRail r (Rail.capped (c.maxLevel.getD r 7))) s)))) s

/-- POWER_CFG (R352): M stays. -/
def execPowerCfg (fn rail : Nat) (enable : Bool) (celim : Nat) (s : State) : Res :=
  command fn 0x12 false (fun s => pfOnly fn s (argsOk (rail < 16 && celim < 2 ^ 16) s (
    accept (s.modRail rail (fun q =>
      if q.undervolt = enable then { q with celim := celim } else { q with undervolt := enable, offset := 0, goodRun := 0, celim := celim }))))) s

/-! Signed images and attestation (R356 to R358, log entry 8). -/

/-- Whether a patch image verifies (R356). -/
def patchSigned (img : List Byte) : Bool := Config.signatureOk [] img

/-- The VERSION of a patch image, which its header of 128 bytes holds (R356). -/
def imageVersion (img : List Byte) : Nat := Config.patchVersion (img.take 128)

/-- PATCH_LOAD (R356). -/
def execPatchLoad (fn : Nat) (addr : BitVec 64) (s : State) : Res :=
  command fn 0x13 false (fun s => pfOnly fn s (
    let hdr := s.readPa addr.toNat 128
    let img := s.readPa addr.toNat (Config.patchLen hdr)
    if !patchSigned img then refuse s stAuthFail
    else if imageVersion img < s.config.minpatch then refuse s stRollback
    else accept { s with flashPatch := some img })) s

/-- The regions of a configuration record (R355), in bytes. -/
def regionsOf (bs : List Byte) : List Region :=
  (Config.configRegions bs).map (fun r => { base := r.1 * 2 ^ 16, limit := r.2.1 * 2 ^ 16, secure := r.2.2 })

/-- CONFIG_WRITE (R357). A COUNTER above the flash's plus 1 is answered as a stale one is: the rule names no STATUS for it (log entry 75, the model's
choice). -/
def execConfigWrite (fn : Nat) (addr : BitVec 64) (s : State) : Res :=
  command fn 0x14 false (fun s => pfOnly fn s (
    let bs := s.readPa addr.toNat Config.configLen
    let keys := if s.config.bytes.isEmpty then bs else s.config.bytes
    if !Config.signatureOk keys bs then refuse s stAuthFail
    else if Config.configCounter bs ≠ s.config.counter + 1 then refuse s stRollback
    else accept { s with config := { s.config with counter := Config.configCounter bs, bytes := bs } })) s

/-- The attestation report (R358): 256 bytes, its fields in the order in which the rule names them (log entry 8). -/
def State.attestReport (s : State) (nonce : BitVec 256) : List Byte :=
  bytesOfNat 68 Config.serial.toNat ++ bytesOfNat 32 nonce.toNat ++ bytesOfNat 48 Config.romDigest.toNat ++
    sha384 s.patch ++ sha384 s.config.bytes ++ bytesOfNat 8 s.config.counter ++
    bytesOfNat 4 s.patchver.toNat

/-- ATTEST (R358): the report, both signatures over it and the certificate chain go to a bus address of port 0. -/
def execAttest (fn : Nat) (nonce : BitVec 256) (bus : BitVec 64) (s : State) : Res :=
  command fn 0x15 true (fun s => argsOk (bus.toNat < 2 ^ 50) s (
    let rep := s.attestReport nonce
    accept (s.writePa (2 ^ 51 + bus.toNat) (rep ++ Config.attestSignatures rep ++ Config.certificates)))) s

/-! Bring-up and resets. -/

/-- Whether the regions of a record are legal (R355): none overlaps another. -/
def regionsOk : List Region → Bool
  | [] => true
  | r :: l => l.all (fun q => q.limit ≤ r.base || r.limit ≤ q.base) && regionsOk l

/-- The storage of the enabled format windows. -/
def State.windowStorage (s : State) : List (Nat × Nat) :=
  ((List.range 16).filter (fun w => (s.window w).en)).flatMap (fun w => (s.window w).ranges.drop 1)

/-- The stored record is checked with its signatures and takes effect (R355, R357, R359); one that is not valid leaves the device without
partitions. The keys are those that the record itself holds: R359 names none (log entries 8 and 75, the model's choice). -/
def State.applyConfig (s : State) : State :=
  let bs := s.config.bytes
  if bs.isEmpty then { s with config := { s.config with valid := true } }
  else
    let rs := regionsOf bs
    if !Config.signatureOk bs bs || !regionsOk rs || !regionsClear rs s.windowStorage then
      { s with config := { s.config with valid := false }, regions := [], parts := [] }
    else
      let w := Config.configWorlds bs
      let s := { s with config := { s.config with valid := true, worlds := w, regions := rs, minpatch := Config.configMinPatch bs }, regions := rs }
      (List.range 16).foldl (fun s p => s.modPart p (fun q => { q with secure := w.getLsbD p })) s

/-- The self-test of the cores (R26, R29, R32, R359). A core that is withdrawn because all four of its tile banks are faulty reports code 0: R26 names
no code for it (log entry 66, the model's choice). -/
def State.selfTest (s : State) (b : BootReport) : State :=
  let s := b.bankmap.foldl (fun s e => if e.1 < 256 then s.modCore e.1 (fun k => { k with bankmap := e.2 }) else s) s
  let lost := b.withdrawn.filter (fun e => e.1 < 256) ++
    ((b.bankmap.filter (fun e => e.1 < 256 && e.2 == 0 && !b.withdrawn.any (fun w => w.1 == e.1))).map (fun e => (e.1, 0)))
  lost.foldl (fun s e => (s.modCore e.1 (fun k => { k with withdrawn := true })).postEvent none 7 e.1 e.2 0) s

/-- The device fails (R359). -/
def State.bootFail (s : State) (code : Nat) : State := { s with bootState := 7, failcode := code }

/-- A stored patch is verified and applied (R356, R359). -/
def State.bootPatch (s : State) : State :=
  match s.flashPatch with
  | none => { s with bootState := 4 }
  | some img =>
    if patchSigned img && s.config.minpatch ≤ imageVersion img then
      { s with patch := img, patchver := BitVec.ofNat 32 (imageVersion img), bootState := 4 }
    else s.bootFail 3

/-- RESET_RELEASE (R337, R359): one phase of bring-up, from reset through STATE 1 to 5 to ready, or to failed. As bring-up begins, BAR2 has the size that
the host gives it, if R337 has that size (log entry 74). -/
def execResetRelease (b : BootReport) (s : State) : Res :=
  .next (match s.bootState with
    | 0 => { s with bootState := 1, bar2 := if 30 ≤ b.bar2 ∧ b.bar2 ≤ 39 then b.bar2 else s.bar2 }
    | 1 => if b.romOk then { s with bootState := 2 } else s.bootFail 1
    | 2 => if b.flashOk then { s.applyConfig with bootState := 3 } else s.bootFail 2
    | 3 => s.bootPatch
    | 4 =>
      let s := s.selfTest b
      if (List.range 256).all (fun c => (s.core c).withdrawn) then s.bootFail 5 else { s with bootState := 5 }
    | 5 => if b.hbmOk then { s with bootState := 6 } else s.bootFail 4
    | _ => s)

/-- PERST_ASSERTION (R359): all state of the device is lost but what the flash holds; memory of the host and of peers is not the device's. -/
def execPerstAssertion (s : State) : Res :=
  .next { State.reset with
    turns := s.turns, rr := s.rr, mem := s.mem.filter (fun e => 2 ^ 49 ≤ e.1 && e.1 < 2 ^ 52), flashPatch := s.flashPatch, config := s.config,
    romver := s.romver, outputs := s.outputs }

/-- Copies what is left of a migration and ends it (R360). -/
def State.finishMigration (part : Nat) : Nat → State → State
  | 0, s => s
  | n + 1, s =>
    match (s.part part).migration with
    | none => s
    | some m =>
      if m.copied < m.lines then
        State.finishMigration part n ((s.copyLine (m.src + 128 * m.copied) (m.dst + 128 * m.copied)).modPart part (fun p =>
          { p with migration := some { m with copied := m.copied + 1 } }))
      else s.endMigration part m

/-- A partition is reset (R360): its gangs and tasks end with kind 12, its cameras stop. -/
def State.resetPart (s : State) (part : Nat) : State :=
  let s := State.finishMigration part (((s.part part).migration.elim 0 (·.lines)) + 1) s
  let s := (s.tasks.filter (fun t => t.part == part && !t.ended)).foldl (fun s t =>
    let s := if t.phase == .running then (s.noteCounts t (t.cores.map s.core)).freeGang t.cores else s.noteImages t
    s.endTask t .failed kByHost 0 0) s
  (s.cameras.filter (fun e => e.2.part == part && e.2.state != 0)).foldl (fun s e =>
    (s.discardUnits e.1).modCamera e.1 (fun c => { c with state := 0, en := false })) s

/-- FUNCTION_LEVEL_RESET (R360): of a VF its partition, of the PF every partition. -/
def execFunctionLevelReset (fn : Nat) (s : State) : Res :=
  if fn < 16 then .next (s.resetPart fn)
  else if fn = pfFn then .next ((List.range 16).foldl State.resetPart s)
  else .next s

end Sys2Proof.Machine
end

