-- ==== Sys2Proof/Machine/VInstr.lean ====
section
/-! DEFINITION. The V instructions (R181 to R195): each by its faults (R179, R180) and its lanes. -/

namespace Sys2Proof.Machine

/-! Shared forms. -/

/-- Codes with the events of all lanes. -/
def gather (l : List (Nat × List Nat)) : List Nat × List Nat := (l.map (·.1), l.flatMap (·.2))

/-- Lanes of the instruction's TYPE from lane 0 on. -/
def typedLanes (ty : BitVec 4) (l : List (Nat × List Nat)) : VOut × List Nat :=
  (.lanes (kindOfType ty) (typeWidth ty) 0 (gather l).1, (gather l).2)

/-- An instruction of one row source whose SRC2 is zero, lane by lane. -/
def vUnary (ok : Bool) (f : FV) (g : Nat → Nat × List Nat) (s : State) : Res :=
  let d := s.cxCore.demand
  vIssue s (typeFaults ok ++ minFaults (f.min == 0) ++ noS3 f ++ zeroFaults (f.src2 == 0) ++ opndFaults d f.ty true f.dst ++ opndFaults d f.ty false f.src1)
    [f.src1] none (some f.dst) (fun v => typedLanes f.ty ((v.a.all f.ty).map g))

/-- The faults of an instruction of two row sources. -/
def binFaults (s : State) (ok minOk : Bool) (f : FV) : List IllCause :=
  let d := s.cxCore.demand
  typeFaults ok ++ minFaults minOk ++ noS3 f ++ opndFaults d f.ty true f.dst ++ opndFaults d f.ty false f.src1 ++ opndFaults d f.ty false f.src2

/-- An instruction of two row sources, lane by lane. -/
def vBinary (ok minOk : Bool) (f : FV) (g : Nat → Nat → Nat × List Nat) (s : State) : Res :=
  vIssue s (binFaults s ok minOk f) [f.src1, f.src2] none (some f.dst) (fun v =>
    typedLanes f.ty (List.zipWith g (v.a.all f.ty) (v.b.all f.ty)))

/-- A dyadic operation (R181). -/
def vDyad (o : Dyad) (f : FV) (s : State) : Res :=
  vBinary (isN f.ty || isA f.ty) (f.min == 0) f (dyadCode o (kindOfType f.ty) s.cx.mods.mode.toNat s.cx.mods.sat) s

/-- VFMA and VFMS (R180, R181): the destination is read, so it is no queue and no weir row. -/
def vFused (sub : Bool) (f : FV) (s : State) : Res :=
  vIssue s (binFaults s (isN f.ty || isA f.ty) (f.min == 0) f ++ fault? (dLv f.dst == 2 && 8 ≤ dReg f.dst) .operand)
    [f.src1, f.src2] none (some f.dst) (fun v =>
      typedLanes f.ty (((v.a.all f.ty).zip ((v.b.all f.ty).zip (v.d.all f.ty))).map (fun p =>
        fmaCode sub (kindOfType f.ty) s.cx.mods.mode.toNat s.cx.mods.sat p.1 p.2.1 p.2.2)))

/-- A special function (R182). -/
def vSpecial (o : SpecialFn) (f : FV) (s : State) : Res :=
  vUnary (f.ty.toNat ≤ 2) f (specialCode o f.ty s.cx.mods.mode.toNat s.cx.mods.sat) s

/-- All ones or zeros in a lane of w bytes. -/
def maskLane (w : Nat) (b : Bool) : Nat := if b then 2 ^ (8 * w) - 1 else 0

/-- A raw instruction of two sources on lanes of w bytes (R187). -/
def vRaw (ok minOk : Bool) (f : FV) (g : Nat → Nat → Nat → Nat) (s : State) : Res :=
  vBinary ok minOk f (fun a b => (g (8 * typeWidth f.ty) a b, [])) s

/-- Shifts of a lane of n bits (R187). -/
def shlLane (n a c : Nat) : Nat := if n ≤ c then 0 else a * 2 ^ c % 2 ^ n
def shrLane (n a c : Nat) : Nat := if n ≤ c then 0 else a / 2 ^ c
def sraLane (n a c : Nat) : Nat :=
  let neg := 2 ^ (n - 1) ≤ a
  if n ≤ c then (if neg then 2 ^ n - 1 else 0) else if neg then 2 ^ n - 1 - (2 ^ n - 1 - a) / 2 ^ c else a / 2 ^ c

/-- A 64-bit lane as a signed integer. -/
def signed64 (a : Nat) : Int := if 2 ^ 63 ≤ a then (a : Int) - (2 ^ 64 : Nat) else a

/-! NOP and element-wise arithmetic. -/

/-- NOP_V (R92). -/
def execNopV (s : State) : Res := issueCore s [] .ok

/-- VADD (R181). -/
def execVadd (f : FV) (s : State) : Res := vDyad .add f s

/-- VSUB (R181). -/
def execVsub (f : FV) (s : State) : Res := vDyad .sub f s

/-- VMUL (R181). -/
def execVmul (f : FV) (s : State) : Res := vDyad .mul f s

/-- VMIN (R181). -/
def execVmin (f : FV) (s : State) : Res := vDyad .min f s

/-- VMAX (R181). -/
def execVmax (f : FV) (s : State) : Res := vDyad .max f s

/-- VFMA (R181). -/
def execVfma (f : FV) (s : State) : Res := vFused false f s

/-- VFMS (R181). -/
def execVfms (f : FV) (s : State) : Res := vFused true f s

/-- The lanes of VABS and VNEG (R157, R181): exact, written as a result. -/
def signOp (g : Val → Val) (ty : BitVec 4) (a : Nat) : Nat × List Nat := roundVal (g (decodeVal (kindOfType ty) a)) (kindOfType ty) 0 false

/-- VABS (R181). -/
def execVabs (f : FV) (s : State) : Res := vUnary (isN f.ty || isA f.ty) f (signOp Val.abs f.ty) s

/-- VNEG (R181). -/
def execVneg (f : FV) (s : State) : Res := vUnary (isN f.ty || isA f.ty) f (signOp Val.neg f.ty) s

/-- VRCP (R155, R182). -/
def execVrcp (f : FV) (s : State) : Res := vSpecial .rcp f s

/-- VRSQ (R155, R182). -/
def execVrsq (f : FV) (s : State) : Res := vSpecial .rsq f s

/-- VSQRT (R155, R182). -/
def execVsqrt (f : FV) (s : State) : Res := vSpecial .sqrt f s

/-- VEXP (R155, R182). -/
def execVexp (f : FV) (s : State) : Res := vSpecial .exp f s

/-- VLOG (R155, R182). -/
def execVlog (f : FV) (s : State) : Res := vSpecial .log f s

/-- VTANH (R155, R182). -/
def execVtanh (f : FV) (s : State) : Res := vSpecial .tanh f s

/-- VSIGM (R155, R182). -/
def execVsigm (f : FV) (s : State) : Res := vSpecial .sigm f s

/-! Conversion. -/

/-- The target TYPE of a VCVT (R183). -/
abbrev cvtType (f : FV) : BitVec 4 := bits f.src2 0 4

/-- The lanes that a VCVT handles (R183). -/
def cvtCount (a b : BitVec 4) : Nat := if isA a || isA b then 64 else 256 / max (typeWidth a) (typeWidth b)

/-- The first lane of a side of TYPE `ty`: the side with more lanes than are handled takes part MIN (R183). -/
def cvtStart (ty : BitVec 4) (n part : Nat) : Nat := if n < laneCount ty then part * n else 0

/-- The number of parts of a VCVT (R183). -/
def cvtParts (a b : BitVec 4) : Nat := max (laneCount a) (laneCount b) / cvtCount a b

/-- VCVT (R159, R183). -/
def execVcvt (f : FV) (s : State) : Res :=
  let t := cvtType f
  let d := s.cxCore.demand
  let n := cvtCount f.ty t
  vIssue s (typeFaults ((isN f.ty || isA f.ty) && (isN t || isA t)) ++ minFaults (f.min.toNat < cvtParts f.ty t) ++ noS3 f ++
      zeroFaults (bits f.src2 4 9 == 0) ++ opndFaults d t true f.dst ++ opndFaults d f.ty false f.src1)
    [f.src1] none (some f.dst) (fun v =>
      let r := gather ((v.a.lanes f.ty (cvtStart f.ty n f.min.toNat) n).map
        (convertCode (kindOfType f.ty) (kindOfType t) s.cx.mods.mode.toNat s.cx.mods.sat))
      (.lanes (kindOfType t) (typeWidth t) (cvtStart t n f.min.toNat) r.1, r.2))

/-! Compare, select and masks. -/

/-- VCMP (R158, R184). -/
def execVcmp (f : FV) (s : State) : Res :=
  vBinary (isN f.ty) true f (fun a b =>
    let (r, ev) := compareCode f.min.toNat (kindOfType f.ty) a b
    (maskLane (typeWidth f.ty) r, ev)) s

/-- The lanes of VSEL (R185). -/
def selLanes (ty : BitVec 4) (v : VIn) : List (Nat × List Nat) :=
  ((lanesOf v.m (typeWidth ty) 0 (laneCount ty)).zip ((v.a.all ty).zip (v.b.all ty))).map (fun p => (if p.1 ≠ 0 then p.2.1 else p.2.2, []))

/-- VSEL (R79, R185): it takes a third source. -/
def execVsel (f : FV) (s : State) : Res :=
  let d := s.cxCore.demand
  vIssue s (typeFaults (isN f.ty || isB f.ty) ++ minFaults (f.min == 0) ++ fault? (f.s3v == 0) .operand ++ opndFaults d f.ty true f.dst ++
      opndFaults d f.ty false f.src1 ++ opndFaults d f.ty false f.src2)
    [f.src1, f.src2] (some f.s3i) (some f.dst) (fun v => typedLanes f.ty (selLanes f.ty v))

/-! Raw bits and 64-bit integers. -/

/-- VAND (R187). -/
def execVand (f : FV) (s : State) : Res := vRaw (isB f.ty) (f.min == 0) f (fun _ a b => a &&& b) s

/-- VOR (R187). -/
def execVor (f : FV) (s : State) : Res := vRaw (isB f.ty) (f.min == 0) f (fun _ a b => a ||| b) s

/-- VXOR (R187). -/
def execVxor (f : FV) (s : State) : Res := vRaw (isB f.ty) (f.min == 0) f (fun _ a b => a ^^^ b) s

/-- VNOT (R187). -/
def execVnot (f : FV) (s : State) : Res := vUnary (isB f.ty) f (fun a => (2 ^ (8 * typeWidth f.ty) - 1 - a, [])) s

/-- Whether a TYPE is B8, B16 or B32 (R179). -/
def isShort (ty : BitVec 4) : Bool := isB ty && ty != 12

/-- VSHL (R187). -/
def execVshl (f : FV) (s : State) : Res := vRaw (isShort f.ty) (f.min == 0) f shlLane s

/-- VSHR (R187). -/
def execVshr (f : FV) (s : State) : Res := vRaw (isShort f.ty) (f.min == 0) f shrLane s

/-- VSRA (R187). -/
def execVsra (f : FV) (s : State) : Res := vRaw (isShort f.ty) (f.min == 0) f sraLane s

/-- VADD64 (R187). -/
def execVadd64 (f : FV) (s : State) : Res := vRaw (f.ty == 12) (f.min == 0) f (fun _ a b => (a + b) % 2 ^ 64) s

/-- VSUB64 (R187). -/
def execVsub64 (f : FV) (s : State) : Res := vRaw (f.ty == 12) (f.min == 0) f (fun _ a b => (a + 2 ^ 64 - b) % 2 ^ 64) s

/-- The conditions of VCMP64 (R184). -/
def cmp64 (cond : Nat) (a b : Nat) : Bool :=
  match cond with
  | 0 => a == b
  | 1 => a != b
  | 2 => decide (signed64 a < signed64 b)
  | _ => decide (a < b)

/-- VCMP64 (R184). -/
def execVcmp64 (f : FV) (s : State) : Res := vRaw (f.ty == 12) true f (fun _ a b => maskLane 8 (cmp64 f.min.toNat a b)) s

/-- VSHL64 (R187). -/
def execVshl64 (f : FV) (s : State) : Res := vRaw (f.ty == 12) (f.min == 0) f shlLane s

/-- VSHR64 (R187): MIN 1 is arithmetic. -/
def execVshr64 (f : FV) (s : State) : Res := vRaw (f.ty == 12) (f.min.toNat ≤ 1) f (if f.min = 0 then shrLane else sraLane) s

/-! Moves, broadcasts and constants. -/

/-- Whether a TYPE is one of R79's. -/
def isType (ty : BitVec 4) : Bool := ty != 15

/-- VMOV (R174, R188): an accumulator row goes with its counts. -/
def execVmov (f : FV) (s : State) : Res :=
  let d := s.cxCore.demand
  vIssue s (typeFaults (isType f.ty) ++ minFaults (f.min == 0) ++ noS3 f ++ zeroFaults (f.src2 == 0) ++ opndFaults d f.ty true f.dst ++
      opndFaults d f.ty false f.src1)
    [f.src1] none (some f.dst) (fun v =>
      match v.a with
      | .acc a => (.accRow a, [])
      | a => typedLanes f.ty ((a.all f.ty).map (fun x => (x, []))))

/-- The lane or the amount that SRC2 holds (R188, R195). -/
abbrev laneField (f : FV) : Nat := (bits f.src2 0 8).toNat

/-- The faults of a SRC2 that holds a lane or an amount (R188, R195). -/
def laneFieldFaults (f : FV) : List IllCause :=
  zeroFaults (bits f.src2 8 5 == 0) ++ fault? (isType f.ty && laneCount f.ty ≤ laneField f) .otherUse

/-- VBCAST (R188). -/
def execVbcast (f : FV) (s : State) : Res :=
  let d := s.cxCore.demand
  vIssue s (typeFaults (isType f.ty) ++ minFaults (f.min == 0) ++ noS3 f ++ laneFieldFaults f ++ opndFaults d f.ty true f.dst ++
      opndFaults d f.ty false f.src1)
    [f.src1] none (some f.dst) (fun v =>
      typedLanes f.ty (List.replicate (laneCount f.ty) ((v.a.all f.ty).getD (laneField f) 0, [])))

/-- The immediate word of a VSETI: word 1 [29:0] (R189). -/
def setiWord (f : FV) : BitVec 30 := f.s3v ++ f.s3i ++ f.src2 ++ f.src1

/-- A lane that VSETI writes: MIN 0 the immediate sign-extended, MIN 1 the immediate at the top (R189). -/
def setiLane (hi : Bool) (w : Nat) (imm : BitVec 16) : Nat :=
  if hi then imm.toNat * 2 ^ (8 * w - 16)
  else if w = 1 then imm.toNat % 256 else twos (8 * w) imm.msb (if imm.msb then 2 ^ 16 - imm.toNat else imm.toNat)

/-- VSETI (R189): MIN 2 sets a row counter and leaves the latch. -/
def execVseti (f : FV) (s : State) : Res :=
  let imm := bits (setiWord f) 0 16
  let w := typeWidth f.ty
  let d := s.cxCore.demand
  if f.min = 2 then
    issueCore s (zeroFaults (bits (setiWord f) 16 14 == 0 && bits imm 8 8 == 0 && f.ty == 0 && f.dst == 0)) (fun k =>
      .ok { k with rc := k.rc.set (bits imm 0 2).toNat (bits imm 2 6) (bits imm 0 2).isLt })
  else
    vIssue s (typeFaults (isType f.ty) ++ minFaults (f.min == 0 || (f.min == 1 && w != 1)) ++
        zeroFaults (bits (setiWord f) 16 14 == 0 && !(f.min == 0 && w == 1 && isType f.ty && bits imm 8 8 != 0)) ++ opndFaults d f.ty true f.dst)
      [] none (some f.dst) (fun _ => typedLanes f.ty (List.replicate (laneCount f.ty) (setiLane (f.min == 1) w imm, [])))

/-- A lane of VIOTA: i + c, an absent c being dropped (R190). -/
def iotaLane (ty : BitVec 4) (c i : Nat) : Nat × List Nat :=
  if isB ty then ((i + c) % 2 ^ (8 * typeWidth ty), [])
  else
    let k := kindOfType ty
    match decodeVal k c with
    | .absent => roundVal (.ofInt i 0) k 0 false
    | v => finish (addVal (.ofInt i 0) v) k 0 false

/-- VIOTA (R190). -/
def execViota (f : FV) (s : State) : Res :=
  let d := s.cxCore.demand
  vIssue s (typeFaults ([0, 5, 6, 7, 9, 10, 11, 12].contains f.ty.toNat) ++ minFaults (f.min == 0) ++ noS3 f ++ zeroFaults (f.src2 == 0) ++
      opndFaults d f.ty true f.dst ++ opndFaults d f.ty false f.src1)
    [f.src1] none (some f.dst) (fun v =>
      let c := (v.a.lanes f.ty 0 1).headD 0
      typedLanes f.ty ((List.range (laneCount f.ty)).map (iotaLane f.ty c)))

/-! Reductions and scans. -/

/-- The exact sum of a set of lanes so far (R191, R192): whether any is present, a NaN or an infinity of either sign is among them, and the
sum of the finite ones. -/
structure SumAcc where
  any : Bool
  nan : Bool
  pos : Bool
  neg : Bool
  fin : Val

/-- The sum of nothing. -/
def SumAcc.empty : SumAcc := { any := false, nan := false, pos := false, neg := false, fin := .zero }

/-- Adds a lane; an absent one is skipped. -/
def SumAcc.add (a : SumAcc) (v : Val) : SumAcc :=
  match v with
  | .absent => a
  | .nan => { a with any := true, nan := true }
  | .inf n => { a with any := true, pos := a.pos || !n, neg := a.neg || n }
  | v => { a with any := true, fin := (addVal a.fin v).1 }

/-- The value of a sum and its events (R155, R157). -/
def SumAcc.total (a : SumAcc) : Val × List Nat :=
  if !a.any then (.absent, [evNXA])
  else if a.nan then (.nan, [])
  else if a.pos && a.neg then (.nan, [evINV])
  else if a.pos then (.inf false, [])
  else if a.neg then (.inf true, [])
  else (a.fin, [])

/-- The smaller or larger of two lanes; an absent one is skipped, a NaN stays (R191, R192). -/
def pick (o : Dyad) (a b : Val) : Val :=
  match a, b with
  | .absent, b => b
  | a, .absent => a
  | a, b => (dyadVal o a b).1

/-- The least or greatest of a set, and its events. -/
def pickTotal (v : Val) : Val × List Nat := (v, if v = .absent then [evNXA] else [])

/-- The result of VRED (R191). -/
def redCode (ty : BitVec 4) (mode : Nat) (sat : Bool) (min : Nat) (l : List Nat) : Nat × List Nat :=
  let k := kindOfType ty
  let vs := l.map (decodeVal k)
  let r := match min with
    | 0 => (vs.foldl SumAcc.add SumAcc.empty).total
    | 1 => pickTotal (vs.foldl (pick .min) .absent)
    | _ => pickTotal (vs.foldl (pick .max) .absent)
  finish r k mode sat

/-- The TOVX bit (R191). -/
abbrev toVx (f : FV) : Bool := f.src2.getLsbD 0

/-- The faults that VRED and VCNT share (R179, R191). -/
def redFaults (s : State) (f : FV) : List IllCause :=
  let d := s.cxCore.demand
  typeFaults (isN f.ty || isA f.ty) ++ minFaults (f.min != 3) ++ noS3 f ++ zeroFaults (bits f.src2 1 12 == 0) ++
    (if toVx f then zeroFaults (f.dst == 0) ++ fault? (isA f.ty) .operand else opndFaults d f.ty true f.dst) ++
    opndFaults d f.ty false f.src1

/-- VRED (R191). -/
def execVred (f : FV) (s : State) : Res :=
  vIssue s (redFaults s f) [f.src1] none (if toVx f then none else some f.dst) (fun v =>
    let (r, ev) := redCode f.ty s.cx.mods.mode.toNat s.cx.mods.sat f.min.toNat (v.a.all f.ty)
    (if toVx f then .vx (BitVec.ofNat 32 r) else .lanes (kindOfType f.ty) (typeWidth f.ty) 0 [r], ev))

/-- The lanes that a VCNT counts over (R191). -/
def cntRange (min : Nat) (l : List Nat) : List Nat :=
  match min with
  | 0 => l
  | 1 => l.take (l.length / 2)
  | _ => l.drop (l.length / 2)

/-- VCNT (R191): a count into an accumulator row is the exact value. -/
def execVcnt (f : FV) (s : State) : Res :=
  vIssue s (redFaults s f) [f.src1] none (if toVx f then none else some f.dst) (fun v =>
    let n := ((cntRange f.min.toNat (v.a.all f.ty)).filter (fun x => !isAbsent (kindOfType f.ty) x)).length
    (if toVx f then .vx (BitVec.ofNat 32 n)
     else if isA f.ty then .lanes (kindOfType f.ty) 16 0 [(roundVal (.ofInt n 0) (kindOfType f.ty) 0 false).1]
     else .lanes (kindOfType 7) 4 0 [n], []))

/-- The sums of VSCAN: the set of each lane from the one before, the carry in the first (R192). -/
def scanSums (excl : Bool) : SumAcc → List Val → List (Val × List Nat)
  | _, [] => []
  | a, v :: r => let a' := a.add v; (if excl then a.total else a'.total) :: scanSums excl a' r

/-- The least or greatest of VSCAN's sets (R192). -/
def scanPicks (o : Dyad) : Val → List Val → List (Val × List Nat)
  | _, [] => []
  | a, v :: r => let a' := pick o a v; pickTotal a' :: scanPicks o a' r

/-- VSCAN (R192): each lane's sum rounds once, by the mode and the saturation of an RS prefix (R81). -/
def execVscan (f : FV) (s : State) : Res :=
  let k := kindOfType f.ty
  vIssue s (binFaults s (isN f.ty) true f) [f.src1, f.src2] none (some f.dst) (fun v =>
    let c := decodeVal k ((v.b.lanes f.ty 0 1).headD 0)
    let vs := (v.a.all f.ty).map (decodeVal k)
    let r := match f.min.toNat with
      | 0 => scanSums false (SumAcc.empty.add c) vs
      | 1 => scanSums true (SumAcc.empty.add c) vs
      | 2 => scanPicks .max c vs
      | _ => scanPicks .min c vs
    typedLanes f.ty (r.map (fun x => finish x k s.cx.mods.mode.toNat s.cx.mods.sat)))

/-! Merging sorted sparse rows. -/

/-- The entries of a pair row up to the first empty one: key and value code (R193). -/
def pairEntries (ty : BitVec 4) (r : Row) : List (Int × Nat) :=
  let w := typeWidth ty
  ((List.range 32).map (fun e =>
    ((BitVec.ofNat 32 (r.toNat / 2 ^ (32 * e))).toInt, r.toNat / 2 ^ (1024 + 8 * w * e) % 2 ^ (8 * w)))).takeWhile
      (fun p => p.1 != -(2 ^ 31 : Nat))

/-- The merge loop of R193. -/
def mergePairs (ty : BitVec 4) (drop upd : Bool) : Nat → List (Int × Nat) → List (Int × Nat) → List (Int × Nat)
  | 0, _, _ => []
  | fuel + 1, a, b =>
    let keep := fun (k : Int) (v : Nat) (r : List (Int × Nat)) => if drop && v == 0 then r else (k, v) :: r
    match a, b with
    | [], [] => []
    | (k, v) :: r, [] => keep k v (mergePairs ty drop upd fuel r [])
    | [], (k, v) :: r => keep k v (mergePairs ty drop upd fuel [] r)
    | (ka, va) :: ra, (kb, vb) :: rb =>
      if ka < kb then keep ka va (mergePairs ty drop upd fuel ra b)
      else if kb < ka then keep kb vb (mergePairs ty drop upd fuel a rb)
      else keep ka (if upd then vb else (dyadCode .add (kindOfType ty) 0 false va vb).1) (mergePairs ty drop upd fuel ra rb)

/-- The events of the additions of a merge, those of dropped entries too. -/
def mergeEvents (ty : BitVec 4) (upd : Bool) : Nat → List (Int × Nat) → List (Int × Nat) → List Nat
  | 0, _, _ => []
  | fuel + 1, a, b =>
    match a, b with
    | (ka, va) :: ra, (kb, vb) :: rb =>
      if ka < kb then mergeEvents ty upd fuel ra b
      else if kb < ka then mergeEvents ty upd fuel a rb
      else (if upd then [] else (dyadCode .add (kindOfType ty) 0 false va vb).2) ++ mergeEvents ty upd fuel ra rb
    | _, _ => []

/-- A pair row of entries; the rest is empty (R193). -/
def pairRow (ty : BitVec 4) (l : List (Int × Nat)) : Row :=
  let w := typeWidth ty
  let e := (List.range 32).map (fun i => l.getD i (-(2 ^ 31 : Nat), absentCode (kindOfType ty)))
  putLanes (putLanes 0 4 0 (e.map (fun p => twos 32 (p.1 < 0) p.1.natAbs))) w (128 / w) (e.map (·.2))

/-- VMERGE (R193): the second half of the output goes to the latch. -/
def execVmerge (f : FV) (s : State) : Res :=
  vIssue s (binFaults s ([0, 1, 2, 6, 7].contains f.ty.toNat) true f) [f.src1, f.src2] none (some f.dst) (fun v =>
    let a := pairEntries f.ty (v.a.asRow f.ty)
    let b := pairEntries f.ty (v.b.asRow f.ty)
    let out := mergePairs f.ty (f.min.getLsbD 0) (f.min.getLsbD 1) 64 a b
    (.rows (pairRow f.ty out) (pairRow f.ty (out.drop 32)), mergeEvents f.ty (f.min.getLsbD 1) 64 a b))

/-! Rearranging lanes. -/

/-- Lanes moved as bits, with absent codes (0 for a raw TYPE) where none is given. -/
def placed (ty : BitVec 4) (l : List (Option Nat)) : VOut × List Nat :=
  typedLanes ty (l.map (fun x => (x.getD (absentCode (kindOfType ty)), [])))

/-- VCOMPACT (R194). -/
def execVcompact (f : FV) (s : State) : Res :=
  let d := s.cxCore.demand
  vIssue s (typeFaults (isN f.ty) ++ minFaults (f.min == 0) ++ noS3 f ++ zeroFaults (f.src2 == 0) ++ opndFaults d f.ty true f.dst ++
      opndFaults d f.ty false f.src1)
    [f.src1] none (some f.dst) (fun v =>
      let l := (v.a.all f.ty).filter (fun x => !isAbsent (kindOfType f.ty) x)
      placed f.ty ((List.range (laneCount f.ty)).map (l[·]?)))

/-- The lanes of VEXPAND: the next unused lane of the first list where the second is present (R194). -/
def expandLanes (k : Kind) : List Nat → List Nat → List (Option Nat)
  | _, [] => []
  | a, x :: r => if isAbsent k x then none :: expandLanes k a r else a.head? :: expandLanes k (a.drop 1) r

/-- VEXPAND (R194). -/
def execVexpand (f : FV) (s : State) : Res :=
  vIssue s (binFaults s (isN f.ty) (f.min == 0) f) [f.src1, f.src2] none (some f.dst) (fun v =>
    placed f.ty (expandLanes (kindOfType f.ty) (v.a.all f.ty) (v.b.all f.ty)))

/-- VPERM (R195). -/
def execVperm (f : FV) (s : State) : Res :=
  vIssue s (binFaults s (isN f.ty || isB f.ty) (f.min == 0) f) [f.src1, f.src2] none (some f.dst) (fun v =>
    let a := v.a.all f.ty
    placed f.ty ((v.b.all f.ty).map (a[·]?)))

/-- The lane that VROT takes for lane i (R195). -/
def rotFrom (min n sh i : Nat) : Option Nat :=
  match min with
  | 0 => some ((i + sh) % n)
  | 1 => if i + sh < n then some (i + sh) else none
  | _ => if sh ≤ i then some (i - sh) else none

/-- VROT (R195). -/
def execVrot (f : FV) (s : State) : Res :=
  let d := s.cxCore.demand
  vIssue s (typeFaults (isN f.ty || isB f.ty) ++ minFaults (f.min != 3) ++ noS3 f ++ laneFieldFaults f ++ opndFaults d f.ty true f.dst ++
      opndFaults d f.ty false f.src1)
    [f.src1] none (some f.dst) (fun v =>
      let a := v.a.all f.ty
      placed f.ty ((List.range (laneCount f.ty)).map (fun i => (rotFrom f.min.toNat (laneCount f.ty) (laneField f) i).bind (a[·]?))))

/-- VISAB (R186). -/
def execVisab (f : FV) (s : State) : Res :=
  vUnary (isN f.ty) f (fun a => (maskLane (typeWidth f.ty) (isAbsent (kindOfType f.ty) a), [])) s

/-- VMKAB (R186). -/
def execVmkab (f : FV) (s : State) : Res :=
  vBinary (isN f.ty) (f.min == 0) f (fun a b => (if b ≠ 0 then absentCode (kindOfType f.ty) else a, [])) s

end Sys2Proof.Machine
end

