-- ==== Sys2Proof/Machine/Dispatch.lean ====
section
/-! DEFINITION. The dispatch of every instruction and agent step to its meaning, one arm per row of the opcode table. -/

namespace Sys2Proof.Machine

/-- The meaning of an instruction or of an agent's step. -/
def exec (i : Instr) (s : State) : Host.Outcome State Fault Refusal :=
  match i with
  | .nopX => Sys2Proof.Machine.execNopX s
  | .add d a b => Sys2Proof.Machine.execAdd d a b s
  | .sub d a b => Sys2Proof.Machine.execSub d a b s
  | .addi d a imm => Sys2Proof.Machine.execAddi d a imm s
  | .mul d a b => Sys2Proof.Machine.execMul d a b s
  | .mulh d a b => Sys2Proof.Machine.execMulh d a b s
  | .mulhz d a b => Sys2Proof.Machine.execMulhz d a b s
  | .div d a b => Sys2Proof.Machine.execDiv d a b s
  | .divz d a b => Sys2Proof.Machine.execDivz d a b s
  | .rem d a b => Sys2Proof.Machine.execRem d a b s
  | .remz d a b => Sys2Proof.Machine.execRemz d a b s
  | .and_ d a b => Sys2Proof.Machine.execAnd d a b s
  | .or_ d a b => Sys2Proof.Machine.execOr d a b s
  | .xor d a b => Sys2Proof.Machine.execXor d a b s
  | .andn d a b => Sys2Proof.Machine.execAndn d a b s
  | .shl d a b => Sys2Proof.Machine.execShl d a b s
  | .shr d a b => Sys2Proof.Machine.execShr d a b s
  | .sra d a b => Sys2Proof.Machine.execSra d a b s
  | .min d a b => Sys2Proof.Machine.execMin d a b s
  | .max d a b => Sys2Proof.Machine.execMax d a b s
  | .minz d a b => Sys2Proof.Machine.execMinz d a b s
  | .maxz d a b => Sys2Proof.Machine.execMaxz d a b s
  | .clz d a => Sys2Proof.Machine.execClz d a s
  | .popc d a => Sys2Proof.Machine.execPopc d a s
  | .extb z d a => Sys2Proof.Machine.execExtb z d a s
  | .exth z d a => Sys2Proof.Machine.execExth z d a s
  | .bfx sx d a pos wm1 => Sys2Proof.Machine.execBfx sx d a pos wm1 s
  | .bfi d a b pos wm1 => Sys2Proof.Machine.execBfi d a b pos wm1 s
  | .cmp u cond pred a b => Sys2Proof.Machine.execCmp u cond pred a b s
  | .sel n d a b => Sys2Proof.Machine.execSel n d a b s
  | .mov d a => Sys2Proof.Machine.execMov d a s
  | .li d imm => Sys2Proof.Machine.execLi d imm s
  | .add64 d a b => Sys2Proof.Machine.execAdd64 d a b s
  | .sub64 d a b => Sys2Proof.Machine.execSub64 d a b s
  | .shl64 d a b => Sys2Proof.Machine.execShl64 d a b s
  | .shr64 d a b => Sys2Proof.Machine.execShr64 d a b s
  | .sra64 d a b => Sys2Proof.Machine.execSra64 d a b s
  | .cmp64 u cond pred a b => Sys2Proof.Machine.execCmp64 u cond pred a b s
  | .mov64 d a => Sys2Proof.Machine.execMov64 d a s
  | .li64 d imm => Sys2Proof.Machine.execLi64 d imm s
  | .waitX f => Sys2Proof.Machine.execWaitX f s
  | .sigX tk => Sys2Proof.Machine.execSigX tk s
  | .awaitX tk => Sys2Proof.Machine.execAwaitX tk s
  | .qbindBind lo li coord => Sys2Proof.Machine.execQbindBind lo li coord s
  | .qbindUnbind lo => Sys2Proof.Machine.execQbindUnbind lo s
  | .qdepth d idx => Sys2Proof.Machine.execQdepth d idx s
  | .spawn d a b => Sys2Proof.Machine.execSpawn d a b s
  | .spawnNb d a b => Sys2Proof.Machine.execSpawnNb d a b s
  | .tstat d a => Sys2Proof.Machine.execTstat d a s
  | .trap code => Sys2Proof.Machine.execTrap code s
  | .brk code => Sys2Proof.Machine.execBrk code s
  | .rdcap d idx => Sys2Proof.Machine.execRdcap d idx s
  | .rdsys d idx => Sys2Proof.Machine.execRdsys d idx s
  | .timelRead d => Sys2Proof.Machine.execTimelRead d s
  | .wrsys a idx => Sys2Proof.Machine.execWrsys a idx s
  | .slipwWrite a => Sys2Proof.Machine.execSlipwWrite a s
  | .nevcfgWrite a => Sys2Proof.Machine.execNevcfgWrite a s
  | .nevcntWrite n a => Sys2Proof.Machine.execNevcntWrite n a s
  | .nevstatClear a => Sys2Proof.Machine.execNevstatClear a s
  | .clkdiv d div dom => Sys2Proof.Machine.execClkdiv d div dom s
  | .pace a idx => Sys2Proof.Machine.execPace a idx s
  | .nopA => Sys2Proof.Machine.execNopA s
  | .aadd d a b => Sys2Proof.Machine.execAadd d a b s
  | .asub d a b => Sys2Proof.Machine.execAsub d a b s
  | .aaddi d a imm => Sys2Proof.Machine.execAaddi d a imm s
  | .amuli d a imm => Sys2Proof.Machine.execAmuli d a imm s
  | .ashl d a imm => Sys2Proof.Machine.execAshl d a imm s
  | .ashr d a imm => Sys2Proof.Machine.execAshr d a imm s
  | .aand d a b => Sys2Proof.Machine.execAand d a b s
  | .amov d a => Sys2Proof.Machine.execAmov d a s
  | .ali d imm => Sys2Proof.Machine.execAli d imm s
  | .alih d imm => Sys2Proof.Machine.execAlih d imm s
  | .acmp u cond pred a b => Sys2Proof.Machine.execAcmp u cond pred a b s
  | .apop d a => Sys2Proof.Machine.execApop d a s
  | .apush d a => Sys2Proof.Machine.execApush d a s
  | .acoord d a coord => Sys2Proof.Machine.execAcoord d a coord s
  | .ldz8 d a imm => Sys2Proof.Machine.execLdz8 d a imm s
  | .lds8 d a imm => Sys2Proof.Machine.execLds8 d a imm s
  | .ldz16 d a imm => Sys2Proof.Machine.execLdz16 d a imm s
  | .lds16 d a imm => Sys2Proof.Machine.execLds16 d a imm s
  | .ld32 d a imm => Sys2Proof.Machine.execLd32 d a imm s
  | .ld64 d a imm => Sys2Proof.Machine.execLd64 d a imm s
  | .st8 d a imm => Sys2Proof.Machine.execSt8 d a imm s
  | .st16 d a imm => Sys2Proof.Machine.execSt16 d a imm s
  | .st32 d a imm => Sys2Proof.Machine.execSt32 d a imm s
  | .st64 d a imm => Sys2Proof.Machine.execSt64 d a imm s
  | .loadDelivery core => Sys2Proof.Machine.execLoadDelivery core s
  | .storePerformed core => Sys2Proof.Machine.execStorePerformed core s
  | .ldrow r => Sys2Proof.Machine.execLdrow r s
  | .rowLoadLanded core => Sys2Proof.Machine.execRowLoadLanded core s
  | .strow r => Sys2Proof.Machine.execStrow r s
  | .ldfe d a imm => Sys2Proof.Machine.execLdfe d a imm s
  | .stfe d a imm => Sys2Proof.Machine.execStfe d a imm s
  | .ldrfe r => Sys2Proof.Machine.execLdrfe r s
  | .strfe r => Sys2Proof.Machine.execStrfe r s
  | .fullEmptyPerform core => Sys2Proof.Machine.execFullEmptyPerform core s
  | .probe w a b => Sys2Proof.Machine.execProbe w a b s
  | .faultRingPoll core => Sys2Proof.Machine.execFaultRingPoll core s
  | .copy f fill => Sys2Proof.Machine.execCopy f fill s
  | .copym f patch => Sys2Proof.Machine.execCopym f patch s
  | .mcast f coord hm1 wm1 => Sys2Proof.Machine.execMcast f coord hm1 wm1 s
  | .tfetch f nrm1 => Sys2Proof.Machine.execTfetch f nrm1 s
  | .sluiceRowFill core => Sys2Proof.Machine.execSluiceRowFill core s
  | .sacc f opc vtype nm1 wm1 => Sys2Proof.Machine.execSacc f opc vtype nm1 wm1 s
  | .gath f nm1 um1 ty => Sys2Proof.Machine.execGath f nm1 um1 ty s
  | .scat f nm1 um1 ty => Sys2Proof.Machine.execScat f nm1 um1 ty s
  | .gathmc f ntx nty tszm1 ty => Sys2Proof.Machine.execGathmc f ntx nty tszm1 ty s
  | .chain f ty dtype rm sat buse ncm1 nm1 => Sys2Proof.Machine.execChain f ty dtype rm sat buse ncm1 nm1 s
  | .chop d a b => Sys2Proof.Machine.execChop d a b s
  | .cmask f force => Sys2Proof.Machine.execCmask f force s
  | .tlist f => Sys2Proof.Machine.execTlist f s
  | .tokz f dict capm1 => Sys2Proof.Machine.execTokz f dict capm1 s
  | .ccvt f ntx nty cset ofmt => Sys2Proof.Machine.execCcvt f ntx nty cset ofmt s
  | .engineCommandStart core eng => Sys2Proof.Machine.execEngineCommandStart core eng s
  | .engineCommandComplete core eng => Sys2Proof.Machine.execEngineCommandComplete core eng s
  | .waitA f => Sys2Proof.Machine.execWaitA f s
  | .sigA tk => Sys2Proof.Machine.execSigA tk s
  | .awaitA tk => Sys2Proof.Machine.execAwaitA tk s
  | .nopV => Sys2Proof.Machine.execNopV s
  | .vadd f => Sys2Proof.Machine.execVadd f s
  | .vsub f => Sys2Proof.Machine.execVsub f s
  | .vmul f => Sys2Proof.Machine.execVmul f s
  | .vfma f => Sys2Proof.Machine.execVfma f s
  | .vfms f => Sys2Proof.Machine.execVfms f s
  | .vmin f => Sys2Proof.Machine.execVmin f s
  | .vmax f => Sys2Proof.Machine.execVmax f s
  | .vabs f => Sys2Proof.Machine.execVabs f s
  | .vneg f => Sys2Proof.Machine.execVneg f s
  | .vrcp f => Sys2Proof.Machine.execVrcp f s
  | .vrsq f => Sys2Proof.Machine.execVrsq f s
  | .vsqrt f => Sys2Proof.Machine.execVsqrt f s
  | .vexp f => Sys2Proof.Machine.execVexp f s
  | .vlog f => Sys2Proof.Machine.execVlog f s
  | .vtanh f => Sys2Proof.Machine.execVtanh f s
  | .vsigm f => Sys2Proof.Machine.execVsigm f s
  | .vcvt f => Sys2Proof.Machine.execVcvt f s
  | .vcmp f => Sys2Proof.Machine.execVcmp f s
  | .vsel f => Sys2Proof.Machine.execVsel f s
  | .vand f => Sys2Proof.Machine.execVand f s
  | .vor f => Sys2Proof.Machine.execVor f s
  | .vxor f => Sys2Proof.Machine.execVxor f s
  | .vnot f => Sys2Proof.Machine.execVnot f s
  | .vshl f => Sys2Proof.Machine.execVshl f s
  | .vshr f => Sys2Proof.Machine.execVshr f s
  | .vsra f => Sys2Proof.Machine.execVsra f s
  | .vadd64 f => Sys2Proof.Machine.execVadd64 f s
  | .vsub64 f => Sys2Proof.Machine.execVsub64 f s
  | .vcmp64 f => Sys2Proof.Machine.execVcmp64 f s
  | .vshl64 f => Sys2Proof.Machine.execVshl64 f s
  | .vshr64 f => Sys2Proof.Machine.execVshr64 f s
  | .vmov f => Sys2Proof.Machine.execVmov f s
  | .vbcast f => Sys2Proof.Machine.execVbcast f s
  | .vred f => Sys2Proof.Machine.execVred f s
  | .vscan f => Sys2Proof.Machine.execVscan f s
  | .vmerge f => Sys2Proof.Machine.execVmerge f s
  | .vcompact f => Sys2Proof.Machine.execVcompact f s
  | .vexpand f => Sys2Proof.Machine.execVexpand f s
  | .vperm f => Sys2Proof.Machine.execVperm f s
  | .vrot f => Sys2Proof.Machine.execVrot f s
  | .visab f => Sys2Proof.Machine.execVisab f s
  | .vmkab f => Sys2Proof.Machine.execVmkab f s
  | .vcnt f => Sys2Proof.Machine.execVcnt f s
  | .vseti f => Sys2Proof.Machine.execVseti f s
  | .viota f => Sys2Proof.Machine.execViota f s
  | .waitV f => Sys2Proof.Machine.execWaitV f s
  | .sigV tk => Sys2Proof.Machine.execSigV tk s
  | .awaitV tk => Sys2Proof.Machine.execAwaitV tk s
  | .nopM => Sys2Proof.Machine.execNopM s
  | .mlicAcq => Sys2Proof.Machine.execMlicAcq s
  | .mlicRel => Sys2Proof.Machine.execMlicRel s
  | .mlicTry => Sys2Proof.Machine.execMlicTry s
  | .licenceGrant pair => Sys2Proof.Machine.execLicenceGrant pair s
  | .tplld tpl row seg => Sys2Proof.Machine.execTplld tpl row seg s
  | .mx tpl fsel val => Sys2Proof.Machine.execMx tpl fsel val s
  | .sidePortCommand core => Sys2Proof.Machine.execSidePortCommand core s
  | .mzero acc => Sys2Proof.Machine.execMzero acc s
  | .mdrain f => Sys2Proof.Machine.execMdrain f s
  | .mmaExecute core => Sys2Proof.Machine.execMmaExecute core s
  | .mxposeExecute core => Sys2Proof.Machine.execMxposeExecute core s
  | .mzeroExecute core => Sys2Proof.Machine.execMzeroExecute core s
  | .mdrainExecute core => Sys2Proof.Machine.execMdrainExecute core s
  | .arrayCommandComplete core => Sys2Proof.Machine.execArrayCommandComplete core s
  | .waitM f => Sys2Proof.Machine.execWaitM f s
  | .sigM tk => Sys2Proof.Machine.execSigM tk s
  | .awaitM tk => Sys2Proof.Machine.execAwaitM tk s
  | .loop trip rot tsrc sm1 klen => Sys2Proof.Machine.execLoop trip rot tsrc sm1 klen s
  | .loopIterationEnd => Sys2Proof.Machine.execLoopIterationEnd s
  | .stage s_ => Sys2Proof.Machine.execStage s_ s
  | .br decA inv pred off => Sys2Proof.Machine.execBr decA inv pred off s
  | .j off => Sys2Proof.Machine.execJ off s
  | .call off => Sys2Proof.Machine.execCall off s
  | .ret => Sys2Proof.Machine.execRet s
  | .end_ => Sys2Proof.Machine.execEnd s
  | .bar cnt slot coord => Sys2Proof.Machine.execBar cnt slot coord s
  | .barArrival => Sys2Proof.Machine.execBarArrival s
  | .runnelRowSend core lo => Sys2Proof.Machine.execRunnelRowSend core lo s
  | .runnelRowArrive core lo => Sys2Proof.Machine.execRunnelRowArrive core lo s
  | .runnelCreditReturn core lo => Sys2Proof.Machine.execRunnelCreditReturn core lo s
  | .instanceComplete => Sys2Proof.Machine.execInstanceComplete s
  | .nevWindowEnd core => Sys2Proof.Machine.execNevWindowEnd core s
  | .numTrap => Sys2Proof.Machine.execNumTrap s
  | .gangTrapStop task => Sys2Proof.Machine.execGangTrapStop task s
  | .handlerDisposition task => Sys2Proof.Machine.execHandlerDisposition task s
  | .fatalContextError task => Sys2Proof.Machine.execFatalContextError task s
  | .dispatchDecision => Sys2Proof.Machine.execDispatchDecision s
  | .holdReached task => Sys2Proof.Machine.execHoldReached task s
  | .iterationLimitExpiry task => Sys2Proof.Machine.execIterationLimitExpiry task s
  | .taskReady task => Sys2Proof.Machine.execTaskReady task s
  | .eprioUpdate => Sys2Proof.Machine.execEprioUpdate s
  | .streamAged stream => Sys2Proof.Machine.execStreamAged stream s
  | .capacityNotice => Sys2Proof.Machine.execCapacityNotice s
  | .completionRecordWrite stream => Sys2Proof.Machine.execCompletionRecordWrite stream s
  | .completionRecordRetry stream => Sys2Proof.Machine.execCompletionRecordRetry stream s
  | .coreBasinLinkFault f => Sys2Proof.Machine.execCoreBasinLinkFault f s
  | .dataReplyArrival core reply => Sys2Proof.Machine.execDataReplyArrival core reply s
  | .recallArrival core order => Sys2Proof.Machine.execRecallArrival core order s
  | .migrationLineCopied part => Sys2Proof.Machine.execMigrationLineCopied part s
  | .networkDrain => Sys2Proof.Machine.execNetworkDrain s
  | .drainEnd => Sys2Proof.Machine.execDrainEnd s
  | .headerUncorrectable router dir pkt => Sys2Proof.Machine.execHeaderUncorrectable router dir pkt s
  | .requestRetransmit tag => Sys2Proof.Machine.execRequestRetransmit tag s
  | .hostBar2Access fn acc => Sys2Proof.Machine.execHostBar2Access fn acc s
  | .peerMessage aperture msg => Sys2Proof.Machine.execPeerMessage aperture msg s
  | .registerWrite fn offset value => Sys2Proof.Machine.execRegisterWrite fn offset value s
  | .controlInterval r => Sys2Proof.Machine.execControlInterval r s
  | .railRaiseComplete rail => Sys2Proof.Machine.execRailRaiseComplete rail s
  | .divisorChange core dom => Sys2Proof.Machine.execDivisorChange core dom s
  | .undervoltReflex rail dirtyLine => Sys2Proof.Machine.execUndervoltReflex rail dirtyLine s
  | .counterSample core counts => Sys2Proof.Machine.execCounterSample core counts s
  | .decodePeriod => Sys2Proof.Machine.execDecodePeriod s
  | .decodeTurnStart inst sl => Sys2Proof.Machine.execDecodeTurnStart inst sl s
  | .decodeQuantumExpiry inst => Sys2Proof.Machine.execDecodeQuantumExpiry inst s
  | .decodeTurnEnd inst us sl => Sys2Proof.Machine.execDecodeTurnEnd inst us sl s
  | .framePublish camera f => Sys2Proof.Machine.execFramePublish camera f s
  | .intakeSlotFreed camera => Sys2Proof.Machine.execIntakeSlotFreed camera s
  | .autoSubmit camera => Sys2Proof.Machine.execAutoSubmit camera s
  | .resetRelease b => Sys2Proof.Machine.execResetRelease b s
  | .functionLevelReset fn => Sys2Proof.Machine.execFunctionLevelReset fn s
  | .query fn => Sys2Proof.Machine.execQuery fn s
  | .partCfg fn c => Sys2Proof.Machine.execPartCfg fn c s
  | .streamCfg fn stream sctl crbase crsize => Sys2Proof.Machine.execStreamCfg fn stream sctl crbase crsize s
  | .submit fn stream addr => Sys2Proof.Machine.execSubmit fn stream addr s
  | .taskEnd fn task => Sys2Proof.Machine.execTaskEnd fn task s
  | .faultService fn task => Sys2Proof.Machine.execFaultService fn task s
  | .shootdown fn part range => Sys2Proof.Machine.execShootdown fn part range s
  | .migrate fn part page dest => Sys2Proof.Machine.execMigrate fn part page dest s
  | .fmtwin fn win ctl vbase vlim dbase abase => Sys2Proof.Machine.execFmtwin fn win ctl vbase vlim dbase abase s
  | .cameraCfg fn camera c => Sys2Proof.Machine.execCameraCfg fn camera c s
  | .cameraAu fn camera bus len pts => Sys2Proof.Machine.execCameraAu fn camera bus len pts s
  | .ccset fn part set c => Sys2Proof.Machine.execCcset fn part set c s
  | .dict fn part n ctl node edge nedge => Sys2Proof.Machine.execDict fn part n ctl node edge nedge s
  | .eventRing fn part base n => Sys2Proof.Machine.execEventRing fn part base n s
  | .counterRing fn part base n => Sys2Proof.Machine.execCounterRing fn part base n s
  | .peerJoin fn part aperture peer => Sys2Proof.Machine.execPeerJoin fn part aperture peer s
  | .clkCfg fn c => Sys2Proof.Machine.execClkCfg fn c s
  | .powerCfg fn rail enable celim => Sys2Proof.Machine.execPowerCfg fn rail enable celim s
  | .patchLoad fn addr => Sys2Proof.Machine.execPatchLoad fn addr s
  | .configWrite fn addr => Sys2Proof.Machine.execConfigWrite fn addr s
  | .attest fn nonce bus => Sys2Proof.Machine.execAttest fn nonce bus s
  | .linkQuery fn router dir => Sys2Proof.Machine.execLinkQuery fn router dir s
  | .unsupportedCommand fn op => Sys2Proof.Machine.execUnsupportedCommand fn op s
  | .skippedWordsWalk => Sys2Proof.Machine.execSkippedWordsWalk s
  | .notAnInstruction => Sys2Proof.Machine.execNotAnInstruction s
  | .illAtNextBoundary => Sys2Proof.Machine.execIllAtNextBoundary s
  | .headerCorrected router dir => Sys2Proof.Machine.execHeaderCorrected router dir s
  | .saveComplete task => Sys2Proof.Machine.execSaveComplete task s
  | .perstAssertion => Sys2Proof.Machine.execPerstAssertion s

end Sys2Proof.Machine
end

