-- ==== Sys2Proof/Machine/Turns.lean ====
section
/-! DEFINITION. Whose turn it is: the turns that the state lists, and where it lists none an order of the model's own (log entry 1); what a
turn does; and how an instruction is placed where the next step fetches. -/

namespace Sys2Proof.Machine

/-- The engines of a core. -/
def engines : List Engine := [.copy, .sluice, .confluence, .gather, .chain]

/-- The agents of a core besides its strands. -/
def coreAgents (c : Nat) (k : CoreSt) : List Instr :=
  [.loadDelivery c, .storePerformed c, .rowLoadLanded c, .fullEmptyPerform c, .faultRingPoll c, .sluiceRowFill c] ++
    engines.flatMap (fun e => [.engineCommandStart c e, .engineCommandComplete c e]) ++
    [.sidePortCommand c, .mmaExecute c, .mxposeExecute c, .mzeroExecute c, .mdrainExecute c, .arrayCommandComplete c] ++
    ([0, 1, 2, 3] : List (BitVec 2)).flatMap (fun l =>
      [.runnelRowSend c l, .runnelRowArrive c l, .runnelCreditReturn c l]) ++
    [.nevWindowEnd c] ++ (k.stash.filter (·.waiting)).map (fun x => .dataReplyArrival c (.line x.line false))

/-- The agents that act on a task. -/
def taskAgents (t : Task) : List Instr :=
  [.taskReady t.key, .gangTrapStop t.key, .fatalContextError t.key, .holdReached t.key, .saveComplete t.key, .iterationLimitExpiry t.key,
   .handlerDisposition t.key]

/-- Every turn that the device can take of itself: those that the world outside supplies with data are not among them. -/
def agentsOf (s : State) : List Turn :=
  let cores := s.cores.filter (fun e => e.2.resident)
  (List.replicate 8 (Turn.tick :: cores.flatMap (fun e =>
    strands.map (fun t => Turn.strand e.1 t) ++ [.agent (.divisorChange e.1 0), .agent (.divisorChange e.1 1), .agent (.divisorChange e.1 2),
      .agent (.divisorChange e.1 3)]))).flatten ++
  cores.flatMap (fun e => (coreAgents e.1 e.2).map (fun i => .agent i) ++ [.settle e.1]) ++
  (s.pairs.map (fun e => .agent (.licenceGrant e.1))) ++
  (s.tasks.filter (fun t => !(t.recordWritten))).flatMap (fun t => (taskAgents t).map (fun i => .agent i)) ++
  (s.streams.flatMap (fun e => [.agent (.completionRecordWrite e.1), .agent (.completionRecordRetry e.1), .agent (.streamAged e.1)])) ++
  (s.parts.filter (fun e => e.2.migration.isSome)).map (fun e => .agent (.migrationLineCopied e.1)) ++
  (s.rails.filter (fun e => e.2.raiseTo.isSome)).map (fun e => .agent (.railRaiseComplete e.1)) ++
  (s.outstanding.map (fun o => .agent (.requestRetransmit o.tag))) ++
  (s.cameras.flatMap (fun e => [.agent (.intakeSlotFreed e.1), .agent (.autoSubmit e.1)])) ++
  [.agent .eprioUpdate, .agent .capacityNotice, .agent .dispatchDecision, .agent .networkDrain, .agent .drainEnd]

/-- The next turn, and the state without it. -/
def takeTurn (s : State) : Turn × State :=
  match s.turns with
  | t :: r => (t, { s with turns := r })
  | [] =>
    let l := agentsOf s
    ((l[s.rr % l.length]?).getD .tick, { s with rr := s.rr + 1 })

/-- The steps that the turn of a strand takes besides its instructions. -/
def isStrandStep (i : Instr) : Bool :=
  match i with
  | .loopIterationEnd | .skippedWordsWalk | .notAnInstruction | .illAtNextBoundary | .numTrap | .barArrival | .instanceComplete => true
  | _ => false

/-- Whether a row of the opcode table is a step of an agent: it has no words, and is not a step of a strand's turn. -/
def isAgentStep (i : Instr) : Bool := (encode i).isEmpty && !isStrandStep i

/-- The tokens that an instruction waits for as it issues (R61, R62). -/
def awaited (i : Instr) (m : Mods) : List (BitVec 4) :=
  m.wait.toList ++
    (match i with
     | .awaitX t => [t]
     | .awaitA t => [t]
     | .awaitV t => [t]
     | .awaitM t => [t]
     | _ => [])

/-- Whether an instruction of a strand has issued: the strand has been taken past its word, A has come to its lines with a full/empty operation
(R62, R127), or its TRAP or BRK has been raised (R116). -/
def State.wentOn (s : State) (c : Nat) (u : Strand) (r : Res) : Bool :=
  match r with
  | .next t =>
    ((t.core c).strand u).walked != ((s.core c).strand u).walked || (u == .a && (s.core c).fe.isNone && (t.core c).fe.isSome) ||
      (t.taskOf c).elim false (fun g => g.traps.any (fun q => q.core == c && q.strand == u && q.asked))
  | _ => false

/-- Whether a strand would take a unit of a token in this cycle. -/
def State.takesToken (s : State) (c : Nat) (tk : BitVec 4) (u : Strand) : Bool :=
  match strandSoon s c u with
  | .run i s' => (awaited i s'.cx.mods).contains tk && s'.wentOn c u (exec i s')
  | .idle _ => false

/-- The strands that come before a strand in the order X, A, V, M. -/
def before (t : Strand) : List Strand := strands.take (strandNum t)

/-- Whether the unit of a token that a strand waits for goes to strands before its own (R61, R62). -/
def State.tokenGoes (s : State) (c : Nat) (t : Strand) (tk : BitVec 4) : Bool :=
  let n := ((before t).filter (s.takesToken c tk)).length
  n != 0 && ((s.core c).tk.get tk.toFin).toNat ≤ n

/-- Whether the units that an instruction waits for go to strands before its own (R61, R62). An instruction that takes none yet may meet what comes
before its wait part: an MX its checks and its licence (R208). -/
def State.outranked (s : State) (c : Nat) (t : Strand) (i : Instr) (s' : State) : Bool :=
  (awaited i s'.cx.mods).any (s.tokenGoes c t) && (i == .mlicAcq || s'.wentOn c t (exec i s'))

/-- The rows of the weir that a step reads or writes (R204): those whose full/empty bit it turns, with the bit's new value. -/
def weirMoves (s t : State) (p : Nat) : List (Nat × Bool) :=
  ((List.range 4).filter (fun i => (t.pair p).twFull.getD i false != (s.pair p).twFull.getD i false)).map (fun i => (i, (t.pair p).twFull.getD i false))

/-- What a strand of a core does in this cycle, with what it does to the state; none where it does nothing or its token goes to another. -/
def State.soon (s : State) (c : Nat) (t : Strand) : Option (Instr × State × Res) :=
  match strandSoon s c t with
  | .run i s' => if s.outranked c t i s' then none else some (i, s', exec i s')
  | .idle _ => none

/-- What the V strand and the array of a core would do now. -/
def State.weirUsers (s : State) (c : Nat) : List Res :=
  ((s.soon c .v).toList.map (·.2.2)) ++ [exec (.mmaExecute c) s, exec (.mxposeExecute c) s, exec (.mdrainExecute c) s]

/-- Of two requests that reach one row of the weir in the same cycle that of the z1 core is served first (R175, R204): whether a step of core c, of
outcome `r`, serves a row that its twin's V strand or array would serve now. -/
def State.weirYields (s : State) (c : Nat) (r : Res) : Bool :=
  128 ≤ c &&
    (match r with
     | .next t =>
       let l := weirMoves s t (pairOf c)
       !l.isEmpty && (s.weirUsers (twinOf c)).any (fun u =>
         match u with
         | .next v => (weirMoves s v (pairOf c)).any l.contains
         | _ => false)
     | _ => false)

/-- Whether a full/empty operation of core c has come over the network in this very cycle, in which the A strand that is local to its lines would
place one of the same direction at them, which is served first (R128). -/
def State.feYields (s : State) (c : Nat) : Bool :=
  (s.core c).fe.any (fun r =>
    r.at_ == s.cycle &&
      (match s.feLines c r with
       | some (d, _) =>
         d != c && (s.core d).fe.isNone &&
           (match s.soon d .a with
            | some (_, _, .next t) => t.feOlder c r
            | _ => false)
       | none => false))

/-- A state in which what the step asks for goes first to another of the same cycle, or does not. -/
def State.withLate (s : State) (b : Bool) : State := { s with cx := { s.cx with late := b } }

/-- Whether the z1 twin of a core takes the free licence in this cycle, in M or at its side port, and so comes before it (R201). -/
def State.twinTakes (s : State) (c : Nat) : Bool :=
  128 ≤ c && (s.pair (pairOf c)).holder.isNone &&
    (((s.soon (twinOf c) .m).toList.map (·.2.2)) ++ [exec (.sidePortCommand (twinOf c)) (s.withLate false)]).any (fun r =>
      match r with
      | .next t => (t.pair (pairOf c)).holder == some (twinOf c)
      | _ => false)

/-- Whether an agent's step gives way to another of the same cycle: to the twin at the weir, or, in a grant of the licence, to the strand that the
token of the MLIC.ACQ goes to. -/
def State.agentYields (s : State) (i : Instr) : Bool :=
  match i with
  | .mmaExecute c => s.weirYields c (exec i s)
  | .mxposeExecute c => s.weirYields c (exec i s)
  | .mdrainExecute c => s.weirYields c (exec i s)
  | .licenceGrant p =>
    (s.licAsked p).head?.any (fun c =>
      match strandSoon s c .m with
      | .run .mlicAcq u => s.outranked c .m .mlicAcq u
      | _ => false)
  | _ => false

/-- Whether what an agent's step asks for goes first to another of the same cycle: the lines of a full/empty operation to the local A (R128), the
licence to the z1 twin (R201). -/
def State.agentLate (s : State) (i : Instr) : Bool :=
  match i with
  | .fullEmptyPerform c => s.feYields c
  | .headerUncorrectable _ _ (.reply tag) => (s.outstanding.find? (fun o => o.tag == tag)).any (fun o => s.feYields o.core)
  | .sidePortCommand c => s.twinTakes c
  | _ => false

/-- Whether what a strand's turn comes to gives way to another of the same cycle: its token goes to an earlier strand, or its twin is served first at
the weir. -/
def State.yields (s : State) (c : Nat) (t : Strand) (i : Instr) (s' : State) : Bool :=
  s.outranked c t i s' || (t == .v && s.weirYields c (exec i s'))

/-- What a turn does: of L2, that it drops a line which no sluice pins (R169, R242); of a strand or an agent, its move, unless what it needs goes to
another of the same cycle (R61, R128, R175, R201). -/
def runTurn (t : Turn) (s : State) : Res :=
  match t with
  | .tick => .next s.tick
  | .settle c => .next (s.settle c)
  | .evict line =>
    .next (if s.cores.any (fun e => e.2.resident && s.pinsLine e.1 line) then s
      else { s with viewLines := s.viewLines.filter (fun e => e.1 != line) })
  | .agent i =>
    if !isAgentStep i then .fault .noSuchTurn else if s.agentYields i then .next s else exec i (s.withLate (s.agentLate i))
  | .strand c t =>
    if c < 256 then
      match strandTurn s c t with
      | .idle s' => .next s'
      | .run i s' => if s.yields c t i s' then .next s else exec i (s'.withLate (t == .m && s.twinTakes c))
    else .fault .noSuchTurn

/-- The strand that executes a word, by its tag (R40): X for a word of every strand or of none. -/
def strandOfTag (w : Word) : Strand :=
  match (tagOf w).toNat with
  | 1 => .a
  | 2 => .v
  | 3 => .m
  | _ => .x

/-- A strand at the first word of a prologue. -/
def StrandSt.atStart (t : StrandSt) : StrandSt :=
  { t with pc := 0, walked := 0, phase := .prologue, loops := [], ret := [], holding := false, atEnd := false, atBar := false, sigDue := [],
           fetched := some 0 }

/-- A core whose text is one block that begins with two given words, its strands at the first. -/
def CoreSt.withText (k : CoreSt) (w p : Word) : CoreSt :=
  { k with
    resident := true
    text := [w, p, 0, 0, 0, 0, 0, 0]
    tbase := 0
    x := k.x.atStart
    a := k.a.atStart
    v := k.v.atStart
    m := k.m.atStart
    slipw := 256
    hold := .none
    fe := none
    mIll := none
    nev := { k.nev with due := [], fresh := [] } }

/-- Core 0 with a task of its own, running, as its gang. -/
def State.withTask (s : State) : State :=
  let k := s.core 0
  let s := if (s.taskOf 0).isSome then s
    else
      { s.setCore 0 { k with task := 1, part := 0, resident := true } with
        tasks := s.tasks.filter (fun t => !(t.part == 0 && t.id == 1)) ++
          [{ Task.reset with id := 1, part := 0, phase := .running, running := true, dispatched := true, cores := [0] }] }
  s.modTaskOf 0 (fun t => { t with traps := [], fatal := none, saving := false })

/-- A state whose next turn is that of the strand of core 0 that executes a first word, at that word. -/
def State.withWords (s : State) (w p : Word) : State :=
  { s.withTask.modCore 0 (fun k => k.withText w p) with turns := [.strand 0 (strandOfTag w)] }

end Sys2Proof.Machine
end

