-- ==== Sys2Proof/Machine/Bar0.lean ====
section
/-! DEFINITION. What the host reads from the registers of BAR0 (R166, R280, R306, R316, R318, R338, R339, R342). Such a read changes nothing,
and no step stands for it (log entry 12). -/

namespace Sys2Proof.Machine

/-- A bit at a place. -/
def bitAt (b : Bool) (i : Nat) : Nat := if b then 2 ^ i else 0

/-- A rail's register (R339): MAXOFF reads the margin while undervolting is enabled (R352). -/
def Rail.register (r : Rail) : Nat :=
  (if r.undervolt then r.margin else 0) * 2 ^ 16 + r.offset * 2 ^ 12 + r.cur * 2 ^ 8 + r.level

/-- The device status block (R339). -/
def State.deviceStatus (s : State) (off : Nat) : Nat :=
  if off = 0 then s.failcode * 2 ^ 8 + s.bootState
  else if off = 0x008 then s.patchver.toNat * 2 ^ 32 + s.romver.toNat
  else if off < 0x030 then s.wdrawn ((off - 0x010) / 8)
  else if off = 0x030 then ((List.range 16).map (fun r => (s.rail r).cur)).foldl max 0 * 2 ^ 8 + s.thermal
  else if 0x040 ≤ off ∧ off < 0x0C0 then (s.rail ((off - 0x040) / 8)).register
  else 0

/-- The mailbox of a function (R342). -/
def Mailbox.register (m : Mailbox) (off : Nat) : Nat :=
  if off = 0x008 then bitAt m.done 1 + bitAt m.busy 0
  else if 0x100 ≤ off ∧ off < 0x200 then (tget 0 m.cmd ((off - 0x100) / 8)).toNat
  else if 0x200 ≤ off ∧ off < 0x300 then (tget 0 m.rsp ((off - 0x200) / 8)).toNat
  else 0

/-- The registers of a format window (R166). -/
def Window.register (v : Window) (off : Nat) : Nat :=
  match off with
  | 0x00 => bitAt v.en 63 + v.form * 2 ^ 28 + v.cfmt.toNat * 2 ^ 24
  | 0x08 => v.vbase
  | 0x10 => v.vlim
  | 0x18 => v.data
  | 0x20 => v.aux
  | 0x28 => v.satcnt
  | _ => 0

/-- The entry of a stream (R280). -/
def Stream.register (q : Stream) (off : Nat) : Nat :=
  match off with
  | 0x00 => q.spill * 2 ^ 32 + q.age * 2 ^ 16 + q.weight * 2 ^ 8 + bitAt q.en 0
  | 0x08 => q.crbase
  | 0x10 => q.cons.toNat * 2 ^ 32 + q.prod.toNat
  | 0x18 => q.l2ent
  | _ => 0

/-- The entry of a camera stream (R306). -/
def Camera.register (c : Camera) (off : Nat) : Nat :=
  match off with
  | 0x00 => c.lat * 2 ^ 40 + c.nslot * 2 ^ 32 + c.budget * 2 ^ 16 + c.inst * 2 ^ 11 + c.cset * 2 ^ 7 + c.ofmt * 2 ^ 5 + bitAt c.conv 4 +
      bitAt c.auto 3 + c.codec * 2 + bitAt c.en 0
  | 0x08 => c.part * 2 ^ 36 + c.maxh * 2 ^ 16 + c.maxw
  | 0x10 => c.fbase
  | 0x18 => c.slotSize * 2 ^ 12
  | 0x20 => c.kbase
  | 0x28 => c.rcd
  | 0x30 => c.tstream
  | 0x38 => c.state * 2 ^ 48 + c.convsat * 2 ^ 32 + c.latecnt
  | _ => 0

/-- A register of 32 bits of a conversion set (R316). -/
def CcSet.register (S : CcSet) (i : Nat) : Nat :=
  if i = 0 then bitAt S.en 0 else ((S.m ++ S.off ++ S.mean ++ S.scl).getD (i - 1) 0).toNat

/-- The registers of a dictionary (R318). -/
def Dict.register (d : Dict) (off : Nat) : Nat :=
  match off with
  | 0x00 => d.nnodes
  | 0x08 => d.node
  | 0x10 => d.edge
  | 0x18 => d.nedges
  | _ => 0

/-- What a function reads from eight bytes of BAR0 at a multiple of 8 (R338): for a VF the blocks and entries of other partitions, and those
of the PF alone, read as zero. -/
def State.bar0 (s : State) (fn off : Nat) : Nat :=
  let mine := fun (part : Nat) => fn = pfFn ∨ part = fn
  if off < 0x1000 then s.deviceStatus off
  else if off < 0x2000 then (s.mailbox fn).register (off - 0x1000)
  else if 0x10000 ≤ off ∧ off < 0x10400 then (if fn = pfFn then (s.window ((off - 0x10000) / 0x40)).register (off % 0x40) else 0)
  else if 0x20000 ≤ off ∧ off < 0x40000 then
    let q := s.stream ((off - 0x20000) / 0x20)
    (if mine q.part then q.register (off % 0x20) else 0)
  else if 0x40000 ≤ off ∧ off < 0x44000 then
    let c := s.camera ((off - 0x40000) / 0x40)
    (if mine c.part then c.register (off % 0x40) else 0)
  else if 0x50000 ≤ off ∧ off < 0x58000 then
    let p := (off - 0x50000) / 0x800
    let n := off % 0x800 / 0x50
    let S := tget CcSet.reset (s.part p).ccsets n
    let i := off % 0x800 % 0x50 / 4
    (if mine p ∧ n < 16 then S.register (i + 1) * 2 ^ 32 + S.register i else 0)
  else if 0x60000 ≤ off ∧ off < 0x60800 then
    let p := (off - 0x60000) / 0x80
    (if mine p then (tget Dict.reset (s.part p).dicts (off % 0x80 / 0x20)).register (off % 0x20) else 0)
  else 0

end Sys2Proof.Machine
end

