-- ==== Sys2Proof/WellFormed.lean ====
section
/-! DEFINITION. Which terms of Instr are instructions of the text, in their one form: the terms that a decoder answers. -/

namespace Sys2Proof

/-- The register indices of WRSYS that have a row, and a constructor, of their own (R35, R163, R164). -/
def wrsysOwnRow (idx : BitVec 8) : Bool :=
  idx == 0x06 || idx == 0x40 || idx == 0x42 || (0x44 ≤ idx.toNat && idx.toNat ≤ 0x49)

/-- A well-formed instruction of the text: a step of an agent is none; an index of RDSYS or WRSYS that has a constructor of its own is not
written with the general one; NEVCNT_WRITE names one of six counters (R163); the reserved bits of TRIPV are zero (R51). -/
def WellFormed : Instr → Bool
  | .loadDelivery _ => false
  | .storePerformed _ => false
  | .rowLoadLanded _ => false
  | .fullEmptyPerform _ => false
  | .faultRingPoll _ => false
  | .sluiceRowFill _ => false
  | .engineCommandStart _ _ => false
  | .engineCommandComplete _ _ => false
  | .licenceGrant _ => false
  | .sidePortCommand _ => false
  | .mmaExecute _ => false
  | .mxposeExecute _ => false
  | .mzeroExecute _ => false
  | .mdrainExecute _ => false
  | .arrayCommandComplete _ => false
  | .loopIterationEnd => false
  | .barArrival => false
  | .runnelRowSend _ _ => false
  | .runnelRowArrive _ _ => false
  | .runnelCreditReturn _ _ => false
  | .instanceComplete => false
  | .nevWindowEnd _ => false
  | .numTrap => false
  | .gangTrapStop _ => false
  | .handlerDisposition _ => false
  | .fatalContextError _ => false
  | .dispatchDecision => false
  | .holdReached _ => false
  | .iterationLimitExpiry _ => false
  | .taskReady _ => false
  | .eprioUpdate => false
  | .streamAged _ => false
  | .capacityNotice => false
  | .completionRecordWrite _ => false
  | .completionRecordRetry _ => false
  | .coreBasinLinkFault _ => false
  | .dataReplyArrival _ _ => false
  | .recallArrival _ _ => false
  | .migrationLineCopied _ => false
  | .networkDrain => false
  | .drainEnd => false
  | .headerUncorrectable _ _ _ => false
  | .requestRetransmit _ => false
  | .hostBar2Access _ _ => false
  | .peerMessage _ _ => false
  | .registerWrite _ _ _ => false
  | .controlInterval _ => false
  | .railRaiseComplete _ => false
  | .divisorChange _ _ => false
  | .undervoltReflex _ _ => false
  | .counterSample _ _ => false
  | .decodePeriod => false
  | .decodeTurnStart _ _ => false
  | .decodeQuantumExpiry _ => false
  | .decodeTurnEnd _ _ _ => false
  | .framePublish _ _ => false
  | .intakeSlotFreed _ => false
  | .autoSubmit _ => false
  | .resetRelease _ => false
  | .functionLevelReset _ => false
  | .query _ => false
  | .partCfg _ _ => false
  | .streamCfg _ _ _ _ _ => false
  | .submit _ _ _ => false
  | .taskEnd _ _ => false
  | .faultService _ _ => false
  | .shootdown _ _ _ => false
  | .migrate _ _ _ _ => false
  | .fmtwin _ _ _ _ _ _ _ => false
  | .cameraCfg _ _ _ => false
  | .cameraAu _ _ _ _ _ => false
  | .ccset _ _ _ _ => false
  | .dict _ _ _ _ _ _ _ => false
  | .eventRing _ _ _ _ => false
  | .counterRing _ _ _ _ => false
  | .peerJoin _ _ _ _ => false
  | .clkCfg _ _ => false
  | .powerCfg _ _ _ _ => false
  | .patchLoad _ _ => false
  | .configWrite _ _ => false
  | .attest _ _ _ => false
  | .linkQuery _ _ _ => false
  | .unsupportedCommand _ _ => false
  | .skippedWordsWalk => false
  | .notAnInstruction => false
  | .illAtNextBoundary => false
  | .headerCorrected _ _ => false
  | .saveComplete _ => false
  | .perstAssertion => false
  | .rdsys _ idx => idx != 0x0B
  | .wrsys _ idx => !wrsysOwnRow idx
  | .nevcntWrite n _ => n.toNat < 6
  | .loop trip _ tsrc _ _ => !tripReserved tsrc trip
  | .nopX => true
  | .add _ _ _ => true
  | .sub _ _ _ => true
  | .addi _ _ _ => true
  | .mul _ _ _ => true
  | .mulh _ _ _ => true
  | .mulhz _ _ _ => true
  | .div _ _ _ => true
  | .divz _ _ _ => true
  | .rem _ _ _ => true
  | .remz _ _ _ => true
  | .and_ _ _ _ => true
  | .or_ _ _ _ => true
  | .xor _ _ _ => true
  | .andn _ _ _ => true
  | .shl _ _ _ => true
  | .shr _ _ _ => true
  | .sra _ _ _ => true
  | .min _ _ _ => true
  | .max _ _ _ => true
  | .minz _ _ _ => true
  | .maxz _ _ _ => true
  | .clz _ _ => true
  | .popc _ _ => true
  | .extb _ _ _ => true
  | .exth _ _ _ => true
  | .bfx _ _ _ _ _ => true
  | .bfi _ _ _ _ _ => true
  | .cmp _ _ _ _ _ => true
  | .sel _ _ _ _ => true
  | .mov _ _ => true
  | .li _ _ => true
  | .add64 _ _ _ => true
  | .sub64 _ _ _ => true
  | .shl64 _ _ _ => true
  | .shr64 _ _ _ => true
  | .sra64 _ _ _ => true
  | .cmp64 _ _ _ _ _ => true
  | .mov64 _ _ => true
  | .li64 _ _ => true
  | .waitX _ => true
  | .sigX _ => true
  | .awaitX _ => true
  | .qbindBind _ _ _ => true
  | .qbindUnbind _ => true
  | .qdepth _ _ => true
  | .spawn _ _ _ => true
  | .spawnNb _ _ _ => true
  | .tstat _ _ => true
  | .trap _ => true
  | .brk _ => true
  | .rdcap _ _ => true
  | .timelRead _ => true
  | .slipwWrite _ => true
  | .nevcfgWrite _ => true
  | .nevstatClear _ => true
  | .clkdiv _ _ _ => true
  | .pace _ _ => true
  | .nopA => true
  | .aadd _ _ _ => true
  | .asub _ _ _ => true
  | .aaddi _ _ _ => true
  | .amuli _ _ _ => true
  | .ashl _ _ _ => true
  | .ashr _ _ _ => true
  | .aand _ _ _ => true
  | .amov _ _ => true
  | .ali _ _ => true
  | .alih _ _ => true
  | .acmp _ _ _ _ _ => true
  | .apop _ _ => true
  | .apush _ _ => true
  | .acoord _ _ _ => true
  | .ldz8 _ _ _ => true
  | .lds8 _ _ _ => true
  | .ldz16 _ _ _ => true
  | .lds16 _ _ _ => true
  | .ld32 _ _ _ => true
  | .ld64 _ _ _ => true
  | .st8 _ _ _ => true
  | .st16 _ _ _ => true
  | .st32 _ _ _ => true
  | .st64 _ _ _ => true
  | .ldrow _ => true
  | .strow _ => true
  | .ldfe _ _ _ => true
  | .stfe _ _ _ => true
  | .ldrfe _ => true
  | .strfe _ => true
  | .probe _ _ _ => true
  | .copy _ _ => true
  | .copym _ _ => true
  | .mcast _ _ _ _ => true
  | .tfetch _ _ => true
  | .sacc _ _ _ _ _ => true
  | .gath _ _ _ _ => true
  | .scat _ _ _ _ => true
  | .gathmc _ _ _ _ _ => true
  | .chain _ _ _ _ _ _ _ _ => true
  | .chop _ _ _ => true
  | .cmask _ _ => true
  | .tlist _ => true
  | .tokz _ _ _ => true
  | .ccvt _ _ _ _ _ => true
  | .waitA _ => true
  | .sigA _ => true
  | .awaitA _ => true
  | .nopV => true
  | .vadd _ => true
  | .vsub _ => true
  | .vmul _ => true
  | .vfma _ => true
  | .vfms _ => true
  | .vmin _ => true
  | .vmax _ => true
  | .vabs _ => true
  | .vneg _ => true
  | .vrcp _ => true
  | .vrsq _ => true
  | .vsqrt _ => true
  | .vexp _ => true
  | .vlog _ => true
  | .vtanh _ => true
  | .vsigm _ => true
  | .vcvt _ => true
  | .vcmp _ => true
  | .vsel _ => true
  | .vand _ => true
  | .vor _ => true
  | .vxor _ => true
  | .vnot _ => true
  | .vshl _ => true
  | .vshr _ => true
  | .vsra _ => true
  | .vadd64 _ => true
  | .vsub64 _ => true
  | .vcmp64 _ => true
  | .vshl64 _ => true
  | .vshr64 _ => true
  | .vmov _ => true
  | .vbcast _ => true
  | .vred _ => true
  | .vscan _ => true
  | .vmerge _ => true
  | .vcompact _ => true
  | .vexpand _ => true
  | .vperm _ => true
  | .vrot _ => true
  | .visab _ => true
  | .vmkab _ => true
  | .vcnt _ => true
  | .vseti _ => true
  | .viota _ => true
  | .waitV _ => true
  | .sigV _ => true
  | .awaitV _ => true
  | .nopM => true
  | .mlicAcq => true
  | .mlicRel => true
  | .mlicTry => true
  | .tplld _ _ _ => true
  | .mx _ _ _ => true
  | .mzero _ => true
  | .mdrain _ => true
  | .waitM _ => true
  | .sigM _ => true
  | .awaitM _ => true
  | .stage _ => true
  | .br _ _ _ _ => true
  | .j _ => true
  | .call _ => true
  | .ret => true
  | .end_ => true
  | .bar _ _ _ => true

end Sys2Proof
end

