-- ==== Sys2Proof/Safety.lean ====
section
/-! DEFINITION. What a safe step and a sound state are, and the words in which the statements speak of a machine: when an instruction issues,
what it leaves, and what stays as it was. -/

namespace Sys2Proof.Machine

/-- A step that goes on: it neither faults nor is refused. -/
def Goes (s : State) : Prop := ∃ s', step s = .next s'

/-- The memory of the device is in its canonical form. -/
def State.memWf (s : State) : Prop := s.mem.wf = true

/-- The instruction that issues stands where one may stand, carries no RS prefix that its strand refuses, and the unit of its TK prefix is there: `u` is
the state with that unit taken (R49, R62, R81). -/
def Admits (s u : State) : Prop := rsFault s = [] ∧ takeWait s = .ok u

/-- The instruction that issues is admitted, and the token that it is to signal as it retires has room (R39, R62, R137). -/
def Ready (s u : State) : Prop := Admits s u ∧ u.sigStuck = false

/-- The state after an instruction that leaves its core as `k`: the strand has passed it (R41, R62). -/
def After (u : State) (k : CoreSt) : State := retire (u.setCore u.cx.core k)

/-- Two states are the same outside the core that issues, but for what the tasks record of traps and of fatal errors. -/
def SameOutside (s s' : State) : Prop :=
  s' = { s with cores := s'.cores, tasks := s'.tasks } ∧ (∀ c, c ≠ s.cx.core → s'.core c = s.core c) ∧
    s'.tasks.map (fun t => { t with traps := [], fatal := none }) = s.tasks.map (fun t => { t with traps := [], fatal := none })

/-- A strand has only gone on: its place changes; its predicates, stacks and queues stay. -/
def WentOn (t t' : StrandSt) : Prop := t' = { t with pc := t'.pc, walked := t'.walked, atEnd := t'.atEnd }

/-- A strand of a core is to walk on: it owes no signal, its instance is not complete, it neither stands still nor has a trap due nor stands at the
end of a body, at a BAR, at a full/empty operation or at its hold point (R40, R50, R52, R57, R58, R127, R137, R165, R210). -/
def AtWord (s : State) (c : Nat) (t : Strand) : Prop :=
  ((s.core c).strand t).sigDue = [] ∧ (s.core c).instanceDone = false ∧ s.strandStill c t = false ∧ (s.core c).numDue t = false ∧
    (t = .m → (s.core c).mIll = none) ∧ ((s.core c).strand t).atEnd = false ∧ ((s.core c).strand t).atBar = false ∧
    (t = .a → (s.core c).fe = none) ∧ (s.core c).holdsHere t = false

/-- A strand of a core has the block that its next word lies in (R42). -/
def HasBlock (s : State) (c : Nat) (t : Strand) : Prop :=
  ((s.core c).strand t).fetched = some ((s.core c).textIdx ((s.core c).strand t).pc / 8)

/-- A strand of a core is free to walk on. -/
def MayWalk (s : State) (c : Nat) (t : Strand) : Prop := AtWord s c t ∧ HasBlock s c t

/-- The gang of a core has met a fatal context error of a kind at an address, its first, and memory is as it was (R294). -/
def Failed (s t : State) (c kind addr : Nat) : Prop :=
  t.mem = s.mem ∧ ∀ g, s.taskOf c = some g → g.fatal = none → ∃ g', t.taskOf c = some g' ∧ g'.fatal = some (kind, addr)

/-- What lies outside n bytes at a key is as it was, but for engine writes that were pending in the units of 8 bytes that they touch (R256, R263; log
entry 69). -/
def OnlyAt (s t : State) (key n : Nat) : Prop :=
  ∀ j, j < key ∨ key + n ≤ j → (∀ e ∈ s.cores, ∀ p ∈ e.2.ebuf, p.1 = j → sameUnits key n j = false) → mget t.mem j = mget s.mem j

/-- The word at which a strand stands may run: the slip window admits it and it is not suppressed (R43, R52). -/
def AtPlainWord (s : State) (c : Nat) (t : Strand) (w : Word) : Prop :=
  ((s.core c).applySlip t).slipOk ((s.core c).strand t) (if selOf w = 1 then 2 else 1) = true ∧ (s.core c).suppressed ((s.core c).strand t) = false

/-- The state in which a strand's turn issues an instruction: the turn is taken, the issue register holds the address of the group's first word
and of the head, the address after the group, its words and its modifiers, and whether the kernel begins with it although it is no LOOP (R49); a
pending SLIPW is applied (R35). -/
def issuing (s : State) (r : List Turn) (c : Nat) (t : Strand) (pc head : BitVec 32) (n : Nat) (m : Mods) (i : Instr) : State :=
  { s with
    turns := r
    cx := { core := c, strand := t, pc := pc, head := head, next := ((s.core c).strand t).pc + BitVec.ofNat 32 (4 * n), words := n, mods := m,
            cause := .brokenWord, misplaced := (s.core c).atKernel ((s.core c).strand t) && !isLoop i,
            late := false } }.setCore c ((s.core c).applySlip t)

/-- An access of A may enter its order: its outstanding counter has room, the scoreboard lets it pass, and its first byte passes the checks of
R122 (R121, R235). -/
def MayPlace (v : State) (op : AccessOp) (ea : Dword) : Prop :=
  (if op.writes then v.cxCore.stores else v.cxCore.loads) ≠ 255 ∧ v.scoreBusy v.cx.core ea.toNat op.size op.writes = false ∧
    ∃ key, v.keyOf v.cx.core ea.toNat op.writes = .ok key

/-- An access of A has entered its order behind all others, with the signal of its instruction; its counter counts it; A has gone on. Nothing has
been read or written: memory, the registers, queues and rows of its core, and every other core, are as they were. -/
def Placed (v t : State) (op : AccessOp) (ea : Dword) : Prop :=
  t.cxCore.aq = v.cxCore.aq ++ [{ id := v.cxCore.nextId, op := op, ea := ea, sig := v.cx.mods.sig, done := 0, got := [] }] ∧
    t.cxCore.loads = (if op.writes then v.cxCore.loads else v.cxCore.loads + 1) ∧
    t.cxCore.stores = (if op.writes then v.cxCore.stores + 1 else v.cxCore.stores) ∧
    t.cxStrand.pc = v.cx.next ∧ t.mem = v.mem ∧ t.tasks = v.tasks ∧ t.cxCore.ar = v.cxCore.ar ∧ t.cxCore.ax = v.cxCore.ax ∧
    t.cxCore.xa = v.cxCore.xa ∧ t.cxCore.tile = v.cxCore.tile ∧ t.cxCore.o = v.cxCore.o ∧ t.cxCore.tk = v.cxCore.tk ∧
    ∀ c, c ≠ v.cx.core → t.core c = v.core c

/-- A full/empty operation waits at its lines (R127), once its token is taken in `s`: it is counted, A stands where it stood, no other token has moved, its
entries in xa0 and xa1 stay, and nothing has been read or written. -/
def Awaits (s t : State) (k : CoreSt) (op : AccessOp) (ea : Dword) (pops : Nat × Nat) : Prop :=
  t.cxCore.fe = some { id := k.nextId, op := op, ea := ea, sig := s.cx.mods.sig, wait := s.cx.mods.wait, pops := pops, next := s.cx.next,
                       words := s.cx.words, order := s.feOrder, at_ := s.cycle } ∧
    t.feOrder = s.feOrder + 1 ∧ t.cxCore.loads = (if op.writes then k.loads else k.loads + 1) ∧
    t.cxCore.stores = (if op.writes then k.stores + 1 else k.stores) ∧ t.cxCore.xa = s.cxCore.xa ∧ t.cxCore.tk = k.tk ∧
    t.cxStrand.pc = (k.strand s.cx.strand).pc ∧ t.cxStrand.walked = (k.strand s.cx.strand).walked ∧ t.mem = s.mem ∧ t.tasks = s.tasks ∧
    ∀ c, c ≠ s.cx.core → t.core c = s.core c

/-- A full/empty operation may wait: its counter has room, its ranges are free, its address lies in a scratchpad window and is aligned. -/
def MayAwait (s : State) (op : AccessOp) (ea : Dword) : Prop := MayPlace s op ea ∧ inSpad ea.toNat = true ∧ ea.toNat % op.size = 0

/-- The number that bytes are, extended to 64 bits by sign or by zero (R121). -/
def extended (signed : Bool) (bs : List Byte) : Dword :=
  let v := natOfBytes bs
  if signed = true ∧ 2 ^ (8 * bs.length) ≤ 2 * v then BitVec.ofInt 64 ((v : Int) - (2 : Int) ^ (8 * bs.length)) else BitVec.ofNat 64 v

/-- An engine command enters its queue when its encoding and the values of its operands are legal and there is room: a place in the queue, a
count below 255, an entry of the scoreboard, and lines of the sluice for a fetch of `pins` rows (R233 to R236, R242). It enters with its operation
on the values that its operands hold as it issues, its scope, its flags, its signal and its ranges; its copies are counted, and neither memory
nor another core changes. -/
def EngineTakes (i : Instr) (e : Engine) (f : FE) (useD : Bool) (pins : Nat) (legal : State → Dword → Dword → Dword → Prop)
    (op : State → Dword → Dword → Dword → EngOp) (reads writes : State → Dword → Dword → Dword → List Range) : Prop :=
  ∀ s u d a b, takeWait s = .ok u → s.cx.misplaced = false → s.cxCore.chain = none → scopeFaults f = [] → (useD = true → readFE s.cxCore f.ad = .ok d) →
    readFE s.cxCore f.as1 = .ok a → readFE s.cxCore f.as2 = .ok b → legal s d a b → (u.cxCore.engine e).queue.length < 16 →
    u.cxCore.copies ≠ 255 → u.cxCore.entries < 16 → u.cxCore.pinned + 2 * pins ≤ 64 →
    ∃ t m, exec i s = .next t ∧ (t.cxCore.engine e).queue = (u.cxCore.engine e).queue ++ [m] ∧ m.op = op s d a b ∧ m.scope = f.scope ∧
      (m.rel = true ↔ f.rel = 1) ∧ (m.acq = true ↔ f.acq = 1) ∧ m.sig = s.cx.mods.sig ∧ m.reads = reads s d a b ∧ m.writes = writes s d a b ∧
      m.entry = !(m.reads.isEmpty && m.writes.isEmpty) ∧ t.cxCore.copies = u.cxCore.copies + 1 ∧ (t.cxCore.engine e).active = (u.cxCore.engine e).active ∧
      t.cxStrand.pc = s.cx.next ∧ t.mem = s.mem ∧ t.tasks = s.tasks ∧ ∀ c, c ≠ s.cx.core → t.core c = s.core c

/-! What an engine's command does, byte by byte. -/

/-- Translation stands still while a command of core c runs: its TLB holds what the tables of its partition give, and no line of its stash is
marked uncorrectable (R231, R296, R297). -/
def Calm (s : State) (c : Nat) : Prop :=
  (∀ e ∈ (s.core c).tlb, ∀ va, e.covers va = true → s.walkPages (s.core c).part va = .ok e) ∧ ∀ x ∈ (s.core c).stash, x.marked = false

/-- Core c may read these bytes at an address, and sees them there: no byte is marked or lies in a view (R122, R236). -/
def Sees (s : State) (c : Nat) (ea : Dword) (bs : List Byte) : Prop :=
  ∀ i, i < bs.length → ∃ key, s.keyOf c (addrPlus ea i) false = .ok key ∧ paKind key ≠ .view ∧ s.badAt key 1 = false ∧
    s.coreByte c key = bs.getD i 0

/-- Core c may write n bytes at an address, and they are n different bytes of memory. -/
def Writes (s : State) (c : Nat) (ea : Dword) (n : Nat) : Prop :=
  (∀ i, i < n → ∃ key, s.keyOf c (addrPlus ea i) true = .ok key) ∧
    ∀ i j, i < n → j < n → s.keyOf c (addrPlus ea i) true = s.keyOf c (addrPlus ea j) true → i = j

/-- None of the n bytes at an address that core c may write lies in one of some ranges that it reads. -/
def Apart (s : State) (c : Nat) (ea : Dword) (n : Nat) (l : List (Dword × Nat)) : Prop :=
  ∀ i, i < n → ∀ key, s.keyOf c (addrPlus ea i) true = .ok key → ∀ p ∈ l, ∀ j, j < p.2 → s.keyOf c (addrPlus p.1 j) false ≠ .ok key

/-- Core c sees in `t` these bytes where an address led it in `s`. -/
def Lands (s t : State) (c : Nat) (ea : Dword) (bs : List Byte) : Prop :=
  ∀ i, i < bs.length → ∀ key, s.keyOf c (addrPlus ea i) true = .ok key → t.coreByte c key = bs.getD i 0

/-- Core c sees every byte outside some ranges as it did. -/
def Spares (s t : State) (c : Nat) (l : List (Dword × Nat)) : Prop :=
  ∀ key, (∀ p ∈ l, ∀ j, j < p.2 → s.keyOf c (addrPlus p.1 j) true ≠ .ok key) → t.coreByte c key = s.coreByte c key

/-- A command stands at the head of its engine's queue and may start (R233, R234). -/
def Starts (s : State) (c : Nat) (e : Engine) (m : EngCmd) (r : List EngCmd) (op : EngOp) : Prop :=
  ((s.core c).engine e).queue = m :: r ∧ s.engineReady c e m = true ∧ m.op = op ∧ Calm s c

/-- The command has started, and its work is done with these events; it is still to complete. Memory itself is as it was: what the command wrote
enters the memory order later (R263). -/
def Ran (s t : State) (c : Nat) (e : Engine) (m : EngCmd) (r : List EngCmd) (evs : List Nat) : Prop :=
  exec (.engineCommandStart c e) s = .next t ∧ ((t.core c).engine e).queue = r ∧ ((t.core c).engine e).active = [{ m with events := evs }] ∧
    ((t.core c).engine e).lastStart = s.cycle + 1 ∧ (t.core c).copies = (s.core c).copies ∧ t.mem = s.mem ∧ ∀ d, d ≠ c → t.core d = s.core d

/-- The n bytes at a virtual address of a partition are n different bytes of memory that the device may write, no engine write is pending in their
units of 8 bytes, and nothing written there changes where they lie. -/
def Takes (s : State) (part va n : Nat) : Prop :=
  (∀ i, i < n → ∃ key, s.partAddr part (va + i) true = .ok key ∧ paKind key ≠ .view ∧ ∀ e ∈ s.cores, ∀ p ∈ e.2.ebuf, sameUnits key 1 p.1 = false) ∧
    (∀ i j, i < n → j < n → s.partAddr part (va + i) true = s.partAddr part (va + j) true → i = j) ∧
    ∀ m, (∀ k, (∀ i, i < n → s.partAddr part (va + i) true ≠ .ok k) → mget m k = mget s.mem k) →
      ∀ i, i < n → ({ s with mem := m } : State).partAddr part (va + i) true = s.partAddr part (va + i) true

/-- Memory holds in `t` these bytes where a virtual address of a partition led in `s`. -/
def Holds (s t : State) (part va : Nat) (bs : List Byte) : Prop :=
  ∀ i, i < bs.length → ∀ key, s.partAddr part (va + i) true = .ok key → mget t.mem key = bs.getD i 0

/-- `n` bytes of a list from one on. -/
def slice (bs : List Byte) (i n : Nat) : List Byte := (bs.drop i).take n

/-- The number that `n` bytes of a list from one on are. -/
def numAt (bs : List Byte) (i n : Nat) : Nat := natOfBytes (slice bs i n)

/-- The child of a dictionary's node for a byte (R318): of its edges the first that carries the byte. -/
def childOf (D : Dict) (node edge : Nat → Nat) (b : Byte) (k : Nat) : Option Nat :=
  match (((List.range (node k / 2 ^ 32 % 2 ^ 9)).map (node k / 2 ^ 41 + ·)).takeWhile (· < D.nedges)).find? (fun e => edge e % 2 ^ 8 == b.toNat) with
  | some e => if edge e / 2 ^ 8 < D.nnodes then some (edge e / 2 ^ 8) else none
  | none => none

/-- The node that bytes lead to from the root. -/
def nodeAfter (D : Dict) (node edge : Nat → Nat) (l : List Byte) : Option Nat := l.foldl (fun k b => k.bind (childOf D node edge b)) (some 0)

/-- The id of the longest prefix of at most 64 bytes that has one, with its length; the first byte itself where none has (R319). -/
def longestId (D : Dict) (node edge : Nat → Nat) (text : List Byte) : Nat × Nat :=
  (List.range (min 64 text.length)).foldl (fun best j =>
    match nodeAfter D node edge (text.take (j + 1)) with
    | some k => if node k % 2 ^ 32 = 2 ^ 31 then best else (node k % 2 ^ 32, j + 1)
    | none => best) ((text.headD 0).toNat, 1)

/-- At most `cap` ids of a text, each with the bytes that it stands for (R319). -/
def tokenized (D : Dict) (node edge : Nat → Nat) : Nat → List Byte → List (Nat × Nat)
  | 0, _ => []
  | cap + 1, text =>
    if text = [] then []
    else longestId D node edge text :: tokenized D node edge cap (text.drop (longestId D node edge text).2)

/-- A V instruction with these row sources, mask row and destination may issue: what no stall precedes is legal (R175, R250), and the stall
condition of R178 and the pacing gap of the vector engine (R31) hold for all of them together, and no row that it reads is marked (R335). -/
def VReady (u : State) (srcs : List (BitVec 13)) (mask : Option (BitVec 3)) (dst : Option (BitVec 13)) : Prop :=
  u.vAccess u.cx.core (srcs.map (resolveRow u.cxCore false)) (dst.map (resolveRow u.cxCore true)) = .ok () ∧
    (∀ d ∈ srcs, u.srcReady u.cx.core (resolveRow u.cxCore false d) = true) ∧ u.gapPast u.cx.core 0 1 u.cxCore.vStart = true ∧
    (∀ d, dst = some d → u.dstReady u.cx.core (resolveRow u.cxCore true d) = true) ∧ (dst = none → u.cxCore.vx.length < 8) ∧
    (∀ i, mask = some i → u.cxCore.rowBusy (.operand i.toNat) = false) ∧ u.cxCore.readsMarked (srcs.map (resolveRow u.cxCore false)) = false

/-- What a V instruction leaves before it retires (R77, R172, R177, R178): its counters are raised, each queue that its sources name popped once and
the full bits taken, the result written with the latch, and its numeric events counted. -/
def vAfter (u : State) (srcs : List (BitVec 13)) (mask : Option (BitVec 3)) (dst : Option (BitVec 13)) (f : VIn → VOut × List Nat) : State :=
  let c := u.cx.core
  let rs := srcs.map (resolveRow u.cxCore false)
  let dr := dst.map (resolveRow u.cxCore true)
  let old := dr.elim (.row 0) (u.dstOld c)
  let xs := rs.map (u.srcRead c)
  let w := (u.modCore c (fun k => { bumpAll k (srcs ++ dst.toList) with vStart := u.cycle + 1 })).popOnce c rs
  let o := f { a := xs.getD 0 (.row 0), b := xs.getD 1 (.row 0), m := mask.elim 0 (fun i => u.cxCore.row (.operand i.toNat)), d := old }
  (w.vPut c dr old o.1).countEvents c 0 o.2

/-- A V instruction completes with a result computed from its sources when its fields are legal and R178 lets it issue. -/
def VGives (i : Instr) (legal : State → Prop) (srcs : List (BitVec 13)) (mask : Option (BitVec 3)) (dst : Option (BitVec 13))
    (f : State → VIn → VOut × List Nat) : Prop :=
  ∀ s u, Ready s u → legal s → VReady u srcs mask dst → exec i s = .next (retire (vAfter u srcs mask dst (f s)))

/-- The fields of a V instruction of two row sources are legal: its descriptors, and no third source (R77, R79, R180). -/
def Legal2 (f : FV) (s : State) : Prop :=
  f.s3v = 0 ∧ f.s3i = 0 ∧ opndFaults s.cxCore.demand f.ty true f.dst = [] ∧ opndFaults s.cxCore.demand f.ty false f.src1 = [] ∧
    opndFaults s.cxCore.demand f.ty false f.src2 = []

/-- The fields of a V instruction of one row source whose SRC2 is zero are legal. -/
def Legal1 (f : FV) (s : State) : Prop :=
  f.s3v = 0 ∧ f.s3i = 0 ∧ f.src2 = 0 ∧ opndFaults s.cxCore.demand f.ty true f.dst = [] ∧ opndFaults s.cxCore.demand f.ty false f.src1 = []

/-- Lanes of codes with their events, from lane 0 on, as the result of a V instruction of a TYPE. -/
def laneResult (ty : BitVec 4) (l : List (Nat × List Nat)) : VOut × List Nat :=
  (.lanes (kindOfType ty) (typeWidth ty) 0 (l.map (·.1)), l.flatMap (·.2))

/-- Two sources lane by lane. -/
def lanewise2 (f : FV) (g : Nat → Nat → Nat × List Nat) (v : VIn) : VOut × List Nat :=
  laneResult f.ty (List.zipWith g (v.a.all f.ty) (v.b.all f.ty))

/-- One source lane by lane. -/
def lanewise1 (f : FV) (g : Nat → Nat × List Nat) (v : VIn) : VOut × List Nat := laneResult f.ty ((v.a.all f.ty).map g)

/-- The exact rational that a value is; none for what is no number, or whose digits are not all there. -/
def ratOf : Val → Option ℚ
  | .fin s m e false => some ((if s then -1 else 1) * (m : ℚ) * (2 : ℚ) ^ e)
  | _ => none

/-- One number or infinity lies below another. -/
def Below (a b : Val) : Prop :=
  match a, b with
  | .inf s, .inf t => s = true ∧ t = false
  | .inf s, .fin .. => s = true
  | .fin .., .inf t => t = false
  | a, b => ∃ x y, ratOf a = some x ∧ ratOf b = some y ∧ x < y

/-- A value stands for a real number: exactly, or with digits that it leaves out below digits enough for the formats of the special functions. -/
def IsReal (v : Val) (x : ℝ) : Prop :=
  match v with
  | .fin s m e more =>
    let y := if s then -x else x
    if more then m ≠ 0 ∧ (2 ^ 24 ≤ m ∨ e < -149) ∧ (m : ℝ) * (2 : ℝ) ^ e < y ∧ y < ((m : ℝ) + 1) * (2 : ℝ) ^ e else y = (m : ℝ) * (2 : ℝ) ^ e
  | _ => False

/-- The number of w bits in two's complement that is nearest to an exact result (R102). -/
def nearest (w : Nat) (v : Int) : BitVec w :=
  if v < -(2 : Int) ^ (w - 1) then BitVec.intMin w else if (2 : Int) ^ (w - 1) ≤ v then BitVec.intMax w else BitVec.ofInt w v

/-- The virtual address that is nearest to an exact result (R118). -/
def nearestAddr (v : Int) : Dword := if v < 0 then 0 else if (2 : Int) ^ 56 ≤ v then BitVec.ofNat 64 (2 ^ 56 - 1) else BitVec.ofInt 64 v

/-- The w bits that a rule gives one by one, bit 0 the least significant. -/
def ofBits (w : Nat) (f : Nat → Bool) : BitVec w := BitVec.ofNat w ((List.range w).map (fun i => if f i then 2 ^ i else 0)).sum

/-- A condition of R94 on two operands of w bits, as numbers with a sign or, under Z, without (R106). -/
def compares {w : Nat} (z : BitVec 1) (cond : BitVec 3) (a b : BitVec w) : Bool :=
  let x : Int := if z = 1 then a.toNat else a.toInt
  let y : Int := if z = 1 then b.toNat else b.toInt
  match cond.toNat with
  | 0 => x == y
  | 1 => x != y
  | 2 => decide (x < y)
  | 3 => decide (x ≤ y)
  | 4 => decide (y < x)
  | 5 => decide (y ≤ x)
  | _ => (a &&& b) != 0

/-- An X instruction of two sources, with every operand form that R73 gives them, completes with a value for D: it reads S1 and then S2, and
writes D last. -/
def XBinaryGives (i : Instr) (d a b : BitVec 6) (f : State → Word → Word → Word) : Prop :=
  ∀ s u va vb k1 k2 k3, Ready s u → xDstOk d = true → xSrcOk a = true → xSrcOk b = true → readX u.cxCore a = .ok (va, k1) →
    readX k1 b = .ok (vb, k2) → writeX k2 d (f s va vb) = .ok k3 → exec i s = .next (After u k3)

/-- An X instruction of one source completes with a value for D. -/
def XUnaryGives (i : Instr) (d a : BitVec 6) (f : State → Word → Word) : Prop :=
  ∀ s u va k1 k2, Ready s u → xDstOk d = true → xSrcOk a = true → readX u.cxCore a = .ok (va, k1) → writeX k1 d (f s va) = .ok k2 →
    exec i s = .next (After u k2)

/-- An X instruction on two pairs (R107) completes with a value for the pair D. -/
def XPairGives (i : Instr) (d a b : BitVec 6) (f : State → Dword → Dword → Dword) : Prop :=
  ∀ s u, Ready s u → xPairOk d = true → xPairOk a = true → xPairOk b = true →
    exec i s = .next (After u (writePair u.cxCore d (f s (readPair u.cxCore a) (readPair u.cxCore b))))

/-- A shift of a pair by a 32-bit count (R107) completes with a value for the pair D. -/
def XPairShiftGives (i : Instr) (d a b : BitVec 6) (f : Dword → Word → Dword) : Prop :=
  ∀ s u n k, Ready s u → xPairOk d = true → xPairOk a = true → xSrcOk b = true → readX u.cxCore b = .ok (n, k) →
    exec i s = .next (After u (writePair k d (f (readPair k a) n)))

/-- An A instruction of two sources, with every operand form of R74, completes with a value for D, outside a chain that is still open. -/
def ABinaryGives (i : Instr) (d a b : BitVec 6) (f : State → Dword → Dword → Dword) : Prop :=
  ∀ s u va vb k1 k2 k3, Ready s u → s.cxCore.chain = none → aDstOk d = true → aSrcOk a = true → aSrcOk b = true →
    readA u.cxCore a = .ok (va, k1) → readA k1 b = .ok (vb, k2) → writeA k2 d (f s va vb) = .ok k3 → exec i s = .next (After u k3)

/-- An A instruction of one source completes with a value for D. -/
def AUnaryGives (i : Instr) (d a : BitVec 6) (f : State → Dword → Dword) : Prop :=
  ∀ s u va k1 k2, Ready s u → s.cxCore.chain = none → aDstOk d = true → aSrcOk a = true → readA u.cxCore a = .ok (va, k1) →
    writeA k1 d (f s va) = .ok k2 → exec i s = .next (After u k2)

/-- A function's command is the one that the firmware executes: it is posted with that OP, no earlier post waits, and the device is ready, or
failed with a command that it still answers (R342, R359). -/
def Posted (s : State) (fn op : Nat) (early : Bool) : Prop :=
  (s.mailbox fn).busy = true ∧ (s.mailbox fn).op = op ∧ s.goOrder.head? = some fn ∧ (s.bootState = 6 ∨ early = true ∧ s.bootState = 7)

/-- A command of a function has completed with a status and results (R342): the response carries its TAG, BUSY is clear, DONE is set, and the
function has its interrupt. -/
def Answered (s t : State) (fn status : Nat) (data : List Nat) : Prop :=
  (t.mailbox fn).busy = false ∧ (t.mailbox fn).done = true ∧ (t.mailbox fn).cmd = (s.mailbox fn).cmd ∧
    (tget 0 (t.mailbox fn).rsp 0).toNat % 2 ^ 32 = status ∧
    (tget 0 (t.mailbox fn).rsp 0).toNat / 2 ^ 32 = (tget 0 (s.mailbox fn).cmd 0).toNat / 2 ^ 32 ∧
    (∀ i, i < data.length → tget 0 (t.mailbox fn).rsp (i + 1) = BitVec.ofNat 64 (data.getD i 0)) ∧ Output.msix fn 0 ∈ t.outputs ∧
    t.goOrder = s.goOrder.filter (· != fn)

/-- A command completes with status OK and no result. -/
def Done (s t : State) (fn : Nat) : Prop := Answered s t fn 0 []

end Sys2Proof.Machine
end

