-- ==== Sys2Proof/Certificates/Slice0/Obligations.lean ====
section
/-! DEFINITION. The statements about the machine that are to be proved. `Safety` holds their vocabulary. -/

open Sys2Proof Sys2Proof.Machine

/-! Encoding, and how a step comes to run an instruction. -/

/-- R66 to R95: decode of encode is the instruction, for every well-formed instruction of the text with every operand at every value, and a pair
of words that decodes has one meaning, whose encoding is those words: no two encodings share an instruction and no reserved bit is dropped. -/
def Obligations.DecodeAndEncodeAgree : Prop :=
  (∀ i, WellFormed i = true → decodeWords (encode i) = .ok i) ∧
  (∀ w p i, decodeHead w p = .ok i → WellFormed i = true ∧ encode i = if selOf w = 1 then [w, p] else [w])

/-- R66 to R94: words written out field by field from the encodings decode to the instructions they stand for, one or more for each strand. -/
def Obligations.WordsWrittenOutDecode : Prop :=
  -- FN 0, S2 4, S1 3, D 5, OP 0x08, X: DIVZ g5, g3, g4 (R70, R90)
  decodeHead (0#2 ++ 4#6 ++ 3#6 ++ 5#6 ++ 0x08#7 ++ 0#3 ++ 0#2) 0 = .ok (.divz 5 3 4) ∧
  -- IMM8 −1, S1 4, D 4, OP 0x03: ADDI (R70, R83)
  decodeHead (0xFF#8 ++ 4#6 ++ 4#6 ++ 0x03#7 ++ 0#3 ++ 0#2) 0 = .ok (.addi 4 4 0xFF) ∧
  -- LI g7 with IMM32 in word 1
  decodeHead (0#2 ++ 0#6 ++ 0#6 ++ 7#6 ++ 0x1f#7 ++ 0#3 ++ 1#2) 0xDEADBEEF = .ok (.li 7 0xDEADBEEF) ∧
  -- A: LD32 a2, 8(a1); STROW with its index, base and descriptor (R121, R125)
  decodeHead (8#8 ++ 1#6 ++ 2#6 ++ 0x13#7 ++ 1#3 ++ 0#2) 0 = .ok (.ld32 2 1 8) ∧
  decodeHead (0#2 ++ 34#6 ++ 16#6 ++ 0#6 ++ 0x1a#7 ++ 1#3 ++ 1#2) (0#19 ++ 9#7 ++ 5#4 ++ 0#2) = .ok (.strow ⟨34, 16, 9#7 ++ 5#4 ++ 0#2⟩) ∧
  -- COPY with SCOPE GANG, REL, AS2 3, AS1 2, AD 1 (R71, R238)
  decodeHead (2#3 ++ 1#1 ++ 0#1 ++ 3#5 ++ 2#5 ++ 1#5 ++ 0x20#7 ++ 1#3 ++ 1#2) 1 = .ok (.copy ⟨2, 1, 0, 3, 2, 1⟩ 1) ∧
  -- V: VFMA of TYPE 1, MIN 0, DST t1 row 2, SRC1 t3 row 4, SRC2 t5 row 6, S3 valid with o7 (R71, R76)
  decodeHead (0#1 ++ (2#7 ++ 1#4 ++ 0#2) ++ 0#2 ++ 1#4 ++ 0x04#7 ++ 2#3 ++ 1#2) (0#2 ++ 1#1 ++ 7#3 ++ (6#7 ++ 5#4 ++ 0#2) ++ (4#7 ++ 3#4 ++ 0#2)) =
    .ok (.vfma ⟨2#7 ++ 1#4 ++ 0#2, 0, 1, 1, 7, 6#7 ++ 5#4 ++ 0#2, 4#7 ++ 3#4 ++ 0#2⟩) ∧
  -- M: MZERO accumulator 1; a patch word with FSEL 12, VAL 0x1234 for template 5 (R85, R217)
  decodeHead (0#7 ++ 1#1 ++ 0#12 ++ 0x03#7 ++ 3#3 ++ 0#2) 0 = .ok (.mzero 1) ∧
  decodeHead (0x1234#16 ++ 12#5 ++ 5#6 ++ 3#3 ++ 3#2) 0 = .ok (.mx 5 12 0x1234) ∧
  -- every strand: BR decided by A, inverted, predicate p6, offset −2; LOOP of two stages, TSRC 0, 3 words, 10 iterations (R51, R130)
  decodeHead (0xFFFE#16 ++ 1#1 ++ 1#1 ++ 2#2 ++ 0x03#7 ++ 7#3 ++ 0#2) 0 = .ok (.br 1 1 2 0xFFFE) ∧
  decodeHead (0#1 ++ 0#1 ++ 0#2 ++ 1#2 ++ 3#14 ++ 0x01#7 ++ 7#3 ++ 1#2) 10 = .ok (.loop 10 0 0 1 3) ∧
  -- faults of R95: a reserved tag, an unassigned opcode, a short form of a long instruction, a bit that must be zero, a reserved FN
  decodeHead (0#20 ++ 0x08#7 ++ 4#3 ++ 0#2) 0 = .error .reservedTag ∧
  decodeHead (0#20 ++ 0x36#7 ++ 0#3 ++ 0#2) 0 = .error .unassigned ∧
  decodeHead (0#20 ++ 0x1f#7 ++ 0#3 ++ 0#2) 0 = .error .selLength ∧
  decodeHead (1#20 ++ 0x00#7 ++ 0#3 ++ 0#2) 0 = .error .reservedField ∧
  decodeHead (1#2 ++ 0#18 ++ 0x08#7 ++ 0#3 ++ 0#2) 0 = .error .reservedValue

/-- R40 to R43, R52, R61, R68: the turn of a strand that stands at a word that is the head of an instruction, with no prefix before it, runs that
instruction: `step` is `exec` of what the word and the next decode to, with the issue register holding the word's address and that of the word
after, and a pending SLIPW applied. Where a prefix run stands there, it is `exec` of the instruction that `walk` finds behind it. The turn passes
where the token that the instruction waits for goes to an earlier strand, or where an instruction of V on z2 and its z1 twin would move the full
bit of one row of the weir the same way (R175). The issue register says beside these whether the free licence that M of a z2 core may ask for goes to
its z1 twin in this cycle (R201). -/
def Obligations.StepRunsTheInstructionAtThePc : Prop := ∀ (s : State) (c : Nat) (t : Strand) (r : List Turn),
  s.turns = .strand c t :: r → c < 256 → MayWalk s c t →
  (∀ w i, (s.core c).slot ((s.core c).textIdx ((s.core c).strand t).pc) = some (w, .head false) →
    AtPlainWord s c t w → ownsTag t (tagOf w) = true →
    decodeHead w (((s.core c).slot ((s.core c).textIdx ((s.core c).strand t).pc + 1)).elim 0 (·.1)) = .ok i →
    ∀ u, u = issuing s r c t ((s.core c).strand t).pc ((s.core c).textAddr ((s.core c).textIdx ((s.core c).strand t).pc))
        (if selOf w = 1 then 2 else 1) Mods.none i →
    step s = if { s with turns := r }.yields c t i u then .next { s with turns := r } else exec i (u.withLate (t == Strand.m && { s with turns := r }.twinTakes c))) ∧
  (∀ i pc head n m, ((s.core c).applySlip t).walk t = .exec i pc head n m →
    ∀ u, u = issuing s r c t pc head n m i →
    step s = if { s with turns := r }.yields c t i u then .next { s with turns := r } else exec i (u.withLate (t == Strand.m && { s with turns := r }.twinTakes c))) ∧
  (∀ i u, awaited i u.cx.mods = [] → t ≠ .v ∨ c < 128 ∨ (∃ v, exec i u = .next v ∧ v.pairs = s.pairs) →
    { s with turns := r }.yields c t i u = false) ∧
  (∀ i u v w j, t = .v → 128 ≤ c → exec i u = .next v → strandTurn { s with turns := r } (c - 128) .v = .run j w →
    awaited j w.cx.mods = [] → ∀ x, exec j w = .next x → ∀ n, n < 4 → ∀ b, ((s.pair (c - 128)).twFull.getD n false = !b) →
    (v.pair (c - 128)).twFull.getD n false = b → (x.pair (c - 128)).twFull.getD n false = b → { s with turns := r }.yields c t i u = true) ∧
  (∀ v b, v = s.withLate b → v.cx.late = b ∧ v = { s with cx := v.cx } ∧ v.cx = { s.cx with late := b }) ∧
  (c < 128 ∨ (s.pair (pairOf c)).holder ≠ none → s.twinTakes c = false) ∧
  (∀ j w x, 128 ≤ c → (s.pair (pairOf c)).holder = none → strandTurn s (twinOf c) .m = .run j w → j ≠ .skippedWordsWalk → awaited j w.cx.mods = [] →
    exec j w = .next x → (x.pair (pairOf c)).holder = some (twinOf c) → s.twinTakes c = true)

/-- R40 to R43, R52 and R95: what a turn of a strand is when the word it stands at is no instruction of its own: it is skipped, it raises ILL, or the
strand waits, for the slip window or for its block; a strand whose gang has halted, or that has stopped or holds, does nothing; one that owes
signals first makes those that have room (R39). The turn of an agent
runs its row of the opcode table, but for a command of the array or a grant of the licence that gives way in its cycle (R61, R175); a full/empty
operation from the network and the command at a side port are told where the local A or the z1 twin comes first in the same cycle (R128, R201); a turn of the memory order or of the clock is that and no more; a turn of L2 drops a line of a format-window
view, but none that a fetch of a sluice has pinned. The list of turns is the model's own (log entry 1), and so is the fault that answers a turn of
an agent that does not exist (log entry 60). -/
def Obligations.StepOfEveryOtherTurn : Prop :=
  (∀ (s : State) (c : Nat) (t : Strand) (r : List Turn),
  s.turns = .strand c t :: r → c < 256 →
  (AtWord s c t → ¬HasBlock s c t → step s = .next { s with turns := r }) ∧
  (MayWalk s c t → ((s.core c).applySlip t).walk t = .stall → step s = .next { s with turns := r }) ∧
  (∀ n, MayWalk s c t → ((s.core c).applySlip t).walk t = .skip n →
    step s = exec .skippedWordsWalk ({ s with turns := r, cx := turnCx c t ((s.core c).strand t).pc .brokenWord }.withLate
      (t == Strand.m && { s with turns := r }.twinTakes c))) ∧
  (∀ e pc, MayWalk s c t → ((s.core c).applySlip t).walk t = .ill e pc →
    step s = exec .notAnInstruction ({ s with turns := r, cx := turnCx c t pc e }.withLate (t == Strand.m && { s with turns := r }.twinTakes c))) ∧
  (∀ l, ((s.core c).strand t).sigDue = l → l ≠ [] → step s = .next ({ s with turns := r }.setCore c
    (((s.core c).setStrand t { (s.core c).strand t with sigDue := [] }).signalOwe t l))) ∧
  (((s.core c).strand t).sigDue = [] → (s.core c).instanceDone = false → s.strandStill c t = true → step s = .next { s with turns := r })) ∧
  (∀ (s : State) (r : List Turn),
  (∀ i, s.turns = .agent i :: r → isAgentStep i = true →
    step s = if { s with turns := r }.agentYields i then .next { s with turns := r }
      else exec i ({ s with turns := r }.withLate ({ s with turns := r }.agentLate i))) ∧
  (∀ i, s.agentYields i = true → (∃ p, i = .licenceGrant p) ∨ ∃ c, 128 ≤ c ∧ (i = .mmaExecute c ∨ i = .mxposeExecute c ∨ i = .mdrainExecute c)) ∧
  (∀ i, s.agentLate i = true → (∃ c, i = .fullEmptyPerform c) ∨ (∃ c d tag, i = .headerUncorrectable c d (.reply tag)) ∨
    ∃ c, 128 ≤ c ∧ i = .sidePortCommand c) ∧
  (∀ c d q ls j w x, (s.core c).fe = some q → s.feLines c q = some (d, ls) → d ≠ c → q.at_ = s.cycle → (s.core d).fe = none →
    strandTurn s d .a = .run j w → j ≠ .skippedWordsWalk → awaited j w.cx.mods = [] → exec j w = .next x → x.feOlder c q = true →
    s.agentLate (.fullEmptyPerform c) = true) ∧
  (∀ i, s.turns = .agent i :: r → isAgentStep i = false → step s = .fault .noSuchTurn) ∧
  (∀ c t, s.turns = .strand c t :: r → 256 ≤ c → step s = .fault .noSuchTurn) ∧
  (∀ c, s.turns = .settle c :: r → step s = .next ({ s with turns := r }.settle c)) ∧
  (∀ line, s.turns = .evict line :: r →
    step s = .next { s with
      turns := r
      viewLines := if s.cores.any (fun e => e.2.resident && s.pinsLine e.1 line) then s.viewLines
        else s.viewLines.filter (fun e => e.1 != line) }) ∧
  (s.turns = .tick :: r → step s = .next { s with turns := r }.tick ∧ { s with turns := r }.tick.cycle = s.cycle + 1) ∧
  (s.turns = [] → ∃ t ∈ agentsOf s, step s = runTurn t { s with rr := s.rr + 1 }) ∧
  (∀ i, WellFormed i = true → isAgentStep i = false))

/-! X. -/

/-- R73, R75 and R97: what each operand code of X reads and writes. A register reads what was last written to it, whatever the rotation bases
(R56), and no other register changes; zero reads 0 and discards; a pop takes the oldest entry and a peek leaves it; a push goes behind the
entries there; an empty or full queue stalls; a code that R73 does not list raises ILL. -/
def Obligations.XOperandForms : Prop := ∀ (k : CoreSt) (c : BitVec 6) (v : Word),
  (c.toNat < 32 → ∃ k', writeX k c v = .ok k' ∧ readX k' c = .ok (v, k') ∧
    ∀ e : BitVec 6, e.toNat < 32 → e ≠ c → (readX k' e).map (·.1) = (readX k e).map (·.1)) ∧
  (32 ≤ c.toNat ∧ c.toNat < 36 → ∀ l, k.ax[c.toNat - 32]? = some l →
    (∀ w r, l = some w :: r → readX k c = .ok (w, { k with ax := k.ax.setIfInBounds (c.toNat - 32) r }) ∧ readX k (c + 4) = .ok (w, k)) ∧
    ((l = [] ∨ l.head? = some none) → readX k c = .error .stall ∧ readX k (c + 4) = .error .stall)) ∧
  (40 ≤ c.toNat ∧ c.toNat < 56 → readX k c = .ok ((k.kAt (c.toNat - 40)).setWidth 32, k)) ∧
  (readX k 56 = .ok (0, k) ∧ writeX k 56 v = .ok k) ∧
  (57 ≤ c.toNat ∧ c.toNat ≤ 58 → ∀ l, k.xa[c.toNat - 57]? = some l →
    writeX k c v = if l.length < 16 then .ok { k with xa := k.xa.setIfInBounds (c.toNat - 57) (l ++ [v]) } else .error .stall) ∧
  writeX k 59 v = (if k.xv.length < 8 then .ok { k with xv := k.xv ++ [v] } else .error .stall) ∧
  (∀ w r, k.vx = w :: r → readX k 60 = .ok (w, { k with vx := r })) ∧ (k.vx = [] → readX k 60 = .error .stall) ∧
  (xSrcOk c = false → readX k c = .error (.ill .operand)) ∧ (xDstOk c = false → writeX k c v = .error (.ill .operand))

/-- R102 (with R81, R83, R101): "With the saturate bit set, ADD, SUB, ADDI, MUL and SHL compute the exact signed result and clamp it". With the bit
clear they wrap. -/
def Obligations.XArithmeticSaturatesOrWraps : Prop := ∀ d a b imm,
  XBinaryGives (.add d a b) d a b (fun s x y => if s.sat then nearest 32 (x.toInt + y.toInt) else x + y) ∧
  XBinaryGives (.sub d a b) d a b (fun s x y => if s.sat then nearest 32 (x.toInt - y.toInt) else x - y) ∧
  XBinaryGives (.mul d a b) d a b (fun s x y => if s.sat then nearest 32 (x.toInt * y.toInt) else x * y) ∧
  XUnaryGives (.addi d a imm) d a (fun s x =>
    if s.sat then nearest 32 (x.toInt + simm s.cx.mods imm) else x + BitVec.ofInt 32 (simm s.cx.mods imm))

/-- R103, whole: division by zero, the one quotient that does not fit, and every other case. -/
def Obligations.XDivisionNeverTraps : Prop := ∀ d a b,
  XBinaryGives (.div d a b) d a b (fun _ x y => if y = 0 then 0xFFFFFFFF else if x = 0x80000000 ∧ y = 0xFFFFFFFF then 0x80000000
    else BitVec.ofInt 32 (x.toInt.tdiv y.toInt)) ∧
  XBinaryGives (.divz d a b) d a b (fun _ x y => if y = 0 then 0xFFFFFFFF else BitVec.ofNat 32 (x.toNat / y.toNat)) ∧
  XBinaryGives (.rem d a b) d a b (fun _ x y => if y = 0 then x else if x = 0x80000000 ∧ y = 0xFFFFFFFF then 0
    else BitVec.ofInt 32 (x.toInt - x.toInt.tdiv y.toInt * y.toInt)) ∧
  XBinaryGives (.remz d a b) d a b (fun _ x y => if y = 0 then x else BitVec.ofNat 32 (x.toNat - x.toNat / y.toNat * y.toNat))

/-- R101 and R105: the high halves of products, the bitwise operations, the minima and maxima, and the instructions of one source: leading zeros and
ones are counted, bytes, halves and fields are extended by sign or by zero, an insertion leaves the bits outside the field. A field that reaches
beyond bit 31 raises ILL with cause 14. -/
def Obligations.XProductsBitsOrderAndFields : Prop :=
  (∀ d a b,
  XBinaryGives (.mulh d a b) d a b (fun _ x y => (x.signExtend 64 * y.signExtend 64).extractLsb' 32 32) ∧
  XBinaryGives (.mulhz d a b) d a b (fun _ x y => (x.setWidth 64 * y.setWidth 64).extractLsb' 32 32) ∧
  XBinaryGives (.and_ d a b) d a b (fun _ x y => x &&& y) ∧
  XBinaryGives (.or_ d a b) d a b (fun _ x y => x ||| y) ∧
  XBinaryGives (.xor d a b) d a b (fun _ x y => x ^^^ y) ∧
  XBinaryGives (.andn d a b) d a b (fun _ x y => x &&& ~~~y) ∧
  XBinaryGives (.min d a b) d a b (fun _ x y => BitVec.ofInt 32 (min x.toInt y.toInt)) ∧
  XBinaryGives (.max d a b) d a b (fun _ x y => BitVec.ofInt 32 (max x.toInt y.toInt)) ∧
  XBinaryGives (.minz d a b) d a b (fun _ x y => BitVec.ofNat 32 (min x.toNat y.toNat)) ∧
  XBinaryGives (.maxz d a b) d a b (fun _ x y => BitVec.ofNat 32 (max x.toNat y.toNat))) ∧
  (∀ (d a b : BitVec 6) (z : BitVec 1) (pos wm1 : BitVec 5),
  XUnaryGives (.mov d a) d a (fun _ x => x) ∧
  XUnaryGives (.clz d a) d a (fun _ x => BitVec.ofNat 32 ((List.range 32).countP (fun i => x.toNat < 2 ^ i))) ∧
  XUnaryGives (.popc d a) d a (fun _ x => BitVec.ofNat 32 ((List.range 32).countP (fun i => x.getLsbD i))) ∧
  XUnaryGives (.extb z d a) d a (fun _ x => if z = 1 then x % 256 else (x <<< 24).sshiftRight 24) ∧
  XUnaryGives (.exth z d a) d a (fun _ x => if z = 1 then x % 65536 else (x <<< 16).sshiftRight 16) ∧
  (pos.toNat + wm1.toNat < 32 →
    XUnaryGives (.bfx 0 d a pos wm1) d a (fun _ x => (x.extractLsb' pos.toNat (wm1.toNat + 1)).setWidth 32) ∧
    XUnaryGives (.bfx 1 d a pos wm1) d a (fun _ x => (x.extractLsb' pos.toNat (wm1.toNat + 1)).signExtend 32) ∧
    XBinaryGives (.bfi d a b pos wm1) d a b (fun _ x y => ofBits 32 (fun i =>
      if pos.toNat ≤ i ∧ i ≤ pos.toNat + wm1.toNat then y.getLsbD (i - pos.toNat) else x.getLsbD i))) ∧
  (32 ≤ pos.toNat + wm1.toNat → ∀ (sx : BitVec 1) s, rsFault s = [] → xDstOk d = true → xSrcOk a = true → xSrcOk b = true →
    exec (.bfx sx d a pos wm1) s = .next (raiseIll s .otherUse) ∧ exec (.bfi d a b pos wm1) s = .next (raiseIll s .otherUse)))

/-- R104 (with R102): the count is the whole of S2; at 32 and above everything is shifted out. Under saturation SHL clamps S1 × 2^n. -/
def Obligations.XShiftsDoNotWrapTheCount : Prop := ∀ d a b,
  XBinaryGives (.shl d a b) d a b (fun s x n =>
    if s.sat then nearest 32 (x.toInt * (2 : Int) ^ n.toNat) else if 32 ≤ n.toNat then 0 else x <<< n.toNat) ∧
  XBinaryGives (.shr d a b) d a b (fun _ x n => if 32 ≤ n.toNat then 0 else x >>> n.toNat) ∧
  XBinaryGives (.sra d a b) d a b (fun _ x n => if 32 ≤ n.toNat then (if x.msb then 0xFFFFFFFF else 0) else x.sshiftRight n.toNat)

/-- R107 (with R102, R104): arithmetic on pairs at 64 bits, shifts of pairs by a 32-bit count, and the moves to a pair. -/
def Obligations.XPairArithmetic : Prop := ∀ d a b imm,
  XPairGives (.add64 d a b) d a b (fun s x y => if s.sat then nearest 64 (x.toInt + y.toInt) else x + y) ∧
  XPairGives (.sub64 d a b) d a b (fun s x y => if s.sat then nearest 64 (x.toInt - y.toInt) else x - y) ∧
  XPairShiftGives (.shl64 d a b) d a b (fun x n => if 64 ≤ n.toNat then 0 else x <<< n.toNat) ∧
  XPairShiftGives (.shr64 d a b) d a b (fun x n => if 64 ≤ n.toNat then 0 else x >>> n.toNat) ∧
  XPairShiftGives (.sra64 d a b) d a b (fun x n =>
    if 64 ≤ n.toNat then (if x.msb then 0xFFFFFFFFFFFFFFFF else 0) else x.sshiftRight n.toNat) ∧
  (∀ s u, Ready s u → xPairOk d = true → xPairOk a = true →
    exec (.mov64 d a) s = .next (After u (writePair u.cxCore d (readPair u.cxCore a)))) ∧
  (∀ s u, Ready s u → xPairOk d = true → exec (.li64 d imm) s = .next (After u (writePair u.cxCore d (imm.signExtend 64)))) ∧
  (∀ (k : CoreSt) v, xPairOk d = true → d ≠ 56 → k.x.rotating = none →
    (writePair k d v).gAt d.toNat = v.setWidth 32 ∧ (writePair k d v).gAt (d.toNat + 1) = v.extractLsb' 32 32 ∧
    readPair (writePair k d v) d = v)

/-- R94, R106 and R107: compares set the predicate that they name, p4 to p7, and nothing else of their strand before it goes on; SEL reads both
sources; LI and NOP. Condition 7 raises ILL with cause 9, and a predicate of p0 to p3 with cause 13. -/
def Obligations.XComparesSelectsAndConstants : Prop := ∀ (z : BitVec 1) (cond pred : BitVec 3) (n : BitVec 2) (d a b : BitVec 6) (imm : BitVec 32),
  (∀ s u va vb k1 k2, Ready s u → cond ≠ 7 → 4 ≤ pred.toNat → xSrcOk a = true → xSrcOk b = true → readX u.cxCore a = .ok (va, k1) →
    readX k1 b = .ok (vb, k2) →
    exec (.cmp z cond pred a b) s = .next (After u { k2 with x := k2.x.setP pred.toNat (compares z cond va vb) })) ∧
  (∀ s u, Ready s u → cond ≠ 7 → 4 ≤ pred.toNat → xPairOk a = true → xPairOk b = true →
    exec (.cmp64 z cond pred a b) s =
      .next (After u { u.cxCore with x := u.cxCore.x.setP pred.toNat (compares z cond (readPair u.cxCore a) (readPair u.cxCore b)) })) ∧
  (∀ s, rsFault s = [] → xSrcOk a = true → xSrcOk b = true →
    (cond = 7 → exec (.cmp z cond pred a b) s = .next (raiseIll s .reservedValue)) ∧
    (cond ≠ 7 → pred.toNat < 4 → exec (.cmp z cond pred a b) s = .next (raiseIll s .execModel))) ∧
  (∀ s u va vb k1 k2 k3, Ready s u → xDstOk d = true → xSrcOk a = true → xSrcOk b = true → readX u.cxCore a = .ok (va, k1) →
    readX k1 b = .ok (vb, k2) → writeX k2 d (if k2.x.pAt (4 + n.toNat) then va else vb) = .ok k3 →
    exec (.sel n d a b) s = .next (After u k3)) ∧
  (∀ s u k, Ready s u → xDstOk d = true → writeX u.cxCore d imm = .ok k → exec (.li d imm) s = .next (After u k)) ∧
  (∀ s u, Ready s u → exec .nopX s = .next (After u u.cxCore))

/-- R41, R97 and R101 to R107: what X's arithmetic changes. Of the other state nothing; of its own core no register but D (the pair D), the
entries that its operands pop and push, and a token; of its strand only its place; and a compare changes only the predicate that it names. -/
def Obligations.XFrame : Prop := ∀ (s s' : State) (d a b : BitVec 6) (imm : BitVec 8) (w : BitVec 32) (z : BitVec 1) (pos wm1 : BitVec 5)
    (n : BitVec 2) (cond pred : BitVec 3) (i : Instr),
  s.cx.strand = .x → exec i s = .next s' →
  (i ∈ [.add d a b, .sub d a b, .mul d a b, .mulh d a b, .mulhz d a b, .div d a b, .divz d a b, .rem d a b, .remz d a b, .and_ d a b, .or_ d a b,
      .xor d a b, .andn d a b, .shl d a b, .shr d a b, .sra d a b, .min d a b, .max d a b, .minz d a b, .maxz d a b, .addi d a imm, .clz d a,
      .popc d a, .extb z d a, .exth z d a, .bfx z d a pos wm1, .bfi d a b pos wm1, .sel n d a b, .mov d a, .li d w] →
    SameOutside s s' ∧
    ∃ k', k' = s'.core s.cx.core ∧
      k' = { s.cxCore with g := k'.g, x := k'.x, ax := k'.ax, xa := k'.xa, xv := k'.xv, vx := k'.vx, tk := k'.tk } ∧ WentOn s.cxCore.x k'.x ∧
      ∀ j, j < 32 → ¬(d.toNat < 32 ∧ j = physG s.cxCore.x d.toNat) → k'.gAt j = s.cxCore.gAt j) ∧
  (i ∈ [.add64 d a b, .sub64 d a b, .shl64 d a b, .shr64 d a b, .sra64 d a b, .mov64 d a, .li64 d w] →
    SameOutside s s' ∧
    ∃ k', k' = s'.core s.cx.core ∧ k' = { s.cxCore with g := k'.g, x := k'.x, ax := k'.ax, vx := k'.vx, tk := k'.tk } ∧
      WentOn s.cxCore.x k'.x ∧
      ∀ j, j < 32 → ¬(d.toNat < 31 ∧ (j = physG s.cxCore.x d.toNat ∨ j = physG s.cxCore.x (d.toNat + 1))) → k'.gAt j = s.cxCore.gAt j) ∧
  (i ∈ [.cmp z cond pred a b, .cmp64 z cond pred a b] →
    SameOutside s s' ∧
    ∃ k', k' = s'.core s.cx.core ∧ k' = { s.cxCore with x := k'.x, ax := k'.ax, vx := k'.vx, tk := k'.tk } ∧
      WentOn { s.cxCore.x with p := k'.x.p } k'.x ∧ ∀ j, j ≠ pred.toNat → k'.x.pAt j = s.cxCore.x.pAt j) ∧
  (i = .nopX →
    SameOutside s s' ∧ ∃ k', k' = s'.core s.cx.core ∧ k' = { s.cxCore with x := k'.x, tk := k'.tk } ∧ WentOn s.cxCore.x k'.x)

/-! A: registers, arithmetic and queue moves. -/

/-- R74, R75, R97 and R99: what each operand code of A reads and writes. A register reads what was last written to it and no other changes; one
that a load has still to write stalls both its readers and its writers; k registers and zero are constants; a pop takes the oldest entry, with
zeros above; a push takes bits [31:0] and stalls while the queue holds 16, reserved entries counted. -/
def Obligations.AOperandForms : Prop := ∀ (k : CoreSt) (c : BitVec 6) (v : Dword),
  (c.toNat < 16 → k.aBusy (physA k.a c.toNat) = false → ∃ k', writeA k c v = .ok k' ∧ readA k' c = .ok (v, k') ∧
    ∀ e : BitVec 6, e.toNat < 16 → e ≠ c → (readA k' e).map (·.1) = (readA k e).map (·.1)) ∧
  (c.toNat < 16 → k.aBusy (physA k.a c.toNat) = true → readA k c = .error .stall ∧ writeA k c v = .error .stall) ∧
  (16 ≤ c.toNat ∧ c.toNat < 32 → readA k c = .ok (k.kAt (c.toNat - 16), k) ∧ writeA k c v = .error (.ill .operand)) ∧
  (32 ≤ c.toNat ∧ c.toNat < 34 → ∀ l, k.xa[c.toNat - 32]? = some l →
    (∀ w r, l = w :: r → readA k c = .ok (w.setWidth 64, { k with xa := k.xa.setIfInBounds (c.toNat - 32) r })) ∧
    (l = [] → readA k c = .error .stall)) ∧
  (readA k 34 = .ok (0, k) ∧ writeA k 34 v = .ok k) ∧
  (35 ≤ c.toNat ∧ c.toNat ≤ 38 → ∀ l, k.ax[c.toNat - 35]? = some l →
    writeA k c v =
      if l.length < 16 then .ok { k with ax := k.ax.setIfInBounds (c.toNat - 35) (l ++ [some (v.setWidth 32)]) } else .error .stall) ∧
  (aSrcOk c = false → readA k c = .error (.ill .operand)) ∧ (39 ≤ c.toNat → writeA k c v = .error (.ill .operand))

/-- R117 and R118 (with R81, R83): additions, subtractions and products wrap at 64 bits, or clamp to the virtual addresses 0 to 2^56 − 1 under the
saturate bit; shifts of 0 to 63 places, AAND and AMOV. A shift of 64 or more raises ILL with cause 9. -/
def Obligations.AArithmeticWrapsOrClamps : Prop := ∀ (d a b : BitVec 6) (imm : BitVec 8),
  ABinaryGives (.aadd d a b) d a b (fun s x y => if s.sat then nearestAddr (x.toInt + y.toInt) else x + y) ∧
  ABinaryGives (.asub d a b) d a b (fun s x y => if s.sat then nearestAddr (x.toInt - y.toInt) else x - y) ∧
  AUnaryGives (.aaddi d a imm) d a (fun s x =>
    if s.sat then nearestAddr (x.toInt + simm s.cx.mods imm) else x + BitVec.ofInt 64 (simm s.cx.mods imm)) ∧
  AUnaryGives (.amuli d a imm) d a (fun s x =>
    if s.sat then nearestAddr (x.toInt * simm s.cx.mods imm) else x * BitVec.ofInt 64 (simm s.cx.mods imm)) ∧
  ABinaryGives (.aand d a b) d a b (fun _ x y => x &&& y) ∧
  AUnaryGives (.amov d a) d a (fun _ x => x) ∧
  (imm.toNat < 64 →
    AUnaryGives (.ashl d a imm) d a (fun _ x => BitVec.ofNat 64 (x.toNat * 2 ^ imm.toNat)) ∧
    AUnaryGives (.ashr d a imm) d a (fun _ x => BitVec.ofNat 64 (x.toNat / 2 ^ imm.toNat))) ∧
  (64 ≤ imm.toNat → ∀ s, rsFault s = [] → s.cxCore.chain = none → aDstOk d = true → aSrcOk a = true →
    exec (.ashl d a imm) s = .next (raiseIll s .reservedValue) ∧ exec (.ashr d a imm) s = .next (raiseIll s .reservedValue))

/-- R106, R117, R119 and R120: ALI extends its sign, ALIH keeps the low half of its register; ACMP sets a predicate of A; APOP takes two entries of
one queue, the low half first, and APUSH puts two or none; ACOORD adds to a register the base of the remote window of a core of the gang. -/
def Obligations.AMovesComparesAndAddresses : Prop := ∀ (d a b : BitVec 6) (imm : BitVec 32) (z : BitVec 1) (cond pred : BitVec 3) (coord : BitVec 9)
    (s u : State), Ready s u → s.cxCore.chain = none →
  (∀ k, aDstOk d = true → writeA u.cxCore d (imm.signExtend 64) = .ok k → exec (.ali d imm) s = .next (After u k)) ∧
  (∀ v k1 k2, d.toNat ≤ 15 → readA u.cxCore d = .ok (v, k1) → writeA k1 d (BitVec.ofNat 64 (imm.toNat * 2 ^ 32 + v.toNat % 2 ^ 32)) = .ok k2 →
    exec (.alih d imm) s = .next (After u k2)) ∧
  (∀ va vb k1 k2, cond ≠ 7 → 4 ≤ pred.toNat → aSrcOk a = true → aSrcOk b = true → readA u.cxCore a = .ok (va, k1) →
    readA k1 b = .ok (vb, k2) →
    exec (.acmp z cond pred a b) s = .next (After u { k2 with a := k2.a.setP pred.toNat (compares z cond va vb) })) ∧
  (∀ x y r k2, d.toNat ≤ 15 → a.toNat = 32 ∨ a.toNat = 33 → u.cxCore.xa[a.toNat - 32]? = some (x :: y :: r) →
    writeA { u.cxCore with xa := u.cxCore.xa.setIfInBounds (a.toNat - 32) r } d (y ++ x) = .ok k2 →
    exec (.apop d a) s = .next (After u k2)) ∧
  (∀ v l, 35 ≤ d.toNat → d.toNat ≤ 38 → a.toNat ≤ 31 → readA u.cxCore a = .ok (v, u.cxCore) → u.cxCore.ax[d.toNat - 35]? = some l →
    l.length ≤ 14 →
    exec (.apush d a) s = .next (After u { u.cxCore with
      ax := u.cxCore.ax.setIfInBounds (d.toNat - 35) (l ++ [some (v.setWidth 32), some (v.extractLsb' 32 32)]) })) ∧
  (∀ v l, 35 ≤ d.toNat → d.toNat ≤ 38 → a.toNat ≤ 31 → readA u.cxCore a = .ok (v, u.cxCore) → u.cxCore.ax[d.toNat - 35]? = some l →
    15 ≤ l.length → exec (.apush d a) s = .next s) ∧
  (∀ v k c k1, d.toNat ≤ 15 → aRegOk a = true → coreOfCoord coord = some c → c = s.cx.core ∨ s.inGang s.cx.core c = true →
    readA u.cxCore a = .ok (v, k1) →
    writeA k1 d (BitVec.ofNat 64 (0x00FFF00000000000 + coord.toNat / 128 * 2 ^ 32 + coord.toNat / 16 % 8 * 2 ^ 28 + coord.toNat % 16 * 2 ^ 24) + v) =
      .ok k → exec (.acoord d a coord) s = .next (After u k)) ∧
  exec .nopA s = .next (After u u.cxCore)

/-- R41, R97, R117 to R120: what A's arithmetic and moves change: no register but D, the entries that they pop and push, a token, a predicate that a
compare names; of the other state nothing, and no byte of memory. -/
def Obligations.AFrame : Prop := ∀ (s s' : State) (d a b : BitVec 6) (imm : BitVec 8) (w : BitVec 32) (z : BitVec 1) (coord : BitVec 9)
    (cond pred : BitVec 3) (i : Instr),
  s.cx.strand = .a → exec i s = .next s' →
  (i ∈ [.aadd d a b, .asub d a b, .aaddi d a imm, .amuli d a imm, .ashl d a imm, .ashr d a imm, .aand d a b, .amov d a, .ali d w, .alih d w,
      .apop d a, .apush d a, .acoord d a coord] →
    SameOutside s s' ∧
    ∃ k', k' = s'.core s.cx.core ∧ k' = { s.cxCore with ar := k'.ar, a := k'.a, ax := k'.ax, xa := k'.xa, tk := k'.tk } ∧
      WentOn s.cxCore.a k'.a ∧ ∀ j, j < 16 → ¬(d.toNat < 16 ∧ j = physA s.cxCore.a d.toNat) → k'.aAt j = s.cxCore.aAt j) ∧
  (i = .acmp z cond pred a b →
    SameOutside s s' ∧
    ∃ k', k' = s'.core s.cx.core ∧ k' = { s.cxCore with a := k'.a, xa := k'.xa, tk := k'.tk } ∧
      WentOn { s.cxCore.a with p := k'.a.p } k'.a ∧ ∀ j, j ≠ pred.toNat → k'.a.pAt j = s.cxCore.a.pAt j) ∧
  (i = .nopA →
    SameOutside s s' ∧ ∃ k', k' = s'.core s.cx.core ∧ k' = { s.cxCore with a := k'.a, tk := k'.tk } ∧ WentOn s.cxCore.a k'.a)

/-! Counters and tokens, traps, special registers, clocks, tasks and runnels as X sees them. -/

/-- R39, R60 and R61, for each strand: WAIT passes when each counter is at or below its limit, 31 meaning no limit, and waits otherwise; SIG adds
one to a token below 255 and waits at 255; AWAIT takes one from a token above 0 and waits at 0. An instruction of any kind whose prefix is to signal
a token that stands at 255 as it retires waits, with none of its effect (R39, R137). -/
def Obligations.WaitSigAndAwait : Prop :=
  (∀ (f : WaitF) (tk : BitVec 4) (s u : State), Admits s u →
  (∀ i, i = .waitX f ∨ i = .waitV f ∨ i = .waitM f ∨ i = .waitA f ∧ s.cxCore.chain = none → u.sigStuck = false →
    ((f.l ≠ 31 → u.cxCore.loads.toNat ≤ f.l.toNat) ∧ (f.s ≠ 31 → u.cxCore.stores.toNat ≤ f.s.toNat) ∧
      (f.c ≠ 31 → u.cxCore.copies.toNat ≤ f.c.toNat) ∧ (f.t ≠ 31 → u.cxCore.tileops.toNat ≤ f.t.toNat) →
      exec i s = .next (After u u.cxCore)) ∧
    (f.l ≠ 31 ∧ f.l.toNat < u.cxCore.loads.toNat ∨ f.s ≠ 31 ∧ f.s.toNat < u.cxCore.stores.toNat ∨
      f.c ≠ 31 ∧ f.c.toNat < u.cxCore.copies.toNat ∨ f.t ≠ 31 ∧ f.t.toNat < u.cxCore.tileops.toNat → exec i s = .next s)) ∧
  (∀ i, i = .sigX tk ∨ i = .sigV tk ∨ i = .sigM tk ∨ i = .sigA tk ∧ s.cxCore.chain = none →
    (u.sigStuck = false → u.cxCore.tk.get tk.toFin ≠ 255 → s.cx.mods.sig ≠ some tk ∨ u.cxCore.tk.get tk.toFin ≠ 254 →
      exec i s = .next (After u { u.cxCore with tk := u.cxCore.tk.set tk.toNat (u.cxCore.tk.get tk.toFin + 1) tk.isLt })) ∧
    (u.cxCore.tk.get tk.toFin = 255 ∨ s.cx.mods.sig = some tk ∧ u.cxCore.tk.get tk.toFin = 254 → exec i s = .next s)) ∧
  (∀ i, i = .awaitX tk ∨ i = .awaitV tk ∨ i = .awaitM tk ∨ i = .awaitA tk ∧ s.cxCore.chain = none →
    (u.sigStuck = false ∨ s.cx.mods.sig = some tk → u.cxCore.tk.get tk.toFin ≠ 0 →
      exec i s = .next (After u { u.cxCore with tk := u.cxCore.tk.set tk.toNat (u.cxCore.tk.get tk.toFin - 1) tk.isLt })) ∧
    (u.cxCore.tk.get tk.toFin = 0 → exec i s = .next s))) ∧
  (∀ (s v : State) (faults : List IllCause) (body : State → Try State), faults = [] → rsFault s = [] → (takeWait s >>= body) = .ok v →
    v.sigStuck = true → issue s faults body = .next s)

/-- R95, R116, R137 and R292: what every ILL does: the strand's program counter is the address of the first word of its group, the trap is noted with its
cause for the gang's stop, and nothing else changes: no register, no token, no byte of memory; of several faults of one word the lowest cause
number is raised, before any effect. A word that begins the kernel and is no LOOP raises cause 13 (R49). TRAP and BRK raise traps of classes 2 and 3 with their code: the unit that they wait for is
taken (R62), and what a resumption needs goes with the trap. -/
def Obligations.IllTrapAndBrkRaiseTheirClass : Prop :=
  (∀ (s : State) (faults : List IllCause) (body : State → Try State),
  (∀ c, c ∈ faults → rsFault s = [] → ∃ d, d ∈ faults ∧ d.code ≤ c.code ∧ issue s faults body = .next (raiseIll s d)) ∧
  (s.cx.misplaced = true → (∀ c ∈ faults, 13 < c.code) → issue s faults body = .next (raiseIll s .execModel)) ∧
  (∀ c, SameOutside s (raiseIll s c) ∧
    (raiseIll s c).cxCore = s.cxCore.setStrand s.cx.strand { s.cxCore.strand s.cx.strand with pc := s.cx.pc } ∧
    ∀ g, s.taskOf s.cx.core = some g → ∃ g', (raiseIll s c).taskOf s.cx.core = some g' ∧ g'.halted = true ∧
      g'.traps = g.traps ++ [{ core := s.cx.core, strand := s.cx.strand, cls := 0, cause := c.code, code := 0, next := s.cx.pc, words := 0,
                               wait := none, sig := none, due := false }])) ∧
  (∀ (s u : State) (code : BitVec 14) (i : Instr) (cls : Nat), Admits s u →
  i = .trap code ∧ cls = 2 ∨ i = .brk code ∧ cls = 3 →
  ∃ t, exec i s = .next t ∧ SameOutside s t ∧
    t.cxCore = u.cxCore.setStrand s.cx.strand { s.cxCore.strand s.cx.strand with pc := s.cx.pc } ∧
    ∀ g, s.taskOf s.cx.core = some g → ∃ g', t.taskOf s.cx.core = some g' ∧
      g'.traps = g.traps ++ [{ core := s.cx.core, strand := s.cx.strand, cls := cls, cause := 0, code := code.toNat, next := s.cx.next,
                               words := s.cx.words, wait := s.cx.mods.wait, sig := s.cx.mods.sig, due := false }])

/-- R32 to R37 and R113: RDCAP reads the four capability registers and raises ILL with cause 9 for any other index; RDSYS reads each system register
as it stands; TIMEL latches the high half of the same instant for TIMEH. The STEP field of capability register 0 is the model's choice (log entry
5), and so are watermarks of 0 on a core with no task (log entry 4). -/
def Obligations.CapabilityAndSystemRegisterReads : Prop := ∀ (d : BitVec 6) (s u : State) (k : CoreSt), Ready s u → xDstOk d = true →
  (∀ idx v, (idx, v) ∈ ([(0, 0x00960100), (1, BitVec.ofNat 32 (4 * (List.range 4).countP (fun b => s.cxCore.bankmap.getLsbD b) * 256 +
      s.cxCore.bankmap.toNat * 16)), (3, 256), (4, 512)] : List (BitVec 8 × Word)) →
    writeX u.cxCore d v = .ok k → exec (.rdcap d idx) s = .next (After u k)) ∧
  (∀ idx : BitVec 8, idx = 2 ∨ 5 ≤ idx.toNat → exec (.rdcap d idx) s = .next (raiseIll s .reservedValue)) ∧
  (∀ idx v, (idx, v) ∈ ([(0x00, BitVec.ofNat 32 (coordOfCore s.cx.core)), (0x01, BitVec.ofNat 32 (quadOrigin s.cx.core)), (0x02, BitVec.ofNat 32 s.cxCore.rank),
      (0x03, BitVec.ofNat 32 s.cxCore.gangSize), (0x04, BitVec.ofNat 32 s.cxCore.stage), (0x05, s.cxCore.iteridx),
      (0x06, BitVec.ofNat 32 s.cxCore.slipw), (0x07, BitVec.ofNat 32 (if s.cxCore.resident then s.cxCore.wmark 0 else 0)),
      (0x08, BitVec.ofNat 32 (if s.cxCore.resident then s.cxCore.wmark 1 else 0)),
      (0x09, BitVec.ofNat 32 s.cxCore.task),
      (0x0A, BitVec.ofNat 32 (s.eprioOf s.cx.core * 2 ^ 20 + s.cxCore.prio * 2 ^ 16 + s.cxCore.stream)), (0x0C, s.cxCore.timeh), (0x0D, s.cxCore.clkstat), (0x0E, s.licst s.cx.core),
      (0x0F, s.cxCore.tileops ++ s.cxCore.copies ++ s.cxCore.stores ++ s.cxCore.loads), (0x10, BitVec.ofNat 32 s.cxCore.demand),
      (0x40, s.cxCore.nev.cfg), (0x41, s.cxCore.nev.act), (0x42, s.cxCore.nev.stat),
      (0x43, BitVec.ofNat 32 (s.cxCore.nev.crossw.toNat * 2 ^ 26 + s.cxCore.nev.elapsed % 2 ^ 26))] : List (BitVec 8 × Word)) →
    writeX u.cxCore d v = .ok k → exec (.rdsys d idx) s = .next (After u k)) ∧
  (∀ (n : Nat) v w, n < 6 → s.cxCore.nev.cnt[n]? = some v → s.cxCore.nev.thr[n]? = some w →
    (writeX u.cxCore d v = .ok k → exec (.rdsys d (BitVec.ofNat 8 (0x44 + n))) s = .next (After u k)) ∧
    (writeX u.cxCore d w = .ok k → exec (.rdsys d (BitVec.ofNat 8 (0x4A + n))) s = .next (After u k))) ∧
  (∀ idx : BitVec 8, 0x11 ≤ idx.toNat ∧ idx.toNat < 0x40 ∨ 0x50 ≤ idx.toNat → exec (.rdsys d idx) s = .next (raiseIll s .reservedValue)) ∧
  (writeX { u.cxCore with timeh := BitVec.ofNat 32 (s.cycle / 2 ^ 32) } d (BitVec.ofNat 32 s.cycle) = .ok k →
    exec (.timelRead d) s = .next (After u k)) ∧
  exec (.rdsys d 0x0B) s = exec (.timelRead d) s

/-- R33, R35, R163 and R164: the writable system registers. A new SLIPW waits for X's next word; NEVCFG starts its window again and keeps the counts;
NEVACT; a one in NEVSTAT clears its bit; a count and a threshold are set and fire nothing, and a count set to 0 may cross again where no window
runs. A value with a reserved bit or out of range raises ILL with cause 14, the value 3 of a class of NEVACT among them; so does a write to a register
that is read-only, NEVWIN among them (log entry 64). -/
def Obligations.SystemRegisterWrites : Prop := ∀ (a : BitVec 6) (s u : State) (v : Word) (k : CoreSt), Ready s u → xSrcOk a = true →
  readX u.cxCore a = .ok (v, k) →
  (8 ≤ v.toNat → v.toNat ≤ 4096 → exec (.slipwWrite a) s = .next (After u { k with slipwDue := some v.toNat })) ∧
  (v.toNat < 65536 → exec (.nevcfgWrite a) s = .next (After u { k with nev := { k.nev with cfg := v, elapsed := 0, crossw := 0 } })) ∧
  (v.toNat < 64 → exec (.nevstatClear a) s = .next (After u { k with nev := { k.nev with stat := k.nev.stat &&& ~~~v } })) ∧
  (∀ n : BitVec 3, n.toNat < 6 → ∃ e, exec (.nevcntWrite n a) s = .next (After u { k with nev := e }) ∧ e.cnt[n.toNat]? = some v ∧
    (∀ m, m ≠ n.toNat → e.cnt[m]? = k.nev.cnt[m]? ∧ (m < 6 → e.crossw.getLsbD m = k.nev.crossw.getLsbD m)) ∧ e.stat = k.nev.stat ∧
    e.due = k.nev.due ∧ (e.crossw.getLsbD n.toNat = true ↔ k.nev.crossw.getLsbD n.toNat = true ∧ ¬(k.nev.cfg.toNat % 65536 = 0 ∧ v = 0))) ∧
  (v.toNat < 4096 → (∀ c, c < 6 → v.toNat / 4 ^ c % 4 ≠ 3) →
    exec (.wrsys a 0x41) s = .next (After u { k with nev := { k.nev with act := v } })) ∧
  (∀ n, n < 6 → exec (.wrsys a (BitVec.ofNat 8 (0x4A + n))) s =
    .next (After u { k with nev := { k.nev with thr := k.nev.thr.setIfInBounds n v } })) ∧
  (v.toNat < 8 ∨ 4096 < v.toNat → exec (.slipwWrite a) s = .next (raiseIll s .otherUse)) ∧
  (65536 ≤ v.toNat → exec (.nevcfgWrite a) s = .next (raiseIll s .otherUse)) ∧
  (64 ≤ v.toNat → exec (.nevstatClear a) s = .next (raiseIll s .otherUse)) ∧
  (4096 ≤ v.toNat ∨ (∃ c, c < 6 ∧ v.toNat / 4 ^ c % 4 = 3) → exec (.wrsys a 0x41) s = .next (raiseIll s .otherUse)) ∧
  exec (.wrsys a 0x43) s = .next (raiseIll s .otherUse) ∧
  (∀ idx : BitVec 8, idx.toNat ≤ 0x10 → idx ≠ 0x06 → exec (.wrsys a idx) s = .next (raiseIll s .otherUse)) ∧
  (∀ idx : BitVec 8, 0x11 ≤ idx.toNat ∧ idx.toNat < 0x40 ∨ 0x50 ≤ idx.toNat → exec (.wrsys a idx) s = .next (raiseIll s .reservedValue))

/-- R114, R115, R347, R348 and R350: CLKDIV answers 2 below the partition's floor, 0 where the divisor does not rise in speed or the rail stands high
enough, 3 where the rail may not rise, and else 1, a deferred grant; p4 says whether it was granted at once, and only a grant is noted. PACE sets
the gap of an engine, p4 saying that the partition's floor is above it: the register keeps the gap asked for (log entry 30). A request that is not granted leaves an
earlier one as it was (log entry 55). -/
def Obligations.ClockAndPacingRequests : Prop := ∀ (d a : BitVec 6) (div : BitVec 4) (dom : BitVec 2) (idx : BitVec 8) (s u : State), Ready s u →
  (∀ st k, xDstOk d = true →
    st = (if div.toNat + 1 < (s.part s.cxCore.part).floors.getD dom.toNat 1 then 2
      else if s.cxCore.div.getD dom.toNat 1 ≤ div.toNat + 1 then 0
      else if (s.rail (railOf s.cx.core)).throttled = true ∨ (s.rail (railOf s.cx.core)).maxLevel < levelOf (div.toNat + 1) then 3
      else if levelOf (div.toNat + 1) ≤ (s.rail (railOf s.cx.core)).level then 0 else 1) →
    writeX { u.cxCore with
        x := u.cxCore.x.setP 4 (decide (st = 0))
        divReq := if st < 2 then u.cxCore.divReq.set dom.toNat (some { d := div.toNat + 1, deferred := decide (st = 1), keep := false, begun := false }) dom.isLt
          else u.cxCore.divReq } d (BitVec.ofNat 32 st) = .ok k →
    exec (.clkdiv d div dom) s = .next (After u k)) ∧
  (∀ v k, xSrcOk a = true → idx.toNat ≤ 6 → readX u.cxCore a = .ok (v, k) → v.toNat < 65536 →
    exec (.pace a idx) s = .next (After u { k with
      pace := k.pace.setIfInBounds idx.toNat (v.setWidth 16)
      x := k.x.setP 4 (decide (v.toNat < s.paceFloor s.cx.core idx.toNat)) })) ∧
  (∀ v k, xSrcOk a = true → idx.toNat ≤ 6 → readX u.cxCore a = .ok (v, k) → 65536 ≤ v.toNat →
    exec (.pace a idx) s = .next (raiseIll s .otherUse)) ∧
  (xSrcOk a = true → 6 < idx.toNat → exec (.pace a idx) s = .next (raiseIll s .reservedValue))

/-- R111, R274, R280, R281, R285 and R335: SPAWN, with no store or copy of its core outstanding, hands the record at its address to an enabled stream of
its partition and puts the task's id, the partition's next, into D, clearing p4: X sends its request and stands at the word until the reply is
there (log entry 46). An id that was recorded and whose reply was lost is taken once it comes again, and no second task is accepted. Its core's
writes enter the memory order first, in each form (R268).
While the stream is full, or a core of lower coordinate is to go first (R303), which nothing else holds up, it waits; SPAWN.NB answers 0 for a full stream and sets p4. A record that its core may not read is a fatal context error. A stream that is not the partition's, or an address that is no multiple of 128,
raises ILL with cause 14. TSTAT reads a task's state and
effective priority, 0 for an id that is not known. -/
def Obligations.SpawnAndTstat : Prop := ∀ (d a b : BitVec 6) (s u : State), Ready s u →
  (∀ (nb : Bool) i sid k, i = (if nb then Instr.spawnNb d a b else .spawn d a b) → spawnFaults d a b = [] → u.cxCore.stores = 0 →
    u.cxCore.copies = 0 → readX u.cxCore b = .ok (sid, k) →
    ((spawnAddr u.cxCore a).toNat % 128 = 0 ∧ sid.toNat < 4096 ∧ (u.stream sid.toNat).en = true ∧ (u.stream sid.toNat).part = k.part →
      (u.cxCore.spawned = none → u.asked u.cx.core .spawn = [] → ∃ t o, exec i s = .next t ∧ t.asked u.cx.core .spawn = [o] ∧
        o.sent = s.draining.isNone ∧ o.lost = false ∧ t.cxStrand.pc = s.cxStrand.pc ∧ t.cxStrand.walked = s.cxStrand.walked ∧
        t.cxCore.tk = s.cxCore.tk ∧ t.tasks = s.tasks ∧ t.mem = s.mem) ∧
      (u.asked u.cx.core .spawn ≠ [] → u.unanswered u.cx.core .spawn = true → exec i s = .next s) ∧
      (∀ id k', u.cxCore.spawned = some id → u.unanswered u.cx.core .spawn = false → writeX k d (BitVec.ofNat 32 id) = .ok k' →
        exec i s = .next (retire (((u.setCore u.cx.core k).setCore u.cx.core { k' with spawned := none, x := k'.x.setP 4 (id == 0) }).answer
          u.cx.core .spawn))) ∧
      (u.cxCore.spawned = none → u.asked u.cx.core .spawn ≠ [] → u.unanswered u.cx.core .spawn = false →
      ∀ v, v = ((u.setCore u.cx.core k).settle u.cx.core).writeBack u.cx.core →
      (v.streamFull sid.toNat = false → v.spawnYields u.cx.core sid.toNat = false →
        v.spawnFault u.cx.core k.part (spawnAddr u.cxCore a).toNat = none → ∀ id, id = (v.part k.part).nextTask → id ≠ 0 →
          ∀ w k', w = (v.accept k.part sid.toNat (spawnAddr u.cxCore a).toNat (some k.prio) none).2 →
            writeX w.cxCore d (BitVec.ofNat 32 id) = .ok k' →
            exec i s = .next (retire ((w.setCore u.cx.core { k' with spawned := none, x := k'.x.setP 4 false }).answer u.cx.core .spawn)) ∧
            (w.part k.part).nextTask = nextIdAfter id ∧ ∃ t ∈ w.tasks, t.part = k.part ∧ t.id = id ∧ t.stream = sid.toNat) ∧
      (v.streamFull sid.toNat = false → v.spawnYields u.cx.core sid.toNat = false → ∀ kind ad,
        v.spawnFault u.cx.core k.part (spawnAddr u.cxCore a).toNat = some (kind, ad) → exec i s = .next (raiseFatal s s.cx.core kind ad)) ∧
      (v.streamFull sid.toNat = false → v.spawnYields u.cx.core sid.toNat = true → exec i s = .next s) ∧
      (v.spawnYields u.cx.core sid.toNat = true ↔ ∃ e ∈ v.cores, e.1 < u.cx.core ∧ e.2.resident = true ∧ v.spawnReady e.1 sid.toNat = true) ∧
      (∀ e d' a' b' w x, strandTurn v e .x = .run (.spawn d' a' b') w ∨ strandTurn v e .x = .run (.spawnNb d' a' b') w →
        (takeWait w = .error .stall ∨ takeWait w = .ok x ∧ (x.spawnArgs a' b' = .error .stall ∨
          ∃ y n q, x.spawnArgs a' b' = .ok (y, n, q) ∧ writeX q d' 0 = .error .stall)) → v.spawnReady e sid.toNat = false) ∧
      (v.streamFull sid.toNat = true → nb = false → exec i s = .next s) ∧
      (v.streamFull sid.toNat = true → nb = true → ∀ k', writeX v.cxCore d 0 = .ok k' →
        exec i s = .next (retire ((v.setCore u.cx.core { k' with spawned := none, x := k'.x.setP 4 true }).answer u.cx.core .spawn))))) ∧
    ((spawnAddr u.cxCore a).toNat % 128 ≠ 0 ∨ 4096 ≤ sid.toNat ∨ (u.stream sid.toNat).en = false ∨ (u.stream sid.toNat).part ≠ k.part →
      exec i s = .next (raiseIll s .otherUse))) ∧
  (∀ v k k', xDstOk d = true → xSrcOk a = true → readX u.cxCore a = .ok (v, k) →
    writeX k d (BitVec.ofNat 32 (match s.task? k.part v.toNat with
      | none => 0
      | some t => if t.ended then (if (s.part k.part).nextOrder ≤ t.order + 2 ^ 20 then t.stat else 0) else t.eprio % 16 * 16 + t.stat)) = .ok k' →
    exec (.tstat d a) s = .next (After u k'))

/-- R94, R109, R110, R249, R333 and R335: QBIND binds an empty lo queue to an li queue of a core of the gang, unless another lo is bound to it; unbinding empties
the binding; both wait while the queue holds rows. QDEPTH counts rows held and in flight, bit 31 saying that the queue is not bound. A row leaves
an lo while the sender knows of a free slot of the eight, arrives at the li in order, and its slot comes back once the row has been popped. No row leaves while the network drains (R334). A row to another core
is a packet: it arrives behind every row that its core has sent to the same core before, and not while it is lost; one with a marked flit keeps the
mark, and an instruction of V that reads a marked row ends the gang with kind 7. -/
def Obligations.Runnels : Prop := ∀ (s u : State),
  (Ready s u → ∀ (lo li : BitVec 6) (coord : BitVec 9) (d : BitVec 6) (idx : BitVec 8), lo.toNat ≤ 3 → li.toNat ≤ 3 →
    ((u.cxCore.loAt lo.toNat).rows = [] ∧ (u.cxCore.loAt lo.toNat).flight = [] →
      (∀ c, coreOfCoord coord = some c → c = u.cx.core ∨ u.inGang u.cx.core c = true → u.boundFrom u.cx.core c li.toNat = none →
        exec (.qbindBind lo li coord) s = .next (After u (u.cxCore.setLo lo.toNat
          { u.cxCore.loAt lo.toNat with peer := some (c, li.toNat), used := ((u.core c).liAt li.toNat).length }))) ∧
      exec (.qbindUnbind lo) s = .next (After u (u.cxCore.setLo lo.toNat { u.cxCore.loAt lo.toNat with peer := none }))) ∧
    ((u.cxCore.loAt lo.toNat).rows ≠ [] → coordFaults coord = [] →
      exec (.qbindBind lo li coord) s = .next s ∧ exec (.qbindUnbind lo) s = .next s) ∧
    (∀ k, xDstOk d = true → idx.toNat < 4 →
      writeX u.cxCore d (BitVec.ofNat 32 (((s.cxCore.loAt idx.toNat).rows.length + (s.cxCore.loAt idx.toNat).flight.length) % 32 +
        (if (s.cxCore.loAt idx.toNat).peer.isSome then 0 else 2 ^ 31))) = .ok k → exec (.qdepth d idx) s = .next (After u k)) ∧
    (∀ k, xDstOk d = true → 4 ≤ idx.toNat → idx.toNat < 8 →
      writeX u.cxCore d (BitVec.ofNat 32 ((s.cxCore.liAt (idx.toNat - 4)).length % 32 +
        (if (s.boundFrom s.cx.core s.cx.core (idx.toNat - 4)).isSome then 0 else 2 ^ 31))) = .ok k → exec (.qdepth d idx) s = .next (After u k))) ∧
  (∀ (c d m : Nat) (lo : BitVec 2) (q : Lo) (r : Row) (rs : List Row), (s.core c).loAt lo.toNat = q → q.peer = some (d, m) →
    (q.rows = r :: rs → q.used < 8 → s.draining = none → exec (.runnelRowSend c lo) s =
      .next ((if d = c then s else s.request c (.row lo.toNat)).setCore c
        ((s.core c).setLo lo.toNat { q with rows := rs, flight := q.flight ++ [r], used := q.used + 1 }))) ∧
    (q.rows = r :: rs → 8 ≤ q.used ∨ s.draining.isSome = true → exec (.runnelRowSend c lo) s = .next s) ∧
    (q.flight = r :: rs → c ≠ d → m < 4 →
      (s.rowsTo c d = [] → ∃ t, exec (.runnelRowArrive c lo) s = .next t ∧ (t.core d).liAt m = (s.core d).liAt m ++ [r] ∧
        (t.core c).loAt lo.toNat = { q with flight := rs } ∧ (t.core d).liBad = (s.core d).liBad) ∧
      (∀ o l, s.rowsTo c d = o :: l →
        (o.what = .row lo.toNat → o.sent = true → o.lost = false → ∃ t, exec (.runnelRowArrive c lo) s = .next t ∧
          (t.core d).liAt m = (s.core d).liAt m ++ [r] ∧ (t.core c).loAt lo.toNat = { q with flight := rs } ∧
          t.outstanding = s.outstanding.filter (fun p => p.tag != o.tag) ∧
          (((s.core d).liBad.getD m []).length ≤ ((s.core d).liAt m).length →
            ((t.core d).liBad.getD m []).getD ((s.core d).liAt m).length false = o.marked)) ∧
        (o.what ≠ .row lo.toNat ∨ o.sent = false ∨ o.lost = true → exec (.runnelRowArrive c lo) s = .next s))) ∧
    (q.flight.length + ((s.core d).liAt m).length < q.used → exec (.runnelCreditReturn c lo) s =
      .next (s.setCore c ((s.core c).setLo lo.toNat { q with used := q.used - 1 })))) ∧
  (∀ (f : FV) (i : Nat), Ready s u → f.ty ≠ 15 → f.min = 0 → Legal1 f s → resolveRow u.cxCore false f.src1 = .li i → i < 4 →
    (u.cxCore.liBad.getD i []).headD false = true → u.vAccess u.cx.core [.li i] (some (resolveRow u.cxCore true f.dst)) = .ok () →
    u.srcReady u.cx.core (.li i) = true → u.dstReady u.cx.core (resolveRow u.cxCore true f.dst) = true →
    u.gapPast u.cx.core 0 1 u.cxCore.vStart = true → exec (.vmov f) s = .next (raiseFatal s s.cx.core 7 0))

/-! A: memory. -/

/-- R121 to R123 (with R83, R99, R108, R235, R294, R296, R297): the ten loads and stores. The address is the base plus the extended immediate; a load
reserves its register, or its places in a queue, and enters A's order with its signal; a store takes its data as it issues. Nothing is read or
written yet; the TLB holds the leaf of a global address. An address that fails the checks of R122 ends the gang: kind 8 with bits [63:56] set, 1
where translation, permission or world fails, 2 for a store to a view, 6 outside a scratchpad of the gang. -/
def Obligations.LoadsAndStoresEnterTheOrder : Prop :=
  (∀ (d a : BitVec 6) (imm : BitVec 8) (s u : State) (base : Dword) (k : CoreSt),
  Admits s u → s.cxCore.chain = none → aSrcOk a = true → readA u.cxCore a = .ok (base, k) →
  (∀ i bytes signed dst k', aDstOk d = true →
    (i, bytes, signed) ∈ ([(.ldz8 d a imm, 1, false), (.lds8 d a imm, 1, true), (.ldz16 d a imm, 2, false), (.lds16 d a imm, 2, true),
      (.ld32 d a imm, 4, false), (.ld64 d a imm, 8, false)] : List (Instr × Nat × Bool)) →
    reserveDst k d bytes = .ok (dst, k') → ∀ v ea, v = u.setCore u.cx.core k' → ea = BitVec.ofInt 64 (base.toInt + simm s.cx.mods imm) →
    (MayPlace v (.load bytes signed dst) ea → ∃ t, exec i s = .next t ∧ Placed v t (.load bytes signed dst) ea ∧
      (regionOf ea.toNat = .global → ∃ e ∈ t.cxCore.tlb, e.covers ea.toNat = true)) ∧
    (v.cxCore.loads ≠ 255 → v.scoreBusy v.cx.core ea.toNat bytes false = false → ∀ kd ad, v.keyOf v.cx.core ea.toNat false = .error (.fatal kd ad) →
      exec i s = .next (raiseFatal s s.cx.core kd ad))) ∧
  (∀ i bytes data k', aSrcOk d = true →
    (i, bytes) ∈ ([(.st8 d a imm, 1), (.st16 d a imm, 2), (.st32 d a imm, 4), (.st64 d a imm, 8)] : List (Instr × Nat)) →
    storeData k d bytes = .ok (data, k') → ∀ v ea, v = u.setCore u.cx.core k' → ea = BitVec.ofInt 64 (base.toInt + simm s.cx.mods imm) →
    (MayPlace v (.store bytes data) ea → ∃ t, exec i s = .next t ∧ Placed v t (.store bytes data) ea ∧
      (regionOf ea.toNat = .global → ∃ e ∈ t.cxCore.tlb, e.covers ea.toNat = true)) ∧
    (v.cxCore.stores ≠ 255 → v.scoreBusy v.cx.core ea.toNat bytes true = false → ∀ kd ad, v.keyOf v.cx.core ea.toNat true = .error (.fatal kd ad) →
      exec i s = .next (raiseFatal s s.cx.core kd ad)))) ∧
  (∀ (s : State) (c ea : Nat) (w : Bool),
    (2 ^ 56 ≤ ea → s.keyOf c ea w = .error (.fatal 8 ea)) ∧
    (ea < 0x00FFF00000000000 →
      (∀ x, s.coreLeaf c ea = .error x → s.keyOf c ea w = .error (.fatal 1 ea)) ∧
      (∀ l, s.coreLeaf c ea = .ok l →
        (w = true ∧ l.w = false → s.keyOf c ea w = .error (.fatal 1 ea)) ∧
        ((l.sec = true ∨ s.secureAt (s.forward (l.physOf ea)) = true) ∧ (s.part (s.core c).part).secure = false → s.keyOf c ea w = .error (.fatal 1 ea)) ∧
        ((w = true → l.w = true) → (l.sec = true ∨ s.secureAt (s.forward (l.physOf ea)) = true → (s.part (s.core c).part).secure = true) →
          s.keyOf c ea w = if w = true ∧ paKind (s.forward (l.physOf ea)) = .view then .error (.fatal 2 ea) else .ok (s.forward (l.physOf ea))))) ∧
    (0x00FFF80000000000 ≤ ea → ea < 2 ^ 56 → s.keyOf c ea w =
      if ea - 0x00FFF80000000000 < (s.core c).spad * 2 ^ 14 then .ok (spadKey c (ea - 0x00FFF80000000000)) else .error (.fatal 6 ea)) ∧
    (0x00FFF00000000000 ≤ ea → ea < 0x00FFF80000000000 → s.spadOf c ea = none → s.keyOf c ea w = .error (.fatal 6 ea)) ∧
    (∀ e, (s.core c).tlb.find? (·.covers ea) = some e → s.coreLeaf c ea = .ok e) ∧
    ((s.core c).tlb.find? (·.covers ea) = none → s.coreLeaf c ea = s.walkPages (s.core c).part ea) ∧
    ((s.core c).tlb.length ≤ 256 → ((s.cacheLeaf c ea).core c).tlb.length ≤ 256))

/-- R125, R126, R127 and R128: row transfers take the address base plus index, a multiple of 256, and wait while their row is busy; a row load makes
its row busy, a row store reads it whole as it issues. A full/empty operation of a scalar or a row takes its token and comes to its
lines in one step, and none does without its token (R62): A stands at it, its entries in the queues as they were (log entry 17). -/
def Obligations.RowsAndFullEmptyEnterTheOrder : Prop := ∀ (s u : State),
  (Admits s u → ∀ (r : RowOp) (b x : Dword), rowFaults s r = [] → readA u.cxCore r.base = .ok (b, u.cxCore) →
    readA u.cxCore r.index = .ok (x, u.cxCore) →
    (u.cxCore.rowBusy (xferRow u.cxCore r.desc) = false → (b + x).toNat % 256 = 0 →
      (MayPlace (u.modCx (fun k => k.setBusy (xferRow u.cxCore r.desc) u.cxCore.nextId)) (.loadRow (xferRow u.cxCore r.desc)) (b + x) →
        ∃ t, exec (.ldrow r) s = .next t ∧ t.cxCore.rowBusy (xferRow u.cxCore r.desc) = true ∧
          Placed (u.modCx (fun k => k.setBusy (xferRow u.cxCore r.desc) u.cxCore.nextId)) t (.loadRow (xferRow u.cxCore r.desc)) (b + x)) ∧
      (MayPlace u (.storeRow (u.cxCore.row (xferRow u.cxCore r.desc))) (b + x) →
        ∃ t, exec (.strow r) s = .next t ∧ Placed u t (.storeRow (u.cxCore.row (xferRow u.cxCore r.desc))) (b + x))) ∧
    (u.cxCore.rowBusy (xferRow u.cxCore r.desc) = true → (b + x).toNat % 256 = 0 → exec (.ldrow r) s = .next s ∧ exec (.strow r) s = .next s) ∧
    ((b + x).toNat % 256 ≠ 0 → exec (.ldrow r) s = .next (raiseIll s .otherUse) ∧ exec (.strow r) s = .next (raiseIll s .otherUse))) ∧
  (takeWait s = .ok u → s.cx.misplaced = false → s.cxCore.chain = none →
    (∀ (d a : BitVec 6) (imm : BitVec 8) base k, aSrcOk a = true → readA u.cxCore a = .ok (base, k) →
      (∀ dst k', aDstOk d = true → reserveDst k d 8 = .ok (dst, k') →
        MayAwait u (.load 8 false dst) (BitVec.ofInt 64 (base.toInt + simm s.cx.mods imm)) →
        ∃ t, exec (.ldfe d a imm) s = .next t ∧
          Awaits u t k' (.load 8 false dst) (BitVec.ofInt 64 (base.toInt + simm s.cx.mods imm)) (popsOf u.cxCore k)) ∧
      (∀ data k', aSrcOk d = true → storeData k d 8 = .ok (data, k') →
        MayAwait u (.store 8 data) (BitVec.ofInt 64 (base.toInt + simm s.cx.mods imm)) →
        ∃ t, exec (.stfe d a imm) s = .next t ∧
          Awaits u t k' (.store 8 data) (BitVec.ofInt 64 (base.toInt + simm s.cx.mods imm)) (popsOf u.cxCore k'))) ∧
    (∀ (r : RowOp) (b x : Dword), rowFaults s r = [] → readA u.cxCore r.base = .ok (b, u.cxCore) → readA u.cxCore r.index = .ok (x, u.cxCore) →
      u.cxCore.rowBusy (xferRow u.cxCore r.desc) = false →
      (MayAwait u (.loadRow (xferRow u.cxCore r.desc)) (b + x) →
        ∃ t, exec (.ldrfe r) s = .next t ∧
          Awaits u t (u.cxCore.setBusy (xferRow u.cxCore r.desc) u.cxCore.nextId) (.loadRow (xferRow u.cxCore r.desc)) (b + x) (0, 0)) ∧
      (MayAwait u (.storeRow (u.cxCore.row (xferRow u.cxCore r.desc))) (b + x) →
        ∃ t, exec (.strfe r) s = .next t ∧ Awaits u t u.cxCore (.storeRow (u.cxCore.row (xferRow u.cxCore r.desc))) (b + x) (0, 0)))) ∧
  (takeWait s = .error .stall → s.cx.misplaced = false → s.cxCore.chain = none → ∀ (d a : BitVec 6) (imm : BitVec 8) (r : RowOp),
    (aFaults d [a] = [] → exec (.ldfe d a imm) s = .next s) ∧ (aSrcOk d = true → aSrcOk a = true → exec (.stfe d a imm) s = .next s) ∧
    (rowFaults s r = [] → exec (.ldrfe r) s = .next s ∧ exec (.strfe r) s = .next s))

/-- R9, R39, R62, R75, R97, R121 to R123, R126, R257, R258, R274 and R335: what the oldest access of A that is not performed does when its last place is taken: a load delivers
its bytes, least significant first, extended by sign or zero, to its register or to the places in a queue that it has itself reserved, or discards
them; a row load writes its row, and no other, and frees it; the counter falls, and then the token is signalled, which A owes where the token's
counter is full. A place that is not the last only adds its bytes to those read. Its logical time is not before its core's nor before the line's write
time, and within the lease. An address that fails a check, or uncorrectable data, ends the gang. `v` is the state with the leaf cached and view lines
filled. A load that its home has performed, and whose reply was lost, ends with the bytes read then, once the reply comes again, be it its own or that of its
stash lines; where that comes marked uncorrectable, the gang ends. -/
def Obligations.LoadsDeliver : Prop := ∀ (s v : State) (c key : Nat) (a : Access) (n ea : Nat) (i : Instr),
  s.nextAccess c = some a →
  i = .loadDelivery c ∧ (∃ b sg d, a.op = .load b sg d) ∨ i = .rowLoadLanded c ∧ (∃ d, a.op = .loadRow d) →
  (a.performed = true → s.cameMarked c a = true → ∃ t, exec i s = .next t ∧ Failed s t c 7 a.ea.toNat) ∧
  (s.cameMarked c a = true ↔ a.op.writes = false ∧ (s.replyMarked c (.access a.id) = true ∨
    ∃ x ∈ (s.core c).stash, x.marked = true ∧ a.ea.toNat / 128 ≤ x.line ∧ x.line ≤ (a.ea.toNat + a.op.size - 1) / 128)) ∧
  (a.performed = true → s.cameMarked c a = false → ∃ t, exec i s = .next t ∧ (t.core c).aq = (s.core c).aq.filter (fun b => b.id != a.id) ∧
    (t.core c).loads = (s.core c).loads - 1 ∧ t.mem = s.mem ∧
    (∀ b sg (j : BitVec 4), a.op = .load b sg (.reg j) → a.got.length = b → (t.core c).aAt j.toNat = extended sg a.got) ∧
    ∀ row, a.op = .loadRow row → (∀ p q, row = .tile p q → q < 64) → (∀ p, row = .operand p → p < 8) → (t.core c).row row = rowOfBytes a.got) ∧
  (a.performed = false → n = a.placeSize → ea = addrPlus a.ea (a.done * n) → (s.core c).stashWaits ea = false →
  s.unanswered c (.access a.id) = false → v = (s.cacheLeaf c ea).touch key n →
  (∀ kd ad, s.keyOf c ea false = .error (.fatal kd ad) → ∃ t, exec i s = .next t ∧ Failed s t c kd ad) ∧
  (s.keyOf c ea false = .ok key → v.badAt key n = true ∨ s.replyMarked c (.access a.id) = true ∨ (s.core c).stashMarked ea = true →
    ∃ t, exec i s = .next t ∧ Failed s t c 7 ea) ∧
  (s.keyOf c ea false = .ok key → v.badAt key n = false → s.replyMarked c (.access a.id) = false → (s.core c).stashMarked ea = false →
    (a.done + 1 < a.places → ∃ t, exec i s = .next t ∧
      (t.core c).aq = (s.core c).aq.map (fun b => if b.id = a.id then { a with done := a.done + 1, got := a.got ++ v.coreBytes c key n } else b) ∧
      (t.core c).ar = (s.core c).ar ∧ (t.core c).ax = (s.core c).ax ∧ (t.core c).tile = (s.core c).tile ∧ (t.core c).o = (s.core c).o ∧
      (t.core c).loads = (s.core c).loads ∧ t.mem = s.mem ∧ (s.core c).ptime ≤ (t.core c).ptime) ∧
    (a.places ≤ a.done + 1 → ∃ t, exec i s = .next t ∧
      (t.core c).aq = (s.core c).aq.filter (fun b => b.id != a.id) ∧ (t.core c).loads = (s.core c).loads - 1 ∧
      (∀ k, (s.core c).signalOpt? a.sig = some k → (t.core c).tk = k.tk ∧ (t.core c).a = (s.core c).a) ∧
      (∀ w, a.sig = some w → (s.core c).tk.get w.toFin = 255 → (t.core c).tk = (s.core c).tk ∧
        (t.core c).a = { (s.core c).a with sigDue := (s.core c).a.sigDue ++ [w] }) ∧
      t.mem = s.mem ∧ (s.core c).ptime ≤ (t.core c).ptime ∧ (s.timeOf key).write ≤ (t.core c).ptime ∧ (t.core c).ptime ≤ (t.timeOf key).lease ∧
      (∀ b sg (j : BitVec 4), a.op = .load b sg (.reg j) → (a.got ++ v.coreBytes c key n).length = b →
        (t.core c).aAt j.toNat = extended sg (a.got ++ v.coreBytes c key n) ∧
        (∀ j', j' < 16 → j' ≠ j.toNat → (t.core c).aAt j' = (s.core c).aAt j') ∧ (t.core c).ax = (s.core c).ax) ∧
      (∀ b sg (q : BitVec 2) x ws l r, a.op = .load b sg (.queue q) → (a.got ++ v.coreBytes c key n).length = b →
        x = extended sg (a.got ++ v.coreBytes c key n) → ws = (if b = 8 then [x.setWidth 32, x.extractLsb' 32 32] else [x.setWidth 32]) →
        (s.core c).ax.get q.toFin = l ++ List.replicate ws.length none ++ r → l.countP (·.isNone) = (s.core c).reservedBefore a.id q →
        (t.core c).ax.get q.toFin = l ++ ws.map some ++ r ∧ (∀ q' : BitVec 2, q' ≠ q → (t.core c).ax.get q'.toFin = (s.core c).ax.get q'.toFin) ∧
        (t.core c).ar = (s.core c).ar) ∧
      (∀ b sg, a.op = .load b sg .discard → (t.core c).ar = (s.core c).ar ∧ (t.core c).ax = (s.core c).ax) ∧
      ((∀ row, a.op ≠ .loadRow row) → (t.core c).tile = (s.core c).tile ∧ (t.core c).o = (s.core c).o) ∧
      (∀ row, a.op = .loadRow row → (∀ p q, row = .tile p q → q < 64) → (∀ p, row = .operand p → p < 8) →
        (t.core c).row row = rowOfBytes (a.got ++ v.coreBytes c key n) ∧ (∀ b ∈ (t.core c).busy, ¬(b.row = row ∧ b.owner = a.id)) ∧
        (∀ p q, q < 64 → row ≠ .tile p q → (t.core c).row (.tile p q) = (s.core c).row (.tile p q)) ∧
        (∀ p, row ≠ .operand p → (t.core c).row (.operand p) = (s.core c).row (.operand p)) ∧ (t.core c).ar = (s.core c).ar ∧
        (t.core c).ax = (s.core c).ax))))

/-- R39, R62, R122, R123, R127, R128, R257, R258, R274, R334 and R335: a store's place writes the bytes of that place at the key that its address reaches, and no other byte of
memory changes, at a logical time beyond the lease of its line; with the last place it is no longer counted, and its token is
signalled or owed; where its data came in a payload flit marked uncorrectable, its line is marked. One that its home has performed, and whose reply was
lost, writes nothing again. A full/empty operation is performed when
every line of it is in the state it needs, every older access of its strand has been performed and no older operation of its direction waits
there (log entry 17), none of the local A comes there in the same cycle, and its request has reached them: its lines turn, a store writes exactly its bytes, and A goes on; one that is performed, and whose
reply was lost, ends with the bytes read then. -/
def Obligations.StoresAndFullEmptyPerform : Prop := ∀ (s : State) (c : Nat),
  (∀ (a : Access), s.nextAccess c = some a → a.performed = true → a.op.writes = true → ∃ t, exec (.storePerformed c) s = .next t ∧
    t.mem = s.mem ∧ (t.core c).aq = (s.core c).aq.filter (fun b => b.id != a.id) ∧ (t.core c).stores = (s.core c).stores - 1) ∧
  (∀ (a : Access), a.performed = true → s.nextAccess c = some a → s.unanswered c (.access a.id) = false ∧
    ∀ x ∈ (s.core c).stash, x.waiting = true → x.line < a.ea.toNat / 128 ∨ (a.ea.toNat + a.op.size - 1) / 128 < x.line) ∧
  (∀ (a : Access) (n ea key : Nat), s.nextAccess c = some a → a.performed = false → a.op.writes = true → n = a.placeSize →
    ea = addrPlus a.ea (a.done * n) → (s.core c).stashWaits ea = false → s.unanswered c (.access a.id) = false →
    (∀ kd ad, s.keyOf c ea true = .error (.fatal kd ad) → ∃ t, exec (.storePerformed c) s = .next t ∧ Failed s t c kd ad) ∧
    (s.keyOf c ea true = .ok key → (∃ o ∈ s.outstanding, o.core = c ∧ o.what = .access a.id ∧ ea / 128 ∈ o.spoils) →
      ∃ t, exec (.storePerformed c) s = .next t ∧ key / 128 ∈ t.poison) ∧
    (s.keyOf c ea true = .ok key → (∀ o ∈ s.outstanding, o.core = c → o.what = .access a.id → ea / 128 ∉ o.spoils) →
      (∀ x ∈ (s.core c).stash, x.recalled = false) → ∃ t, exec (.storePerformed c) s = .next t ∧ t.poison = s.poison) ∧
    (s.keyOf c ea true = .ok key → a.places ≤ a.done + 1 → ∃ t, exec (.storePerformed c) s = .next t ∧
      (∀ j, j < n → mget t.mem (key + j) = (a.op.bytes.drop (a.done * n)).getD j 0) ∧ OnlyAt s t key n ∧
      (t.core c).aq = (s.core c).aq.filter (fun b => b.id != a.id) ∧ (t.core c).stores = (s.core c).stores - 1 ∧
      (∀ k, (s.core c).signalOpt? a.sig = some k → (t.core c).tk = k.tk ∧ (t.core c).a = (s.core c).a) ∧
      (∀ w, a.sig = some w → (s.core c).tk.get w.toFin = 255 → (t.core c).tk = (s.core c).tk ∧
        (t.core c).a = { (s.core c).a with sigDue := (s.core c).a.sigDue ++ [w] }) ∧
      (s.timeOf key).lease < (t.core c).ptime ∧ (t.timeOf key).write = (t.core c).ptime ∧ (t.core c).ar = (s.core c).ar) ∧
    (s.keyOf c ea true = .ok key → a.done + 1 < a.places → ∃ t, exec (.storePerformed c) s = .next t ∧
      (∀ j, j < n → mget t.mem (key + j) = (a.op.bytes.drop (a.done * n)).getD j 0) ∧ OnlyAt s t key n ∧
      (t.core c).stores = (s.core c).stores ∧ (t.core c).tk = (s.core c).tk)) ∧
  (∀ (r : FeReq) (d : Nat) (ls : List Nat) (k : CoreSt), s.cx.late = false → (s.core c).fe = some r → s.feLines c r = some (d, ls) → (s.core c).allPerformed = true →
    (∀ l ∈ ls, (s.core d).full.contains l = !r.op.writes) → s.feOlder c r = false → (s.taskOf c).elim false Task.halted = false →
    s.feThere c r = true →
    ∀ key, key = spadKey d (ls.headD 0 * 128 + r.ea.toNat % 128) →
    (r.op.writes = false → s.badAt key r.op.size = false ∧ s.replyMarked c (.access r.id) = false) →
    k = (s.core c).finishFe r (s.coreBytes c key r.op.size) →
    ∃ t, exec (.fullEmptyPerform c) s = .next t ∧ (t.core c).fe = none ∧ (∀ l ∈ ls, (t.core d).full.contains l = r.op.writes) ∧
      (t.core c).a = k.a ∧ (t.core c).tk = k.tk ∧ (t.core c).ar = k.ar ∧ (t.core c).tile = k.tile ∧
      (r.op.writes = true → (∀ j, j < r.op.bytes.length → mget t.mem (key + j) = r.op.bytes.getD j 0) ∧ OnlyAt s t key r.op.bytes.length) ∧
      (r.op.writes = false → t.mem = s.mem)) ∧
  (∀ (r : FeReq) (d : Nat) (ls : List Nat), (s.core c).fe = some r → s.feLines c r = some (d, ls) →
    (s.recorded c (.access r.id) = none ∧
      ((s.core c).allPerformed = false ∨ (∃ l ∈ ls, (s.core d).full.contains l = r.op.writes) ∨ s.feOlder c r = true ∨
        s.cx.late = true)) ∨ s.unanswered c (.access r.id) = true → exec (.fullEmptyPerform c) s = .next s) ∧
  (∀ (r : FeReq) (got : List Byte) (k : CoreSt), (s.core c).fe = some r → s.recorded c (.access r.id) = some got →
    s.unanswered c (.access r.id) = false → k = (s.core c).finishFe r got →
    (r.op.writes = true ∨ s.replyMarked c (.access r.id) = false →
      exec (.fullEmptyPerform c) s = .next ((s.setCore c k).answer c (.access r.id))) ∧
    (r.op.writes = false → s.replyMarked c (.access r.id) = true →
      ∃ t, exec (.fullEmptyPerform c) s = .next t ∧ Failed s t c 7 r.ea.toNat))

/-- R129, R231, R232, R261, R275, R298, R299 and R335: PROBE passes over a range whose pages all translate and changes nothing; a failing page gets a
fault record where the ring's producer stands, with its interrupt and its event, and with the last one the gang is to stop; while the ring has no
room the probe waits with the pages left (log entry 32). The device reads CONS of the ring again. Data of a store or of an engine's command that comes to its home in a payload
flit marked uncorrectable marks the line that it is written to. A reply makes its line usable and forgets its
request; a recall held for it takes the line once what waited for the reply is performed (log entry 70); a recall with no reply awaited takes it at
once, and one of an earlier reply does nothing. -/
def Obligations.ProbesRepliesAndRecalls : Prop := ∀ (s u : State) (w : BitVec 1) (a b : BitVec 6) (first len : Dword) (c line tag : Nat),
  (Ready s u → s.cxCore.chain = none → s.cxCore.probe = none → aRegOk a = true → aRegOk b = true → readA s.cxCore a = .ok (first, s.cxCore) →
    readA s.cxCore b = .ok (len, s.cxCore) → s.cxCore.loads = 0 → s.cxCore.stores = 0 → s.cxCore.copies = 0 →
    (len = 0 → exec (.probe w a b) s = .next (retire u)) ∧
    (len ≠ 0 → len.toNat ≤ 2 ^ 32 → first.toNat + len.toNat ≤ 0x00FFF00000000000 →
      (s.badPages s.cx.core first.toNat (first.toNat + len.toNat - 1) (w = 1) = [] → exec (.probe w a b) s = .next (retire u)) ∧
      (∀ l p, s.badPages s.cx.core first.toNat (first.toNat + len.toNat - 1) (w = 1) = l → l ≠ [] → p = s.part s.cxCore.part →
        p.frOn = false ∨ 2 ^ p.frN ≤ p.frProd - p.frCons → exec (.probe w a b) s = .next (s.modCx (fun k => { k with probe := some l }))) ∧
      (∀ page kind p n x y, s.badPages s.cx.core first.toNat (first.toNat + len.toNat - 1) (w = 1) = [(page, kind)] → n = s.cxCore.part → p = s.part n →
        p.frOn = true → p.frProd - p.frCons < 2 ^ p.frN →
        x = (s.partWrite n (p.frBase + 64 + 64 * (p.frProd % 2 ^ p.frN))
          (bytesOfNat 8 (s.cxCore.task * 2 ^ 32 + s.cxCore.rank * 2 ^ 16 + coordOfCore s.cx.core) ++ bytesOfNat 8 page ++
            bytesOfNat 8 (s.cxCore.seq.toNat * 2 ^ 32 + (if w = 1 then 16 else 0) + kind) ++ List.replicate 40 0)).partWrite n p.frBase
          (bytesOfNat 8 (p.frProd + 1)) →
        y = (((x.modPart n (fun q => { q with frProd := q.frProd + 1 })).modCx (fun k => { k with seq := k.seq + 1 })).msix n 2).postEvent
          (some n) 9 0 (p.frProd + 1) 0 →
        ∃ t, exec (.probe w a b) s = .next t ∧ t.mem = y.mem ∧ t.outputs = y.outputs ∧ (t.part n).frProd = p.frProd + 1 ∧
          t.cxCore.seq = s.cxCore.seq + 1 ∧ t.cxCore.probe = some [] ∧ ∀ g, s.taskOf s.cx.core = some g → ∃ g', t.taskOf s.cx.core = some g' ∧
            g'.traps = g.traps ++ [{ core := s.cx.core, strand := .a, cls := probeClass, cause := 0, code := 0, next := s.cx.pc, words := 0,
                                     wait := none, sig := none, due := false }])) ∧
    (len ≠ 0 → 2 ^ 32 < len.toNat → exec (.probe w a b) s = .next (raiseIll s .otherUse))) ∧
  (∃ t, exec (.faultRingPoll c) s = .next t ∧
    (t.part (s.core c).part).frCons = s.partNat (s.core c).part ((s.part (s.core c).part).frBase + 8) 8 ∧ t.mem = s.mem ∧ t.cores = s.cores) ∧
  (∀ x marked, (s.core c).stash.find? (fun y => y.line == line && y.waiting) = some x → s.unanswered c (.line line) = false →
    ∃ t, exec (.dataReplyArrival c (.line line marked)) s = .next t ∧ t.asked c (.line line) = [] ∧
      ∀ y ∈ (t.core c).stash, y.line = line → y.waiting = false ∧
        (y.recalled = true → ∃ a ∈ (t.core c).aq, a.performed = false ∧ a.id ∈ (s.core c).waitersOf line)) ∧
  (∀ marked, (s.core c).stash.find? (fun y => y.line == line && y.waiting) = none ∨ s.unanswered c (.line line) = true →
    exec (.dataReplyArrival c (.line line marked)) s = .next s) ∧
  (∀ o, s.outstanding.find? (fun p => p.core == c && p.tag == tag && p.sent) = some o →
    (∀ id, o.what = .access id → ∃ t, exec (.dataReplyArrival c (.spoilt tag line)) s = .next t ∧ t = { s with outstanding := t.outstanding } ∧
      t.outstanding.find? (fun p => p.core == c && p.tag == tag && p.sent) = some { o with spoils := o.spoils ++ [line] }) ∧
    (∀ e m key, o.what = .engine e → ((s.core c).engine e).active = [m] → (∀ b z n, m.op ≠ .tfetch b z n) →
      m.writes = [] ∨ (∃ g ∈ m.writes, g.overlaps (s.scoreAddr c (line * 128)) 128 = true) → s.keyOf c (line * 128) true = .ok key →
      exec (.dataReplyArrival c (.spoilt tag line)) s = .next (s.markLine key) ∧ key / 128 ∈ (s.markLine key).poison ∧
        (s.markLine key).mem = s.mem)) ∧
  (∃ t, exec (.dataReplyArrival c (.marked tag)) s = .next t ∧ t = { s with outstanding := t.outstanding } ∧
    ∀ o ∈ t.outstanding, o.core = c → o.tag = tag → o.marked = true) ∧
  ((s.core c).stash.any (fun x => x.line == line && x.tag == tag) = true →
    ((∀ x ∈ (s.core c).stash, x.line = line → x.waiting = true) →
      ∃ t, exec (.recallArrival c ⟨line, tag⟩) s = .next t ∧ t.mem = s.mem ∧ (∃ y ∈ (t.core c).stash, y.line = line) ∧
        ∀ y ∈ (t.core c).stash, y.line = line → y.recalled = true) ∧
    ((∀ x ∈ (s.core c).stash, x.line = line → x.waiting = false ∧ ∀ a ∈ (s.core c).aq, a.id ∈ x.owes → a.performed = true) →
      ∃ t, exec (.recallArrival c ⟨line, tag⟩) s = .next t ∧ t.mem = s.mem ∧ ∀ y ∈ (t.core c).stash, y.line ≠ line)) ∧
  ((s.core c).stash.any (fun x => x.line == line && x.tag == tag) = false → exec (.recallArrival c ⟨line, tag⟩) s = .next s)

/-! Engine commands. -/

/-- R233 to R244, R306, R317, R319, R322, R324, R326 and R327 (with R71, R85 to R87, R234): copies, fetches, gathers, scatters, scatter-accumulates and the
commands of the skimmer, the tokenizer and the converter enter their engine's queue when they are legal, with the values that their operands hold
at issue. -/
def Obligations.EngineCommandsEnter : Prop :=
  (∀ (f : FE) (fill : BitVec 1) (patch : BitVec 32) (coord : BitVec 9) (hm1 : BitVec 3) (wm1 : BitVec 4)
    (nrm1 : BitVec 5) (opc : BitVec 3) (ty : BitVec 4) (nm1 : BitVec 16) (win : BitVec 6) (um1 ntx nty : BitVec 8) (tszm1 : BitVec 6),
  EngineTakes (.copy f fill) .copy f true 0 (fun _ _ _ n => n.toNat ≤ 2 ^ 32) (fun _ d a n => .copy d a n (decide (fill = 1)))
    (fun s _ a n => if fill = 1 then [] else s.rangeOf s.cx.core a n.toNat) (fun s d _ n => s.rangeOf s.cx.core d n.toNat) ∧
  EngineTakes (.copym f patch) .copy f true 0
    (fun s d _ n => followFaults patch = [] ∧ d.toNat < 1024 ∧ n.toNat % 256 = 0 ∧ n ≠ 0 ∧ d.toNat / 16 % 64 + n.toNat / 256 ≤ 64 ∧
      d.toNat % 16 < s.cxCore.demand)
    (fun s d a n => .copym (physT s.cxCore.a s.cxCore.demand (d.toNat % 16)) (d.toNat / 16 % 64) a n patch)
    (fun s _ a n => s.rangeOf s.cx.core a n.toNat) (fun _ _ _ _ => []) ∧
  EngineTakes (.mcast f coord hm1 wm1) .copy f true 0
    (fun s d _ n => coordFaults coord = [] ∧ coord.toNat / 16 % 8 + hm1.toNat ≤ 7 ∧ coord.toNat % 16 + wm1.toNat ≤ 15 ∧
      (∀ t ∈ rectangle coord hm1.toNat wm1.toNat, t = s.cx.core ∨ s.inGang s.cx.core t = true) ∧
      d.toNat + n.toNat ≤ s.cxCore.spad * 2 ^ 14)
    (fun _ d a n => .mcast d a n (rectangle coord hm1.toNat wm1.toNat)) (fun s _ a n => s.rangeOf s.cx.core a n.toNat)
    (fun s d _ n => if (rectangle coord hm1.toNat wm1.toNat).contains s.cx.core = true ∧ n ≠ 0 then
      [{ lo := 2 ^ 60 + spadKey s.cx.core d.toNat, hi := 2 ^ 60 + spadKey s.cx.core d.toNat + n.toNat }] else []) ∧
  EngineTakes (.tfetch f nrm1) .sluice f false (nrm1.toNat + 1)
    (fun _ _ a st => f.ad = 0 ∧ f.rel = 0 ∧ a.toNat % 256 = 0 ∧ st.toNat % 256 = 0 ∧ inSpad a.toNat = false)
    (fun _ _ a st => .tfetch a st (nrm1.toNat + 1)) (fun _ _ a st => fetchRange a st (nrm1.toNat + 1)) (fun _ _ _ _ => []) ∧
  EngineTakes (.gath f nm1 um1 ty) .gather f true 0 (fun _ _ _ x => ty.toNat ≤ 12 ∧ x.toNat % 4 = 0)
    (fun _ d a x => .gath d a x ty ((um1.toNat + 1) * typeWidth ty) (nm1.toNat + 1)) (fun s _ _ x => s.rangeOf s.cx.core x (4 * (nm1.toNat + 1)))
    (fun s d _ _ => s.rangeOf s.cx.core d ((um1.toNat + 1) * typeWidth ty * (nm1.toNat + 1))) ∧
  EngineTakes (.scat f nm1 um1 ty) .gather f true 0 (fun _ _ _ x => ty.toNat ≤ 12 ∧ x.toNat % 4 = 0)
    (fun _ d a x => .scat d a x ty ((um1.toNat + 1) * typeWidth ty) (nm1.toNat + 1))
    (fun s _ a x => s.rangeOf s.cx.core a ((um1.toNat + 1) * typeWidth ty * (nm1.toNat + 1)) ++ s.rangeOf s.cx.core x (4 * (nm1.toNat + 1)))
    (fun _ _ _ _ => []) ∧
  EngineTakes (.sacc f opc ty nm1 win) .confluence f true 0
    (fun _ d x v => saccOk opc ty = true ∧ x.toNat % 4 = 0 ∧ d.toNat % typeWidth ty = 0 ∧ v.toNat % typeWidth ty = 0 ∧
      ∀ g, regionOf d.toNat ≠ .remote g)
    (fun _ d x v => .sacc d x v opc ty (nm1.toNat + 1) (win.toNat + 1))
    (fun s _ x v => s.rangeOf s.cx.core x (4 * (nm1.toNat + 1)) ++
      s.rangeOf s.cx.core v (typeWidth ty * (nm1.toNat + 1) * (if opc = 6 then 2 else 1)))
    (fun s _ _ v => if 5 ≤ opc.toNat then s.rangeOf s.cx.core v (typeWidth ty * (nm1.toNat + 1) * (if opc = 6 then 2 else 1)) else []) ∧
  EngineTakes (.gathmc f ntx nty tszm1 ty) .gather f true 0
    (fun _ d a l => ty.toNat ≤ 12 ∧ d.toNat % 64 = 0 ∧ a.toNat % 64 = 0 ∧ l.toNat % 8 = 0 ∧ ntx ≠ 0 ∧ nty ≠ 0 ∧
      (tszm1.toNat + 1) % typeWidth ty = 0 ∧
      (a.toNat + 64 * (tszm1.toNat + 1) * (ntx.toNat * nty.toNat) ≤ d.toNat ∨ d.toNat + 64 * (tszm1.toNat + 1) * (ntx.toNat * nty.toNat) ≤ a.toNat))
    (fun _ d a l => .gathmc d a l ty (tszm1.toNat + 1) ntx.toNat nty.toNat)
    (fun s _ a l => s.rangeOf s.cx.core a (64 * (tszm1.toNat + 1) * (ntx.toNat * nty.toNat)) ++ s.rangeOf s.cx.core l (8 * (ntx.toNat * nty.toNat)))
    (fun s d _ _ => s.rangeOf s.cx.core d (64 * (tszm1.toNat + 1) * (ntx.toNat * nty.toNat)))) ∧
  (∀ (f : FE) (force : BitVec 1) (dict : BitVec 2) (capm1 : BitVec 16) (ntx nty : BitVec 8) (cset : BitVec 4)
    (ofmt : BitVec 2),
  EngineTakes (.cmask f force) .copy f true 0 (fun _ d a l => d.toNat % 32 = 0 ∧ a.toNat % 64 = 0 ∧ l.toNat % 32 = 0)
    (fun _ d a l => .cmask d a l (decide (force = 1))) (fun _ _ _ _ => []) (fun _ _ _ _ => []) ∧
  EngineTakes (.tlist f) .copy f true 0 (fun _ d a r => d.toNat % 4 = 0 ∧ a.toNat % 32 = 0 ∧ r.toNat % 8 = 0)
    (fun _ d a r => .tlist d a r) (fun _ _ _ _ => []) (fun _ _ _ _ => []) ∧
  EngineTakes (.tokz f dict capm1) .copy f true 0
    (fun s d _ n => d.toNat % 8 = 0 ∧ n.toNat ≤ 2 ^ 32 ∧ (s.dictOf s.cx.core dict.toNat).nnodes ≠ 0)
    (fun _ d a n => .tokz d a n dict.toNat (capm1.toNat + 1)) (fun s _ a n => s.rangeOf s.cx.core a n.toNat)
    (fun s d _ _ => s.rangeOf s.cx.core d (8 + 4 * (capm1.toNat + 1))) ∧
  EngineTakes (.ccvt f ntx nty cset ofmt) .copy f true 0
    (fun s d _ o => ofmt ≠ 3 ∧ d.toNat % 64 = 0 ∧ o.toNat % 8 = 0 ∧ o.toNat / 2 ^ 16 % 8 = 0 ∧ o.toNat < 2 ^ 32 ∧ ntx ≠ 0 ∧ nty ≠ 0 ∧
      (s.ccsetOf s.cx.core cset.toNat).en = true)
    (fun _ d a o => .ccvt d a o ntx.toNat nty.toNat cset.toNat ofmt) (fun _ _ _ _ => [])
    (fun s d _ _ => s.rangeOf s.cx.core d (256 * typeWidth (ofmtType ofmt) * (ntx.toNat * nty.toNat))))

/-- R91, R246 to R248: CHAIN opens a chain of NCM1 + 1 operations and enters nothing; each CHOP adds one operation with the constants it names; the last
one closes the chain, and the command enters the chain engine's queue with all of them and is counted. A CHOP outside a chain raises ILL with
cause 14 (log entry 36), and so does every A word but a CHOP inside one, unless a fault of its own stands higher. What the command then does is the
operations in turn on each element, and one conversion. -/
def Obligations.ChainsCloseAtTheirLastChop : Prop := ∀ (f : FE) (ty dty : BitVec 4) (rm : BitVec 3) (sat buse : BitVec 1) (ncm1 : BitVec 3)
    (nm1 : BitVec 16) (d a b : BitVec 6) (s u : State), Admits s u →
  (∀ vd va vb, s.cxCore.chain = none → scopeFaults f = [] → rm.toNat ≤ 4 → ty.toNat ≤ 8 → dty.toNat ≤ 8 → (buse = 0 → f.as2 = 0 ∧ vb = 0) →
    readFE s.cxCore f.ad = .ok vd → readFE s.cxCore f.as1 = .ok va → (buse = 1 → readFE s.cxCore f.as2 = .ok vb) →
    ∃ t ch, exec (.chain f ty dty rm sat buse ncm1 nm1) s = .next t ∧ t.cxCore.chain = some ch ∧ ch.left = ncm1.toNat + 1 ∧
      ch.cmd.op = .chain vd va vb ty dty rm (decide (sat = 1)) (decide (buse = 1)) (nm1.toNat + 1) [] ∧ t.cxCore.chainE = s.cxCore.chainE ∧
      t.cxCore.copies = s.cxCore.copies ∧ t.cxStrand.pc = s.cx.next ∧ t.mem = s.mem) ∧
  (∀ ch vd va vb t0 t1 m x n ops, u.cxCore.chain = some ch → ch.cmd.op = .chain vd va vb t0 t1 m x (decide (buse = 1)) n ops →
    chopFaults t0 (decide (buse = 1)) d a b = [] →
    (1 < ch.left → u.sigStuck = false → ∃ t ch', exec (.chop d a b) s = .next t ∧ t.cxCore.chain = some ch' ∧ ch'.left = ch.left - 1 ∧
      ch'.cmd.op = .chain vd va vb t0 t1 m x (decide (buse = 1)) n
        (ops ++ [{ op := d, x := a, y := b, kx := chopConst u.cxCore a, ky := chopConst u.cxCore b }]) ∧ t.mem = s.mem) ∧
    (ch.left ≤ 1 → u.sigStuck = false → u.cxCore.chainE.queue.length < 16 → u.cxCore.copies ≠ 255 → u.cxCore.entries < 16 →
      ∃ t e, exec (.chop d a b) s = .next t ∧ t.cxCore.chain = none ∧ t.cxCore.chainE.queue = u.cxCore.chainE.queue ++ [e] ∧
        t.cxCore.copies = u.cxCore.copies + 1 ∧ e.op = .chain vd va vb t0 t1 m x (decide (buse = 1)) n
          (ops ++ [{ op := d, x := a, y := b, kx := chopConst u.cxCore a, ky := chopConst u.cxCore b }]) ∧ t.mem = s.mem)) ∧
  (s.cxCore.chain = none → chopFaults 0 true d a b = [] → exec (.chop d a b) s = .next (raiseIll s .otherUse)) ∧
  (∀ ch w p i, s.cxCore.chain = some ch → s.cxCore.probe = none → decodeHead w p = .ok i → tagOf w = 1 → (∀ x y z, i ≠ .chop x y z) →
    ∃ e, exec i s = .next (raiseIll s e) ∧ (e = .otherUse ∨ exec i (s.modCx (fun k => { k with chain := none })) =
      .next (raiseIll (s.modCx (fun k => { k with chain := none })) e))) ∧
  (∀ ch, s.cxCore.chain = some ch → aSrcOk a = true → aDstOk d = true → exec (.amov d a) s = .next (raiseIll s .otherUse) ∧
    exec .nopA s = .next (raiseIll s .otherUse)) ∧
  (∀ (c : Nat) (m : EngCmd) (r : List EngCmd) (vd va vb : Dword) (n : Nat) (ops : List ChopOp) (ab bb : List Byte),
    Starts s c .chain m r (.chain vd va vb ty dty rm (decide (sat = 1)) (decide (buse = 1)) n ops) → ab.length = typeWidth ty * n →
    bb.length = (if buse = 1 then typeWidth ty * n else 0) → Sees s c va ab → Sees s c vb bb → Writes s c vd (typeWidth dty * n) →
    (∀ j, j < n → ∀ j', j < j' → j' < n → Apart s c (plus vd (typeWidth dty * j : Nat)) (typeWidth dty)
      [(plus va (typeWidth ty * j' : Nat), typeWidth ty), (plus vb (typeWidth ty * j' : Nat), if buse = 1 then typeWidth ty else 0)]) →
    ∃ t evs, Ran s t c .chain m r evs ∧ Spares s t c [(vd, typeWidth dty * n)] ∧
      Lands s t c vd ((List.range n).flatMap (fun j => bytesOfNat (typeWidth dty)
        (chainElem ty dty rm (decide (sat = 1)) ops (numAt ab (typeWidth ty * j) (typeWidth ty)) (numAt bb (typeWidth ty * j) (typeWidth ty))).1)))

/-- R31, R59, R210, R226, R233, R234, R236, R238 to R245, R263, R265, R294, R311, R316 to R322, R324 and R326 (log entries 21 and 25): what the commands of
the engines do once their turn has come. A copy, a fill and a multicast move their bytes as they stood before; gathers and scatters move units by
index; a scatter-accumulate updates its target by the present values of a window; the skimmer writes zeros for a malformed descriptor, and else
an entry for each tile and the header after them, the tokenizer, the lists and the colour converter what their rules give. The
core sees the bytes at once and memory does not, until the core's writes enter the memory order; an address that fails a check ends the gang. A row
of a fetch enters fq while it has room. A command whose work is done leaves its engine with its signal made; with a release beyond the core its
core's writes enter the memory order first; a COPYM first presents its follow-on word. -/
def Obligations.EnginesRunAndComplete : Prop := ∀ (s : State) (c : Nat) (e : Engine) (m : EngCmd) (r : List EngCmd),
  (∀ d a n bs, Starts s c e m r (.copy d a n false) → bs.length = n.toNat → Sees s c a bs → Writes s c d n.toNat →
    ∃ t, Ran s t c e m r [] ∧ Lands s t c d bs ∧ Spares s t c [(d, n.toNat)]) ∧
  (∀ d a n, Starts s c e m r (.copy d a n true) → Writes s c d n.toNat → ∃ t, Ran s t c e m r [] ∧ Spares s t c [(d, n.toNat)] ∧
    Lands s t c d ((List.range n.toNat).map (fun j => (bytesOfNat 8 a.toNat).getD ((d.toNat + j) % 8) 0))) ∧
  (∀ d a n bs kd ad, Starts s c e m r (.copy d a n false) → bs.length < n.toNat → Sees s c a bs →
    s.keyOf c (addrPlus a bs.length) false = .error (.fatal kd ad) ∨
      (∃ key, s.keyOf c (addrPlus a bs.length) false = .ok key ∧ paKind key ≠ .view ∧ s.badAt key 1 = true ∧ kd = 7 ∧
        ad = addrPlus a bs.length) →
    ∃ t, exec (.engineCommandStart c e) s = .next t ∧ Failed s t c kd ad ∧ ((t.core c).engine e).active = []) ∧
  (∀ d a n bs i kd ad, Starts s c e m r (.copy d a n false) → bs.length = n.toNat → Sees s c a bs → i < n.toNat → Writes s c d i →
    s.keyOf c (addrPlus d i) true = .error (.fatal kd ad) → ∃ t, exec (.engineCommandStart c e) s = .next t ∧ Failed s t c kd ad) ∧
  (∀ reg row a n patch bs, Starts s c e m r (.copym reg row a n patch) → n.toNat = 256 * (n.toNat / 256) → row + n.toNat / 256 ≤ 64 →
    bs.length = n.toNat → Sees s c a bs → ∃ t, Ran s t c e m r [] ∧ ∀ i, i < n.toNat / 256 →
      (t.core c).row (.tile reg (row + i)) = rowOfBytes (slice bs (256 * i) 256) ∧
      ∀ b ∈ (t.core c).busy, ¬(b.row = .tile reg (row + i) ∧ b.owner = m.id)) ∧
  (∀ off a n ts bs, Starts s c e m r (.mcast off a n ts) → bs.length = n.toNat → Sees s c a bs → off.toNat + n.toNat ≤ 2 ^ 19 →
    ∃ t, Ran s t c e m r [] ∧ (∀ d ∈ ts, ∀ i, i < n.toNat → t.coreByte c (spadKey d (off.toNat + i)) = bs.getD i 0) ∧
      ∀ key, (∀ d ∈ ts, ∀ i, i < n.toNat → key ≠ spadKey d (off.toNat + i)) → t.coreByte c key = s.coreByte c key) ∧
  (∀ d a x ty u n xb (us : List (List Byte)), Starts s c e m r (.gath d a x ty u n) → xb.length = 4 * n → Sees s c x xb → us.length = n →
    (∀ i, i < n → (us.getD i []).length = u ∧ if numAt xb (4 * i) 4 = 2 ^ 31 then us.getD i [] = absentUnit ty u
      else Sees s c (plus a (int32 (numAt xb (4 * i) 4) * u)) (us.getD i []) ∧
        Apart s c d (u * n) [(plus a (int32 (numAt xb (4 * i) 4) * u), u)]) → Writes s c d (u * n) → Apart s c d (u * n) [(x, 4 * n)] →
    ∃ t, Ran s t c e m r [] ∧ Lands s t c d us.flatten ∧ Spares s t c [(d, u * n)]) ∧
  (∀ d a x ty u n xb ab, Starts s c e m r (.scat d a x ty u n) → xb.length = 4 * n → Sees s c x xb → ab.length = u * n → Sees s c a ab →
    (∀ i, i < n → numAt xb (4 * i) 4 ≠ 2 ^ 31 → Writes s c (plus d (int32 (numAt xb (4 * i) 4) * u)) u ∧
      Apart s c (plus d (int32 (numAt xb (4 * i) 4) * u)) u [(x, 4 * n), (a, u * n)] ∧
      ∀ j, j < n → numAt xb (4 * j) 4 ≠ 2 ^ 31 → j ≠ i → numAt xb (4 * j) 4 ≠ numAt xb (4 * i) 4 →
        ∀ p q, p < u → q < u → s.keyOf c (addrPlus (plus d (int32 (numAt xb (4 * i) 4) * u)) p) true ≠
          s.keyOf c (addrPlus (plus d (int32 (numAt xb (4 * j) 4) * u)) q) true) →
    ∃ t, Ran s t c e m r [] ∧
      (∀ i, i < n → numAt xb (4 * i) 4 ≠ 2 ^ 31 → (∀ j, i < j → j < n → numAt xb (4 * j) 4 ≠ numAt xb (4 * i) 4) →
        Lands s t c (plus d (int32 (numAt xb (4 * i) 4) * u)) (slice ab (u * i) u)) ∧
      Spares s t c ((List.range n).map (fun i => (plus d (int32 (numAt xb (4 * i) 4) * u), if numAt xb (4 * i) 4 = 2 ^ 31 then 0 else u)))) ∧
  (∀ d a l ty u ntx nty lb ab, Starts s c e m r (.gathmc d a l ty u ntx nty) → lb.length = 8 * (ntx * nty) → Sees s c l lb →
    ab.length = 64 * u * (ntx * nty) → Sees s c a ab → Writes s c d (64 * u * (ntx * nty)) →
    Apart s c d (64 * u * (ntx * nty)) [(l, 8 * (ntx * nty)), (a, 64 * u * (ntx * nty))] →
    ∃ t, Ran s t c e m r [] ∧ ∀ i q, i < ntx * nty → q = numAt lb (8 * i) 4 → q ≠ 2 ^ 31 → q < ntx * nty →
      (∀ j, i < j → j < ntx * nty → numAt lb (8 * j) 4 ≠ q) → ∀ p, p < 64 →
      let x : Int := 8 * (q % ntx : Nat) + (p % 8 : Nat) - (BitVec.ofNat 16 (numAt lb (8 * i + 4) 2)).toInt
      let y : Int := 8 * (q / ntx : Nat) + (p / 8 : Nat) - (BitVec.ofNat 16 (numAt lb (8 * i + 6) 2)).toInt
      Lands s t c (plus d (64 * u * q + p * u : Nat)) (if 0 ≤ x ∧ x < 8 * ntx ∧ 0 ≤ y ∧ y < 8 * nty then
        slice ab (64 * u * (y.toNat / 8 * ntx + x.toNat / 8) + (8 * (y.toNat % 8) + x.toNat % 8) * u) u else absentUnit ty u)) ∧
  (∀ d x v opc ty n win xb vb q key, Starts s c e m r (.sacc d x v opc ty n win) → 0 < n → n ≤ win → xb.length = 4 * n → Sees s c x xb →
    (∀ i, i < n → numAt xb (4 * i) 4 = q) → q ≠ 2 ^ 31 → vb.length = typeWidth ty * n * (if opc = 6 then 2 else 1) → Sees s c v vb →
    (∀ f, regionOf d.toNat = .near f → ∃ g, regionOf (plus d (int32 q * typeWidth ty)).toNat = .near g) →
    (∀ i, i < typeWidth ty → s.keyOf c (addrPlus (plus d (int32 q * typeWidth ty)) i) true = .ok (key + i) ∧ s.badAt (key + i) 1 = false) →
    paKind key ≠ .view → key % typeWidth ty = 0 → (∀ k ∈ s.cores, ∀ p ∈ k.2.ebuf, sameUnits key (typeWidth ty) p.1 = false) →
    Apart s c (plus d (int32 q * typeWidth ty)) (typeWidth ty) [(x, 4 * n), (v, vb.length)] →
    (5 ≤ opc.toNat → ∀ m', (∀ k, k < key ∨ key + typeWidth ty ≤ k → mget m' k = mget s.mem k) → ∀ i, i < typeWidth ty →
      regionOf (addrPlus v i) = .global →
      ({ s with mem := m' } : State).walkPages (s.core c).part (addrPlus v i) = s.walkPages (s.core c).part (addrPlus v i)) →
    let w := typeWidth ty
    let old := natOfBytes (mread s.mem key w)
    (opc.toNat ≤ 4 → ∃ t evs, exec (.engineCommandStart c e) s = .next t ∧ ((t.core c).engine e).active = [{ m with events := evs }] ∧
      t.mem = match ((List.range n).map (fun i => numAt vb (w * i) w)).filter (fun z => !isAbsent (kindOfType ty) z) with
        | [] => s.mem
        | z :: zs => mwrite s.mem key (bytesOfNat w (saccStep opc ty old (zs.foldl (fun a b => (saccStep opc ty a b).1) z)).1)) ∧
    (opc = 5 → n = 1 → Writes s c v w → ∃ t, exec (.engineCommandStart c e) s = .next t ∧ t.mem = mwrite s.mem key (slice vb 0 w) ∧
      Lands s t c v (bytesOfNat w old)) ∧
    (opc = 6 → n = 1 → Writes s c v w → ∃ t, exec (.engineCommandStart c e) s = .next t ∧ Lands s t c v (bytesOfNat w old) ∧
      t.mem = if numAt vb 0 w = old then mwrite s.mem key (slice vb w w) else mwrite s.mem key (bytesOfNat w old))) ∧
  (∀ (opc : BitVec 3) (ty : BitVec 4) (a b : Nat), let k := kindOfType ty
    (opc = 0 → saccStep opc ty a b = finish (dyadVal .add (decodeVal k a) (decodeVal k b)) k 0 false) ∧
    (opc = 1 → saccStep opc ty a b = finish (dyadVal .min (decodeVal k a) (decodeVal k b)) k 0 false) ∧
    (opc = 2 → saccStep opc ty a b = finish (dyadVal .max (decodeVal k a) (decodeVal k b)) k 0 false) ∧
    (opc = 3 → saccStep opc ty a b = (a &&& b, [])) ∧ (opc = 4 → saccStep opc ty a b = (a ||| b, []))) ∧
  (∀ comp st re sb h2 n valid, Starts s c e m r (.tlist comp st re) → Sees s c st sb → h2 = numAt sb 16 8 → n = h2 % 2 ^ 8 * (h2 / 2 ^ 8 % 2 ^ 8) →
    valid = (numAt sb 0 8 / 2 ^ 32 % 2 == 1) → sb.length = 32 + (if valid then 8 * n else 0) → Writes s c comp (4 * n) → Writes s c re (8 * n) →
    Apart s c comp (4 * n) [(st, sb.length)] → Apart s c re (8 * n) [(st, sb.length)] →
    (∀ i j, i < 4 * n → j < 8 * n → s.keyOf c (addrPlus comp i) true ≠ s.keyOf c (addrPlus re j) true) →
    let en := fun t => if valid then numAt sb (32 + 8 * t) 8 else 0
    let cs := (List.range n).filter (fun t => en t / 2 ^ 31 % 2 == 0)
    let rs := ((List.range n).filter (fun t => en t / 2 ^ 31 % 2 == 1)).map (fun t =>
      t + ((BitVec.ofNat 12 (en t)).signExtend 16).toNat * 2 ^ 32 + ((BitVec.ofNat 12 (en t / 2 ^ 12)).signExtend 16).toNat * 2 ^ 48)
    ∃ t, Ran s t c e m r [] ∧ Spares s t c [(comp, 4 * n), (re, 8 * n)] ∧
      Lands s t c comp ((cs ++ List.replicate (n - cs.length) (2 ^ 31)).flatMap (bytesOfNat 4)) ∧
      Lands s t c re ((rs ++ List.replicate (n - rs.length) (2 ^ 31)).flatMap (bytesOfNat 8))) ∧
  (∀ st fr la force fb lb sb (V E : Nat → Nat → Nat), Starts s c e m r (.cmask st fr la force) → fb.length = 64 → Sees s c fr fb → lb.length = 32 →
    Sees s c la lb →
    let w0 := numAt lb 0 8
    let w1 := numAt lb 8 8
    let ntx := w0 % 256
    let nty := w0 / 256 % 256
    let S := 2 ^ (w0 / 2 ^ 16 % 8)
    let period := w1 / 2 ^ 48 % 256
    let malformed := ntx = 0 ∨ nty = 0 ∨ period = 0 ∨ 6 < w0 / 2 ^ 16 % 8 ∨ 2 ^ 19 ≤ w0 ∨ 2 ^ 56 ≤ w1 ∨ numAt lb 16 16 ≠ 0
    let W := numAt fb 16 8 % 2 ^ 16
    let H := numAt fb 16 8 / 2 ^ 16 % 2 ^ 16
    (malformed → Writes s c st 32 → ∃ t, Ran s t c e m r [] ∧ Lands s t c st (List.replicate 32 0) ∧ Spares s t c [(st, 32)]) ∧
    (¬malformed → sb.length = 32 + 8 * (ntx * nty) → Sees s c st sb → Writes s c st sb.length → Apart s c st sb.length [(fr, 64), (la, 32)] →
      (∀ x y, x < (W + 7) / 8 → y < (H + 7) / 8 → V x y < 2 ^ 32 ∧ E x y < 2 ^ 16 ∧
        ∀ va ea, va = BitVec.ofNat 64 (numAt fb 40 8 % 2 ^ 56 + 4 * (y * ((W + 7) / 8) + x)) →
          ea = BitVec.ofNat 64 (numAt fb 48 8 % 2 ^ 56 + 2 * (y * ((W + 7) / 8) + x)) →
          Sees s c va (bytesOfNat 4 (V x y)) ∧ Sees s c ea (bytesOfNat 2 (E x y)) ∧ Apart s c st sb.length [(va, 4), (ea, 2)]) →
      let whole := force = true ∨ numAt sb 0 8 / 2 ^ 32 % 2 = 0 ∨ numAt fb 0 8 % 2 ^ 32 ≠ (numAt sb 0 8 % 2 ^ 32 + 1) % 2 ^ 32 ∨
        numAt fb 0 8 / 2 ^ 52 % 2 = 1 ∨ numAt fb 0 8 / 2 ^ 50 % 2 = 1 ∨ ntx ≠ (W + 8 * S - 1) / (8 * S) ∨ nty ≠ (H + 8 * S - 1) / (8 * S)
      let compute := fun (k : Nat) => period * 2 ^ 56 + k * 2 ^ 28
      let vx := fun x y => (BitVec.ofNat 16 (V x y)).toInt
      let vy := fun x y => (BitVec.ofNat 16 (V x y / 2 ^ 16)).toInt
      ∃ (t : State) (en : Nat → Nat), Ran s t c e m r [] ∧ Spares s t c [(st, sb.length)] ∧
        Lands s t c st (bytesOfNat 8 (2 ^ 32 + numAt fb 0 8 % 2 ^ 32) ++
          bytesOfNat 8 ((List.range (ntx * nty)).countP (fun i => en i / 2 ^ 31 % 2 == 1) * 2 ^ 32 +
            (List.range (ntx * nty)).countP (fun i => en i / 2 ^ 31 % 2 == 0)) ++ bytesOfNat 8 (nty * 256 + ntx) ++ List.replicate 8 0 ++
          (List.range (ntx * nty)).flatMap (fun i => bytesOfNat 8 (en i))) ∧
        ∀ i, i < ntx * nty →
          let B := fun x y => x / S = i % ntx ∧ y / S = i / ntx ∧ x < (W + 7) / 8 ∧ y < (H + 7) / 8
          (whole → en i = compute 1) ∧
          (¬whole → (∃ x y, B x y ∧ (vx x y = -32768 ∨ vy x y = -32768 ∨ ∃ x' y', B x' y' ∧ V x' y' ≠ V x y)) → en i = compute 2) ∧
          (¬whole → ∀ p q : Int, p ≠ -32768 → q ≠ -32768 → (∀ x y, B x y → vx x y = p ∧ vy x y = q) →
            (¬(4 * (S : Int) ∣ p ∧ 4 * (S : Int) ∣ q) → en i = compute 3) ∧
            ∀ dx dy : Int, p = 4 * S * dx → q = 4 * S * dy →
              let inside := 0 ≤ 8 * ((i % ntx : Nat) : Int) - dx ∧ 8 * ((i % ntx : Nat) : Int) - dx + 8 ≤ 8 * ntx ∧
                0 ≤ 8 * ((i / ntx : Nat) : Int) - dy ∧ 8 * ((i / ntx : Nat) : Int) - dy + 8 ≤ 8 * nty
              (¬inside → en i = compute 4) ∧
              (inside → ∀ res score cnt sc : Nat,
                let from_ := fun (o : Nat) => ∃ a b : Nat, a < 8 ∧ b < 8 ∧
                  o = (8 * ((i / ntx : Nat) : Int) - dy + b).toNat / 8 * ntx + (8 * ((i % ntx : Nat) : Int) - dx + a).toNat / 8
                let oldE := fun (o : Nat) => numAt sb (32 + 8 * o) 8
                (∃ x y, B x y ∧ E x y = res) → (∀ x y, B x y → E x y ≤ res) →
                (∃ o, from_ o ∧ oldE o / 2 ^ 32 % 2 ^ 24 = score) → (∀ o, from_ o → oldE o / 2 ^ 32 % 2 ^ 24 ≤ score) →
                (∃ o, from_ o ∧ oldE o / 2 ^ 56 % 256 = cnt) → (∀ o, from_ o → cnt ≤ oldE o / 2 ^ 56 % 256) →
                sc = Nat.min (score + (w1 / 2 ^ 40 % 256 * res + 15) / 16) (2 ^ 24 - 1) →
                en i = if w1 % 2 ^ 16 < res then compute 5 else if w1 / 2 ^ 16 % 2 ^ 24 < sc then compute 6 else if cnt ≤ 1 then compute 7
                  else (cnt - 1) * 2 ^ 56 + sc * 2 ^ 32 + 2 ^ 31 + (BitVec.ofInt 12 dy).toNat * 2 ^ 12 + (BitVec.ofInt 12 dx).toNat)))) ∧
  (∀ out text len dict cap D tb (node edge : Nat → Nat), Starts s c e m r (.tokz out text len dict cap) → D = s.dictOf c dict → D.nnodes ≠ 0 →
    tb.length = len.toNat → Sees s c text tb →
    (∀ k, k < D.nnodes → node k < 2 ^ 64 ∧ Sees s c (BitVec.ofNat 64 (D.node + 8 * k)) (bytesOfNat 8 (node k))) →
    (∀ k, k < D.nedges → edge k < 2 ^ 32 ∧ Sees s c (BitVec.ofNat 64 (D.edge + 4 * k)) (bytesOfNat 4 (edge k))) → Writes s c out (8 + 4 * cap) →
    Apart s c out (8 + 4 * cap) ([(text, len.toNat)] ++ (List.range D.nnodes).map (fun k => (BitVec.ofNat 64 (D.node + 8 * k), 8)) ++
      (List.range D.nedges).map (fun k => (BitVec.ofNat 64 (D.edge + 4 * k), 4))) →
    let l := tokenized D node edge cap tb
    ∃ t, Ran s t c e m r [] ∧ Lands s t c out (bytesOfNat 8 (l.length + (l.map (·.2)).sum * 2 ^ 32) ++ l.flatMap (fun p => bytesOfNat 4 p.1))) ∧
  (∀ d fr o ntx nty cset ofmt fb F (Y B R : Nat → Nat → Nat), Starts s c e m r (.ccvt d fr o ntx nty cset ofmt) → fb.length = 64 → Sees s c fr fb →
    F = frameRec fb → F.bitDepth = 8 ∨ F.bitDepth = 10 →
    let b := if F.bitDepth = 8 then 1 else 2
    let w := typeWidth (ofmtType ofmt)
    let pitch := 256 * ((F.width * b + 255) / 256)
    let px := fun t p => o.toNat % 2 ^ 16 + 8 * (t % ntx) + p % 8
    let py := fun t p => o.toNat / 2 ^ 16 % 2 ^ 16 + 8 * (t / ntx) + p / 8
    let ya := fun t p => BitVec.ofNat 64 (F.yaddr + py t p * pitch + px t p * b)
    let ba := fun t p => BitVec.ofNat 64 (F.uvaddr + py t p / 2 * pitch + px t p / 2 * 2 * b)
    let ra := fun t p => BitVec.ofNat 64 (F.uvaddr + py t p / 2 * pitch + (px t p / 2 * 2 + 1) * b)
    Writes s c d (256 * w * (ntx * nty)) → Apart s c d (256 * w * (ntx * nty)) [(fr, 64)] →
    (∀ t p, t < ntx * nty → p < 64 → px t p < F.width → py t p < F.height →
      (Y t p < 2 ^ (8 * b) ∧ B t p < 2 ^ (8 * b) ∧ R t p < 2 ^ (8 * b)) ∧ Sees s c (ya t p) (bytesOfNat b (Y t p)) ∧
      Sees s c (ba t p) (bytesOfNat b (B t p)) ∧ Sees s c (ra t p) (bytesOfNat b (R t p)) ∧
      Apart s c d (256 * w * (ntx * nty)) [(ya t p, b), (ba t p, b), (ra t p, b)]) →
    ∃ u evs, Ran s u c e m r evs ∧ ∀ t p, t < ntx * nty → p < 64 → Lands s u c (plus d (t * 256 * w + p * 4 * w : Nat))
      (if px t p < F.width ∧ py t p < F.height then
        ((List.range 3).map (fun k => (ccLane (s.ccsetOf c cset) ofmt (2 ^ F.bitDepth - 1) (Y t p) (B t p) (R t p) k).1) ++
          [absentCode (kindOfType (ofmtType ofmt))]).flatMap (bytesOfNat w)
      else (List.replicate 4 (bytesOfNat w (absentCode (kindOfType (ofmtType ofmt))))).flatten)) ∧
  (((s.core c).engine e).queue = m :: r → s.engineReady c e m = false → exec (.engineCommandStart c e) s = .next s) ∧
  (((s.core c).ebuf.map (·.1)).Nodup → (∀ d, d ≠ c → (s.core d).ebuf = []) →
    ∀ k, mget (s.settle c).mem k = if thas (s.core c).ebuf k = true then tget 0 (s.core c).ebuf k else mget s.mem k) ∧
  (∀ base stride rows bs, (s.core c).sluiceE.active = m :: r → m.op = .tfetch base stride rows → m.rowsDone < rows → (s.core c).fq.length < 4 →
    s.unanswered c (.engine .sluice) = false → Calm s c → bs.length = 256 → Sees s c (base + BitVec.ofNat 64 m.rowsDone * stride) bs →
    ∃ t, exec (.sluiceRowFill c) s = .next t ∧ (t.core c).fq = (s.core c).fq ++ [rowOfBytes bs] ∧
      (t.core c).sluiceE.active = [{ m with rowsDone := m.rowsDone + 1 }] ∧ t.mem = s.mem) ∧
  (∀ k, ((s.core c).engine e).active = m :: r → (s.core c).commandDone m = true → s.unanswered c (.engine e) = false →
    s.replyMarked c (.engine e) = false → (s.core c).signalOpt? m.sig = some k → m.events = [] →
    ∃ t, exec (.engineCommandComplete c e) s = .next t ∧ ((t.core c).engine e).active = r ∧ (t.core c).copies = (s.core c).copies - 1 ∧
      (t.core c).tk = k.tk ∧ (m.rel = true → m.scope ≠ 0 → t.mem = (s.settle c).mem ∧ (t.core c).ebuf = [] ∧
        ∀ x ∈ (t.core c).stash, x.dirty = false) ∧
      (m.rel = false ∨ m.scope = 0 → t.mem = s.mem ∧ (t.core c).ebuf = (s.core c).ebuf)) ∧
  (((s.core c).engine e).active = m :: r → s.unanswered c (.engine e) = true → exec (.engineCommandComplete c e) s = .next s) ∧
  (∀ reg row a n patch tp, ((s.core c).engine e).active = m :: r → m.op = .copym reg row a n patch → m.presented = false → (s.core c).side = none →
    (s.core c).tileops ≠ 255 → s.unanswered c (.engine e) = false → s.replyMarked c (.engine e) = false →
    tp = patchTpl (tget 0 (s.core c).tpl (bits patch 5 6).toNat) (bits patch 11 5) (bits patch 16 16) →
    ∃ t, exec (.engineCommandComplete c e) s = .next t ∧ ((t.core c).engine e).active = { m with presented := true } :: r ∧
      (t.core c).copies = (s.core c).copies ∧
      (patchFaults (bits patch 11 5) (bits patch 16 16) ++ tplFaults (s.core c).demand tp = [] →
        (t.core c).side = some { tpl := tp, judged := false } ∧ (t.core c).tileops = (s.core c).tileops + 1 ∧ (t.core c).mIll = (s.core c).mIll) ∧
      (patchFaults (bits patch 11 5) (bits patch 16 16) ++ tplFaults (s.core c).demand tp ≠ [] → (t.core c).side = none ∧
        (t.core c).tileops = (s.core c).tileops ∧ (t.core c).mIll.isSome = true)) ∧
  (∀ reg row a n patch, ((s.core c).engine e).active = m :: r → m.op = .copym reg row a n patch → m.presented = false →
    (s.core c).side ≠ none ∨ (s.core c).tileops = 255 → s.replyMarked c (.engine e) = false → exec (.engineCommandComplete c e) s = .next s)

/-! V. -/

/-- R139 to R148, R153 to R155, R157 and R181: exact arithmetic. The sum, difference and product of two finite lanes, the smaller and the greater of
them, and a product added to a third are the rational ones before the one rounding; an absent operand leaves the other, and two of them leave an
absent result with event NXA. Every code of a number or an infinity of every floating, integer and FX128 format rounds to itself in every mode
with no event: decoding loses nothing. Of the codes of one PP8 value, the canonical one of R146 comes back, with the same value. -/
def Obligations.ArithmeticIsExactBeforeOneRounding : Prop :=
  (∀ (a b c : Val) (x y z : ℚ),
  (ratOf a = some x → ratOf b = some y →
    ratOf (dyadVal .add a b).1 = some (x + y) ∧ ratOf (dyadVal .sub a b).1 = some (x - y) ∧ ratOf (dyadVal .mul a b).1 = some (x * y) ∧
    ratOf (dyadVal .min a b).1 = some (min x y) ∧ ratOf (dyadVal .max a b).1 = some (max x y) ∧
    (ratOf c = some z → ratOf (fmaVal false a b c).1 = some (x * y + z) ∧ ratOf (fmaVal true a b c).1 = some (x * y - z))) ∧
  (∀ o, dyadVal o .absent .absent = (.absent, [evNXA]) ∧ (a ≠ .absent → dyadVal o a .absent = (a, []))) ∧
  (∀ o, o ≠ .sub → a ≠ .absent → dyadVal o .absent a = (a, [])) ∧ (a ≠ .absent → dyadVal .sub .absent a = (a.neg, []))) ∧
  (∀ (ty : BitVec 4) (code mode : Nat) (sat : Bool),
  ty.toNat ≤ 7 ∨ ty = 13 ∨ ty = 14 → code < 2 ^ (8 * typeWidth ty) → decodeVal (kindOfType ty) code ≠ .absent →
  decodeVal (kindOfType ty) code ≠ .nan → roundVal (decodeVal (kindOfType ty) code) (kindOfType ty) mode sat = (code, [])) ∧
  (∀ (code mode : Nat) (sat : Bool),
  -- the sign and the shift of the two terms of a canonical code: zero has two zero terms, equal shifts are of ±2, opposite terms three apart or more
  let canonical := fun (d : Nat) => d = 0x77 ∨ d / 16 % 8 ≠ 7 ∧ d / 16 % 8 ≤ d % 8 ∧ d % 16 ≠ 15 ∧ (d / 16 % 8 = d % 8 → d / 128 = d % 16 / 8) ∧
    (d % 8 ≠ 7 → d / 128 ≠ d % 16 / 8 → d / 16 % 8 + 2 < d % 8) ∧ (d / 16 % 8 = d % 8 → d % 8 = 0)
  code < 256 → decodeVal .pp8 code ≠ .absent → ∃ d, roundVal (decodeVal .pp8 code) .pp8 mode sat = (d, []) ∧ d < 256 ∧ canonical d ∧
    decodeVal .pp8 d = decodeVal .pp8 code ∧ (canonical code → d = code))

/-- R145, R146, R148, R153, R154 and R182: a finite value that neither overflows nor saturates in a floating format, EF128 among them, an integer
format, FX128 or PP8 is rounded under RNE and RNA to a code whose value is nearest to it among all codes of the format, of two equally near ones
under RNE to the even code, in PP8 to the value of fewer non-zero terms and then of smaller magnitude, and under RNA to the one
farther from zero; under RUP to the least value at or above it, under RDN to the greatest at or below it, under RTZ to the one of greatest
magnitude that is not beyond it; the model's mode 5 goes toward zero and 6 away from it. VRCP and VSQRT round the exact result under the mode, the
other special functions in mode 5 or 6, so to one of its two neighbours: of the exact 1 ÷ √a, and of e^a, ln a, tanh a and 1 ÷ (1 + e^-a) as far
as 100 binary places tell. -/
def Obligations.RoundingIsToTheNearest : Prop :=
  let terms := fun (q : ℚ) => if q = 0 then 0 else if |q| ∈ [1, 1 / 2, 1 / 4, 1 / 8, 1 / 16, 1 / 32, 1 / 64] then 1 else 2
  (∀ (ty : BitVec 4) (mode : Nat) (sat : Bool) (v : Val) (x : ℝ) (code : Nat) (evs : List Nat),
    ty.toNat ≤ 8 ∨ ty = 13 ∨ ty = 14 → mode ≤ 6 → IsReal v x → (ty.toNat ≤ 4 ∨ ratOf v ≠ none) → roundVal v (kindOfType ty) mode sat = (code, evs) →
    evOVF ∉ evs → evSAT ∉ evs →
    ∃ y, ratOf (decodeVal (kindOfType ty) code) = some y ∧
      (mode = 2 → x ≤ y) ∧ (mode = 3 → y ≤ x) ∧ (mode = 1 ∨ mode = 5 → |(y : ℝ)| ≤ |x| ∧ 0 ≤ x * y) ∧ (mode = 6 → |x| ≤ |(y : ℝ)| ∧ 0 ≤ x * y) ∧
      ∀ c (z : ℚ), c < 2 ^ (8 * typeWidth ty) → ratOf (decodeVal (kindOfType ty) c) = some z →
        (mode = 0 ∨ mode = 4 → |y - x| ≤ |z - x|) ∧ (mode = 0 → |y - x| = |z - x| → y ≠ z →
          if ty = 8 then terms y < terms z ∨ terms y = terms z ∧ |y| < |z| else code % 2 = 0) ∧
        (mode = 4 → |y - x| = |z - x| → |z| ≤ |y|) ∧ (mode = 2 → x ≤ z → y ≤ z) ∧ (mode = 3 → z ≤ x → z ≤ y) ∧
        (mode = 1 ∨ mode = 5 → |(z : ℝ)| ≤ |x| → |z| ≤ |y|) ∧ (mode = 6 → 0 ≤ x * z → |x| ≤ |(z : ℝ)| → |y| ≤ |z|)) ∧
  (∀ (fn : SpecialFn) (ty : BitVec 4) (mode a : Nat) (sat : Bool) (x : ℚ), ty.toNat ≤ 2 → ratOf (decodeVal (kindOfType ty) a) = some x →
    let r := specialVal fn (decodeVal (kindOfType ty) a)
    let code := specialCode fn ty mode sat a
    (fn = .rcp ∨ fn = .sqrt → code = finish r (kindOfType ty) mode sat) ∧
    (fn ≠ .rcp → fn ≠ .sqrt → code = finish r (kindOfType ty) 5 sat ∨ code = finish r (kindOfType ty) 6 sat) ∧
    (fn = .rcp → x ≠ 0 → r.2 = [] ∧ IsReal r.1 (1 / x)) ∧ (fn = .sqrt → 0 ≤ x → r.2 = [] ∧ IsReal r.1 (Real.sqrt x)) ∧
    (fn = .rsq → 0 < x → r.2 = [] ∧ IsReal r.1 (1 / Real.sqrt x)) ∧ (fn = .rcp ∨ fn = .rsq → x = 0 → r = (.inf false, [evDZE])) ∧
    (fn = .log → x = 0 → r = (.inf true, [evDZE])) ∧ (fn ∈ [.rsq, .sqrt, .log] → x < 0 → r = (.nan, [evINV])) ∧
    ∀ F : ℝ, fn = .exp ∧ x < 512 ∧ F = Real.exp x ∨ fn = .log ∧ 0 < x ∧ F = Real.log x ∨ fn = .tanh ∧ F = Real.tanh x ∨
        fn = .sigm ∧ F = 1 / (1 + Real.exp (-x)) →
      r.2 = [] ∧ ∃ y, IsReal r.1 y ∧ |y - F| ≤ (1 + |F|) / 2 ^ 100)

/-- R157, R181, R182 and R183: the element-wise numeric instructions complete, lane by lane, with the rounded result of their operation on the codes, in
the mode and with the saturation of an RS prefix. -/
def Obligations.VNumericInstructions : Prop := ∀ (f : FV), let k := kindOfType f.ty
  (∀ i o, (i, o) ∈ ([(.vadd f, .add), (.vsub f, .sub), (.vmul f, .mul), (.vmin f, .min), (.vmax f, .max)] : List (Instr × Dyad)) →
    VGives i (fun s => (f.ty.toNat ≤ 8 ∨ isA f.ty = true) ∧ f.min = 0 ∧ Legal2 f s) [f.src1, f.src2] none (some f.dst) (fun s =>
      lanewise2 f (fun a b => finish (dyadVal o (decodeVal k a) (decodeVal k b)) k s.cx.mods.mode.toNat s.cx.mods.sat))) ∧
  (∀ i sub, (i, sub) ∈ ([(.vfma f, false), (.vfms f, true)] : List (Instr × Bool)) →
    VGives i (fun s => (f.ty.toNat ≤ 8 ∨ isA f.ty = true) ∧ f.min = 0 ∧ Legal2 f s ∧ ¬(dLv f.dst = 2 ∧ 8 ≤ dReg f.dst)) [f.src1, f.src2] none
      (some f.dst) (fun s v => laneResult f.ty (((v.a.all f.ty).zip ((v.b.all f.ty).zip (v.d.all f.ty))).map (fun p =>
        finish (fmaVal sub (decodeVal k p.1) (decodeVal k p.2.1) (decodeVal k p.2.2)) k s.cx.mods.mode.toNat s.cx.mods.sat)))) ∧
  VGives (.vabs f) (fun s => (f.ty.toNat ≤ 8 ∨ isA f.ty = true) ∧ f.min = 0 ∧ Legal1 f s) [f.src1] none (some f.dst)
    (fun _ => lanewise1 f (fun a => roundVal (decodeVal k a).abs k 0 false)) ∧
  VGives (.vneg f) (fun s => (f.ty.toNat ≤ 8 ∨ isA f.ty = true) ∧ f.min = 0 ∧ Legal1 f s) [f.src1] none (some f.dst)
    (fun _ => lanewise1 f (fun a => roundVal (decodeVal k a).neg k 0 false)) ∧
  (∀ i o, (i, o) ∈ ([(.vrcp f, .rcp), (.vrsq f, .rsq), (.vsqrt f, .sqrt), (.vexp f, .exp), (.vlog f, .log), (.vtanh f, .tanh),
      (.vsigm f, .sigm)] : List (Instr × SpecialFn)) →
    VGives i (fun s => f.ty.toNat ≤ 2 ∧ f.min = 0 ∧ Legal1 f s) [f.src1] none (some f.dst)
      (fun s => lanewise1 f (specialCode o f.ty s.cx.mods.mode.toNat s.cx.mods.sat))) ∧
  (∀ t n, t = cvtType f → n = cvtCount f.ty t →
    VGives (.vcvt f) (fun s => (f.ty.toNat ≤ 8 ∨ isA f.ty = true) ∧ (t.toNat ≤ 8 ∨ isA t = true) ∧ f.min.toNat < cvtParts f.ty t ∧ f.s3v = 0 ∧
        f.s3i = 0 ∧ bits f.src2 4 9 = 0 ∧ opndFaults s.cxCore.demand t true f.dst = [] ∧ opndFaults s.cxCore.demand f.ty false f.src1 = [])
      [f.src1] none (some f.dst) (fun s v =>
        let l := (v.a.lanes f.ty (if n < laneCount f.ty then f.min.toNat * n else 0) n).map (fun a =>
          roundVal (decodeVal k a) (kindOfType t) s.cx.mods.mode.toNat s.cx.mods.sat)
        (.lanes (kindOfType t) (typeWidth t) (if n < laneCount t then f.min.toNat * n else 0) (l.map (·.1)), l.flatMap (·.2))))

/-- R158, whole: a compare with an absent operand is false under every condition and counts nothing; with a NaN and none absent, EQ is false, NE is
true, and LT and LE, and so GT and GE, which exchange the operands (R184), are false and count INV. -/
def Obligations.ComparesWithAbsentOrNaN : Prop := ∀ (k : Kind) (a b cond : Nat), cond < 4 →
  (decodeVal k a = .absent ∨ decodeVal k b = .absent → compareCode cond k a b = (false, [])) ∧
  (decodeVal k a ≠ .absent → decodeVal k b ≠ .absent → decodeVal k a = .nan ∨ decodeVal k b = .nan →
    compareCode cond k a b = (decide (cond = 1), if 2 ≤ cond then [evINV] else []))

/-- R158, R184 to R187: compares of two numbers or infinities say what their order is; compares and absence tests give lanes of all ones or zeros; VSEL takes its mask from an operand row; bitwise instructions and
shifts act on raw lanes, a count at or above the width shifting everything out; the 64-bit instructions wrap. -/
def Obligations.VMasksAndRawLanes : Prop := ∀ (f : FV), let n := 8 * typeWidth f.ty
  let raw2 := fun (i : Instr) (types : Prop) (g : Nat → Nat → Nat) =>
    VGives i (fun s => types ∧ f.min = 0 ∧ Legal2 f s) [f.src1, f.src2] none (some f.dst) (fun _ => lanewise2 f (fun a b => (g a b, [])))
  let shl := fun a c => if n ≤ c then 0 else a * 2 ^ c % 2 ^ n
  let shr := fun a c => if n ≤ c then 0 else a / 2 ^ c
  let sra := fun (a c : Nat) => ((BitVec.ofNat n a).sshiftRight (min c n)).toNat
  (∀ k a b cond, cond < 4 → decodeVal k a ∉ [.absent, .nan] → decodeVal k b ∉ [.absent, .nan] → (compareCode cond k a b).2 = [] ∧
    ((compareCode cond k a b).1 = true ↔ match cond with
      | 0 => ¬Below (decodeVal k a) (decodeVal k b) ∧ ¬Below (decodeVal k b) (decodeVal k a)
      | 1 => Below (decodeVal k a) (decodeVal k b) ∨ Below (decodeVal k b) (decodeVal k a)
      | 2 => Below (decodeVal k a) (decodeVal k b)
      | _ => ¬Below (decodeVal k b) (decodeVal k a))) ∧
  VGives (.vcmp f) (fun s => f.ty.toNat ≤ 8 ∧ Legal2 f s) [f.src1, f.src2] none (some f.dst) (fun _ => lanewise2 f (fun a b =>
    (if (compareCode f.min.toNat (kindOfType f.ty) a b).1 then 2 ^ n - 1 else 0, (compareCode f.min.toNat (kindOfType f.ty) a b).2))) ∧
  VGives (.vsel f) (fun s => (f.ty.toNat ≤ 8 ∨ isB f.ty = true) ∧ f.min = 0 ∧ f.s3v = 1 ∧ opndFaults s.cxCore.demand f.ty true f.dst = [] ∧
      opndFaults s.cxCore.demand f.ty false f.src1 = [] ∧ opndFaults s.cxCore.demand f.ty false f.src2 = [])
    [f.src1, f.src2] (some f.s3i) (some f.dst) (fun _ v => laneResult f.ty
      (((lanesOf v.m (typeWidth f.ty) 0 (laneCount f.ty)).zip ((v.a.all f.ty).zip (v.b.all f.ty))).map (fun p =>
        (if p.1 = 0 then p.2.2 else p.2.1, [])))) ∧
  raw2 (.vand f) (isB f.ty = true) (fun a b => a &&& b) ∧ raw2 (.vor f) (isB f.ty = true) (fun a b => a ||| b) ∧
  raw2 (.vxor f) (isB f.ty = true) (fun a b => a ^^^ b) ∧
  VGives (.vnot f) (fun s => isB f.ty = true ∧ f.min = 0 ∧ Legal1 f s) [f.src1] none (some f.dst)
    (fun _ => lanewise1 f (fun a => (2 ^ n - 1 - a, []))) ∧
  raw2 (.vshl f) (isB f.ty = true ∧ f.ty ≠ 12) shl ∧ raw2 (.vshr f) (isB f.ty = true ∧ f.ty ≠ 12) shr ∧
  VGives (.vsra f) (fun s => (isB f.ty = true ∧ f.ty ≠ 12) ∧ f.min = 0 ∧ Legal2 f s) [f.src1, f.src2] none (some f.dst)
    (fun _ v => laneResult f.ty (List.zipWith (fun a c => (sraLane n a c, [])) (v.a.all f.ty) (v.b.all f.ty))) ∧
  (∀ a c, a < 2 ^ n → sraLane n a c = sra a c) ∧
  raw2 (.vadd64 f) (f.ty = 12) (fun a b => (a + b) % 2 ^ 64) ∧ raw2 (.vsub64 f) (f.ty = 12) (fun a b => (a + 2 ^ 64 - b) % 2 ^ 64) ∧
  VGives (.vcmp64 f) (fun s => f.ty = 12 ∧ Legal2 f s) [f.src1, f.src2] none (some f.dst) (fun _ => lanewise2 f (fun a b =>
    (if (match f.min.toNat with
      | 0 => decide (a = b)
      | 1 => decide (a ≠ b)
      | 2 => decide (signed64 a < signed64 b)
      | _ => decide (a < b)) = true then 2 ^ 64 - 1 else 0, []))) ∧
  raw2 (.vshl64 f) (f.ty = 12) shl ∧ raw2 (.vshr64 f) (f.ty = 12) shr ∧
  VGives (.vshr64 f) (fun s => f.ty = 12 ∧ f.min = 1 ∧ Legal2 f s) [f.src1, f.src2] none (some f.dst)
    (fun _ => lanewise2 f (fun a c => (sraLane n a c, []))) ∧
  VGives (.visab f) (fun s => f.ty.toNat ≤ 8 ∧ f.min = 0 ∧ Legal1 f s) [f.src1] none (some f.dst)
    (fun _ => lanewise1 f (fun a => (if isAbsent (kindOfType f.ty) a then 2 ^ n - 1 else 0, []))) ∧
  raw2 (.vmkab f) (f.ty.toNat ≤ 8) (fun a b => if b = 0 then a else absentCode (kindOfType f.ty))

/-- R156, R174, R188 to R190, R194 and R195: moves carry a row, or an accumulator row with its counts; a broadcast puts one lane into all; VSETI puts an
immediate into every lane, at its bottom or at its top, or sets a row counter; VIOTA counts from its scalar,
an absent one being dropped, saturating in an integer TYPE, rounding once to nearest in FP32 and wrapping in a raw one. Compaction moves the present lanes
down, expansion puts lanes where the mask row has present ones, a permutation takes lanes by index, and a rotation turns or shifts them; where no
lane is given the result is absent, or 0 for a raw TYPE. -/
def Obligations.VMovesConstantsAndRearrangements : Prop :=
  (∀ (f : FV) (s u : State), Ready s u →
  exec .nopV s = .next (After u u.cxCore) ∧
  VGives (.vmov f) (fun s => f.ty ≠ 15 ∧ f.min = 0 ∧ Legal1 f s) [f.src1] none (some f.dst) (fun _ v =>
    match v.a with
    | .acc a => (.accRow a, [])
    | a => laneResult f.ty ((a.all f.ty).map (fun x => (x, [])))) ∧
  VGives (.vbcast f) (fun s => f.ty ≠ 15 ∧ f.min = 0 ∧ f.s3v = 0 ∧ f.s3i = 0 ∧ bits f.src2 8 5 = 0 ∧ laneField f < laneCount f.ty ∧
      opndFaults s.cxCore.demand f.ty true f.dst = [] ∧ opndFaults s.cxCore.demand f.ty false f.src1 = [])
    [f.src1] none (some f.dst) (fun _ v =>
      laneResult f.ty (List.replicate (laneCount f.ty) ((v.a.all f.ty).getD (laneField f) 0, []))) ∧
  (∀ imm : BitVec 16, imm = bits (setiWord f) 0 16 → bits (setiWord f) 16 14 = 0 →
    (f.min = 2 → bits imm 8 8 = 0 → f.ty = 0 → f.dst = 0 →
      exec (.vseti f) s = .next (After u { u.cxCore with rc := u.cxCore.rc.set (bits imm 0 2).toNat (bits imm 2 6) (bits imm 0 2).isLt })) ∧
    (f.ty ≠ 15 → f.min = 0 → typeWidth f.ty ≠ 1 → VGives (.vseti f) (fun s => opndFaults s.cxCore.demand f.ty true f.dst = []) [] none (some f.dst)
      (fun _ _ => laneResult f.ty (List.replicate (laneCount f.ty) ((BitVec.signExtend (8 * typeWidth f.ty) imm).toNat, [])))) ∧
    (f.ty ≠ 15 → f.min = 0 → typeWidth f.ty = 1 → bits imm 8 8 = 0 →
      VGives (.vseti f) (fun s => opndFaults s.cxCore.demand f.ty true f.dst = []) [] none (some f.dst)
        (fun _ _ => laneResult f.ty (List.replicate (laneCount f.ty) (imm.toNat, [])))) ∧
    (f.ty ≠ 15 → f.min = 1 → typeWidth f.ty ≠ 1 → VGives (.vseti f) (fun s => opndFaults s.cxCore.demand f.ty true f.dst = []) [] none (some f.dst)
      (fun _ _ => laneResult f.ty (List.replicate (laneCount f.ty) (imm.toNat * 2 ^ (8 * typeWidth f.ty - 16), []))))) ∧
  VGives (.viota f) (fun s => f.ty.toNat ∈ [0, 5, 6, 7, 9, 10, 11, 12] ∧ f.min = 0 ∧ Legal1 f s) [f.src1] none (some f.dst) (fun _ v =>
    laneResult f.ty ((List.range (laneCount f.ty)).map (iotaLane f.ty ((v.a.lanes f.ty 0 1).headD 0)))) ∧
  (∀ c i, isB f.ty = true → iotaLane f.ty c i = ((i + c) % 2 ^ (8 * typeWidth f.ty), [])) ∧
  (∀ (c i : Nat) (y : Int), f.ty ∈ [5, 6, 7] → c < 2 ^ (8 * typeWidth f.ty) →
    y = i + (if c = 2 ^ (8 * typeWidth f.ty - 1) then 0 else (BitVec.ofNat (8 * typeWidth f.ty) c).toInt) →
    iotaLane f.ty c i = if (2 : Int) ^ (8 * typeWidth f.ty - 1) - 1 < y then (2 ^ (8 * typeWidth f.ty - 1) - 1, [evOVF])
      else ((BitVec.ofInt (8 * typeWidth f.ty) y).toNat, [])) ∧
  (∀ c i : Nat, c < 2 ^ 32 →
    (decodeVal (kindOfType 0) c = .nan → iotaLane 0 c i = (0x7FC00000, [])) ∧ (c = 0x7F800000 ∨ c = 0xFF800000 → iotaLane 0 c i = (c, [])) ∧
    ∀ x : ℚ, c = 0x80000000 ∧ x = 0 ∨ ratOf (decodeVal (kindOfType 0) c) = some x →
      ∃ v, ratOf v = some (i + x) ∧ iotaLane 0 c i = roundVal v (kindOfType 0) 0 false)) ∧
  (∀ (f : FV), let k := kindOfType f.ty
  let res := fun (l : List (Option Nat)) => laneResult f.ty (l.map (fun x => (x.getD (absentCode k), [])))
  VGives (.vcompact f) (fun s => f.ty.toNat ≤ 8 ∧ f.min = 0 ∧ Legal1 f s) [f.src1] none (some f.dst) (fun _ v =>
    res ((List.range (laneCount f.ty)).map (fun i => ((v.a.all f.ty).filter (fun x => !isAbsent k x))[i]?))) ∧
  VGives (.vexpand f) (fun s => f.ty.toNat ≤ 8 ∧ f.min = 0 ∧ Legal2 f s) [f.src1, f.src2] none (some f.dst) (fun _ v =>
    res ((List.range (v.b.all f.ty).length).map (fun i =>
      if isAbsent k ((v.b.all f.ty).getD i 0) then none
      else (v.a.all f.ty)[((v.b.all f.ty).take i).countP (fun x => !isAbsent k x)]?))) ∧
  VGives (.vperm f) (fun s => (f.ty.toNat ≤ 8 ∨ isB f.ty = true) ∧ f.min = 0 ∧ Legal2 f s) [f.src1, f.src2] none (some f.dst) (fun _ v =>
    res ((v.b.all f.ty).map (fun i => (v.a.all f.ty)[i]?))) ∧
  VGives (.vrot f) (fun s => (f.ty.toNat ≤ 8 ∨ isB f.ty = true) ∧ f.min ≠ 3 ∧ f.s3v = 0 ∧ f.s3i = 0 ∧ bits f.src2 8 5 = 0 ∧
      laneField f < laneCount f.ty ∧ opndFaults s.cxCore.demand f.ty true f.dst = [] ∧ opndFaults s.cxCore.demand f.ty false f.src1 = [])
    [f.src1] none (some f.dst) (fun _ v => res ((List.range (laneCount f.ty)).map (fun i =>
      if f.min = 0 then (v.a.all f.ty)[(i + laneField f) % laneCount f.ty]?
      else if f.min = 1 then (v.a.all f.ty)[i + laneField f]?
      else if laneField f ≤ i then (v.a.all f.ty)[i - laneField f]? else none))))

/-- R155, R157, R191 to R193: reductions round one exact sum of the present lanes, or give the least or greatest of them; a NaN among them gives NaN, infinities
of both signs a NaN with event INV, and no present lane an absent result with event NXA; counts count present lanes; both go to lane 0 of a row or to vx.
Scans give each lane the sum, or the least or greatest, of the carry and the lanes up to it, or before it. Merges join two lists of sorted keys. -/
def Obligations.VReductionsScansAndMerges : Prop := ∀ (f : FV),
  (∀ wide : Bool, wide = !toVx f →
    VGives (.vred f) (fun s => (f.ty.toNat ≤ 8 ∨ isA f.ty = true) ∧ f.min ≠ 3 ∧ f.s3v = 0 ∧ f.s3i = 0 ∧ bits f.src2 1 12 = 0 ∧
        (if wide then opndFaults s.cxCore.demand f.ty true f.dst = [] else f.dst = 0 ∧ isA f.ty = false) ∧
        opndFaults s.cxCore.demand f.ty false f.src1 = [])
      [f.src1] none (if wide then some f.dst else none) (fun s v =>
        let r := redCode f.ty s.cx.mods.mode.toNat s.cx.mods.sat f.min.toNat (v.a.all f.ty)
        (if wide then .lanes (kindOfType f.ty) (typeWidth f.ty) 0 [r.1] else .vx (BitVec.ofNat 32 r.1), r.2)) ∧
    VGives (.vcnt f) (fun s => (f.ty.toNat ≤ 8 ∨ isA f.ty = true) ∧ f.min ≠ 3 ∧ f.s3v = 0 ∧ f.s3i = 0 ∧ bits f.src2 1 12 = 0 ∧
        (if wide then opndFaults s.cxCore.demand f.ty true f.dst = [] else f.dst = 0 ∧ isA f.ty = false) ∧
        opndFaults s.cxCore.demand f.ty false f.src1 = [])
      [f.src1] none (if wide then some f.dst else none) (fun _ v =>
        let n := (cntRange f.min.toNat (v.a.all f.ty)).countP (fun x => !isAbsent (kindOfType f.ty) x)
        (if wide then (if isA f.ty then .lanes (kindOfType f.ty) 16 0 [(roundVal (.ofInt n 0) (kindOfType f.ty) 0 false).1]
           else .lanes (.int 32) 4 0 [n])
         else .vx (BitVec.ofNat 32 n), []))) ∧
  (∀ (l : List Nat) (mode i : Nat) (sat : Bool), let vs := l.map (decodeVal (kindOfType f.ty))
    redCode f.ty mode sat i l = finish (match i with
      | 0 => (vs.foldl SumAcc.add SumAcc.empty).total
      | 1 => pickTotal (vs.foldl (pick .min) .absent)
      | _ => pickTotal (vs.foldl (pick .max) .absent)) (kindOfType f.ty) mode sat) ∧
  (∀ vs : List Val, let t := (vs.foldl SumAcc.add SumAcc.empty).total
    ((∀ v ∈ vs, v = .absent) → t = (.absent, [evNXA])) ∧ (.nan ∈ vs → t = (.nan, [])) ∧
    (.nan ∉ vs → .inf false ∈ vs → .inf true ∈ vs → t = (.nan, [evINV])) ∧
    (∀ s, .nan ∉ vs → .inf s ∈ vs → .inf (!s) ∉ vs → t = (.inf s, [])) ∧
    ∀ xs : List ℚ, xs ≠ [] → (vs.filter (· ≠ .absent)).map ratOf = xs.map some → ratOf t.1 = some xs.sum ∧ t.2 = []) ∧
  (∀ (c : Val) (vs : List Val) (o : Dyad), o = .min ∨ o = .max → let p := vs.foldl (pick o) c
    pickTotal p = (p, if p = .absent then [evNXA] else []) ∧ ((∀ v ∈ c :: vs, v = .absent) → p = .absent) ∧ (.nan ∈ c :: vs → p = .nan) ∧
    (.nan ∉ c :: vs → (∃ v ∈ c :: vs, v ≠ .absent) → p ∈ c :: vs ∧ p ≠ .absent ∧ ∀ v ∈ c :: vs, v ≠ .absent →
      if o = .min then ¬Below v p else ¬Below p v)) ∧
  VGives (.vscan f) (fun s => f.ty.toNat ≤ 8 ∧ Legal2 f s) [f.src1, f.src2] none (some f.dst) (fun s v =>
    let c := decodeVal (kindOfType f.ty) ((v.b.lanes f.ty 0 1).headD 0)
    let vs := (v.a.all f.ty).map (decodeVal (kindOfType f.ty))
    laneResult f.ty ((List.range vs.length).map (fun i => finish (match f.min.toNat with
      | 0 => ((c :: vs.take (i + 1)).foldl SumAcc.add SumAcc.empty).total
      | 1 => ((c :: vs.take i).foldl SumAcc.add SumAcc.empty).total
      | 2 => pickTotal ((vs.take (i + 1)).foldl (pick .max) c)
      | _ => pickTotal ((vs.take (i + 1)).foldl (pick .min) c)) (kindOfType f.ty) s.cx.mods.mode.toNat s.cx.mods.sat))) ∧
  VGives (.vmerge f) (fun s => f.ty.toNat ∈ [0, 1, 2, 6, 7] ∧ Legal2 f s) [f.src1, f.src2] none (some f.dst) (fun _ v =>
    let a := pairEntries f.ty (v.a.asRow f.ty)
    let b := pairEntries f.ty (v.b.asRow f.ty)
    let out := mergePairs f.ty (f.min.getLsbD 0) (f.min.getLsbD 1) 64 a b
    (.rows (pairRow f.ty out) (pairRow f.ty (out.drop 32)), mergeEvents f.ty (f.min.getLsbD 1) 64 a b)) ∧
  (∀ (drop upd : Bool) (n : Nat) (a b out : List (Int × Nat)), a.Pairwise (fun p q => p.1 < q.1) → b.Pairwise (fun p q => p.1 < q.1) →
    a.length + b.length ≤ n → out = mergePairs f.ty drop upd n a b → let k := kindOfType f.ty
    out.Pairwise (fun p q => p.1 < q.1) ∧ out.length ≤ a.length + b.length ∧
    ∀ key v, (key, v) ∈ out ↔ ¬(drop = true ∧ v = 0) ∧
      ((key, v) ∈ a ∧ (∀ q ∈ b, q.1 ≠ key) ∨ (key, v) ∈ b ∧ (∀ q ∈ a, q.1 ≠ key) ∨
        ∃ x y, (key, x) ∈ a ∧ (key, y) ∈ b ∧ v = if upd then y else (finish (dyadVal .add (decodeVal k x) (decodeVal k y)) k 0 false).1)) ∧
  (∀ (l : List (Int × Nat)) (i : Nat), f.ty.toNat ∈ [0, 1, 2, 6, 7] → i < 32 →
    (∀ p ∈ l, -(2 : Int) ^ 31 < p.1 ∧ p.1 < (2 : Int) ^ 31 ∧ p.2 < 2 ^ (8 * typeWidth f.ty)) →
    let key := (BitVec.ofNat 32 ((pairRow f.ty l).toNat / 2 ^ (32 * i))).toInt
    let value := (pairRow f.ty l).toNat / 2 ^ (1024 + 8 * typeWidth f.ty * i) % 2 ^ (8 * typeWidth f.ty)
    (key, value) = (l[i]?).getD (-(2 : Int) ^ 31, absentCode (kindOfType f.ty)))

/-- R172, R174 to R176: where a result goes. Lanes replace lanes of a tile or operand row from their first on and leave the other bytes and every
other row alone; into a runnel queue or a weir row goes a whole row of zeros and those lanes, and the weir row is full; the latch takes the row as
written. In an accumulator row an absent lane gets count 0 and another a count of at least 1; other accumulator rows and the latch stay. -/
def Obligations.VResultsLandInTheirRow : Prop := ∀ (s : State) (c : Nat) (k : Kind) (w start : Nat) (codes : List Nat),
  (0 < w → w * (start + codes.length) ≤ 256 →
    (∀ (old : Row) (j : Nat), w * (j + 1) ≤ 256 →
      lanesOf (putLanes old w start codes) w j 1 = [if start ≤ j ∧ j < start + codes.length then codes.getD (j - start) 0 % 2 ^ (8 * w)
        else (lanesOf old w j 1).getD 0 0]) ∧
    (∀ g i (x : Row), ∃ t, t = s.vPut c (some (.tile g i)) (.row x) (.lanes k w start codes) ∧
      (t.core c).row (.tile g i) = putLanes x w start codes ∧ (t.core c).lr = putLanes x w start codes ∧
      (∀ g' i', g' * 64 + i' ≠ g * 64 + i → (t.core c).row (.tile g' i') = (s.core c).row (.tile g' i')) ∧ (t.core c).acc = (s.core c).acc ∧
      (t.core c).o = (s.core c).o ∧ t.mem = s.mem ∧ t.pairs = s.pairs ∧ ∀ d, d ≠ c → t.core d = s.core d) ∧
    (∀ i (x : Row), i < 8 → ∃ t, t = s.vPut c (some (.oper i)) (.row x) (.lanes k w start codes) ∧
      (t.core c).row (.operand i) = putLanes x w start codes ∧ (t.core c).lr = putLanes x w start codes ∧
      (∀ j, j ≠ i → (t.core c).row (.operand j) = (s.core c).row (.operand j)) ∧ (t.core c).acc = (s.core c).acc ∧
      (t.core c).tile = (s.core c).tile ∧ t.mem = s.mem ∧ t.pairs = s.pairs ∧ ∀ d, d ≠ c → t.core d = s.core d) ∧
    (∀ i, i < 4 → ∃ t v, v = putLanes 0 w start codes ∧ t = s.vPut c (some (.lo i)) (s.dstOld c (.lo i)) (.lanes k w start codes) ∧
      (t.core c).lr = v ∧ (∀ p, (s.core c).lo[i]? = some p → (t.core c).lo[i]? = some { p with rows := p.rows ++ [v] }) ∧
      (∀ j : Nat, j ≠ i → (t.core c).lo[j]? = (s.core c).lo[j]?) ∧ (t.core c).tile = (s.core c).tile ∧ (t.core c).acc = (s.core c).acc ∧
      (t.core c).o = (s.core c).o ∧ t.mem = s.mem ∧ t.pairs = s.pairs ∧ ∀ d, d ≠ c → t.core d = s.core d) ∧
    (∀ i, i < 4 → ∃ t v, v = putLanes 0 w start codes ∧ t = s.vPut c (some (.tw i)) (s.dstOld c (.tw i)) (.lanes k w start codes) ∧
      (t.core c).lr = v ∧ (t.pair (pairOf c)).tw[i]? = some v ∧ (t.pair (pairOf c)).twFull[i]? = some true ∧
      (∀ j : Nat, j ≠ i → (t.pair (pairOf c)).tw[j]? = (s.pair (pairOf c)).tw[j]? ∧
        (t.pair (pairOf c)).twFull[j]? = (s.pair (pairOf c)).twFull[j]?) ∧ (t.core c).tile = (s.core c).tile ∧ (t.core c).acc = (s.core c).acc ∧
      (t.core c).o = (s.core c).o ∧ (t.core c).lo = (s.core c).lo ∧ t.mem = s.mem ∧ ∀ d, d ≠ c → t.core d = s.core d)) ∧
  (∀ a i j, j < 64 → ∃ t, t = s.vPut c (some (.acc a i)) (.row 0) (.lanes k 16 start codes) ∧ (t.core c).lr = (s.core c).lr ∧
    (t.core c).tile = (s.core c).tile ∧ t.mem = s.mem ∧
    (∀ a' i', a' * 64 + i' ≠ a * 64 + i → (t.core c).accRow a' i' = (s.core c).accRow a' i') ∧
    (j < start ∨ start + codes.length ≤ j →
      ((t.core c).accRow a i).val j = ((s.core c).accRow a i).val j ∧ ((t.core c).accRow a i).cnt j = ((s.core c).accRow a i).cnt j) ∧
    (∀ x, start ≤ j → codes[j - start]? = some x → ((t.core c).accRow a i).val j = x % 2 ^ 128 ∧
      ((t.core c).accRow a i).cnt j = if x = absentCode k then 0 else max (((s.core c).accRow a i).cnt j) 1))

/-! The matrix unit. -/

/-- R56, R86, R93, R126, R134, R200 to R203, R205 to R208, R217 and R218: TPLLD copies 16 bytes of an operand row that no writer holds; MX forms its
template, which must be legal, and enters it while its core holds the licence, without it the gang meets a fatal error or, where it is owed, acquires it first, whatever the wait part
of its TK prefix finds; MZERO and MDRAIN enter
as they stand, the rows of a drain into tile registers busy from then on; each is counted and signals when it completes. MLIC.ACQ and MLIC.TRY
take a licence that may be taken, MLIC.TRY answering in p4, and ask for none while their token or the room for their signal is missing; of two that
ask for a free one the z1 core has it, whichever turn comes first (log entry 28); MLIC.REL gives it up once no MX command is left. -/
def Obligations.MatrixWordsOfM : Prop :=
  (∀ (s : State) (tpl : BitVec 6) (fsel : BitVec 5) (val : BitVec 16), s.cx.misplaced = false →
    mxFaults s fsel val (mxForm s.cxCore tpl fsel val) = [] →
    (s.holdsLic s.cx.core = false → s.cxCore.owed = false → exec (.mx tpl fsel val) s = .next (raiseFatal s s.cx.core 3 0)) ∧
    (s.holdsLic s.cx.core = false → s.cxCore.owed = true →
      exec (.mx tpl fsel val) s = .next (if s.mayTakeLic s.cx.core then s.takeLic s.cx.core else s.waitLic s.cx.core))) ∧
  (∀ (s : State), takeWait s = .error .stall → rsFault s = [] → s.cxCore.lic = true → exec .mlicAcq s = .next s ∧ exec .mlicTry s = .next s) ∧
  (∀ (s u : State), takeWait s = .ok u → u.sigStuck = true → rsFault s = [] → s.cxCore.lic = true →
    exec .mlicAcq s = .next s ∧ exec .mlicTry s = .next s) ∧
  ∀ (s u : State) (tpl : BitVec 6) (row : BitVec 3) (seg : BitVec 4) (fsel : BitVec 5) (val : BitVec 16)
    (acc : BitVec 1) (f : Drain), Ready s u → s.cx.strand = .m →
  exec .nopM s = .next (After u u.cxCore) ∧
  (u.cxCore.rowBusy (.operand row.toNat) = false →
    exec (.tplld tpl row seg) s = .next (After u
      { u.cxCore with tpl := tset u.cxCore.tpl tpl.toNat ((u.cxCore.row (.operand row.toNat)).extractLsb' (128 * seg.toNat) 128) })) ∧
  (u.cxCore.rowBusy (.operand row.toNat) = true → exec (.tplld tpl row seg) s = .next s) ∧
  (mxFaults s fsel val (mxForm s.cxCore tpl fsel val) ≠ [] →
    ∃ e, worst (mxFaults s fsel val (mxForm s.cxCore tpl fsel val)) = some e ∧ exec (.mx tpl fsel val) s = .next (raiseIll s e)) ∧
  (mxFaults s fsel val (mxForm s.cxCore tpl fsel val) = [] →
    (s.holdsLic s.cx.core = true → u.cxCore.mqRoom = true → ∃ t m, exec (.mx tpl fsel val) s = .next t ∧ t.cxCore.mq = u.cxCore.mq ++ [m] ∧
      m.op = .tpl (mxForm s.cxCore tpl fsel val) s.cx.mods.sat ∧ m.sig = s.cx.mods.sig ∧ m.executed = false ∧
      t.cxCore.tileops = u.cxCore.tileops + 1 ∧ t.cxStrand.pc = s.cx.next ∧ t.mem = s.mem) ∧
    (s.holdsLic s.cx.core = true → u.cxCore.mqRoom = false → exec (.mx tpl fsel val) s = .next s)) ∧
  (u.cxCore.mqRoom = true → ∃ t m, exec (.mzero acc) s = .next t ∧ t.cxCore.mq = u.cxCore.mq ++ [m] ∧ m.op = .zero acc ∧ m.sig = s.cx.mods.sig ∧
    m.executed = false ∧ t.cxCore.tileops = u.cxCore.tileops + 1 ∧ t.cxStrand.pc = s.cx.next ∧ t.mem = s.mem) ∧
  (u.cxCore.mqRoom = true → drainFaults s.cxCore.demand f = [] → ∃ t m, exec (.mdrain f) s = .next t ∧ t.cxCore.mq = u.cxCore.mq ++ [m] ∧
    m.op = .drain f (physT u.cxCore.m u.cxCore.demand f.dreg.toNat) s.cx.mods.mode s.cx.mods.sat ∧ m.sig = s.cx.mods.sig ∧ m.executed = false ∧
    t.cxCore.tileops = u.cxCore.tileops + 1 ∧ t.cxStrand.pc = s.cx.next ∧ t.mem = s.mem ∧
    (f.dkind = 0 → ∀ i, i ≤ f.nrm1.toNat →
      t.cxCore.rowBusy (.tile (physT u.cxCore.m u.cxCore.demand f.dreg.toNat) (f.drow0.toNat + i)) = true)) ∧
  (s.cxCore.lic = true →
    (s.mayTakeLic s.cx.core = true → ∃ t, exec .mlicAcq s = .next t ∧ t.holdsLic s.cx.core = true ∧ t.cxStrand.pc = s.cx.next ∧ t.mem = s.mem) ∧
    (s.mayTakeLic s.cx.core = true ↔ (s.pair (pairOf s.cx.core)).holder = some s.cx.core ∨ (s.pair (pairOf s.cx.core)).holder = none ∧
      twinOf s.cx.core ∉ s.licAsked (pairOf s.cx.core) ∧ s.cx.late = false) ∧
    (s.mayTakeLic s.cx.core = false → ∃ t, exec .mlicAcq s = .next t ∧ t.cores = s.cores ∧ t.mem = s.mem ∧
      ((s.pair (pairOf s.cx.core)).holder ≠ none ∨ twinOf s.cx.core ∈ s.licAsked (pairOf s.cx.core) →
        s.cx.core ∈ (t.pair (pairOf s.cx.core)).pending)) ∧
    (∃ t, exec .mlicTry s = .next t ∧ t.cxStrand.pAt 4 = u.mayTakeLic s.cx.core ∧ t.cxStrand.pc = s.cx.next ∧
      t.holdsLic s.cx.core = (u.mayTakeLic s.cx.core || s.holdsLic s.cx.core) ∧ t.mem = s.mem) ∧
    (s.licDue s.cx.core = true → u.cxCore.mq.any (fun m => m.op.isMx) = false → ∃ t, exec .mlicRel s = .next t ∧ t.holdsLic s.cx.core = false ∧
      t.cxCore.owed = false ∧ t.cxStrand.pc = s.cx.next ∧ t.mem = s.mem) ∧
    (s.licDue s.cx.core = false → exec .mlicRel s = .next (raiseIll s .otherUse))) ∧
  (s.cxCore.lic = false → exec .mlicAcq s = .next (raiseIll s .otherUse) ∧ exec .mlicTry s = .next (raiseIll s .otherUse) ∧
    exec .mlicRel s = .next (raiseIll s .otherUse))

/-- R147 to R151, R212, R213 and R214: an element that accumulates in FX128 from finite operands, no partial sum passing the range, ends as its old
value plus or minus the exact sum of the products, each scaled in PP8 by its power of two, with a count for each and no event; with a scale
exponent that is absent or out of range nothing is added. An operand that FX128 cannot hold is replaced, a NaN by an absent operand and an infinity
by the greatest finite value of its format. In EF128 each addition is rounded to nearest-even in K order, and NaN stays. An overwrite, and an
element of count 0, start from 0; counts add up and saturate. -/
def Obligations.ElementsAccumulateTheirProducts : Prop := ∀ (fmt : BitVec 4) (sub sat : Bool) (ab : List (Nat × Nat)), let k := kindOfType fmt
  (∀ (old x : Int), mmaUsesEf fmt = false → [2, 3, 4, 5, 8].contains fmt.toNat = true → x = 0 ∨ fmt = 8 ∧ -32 ≤ x ∧ x ≤ 32 →
    (∀ p ∈ ab, (ratOf (decodeVal k p.1)).isSome = true ∧ (ratOf (decodeVal k p.2)).isSome = true) →
    let q : Nat → ℚ := fun c => (ratOf (decodeVal k c)).getD 0
    let total : List (Nat × Nat) → ℚ := fun l => (old : ℚ) / 2 ^ 48 + (if sub then -1 else 1) * (l.map (fun p => q p.1 * q p.2 * (2 : ℚ) ^ x)).sum
    (∀ l, l <+: ab → |total l| ≤ ((2 : ℚ) ^ 127 - 1) / 2 ^ 48) →
    (fxInt (mmaFx fmt sub sat old (some x) ab).1 : ℚ) / 2 ^ 48 = total ab ∧ (mmaFx fmt sub sat old (some x) ab).2 = (ab.length, [], false)) ∧
  (∀ old : Int, |old| < (2 : Int) ^ 127 → let r := mmaFx fmt sub sat old none ab
    fxInt r.1 = old ∧ r.2.1 = 0 ∧ r.2.2.2 = false ∧ ∀ e ∈ r.2.2.1, e = evINV ∨ e = evOVF) ∧
  (∀ c, [2, 3, 4, 5, 8].contains fmt.toNat = true →
    (decodeVal k c = .nan → fxOperand fmt c = (.absent, [evINV])) ∧
    (∀ n, decodeVal k c = .inf n → ∃ v x, fxOperand fmt c = (v, [evOVF]) ∧ ratOf v = some x ∧ (x < 0 ↔ n = true) ∧
      (∃ d, ratOf (decodeVal k d) = some x) ∧ ∀ d y, d < 2 ^ (8 * typeWidth fmt) → ratOf (decodeVal k d) = some y → |y| ≤ |x|) ∧
    (decodeVal k c ≠ .nan → (∀ n, decodeVal k c ≠ .inf n) → fxOperand fmt c = (decodeVal k c, []))) ∧
  (∀ (old a b : Nat), mmaEf fmt sub sat old [] = (old, 0, []) ∧ (let r := mmaEf fmt sub sat old ab
    let r' := mmaEf fmt sub sat old (ab ++ [(a, b)])
    (decodeVal k a = .absent ∨ decodeVal k b = .absent → r' = r) ∧
    (decodeVal k a ≠ .absent → decodeVal k b ≠ .absent → r'.2.1 = r.2.1 + 1 ∧
      (decodeVal (kindOfType 14) r.1 = .nan ∨ decodeVal k a = .nan ∨ decodeVal k b = .nan → decodeVal (kindOfType 14) r'.1 = .nan) ∧
      ∀ x y z, ratOf (decodeVal (kindOfType 14) r.1) = some x → ratOf (decodeVal k a) = some y → ratOf (decodeVal k b) = some z →
        ∃ v, ratOf v = some (if sub then x - y * z else x + y * z) ∧ r'.1 = (roundVal v (kindOfType 14) 0 sat).1))) ∧
  (∀ (t : BitVec 128) (v n : Nat) (e : Option Int) (inv : Bool), tFmt t = fmt → n < 2 ^ 32 →
    let start := if tMode t = 1 ∨ n = 0 then 0 else v
    let r := mmaElem t sat v n e inv ab
    let base := if tMode t = 1 then 0 else n
    (mmaUsesEf fmt = true → r.1 = (mmaEf fmt (tMode t == 2) sat start ab).1 ∧
      r.2.1 = Nat.min (base + (mmaEf fmt (tMode t == 2) sat start ab).2.1) (2 ^ 32 - 1)) ∧
    (mmaUsesEf fmt = false → r.1 = (mmaFx fmt (tMode t == 2) sat (fxInt start) e ab).1 ∧
      r.2.1 = Nat.min (base + (mmaFx fmt (tMode t == 2) sat (fxInt start) e ab).2.1) (2 ^ 32 - 1) ∧ (inv = true → evINV ∈ r.2.2.1) ∧
      ((mmaFx fmt (tMode t == 2) sat (fxInt start) e ab).2.2.2 = true → r.2.2.2 = true)))

/-- R31, R152, R201, R204, R209 to R213, R215, R217, R219, R220, R250 and R335: what the head of the matrix queue does. An MMA with all of its operand rows writes the element that
its row and column give, and raises its progress; MXPOSE moves lane j of row i to lane i of row j; MZERO empties its accumulator and clears its
flag; MDRAIN puts each drained row into its part of a tile row, of a row pushed to a runnel queue or of a row of the weir, and with CLR empties it; an
element drains as its value, as the quotient of its value and its count rounded once, or as its count. A marked row of an li queue ends the gang. The array takes a command once the pacing gap has passed, and writes the rows of an MMA in one step, their progress rising
after (log entry 31). -/
def Obligations.TheArrayExecutes : Prop := ∀ (s : State) (c : Nat) (m : MatCmd) (r : List MatCmd), (s.core c).mq = m :: r → m.executed = false →
  (∀ t sat v n ga gb w z, m.op = .tpl t sat → tOpk t = 0 → m.q = 0 → s.startCmd c m t = some (v, n) →
    State.takeRows c (tAKind t) (tAIdx t) n.areg (tARow t) (tM t) (tM t) n.gotA v = (ga, w, none) →
    State.takeRows c (tBKind t) (tBIdx t) n.breg (tBRow t) (tRowsB t) (tRowsB t) n.gotB w = (gb, z, none) →
    ga.length = tM t → gb.length = tRowsB t → tM t ≤ 64 → tN t ≤ 64 →
    ∃ u h, exec (.mmaExecute c) s = .next u ∧ (u.core c).mq.head? = some h ∧ h.q = Nat.min (tWmStep t) (tM t) ∧ u.mem = z.mem ∧
      (∀ i j, i < tM t → j < tN t →
        let code := fun (x : Row) (l : Nat) => (BitVec.ofNat 8 ((lanesOf x 1 l 1).getD 0 0)).toInt
        let beyond := fun (x : Int) => decide (x < -16 ∨ 16 < x)
        let ea := if 8 ≤ tScaleA t then code n.scaleA i else 0
        let eb := if 8 ≤ tScaleB t then code n.scaleB j else 0
        let e := mmaElem t sat (((z.core c).accRow (tAcc t) i).val j) (((z.core c).accRow (tAcc t) i).cnt j)
          (if beyond ea || beyond eb then none else some (ea + eb)) ((ea != -128 && beyond ea) || (eb != -128 && beyond eb))
          (((fmtLanes t (ga.getD i 0)).take (tKlen t)).zip (bColumn t gb j))
        ((u.core c).accRow (tAcc t) i).val j = e.1 % 2 ^ 128 ∧ ((u.core c).accRow (tAcc t) i).cnt j = e.2.1 % 2 ^ 32) ∧
      (∀ i j, i < 64 → j < 64 → tM t ≤ i ∨ tN t ≤ j →
        ((u.core c).accRow (tAcc t) i).val j = ((z.core c).accRow (tAcc t) i).val j ∧
        ((u.core c).accRow (tAcc t) i).cnt j = ((z.core c).accRow (tAcc t) i).cnt j)) ∧
  (∀ t v n, m.started = false → s.startCmd c m t = some (v, n) → (8 ≤ tScaleA t → n.scaleA = (s.core c).row (.operand (tScaleA t % 8))) ∧
    (8 ≤ tScaleB t → n.scaleB = (s.core c).row (.operand (tScaleB t % 8)))) ∧
  (∀ i x xs, i < 4 → (s.core c).li.getD i [] = x :: xs → (s.core c).liMarked i = true → ∀ g b n,
    s.takeRow c 2 i g b n = .error (.fatal 7 0)) ∧
  (∀ t sat, m.op = .tpl t sat → tOpk t = 0 → m.q ≠ 0 → ∃ u h, exec (.mmaExecute c) s = .next u ∧ (u.core c).mq = h :: r ∧ u.mem = s.mem ∧
    h = { m with q := Nat.min (m.q + tWmStep t) (tM t), executed := decide (tM t ≤ m.q + tWmStep t) }) ∧
  (m.started = false → m.rowsOut = 0 → m.q = 0 → s.arrayGap c = false → exec (.mmaExecute c) s = .next s ∧ exec (.mxposeExecute c) s = .next s ∧
    exec (.mzeroExecute c) s = .next s ∧ exec (.mdrainExecute c) s = .next s) ∧
  (∀ t sat v n ga w, m.op = .tpl t sat → tOpk t = 1 → s.startCmd c m t = some (v, n) →
    State.takeRows c (tAKind t) (tAIdx t) n.areg (tARow t) (tM t) (tM t) n.gotA v = (ga, w, none) → ga.length = tM t →
    tM t * typeWidth (tFmt t) ≤ 256 → tN t ≤ 64 →
    ∃ u h, exec (.mxposeExecute c) s = .next u ∧ (u.core c).mq.head? = some h ∧ h.executed = true ∧ u.mem = w.mem ∧
      ∀ j, j < tN t →
        lanesOf ((u.core c).row (.tile n.breg (tBRow t + j))) (typeWidth (tFmt t)) 0 (tM t) =
          ga.map (fun x => (lanesOf x (typeWidth (tFmt t)) j 1).getD 0 0) ∧
        (u.core c).rowBusy (.tile n.breg (tBRow t + j)) = (w.core c).busy.any (fun b => b.row == .tile n.breg (tBRow t + j) && b.owner != n.id)) ∧
  (∀ a : BitVec 1, m.op = .zero a → s.arrayGap c = true → ∃ u h, exec (.mzeroExecute c) s = .next u ∧ (u.core c).mq.head? = some h ∧ h.executed = true ∧ u.mem = s.mem ∧
    (∀ i, i < 64 → (u.core c).accRow a.toNat i = AccRow.reset ∧ ∀ b, b ≠ a.toNat → (u.core c).accRow b i = (s.core c).accRow b i) ∧
    (u.core c).accSat.toList.getD a.toNat true = false) ∧
  (∀ f d rm sat, m.op = .drain f d rm sat → f.dkind = 0 → m.rowsOut = 0 → s.arrayGap c = true → ∃ u h, exec (.mdrainExecute c) s = .next u ∧
    (u.core c).mq.head? = some h ∧ h.executed = true ∧ u.mem = s.mem ∧ ∀ i, i ≤ f.nrm1.toNat →
      (u.core c).row (.tile d (f.drow0.toNat + i)) = putLanes ((s.core c).row (.tile d (f.drow0.toNat + i))) (typeWidth f.tfmt) (64 * f.part.toNat)
        (drainRow f rm sat ((s.core c).accRow f.acc.toNat (f.crow0.toNat + i))).1 ∧
      (u.core c).accRow f.acc.toNat (f.crow0.toNat + i) =
        if f.clr = 1 then AccRow.reset else (s.core c).accRow f.acc.toNat (f.crow0.toNat + i)) ∧
  (∀ f d rm sat q, m.op = .drain f d rm sat → f.dkind = 1 → f.dreg.toNat < 4 → m.rowsOut = 0 → m.started = false → s.arrayGap c = true →
    (s.core c).loAt f.dreg.toNat = q →
    let row := fun (i : Nat) => putLanes 0 (typeWidth f.tfmt) (64 * f.part.toNat) (drainRow f rm sat ((s.core c).accRow f.acc.toNat (f.crow0.toNat + i))).1
    (q.peer.isSome = true → q.rows.length + f.nrm1.toNat < 8 → ∃ u h, exec (.mdrainExecute c) s = .next u ∧ (u.core c).mq.head? = some h ∧
      h.executed = true ∧ u.mem = s.mem ∧
      (u.core c).loAt f.dreg.toNat = { q with rows := q.rows ++ (List.range (f.nrm1.toNat + 1)).map row } ∧ (u.core c).lr = (s.core c).lr) ∧
    (q.peer.isSome = true → 8 ≤ q.rows.length → ∃ u h, exec (.mdrainExecute c) s = .next u ∧ (u.core c).mq.head? = some h ∧
      h.executed = false ∧ h.rowsOut = 0 ∧ u.mem = s.mem ∧ (u.core c).loAt f.dreg.toNat = q) ∧
    (q.peer = none → ∃ u h, exec (.mdrainExecute c) s = .next u ∧ (u.core c).mq.head? = some h ∧ h.executed = true ∧
      (u.core c).loAt f.dreg.toNat = q ∧ (u.core c).mIll = some .otherUse)) ∧
  (∀ f d rm sat, m.op = .drain f d rm sat → f.dkind = 2 → f.nrm1.toNat < 4 → m.rowsOut = 0 → s.arrayGap c = true →
    (s.weirOk c = false → ∃ u, exec (.mdrainExecute c) s = .next u ∧ Failed s u c 4 0) ∧
    (s.weirOk c = true → (∀ i, i < 4 → (s.pair (pairOf c)).twFull.getD i true = false) → ∃ u h, exec (.mdrainExecute c) s = .next u ∧
      (u.core c).mq.head? = some h ∧ h.executed = true ∧ u.mem = s.mem ∧ ∀ i, i ≤ f.nrm1.toNat →
        (u.pair (pairOf c)).twFull.getD ((f.dreg.toNat + i) % 4) false = true ∧
        (u.pair (pairOf c)).tw.getD ((f.dreg.toNat + i) % 4) 0 = putLanes 0 (typeWidth f.tfmt) (64 * f.part.toNat)
          (drainRow f rm sat ((s.core c).accRow f.acc.toNat (f.crow0.toNat + i))).1)) ∧
  (∀ f rm sat (a : AccRow) j, j < 64 → (drainRow f rm sat a).1.getD j 0 =
    (drainElem f.fn.toNat (f.afmt = 1) (kindOfType f.tfmt) rm.toNat sat (a.val j) (a.cnt j)).1) ∧
  (∀ (ef : Bool) (k : Kind) (rm : Nat) (sat : Bool) (v n : Nat), let x := decodeVal (if ef then kindOfType 14 else .fx) v
    (∀ fn, fn = 0 ∨ fn = 1 → drainElem fn ef k rm sat v 0 = (absentCode k, [evNXA])) ∧
    (n ≠ 0 → drainElem 0 ef k rm sat v n = roundVal x k rm sat) ∧
    (n ≠ 0 → (x = .nan ∨ (∃ g, x = .inf g) ∨ x = .absent) → drainElem 1 ef k rm sat v n = roundVal x k rm sat) ∧
    (n ≠ 0 → n < 2 ^ 32 → ∀ y, ratOf x = some y → ∃ g p e more, drainElem 1 ef k rm sat v n = roundVal (.fin g p e more) k rm sat ∧
      (y ≠ 0 → (g = true ↔ y < 0)) ∧ (more = false → (p : ℚ) * (2 : ℚ) ^ e = |y| / n) ∧
      (more = true → 2 ^ 268 ≤ p ∧ (p : ℚ) * (2 : ℚ) ^ e < |y| / n ∧ |y| / n < ((p : ℚ) + 1) * (2 : ℚ) ^ e)) ∧
    drainElem 2 ef k rm sat v n = if n < 2 ^ 31 then (n, []) else (0x7FFFFFFF, [if sat then evSAT else evOVF]))

/-- R39, R59, R137, R162, R201, R203, R208, R209, R210 and R222: an executed command leaves the queue, the count of matrix operations falls, its events are counted and its
tokens are signalled, all or none; a follow-on command at the side port is judged for its licence once, acquires one that it is owed, and
enters like an MX while there is room, but not before a command of M that enters in the same cycle; it has counted in the matrix operations since it
was passed there; a free licence goes to its oldest request that stands, and an MLIC.ACQ that it meets is done with it: the request of an M that a
trap has halted stands no more. -/
def Obligations.ArrayCompletionSidePortAndGrant : Prop := ∀ (s : State) (c : Nat),
  (∀ m r k, (s.core c).mq = m :: r → m.executed = true → (s.core c).signalAll? m.tokens = some k →
    ∃ t, exec (.arrayCommandComplete c) s = .next t ∧ (t.core c).mq = r ∧ (t.core c).tileops = (s.core c).tileops - 1 ∧ (t.core c).tk = k.tk ∧
      (∀ i (h : i < 6), ((t.core c).nev.cnt[i]).toNat = Nat.min (((s.core c).nev.cnt[i]).toNat + m.events.count i) (2 ^ 32 - 1)) ∧
      (m.events = [] → t.mem = s.mem ∧ ∀ d, d ≠ c → t.core d = s.core d)) ∧
  (∀ m r, (s.core c).mq = m :: r → m.executed = false ∨ (s.core c).signalAll? m.tokens = none → exec (.arrayCommandComplete c) s = .next s) ∧
  ((s.core c).side = none → exec (.sidePortCommand c) s = .next s) ∧
  (∀ w, (s.core c).side = some w →
    (w.judged = true ∨ s.holdsLic c = true → (s.core c).mq.length < 16 → s.mGoesFirst c = false →
      ∃ t m, exec (.sidePortCommand c) s = .next t ∧ (t.core c).side = none ∧ (t.core c).mq = (s.core c).mq ++ [m] ∧ m.op = .tpl w.tpl false ∧
        m.sig = none ∧ m.executed = false ∧ (t.core c).tileops = (s.core c).tileops ∧ t.mem = s.mem) ∧
    (w.judged = true ∨ s.holdsLic c = true → 16 ≤ (s.core c).mq.length ∨ s.mGoesFirst c = true →
      exec (.sidePortCommand c) s = .next (s.setCore c { s.core c with side := some { w with judged := true } })) ∧
    (w.judged = false → s.holdsLic c = false → (s.core c).owed = false → exec (.sidePortCommand c) s = .next (raiseFatal s c 3 0)) ∧
    (w.judged = false → s.holdsLic c = false → (s.core c).owed = true → s.mayTakeLic c = true → ∃ t, exec (.sidePortCommand c) s = .next t ∧
      t.holdsLic c = true ∧ (t.core c).owed = false ∧ (t.core c).side = some { w with judged := true } ∧ (t.core c).mq = (s.core c).mq ∧ t.mem = s.mem) ∧
    (w.judged = false → s.holdsLic c = false → (s.core c).owed = true → s.mayTakeLic c = false →
      exec (.sidePortCommand c) s = .next (s.waitLic c))) ∧
  (∀ f u t, (s.core c).mqAt = 0 → strandTurn s c .m = .run (.mzero f) u → exec (.mzero f) u = .next t →
    (s.core c).mq.length < (t.core c).mq.length → s.mGoesFirst c = true) ∧
  (∀ u, strandTurn s c .m = .idle u → s.mGoesFirst c = false) ∧
  (∀ d r, (s.pair c).holder = none → s.licAsked c = d :: r → ∃ t, exec (.licenceGrant c) s = .next t ∧ (t.pair c).holder = some d ∧
    (t.pair c).pending = (s.pair c).pending.filter (· != d) ∧ (t.core d).owed = false ∧ t.mem = s.mem ∧
    ∀ v u, v = (s.setPair c { s.pair c with holder := some d, pending := (s.pair c).pending.filter (· != d) }).modCore d (fun k =>
        { k with owed := false }) → pairOf d = c → strandTurn v d .m = .run .mlicAcq u → acqWaits u = true → (t.core d).m.pc = u.cx.next) ∧
  (s.licAsked c = [] → exec (.licenceGrant c) s = .next s) ∧
  (∀ d, d ∈ s.licAsked c ↔ d ∈ (s.pair c).pending ∧ ((∃ i u, strandSoon s d .m = .run i u ∧ takesLic i u = true) ∨
    (s.core d).owed = true ∧ ∃ w, (s.core d).side = some w ∧ w.judged = false)) ∧
  (∀ d g, s.taskOf d = some g → g.halted = true → (d ∈ s.licAsked c ↔ d ∈ (s.pair c).pending ∧
    (s.core d).owed = true ∧ ∃ w, (s.core d).side = some w ∧ w.judged = false)) ∧
  (∀ i u, takesLic i u = true ↔ (i = .mlicAcq ∧ acqWaits u = true) ∨ ∃ tpl fsel val, i = .mx tpl fsel val ∧ u.cxCore.owed = true ∧
    mxFaults u fsel val (mxForm u.cxCore tpl fsel val) ++ placeFaults u = [])

/-! Control. No prefix may stand before a word of every strand (R80). -/

/-- R51 to R57 and R69: LOOP opens a level at the words after it, its trip count known or told bit by bit, its bases 0 and its stage predicates those of
iteration 0. At the end of a body the strand goes back to the first word while some stage has an iteration left, its bases one down (that of the tile registers modulo
their number above 8) and its predicates stepped, a body that begins at no target word being an ILL of cause 3 there (R69); or leaves the level, from the outermost one to the epilogue; X counts iterations of the outermost one. Under TSRC 2 the end of an
iteration of X tells the other strands whether there is another, until it has told them that there is none, and waits while one of their queues is
full. A loop with a trip count of 0 runs no iteration: its body is walked as suppressed, and its level is left at the body's end. A STAGE marker of
a stage that its loop has does nothing; the loop is the innermost one of the text that holds the marker (log entry 22). -/
def Obligations.LoopsRunTheirIterations : Prop := ∀ (s : State) (trip : BitVec 32) (rot : BitVec 1) (tsrc sm1 st : BitVec 2) (klen : BitVec 14),
  let goesBack := fun (l : Level) (r : List Level) (rest : State → Level → Prop) => ∃ t l', exec .loopIterationEnd s =
      .next (if s.cxCore.badLanding l.first = true then raiseTrap t s.cx.core s.cx.strand l.first 0 3 0 l.first 0 else t) ∧
    t.cxStrand.pc = l.first ∧ t.cxStrand.loops = l' :: r ∧ t.cxStrand.atEnd = false ∧ t.mem = s.mem ∧ rest t l' ∧
    l' = { l with
      i := l.i + 1
      gBase := (l.gBase + 7) % 8
      aBase := (l.aBase + 3) % 4
      tBase := if 8 < s.cxCore.demand then (l.tBase + (s.cxCore.demand - 8) - 1) % (s.cxCore.demand - 8) else 0
      trip := l'.trip
      pushes := l'.pushes }
  (s.cx.mods = Mods.none → s.cx.misplaced = false → loopFaults s.cxCore s.cxStrand s.cx.head tsrc klen = [] → ∀ (tr : Trip) (pushes : Bool) (k : CoreSt),
    s.cxCore.enterTrip s.cx.strand trip tsrc = .ok (tr, pushes, k) →
    ∃ t l, exec (.loop trip rot tsrc sm1 klen) s = .next t ∧ t.cxStrand.loops = l :: s.cxStrand.loops ∧ l.first = s.cx.head + 8 ∧
      l.last = s.cx.head + 8 + BitVec.ofNat 32 (4 * klen.toNat) ∧ l.stages = sm1.toNat + 1 ∧ l.i = 0 ∧ l.trip = tr ∧ (l.rot = true ↔ rot = 1) ∧
      l.gBase = 0 ∧ l.aBase = 0 ∧ l.tBase = 0 ∧ t.cxStrand.pc = s.cx.next ∧ t.mem = s.mem ∧
      (tsrc = 0 → tr = .known trip.toNat) ∧ (tsrc = 1 → tr = .known ((s.cxCore.kAt (bits trip 0 4).toNat).toNat % 2 ^ 32)) ∧
      (tsrc = 2 → s.cx.strand = .x → tr = .known (s.cxCore.gAt (physG s.cxCore.x (bits trip 0 5).toNat)).toNat ∧ ∀ y, y ≠ .x →
        (t.cxCore.strand y).outq = (s.cxCore.strand y).outq ++ [decide (0 < (s.cxCore.gAt (physG s.cxCore.x (bits trip 0 5).toNat)).toNat)]) ∧
      (tsrc = 2 → s.cx.strand ≠ .x → ∃ b, s.cxStrand.outq = b :: t.cxStrand.outq ∧ tr = .popped [b]) ∧
      (∀ n, tr = .known n → t.cxStrand.pAt 0 = decide (0 < n) ∧ (l.dead = true ↔ n = 0)) ∧
      (∀ b, tr = .popped [b] → t.cxStrand.pAt 0 = b ∧ l.dead = !b) ∧ ∀ j, 0 < j → j < 4 → t.cxStrand.pAt j = false) ∧
  (∀ l r n, s.cxStrand.atEnd = true → s.cxStrand.loops = l :: r → l.dead = false → l.trip = .known n → l.pushes = false → s.cxCore.hold = .none →
    1 ≤ l.stages → l.stages ≤ 4 →
    (0 < n → l.i + 2 < n + l.stages → goesBack l r (fun t l' => l'.trip = l.trip ∧ l'.pushes = false ∧
      (∀ j, j < 4 → t.cxStrand.pAt j = decide (j < l.stages ∧ j ≤ l.i + 1 ∧ l.i + 1 - j < n)) ∧
      t.cxCore.iteridx = if s.cx.strand = .x ∧ l.outermost = true then s.cxCore.iteridx + 1 else s.cxCore.iteridx)) ∧
    (n = 0 ∨ n + l.stages ≤ l.i + 2 → ∃ t, exec .loopIterationEnd s = .next t ∧ t.cxStrand.loops = r ∧ t.mem = s.mem ∧
      (l.outermost = true → t.cxStrand.pc = s.cxCore.epilogue ∧ t.cxStrand.phase = .epilogue) ∧
      (l.outermost = false → t.cxStrand.pc = s.cxStrand.pc ∧ t.cxStrand.phase = s.cxStrand.phase) ∧
      t.cxCore.iteridx = if s.cx.strand = .x ∧ l.outermost = true then s.cxCore.iteridx + 1 else s.cxCore.iteridx)) ∧
  (∀ l r recent, s.cxStrand.atEnd = true → s.cxStrand.loops = l :: r → l.dead = false → l.trip = .popped (true :: recent) → s.cxCore.hold = .none →
    1 ≤ l.stages → (s.cxStrand.outq = [] → exec .loopIterationEnd s = .next s) ∧
    (∀ q, s.cxStrand.outq = true :: q → goesBack l r (fun t l' => t.cxStrand.outq = q ∧ t.cxStrand.pAt 0 = true ∧
      l'.trip = .popped (true :: true :: recent.take 2) ∧ l'.pushes = l.pushes))) ∧
  (∀ l r n, s.cx.strand = .x → s.cxStrand.atEnd = true → s.cxStrand.loops = l :: r → l.dead = false → l.trip = .known n → l.pushes = true →
    s.cxCore.hold = .none → 1 ≤ l.stages → l.stages ≤ 4 → 0 < n →
    ((∀ y, y ≠ .x → (s.cxCore.strand y).outq.length < 32) →
      let told := fun (t : State) => ∀ y, y ≠ .x → (t.cxCore.strand y).outq = (s.cxCore.strand y).outq ++ [decide (l.i + 1 < n)]
      (l.i + 2 < n + l.stages → goesBack l r (fun t l' => told t ∧ l'.trip = l.trip ∧ l'.pushes = decide (l.i + 1 < n))) ∧
      (n + l.stages ≤ l.i + 2 → ∃ t, exec .loopIterationEnd s = .next t ∧ t.mem = s.mem ∧ told t ∧ t.cxStrand.loops = r)) ∧
    ((∃ y, y ≠ .x ∧ 32 ≤ (s.cxCore.strand y).outq.length) → exec .loopIterationEnd s = .next s)) ∧
  (∀ l r, s.cxStrand.loops = l :: r → l.dead = true →
    (s.cxStrand.ret.length = l.retDepth → l.holds s.cxStrand.pc = true → s.cxCore.suppressed s.cxStrand = true) ∧
    (s.cxStrand.atEnd = true → ∃ t, exec .loopIterationEnd s = .next t ∧ t.cxStrand.loops = r ∧ t.mem = s.mem ∧
      t.cxCore.iteridx = s.cxCore.iteridx ∧ (∀ y, y ≠ s.cx.strand → t.cxCore.strand y = s.cxCore.strand y) ∧
      (l.outermost = true → t.cxStrand.pc = s.cxCore.epilogue ∧ t.cxStrand.phase = .epilogue) ∧
      (l.outermost = false → t.cxStrand.pc = s.cxStrand.pc))) ∧
  (s.cx.mods = Mods.none → s.cx.misplaced = false → ∀ b w c, s.cxCore.innermost (s.cxCore.textIdx s.cx.head) = some b → s.cxCore.slot (b.1 - 2) = some (w, c) →
    (st.toNat ≤ (bits w 26 2).toNat → exec (.stage st) s = .next (After s s.cxCore)) ∧
    ((bits w 26 2).toNat < st.toNat → exec (.stage st) s = .next (raiseIll s .execModel))) ∧
  (s.cx.mods = Mods.none → s.cxCore.innermost (s.cxCore.textIdx s.cx.head) = none ∨ s.cx.misplaced = true →
    exec (.stage st) s = .next (raiseIll s .execModel))

/-- R45 to R49, R69, R70 and R130 to R132: J goes to its target; BR goes there if its outcome is true, the decider telling the three other strands, who wait
for it; CALL pushes the address of the following word, and RET goes back to it; END moves from the prologue to the kernel and stops the strand
after the epilogue. A word but LOOP at which the kernel begins is illegal (R49). A J, BR or CALL whose target its loop body does not allow is illegal, a BR whether or not it would be taken (log entry 22, the model's choice). What goes
to an address that is no target word, payload, a prefixed head or outside the text image, raises ILL with cause 3 there (R69). -/
def Obligations.BranchesCallsAndReturns : Prop := ∀ (s : State) (off : BitVec 16) (decA inv : BitVec 1) (pred : BitVec 2),
  s.cx.mods = Mods.none → 0 < s.cx.words → (s.cx.misplaced = true → ∀ i, i ∈ [Instr.j off, .br decA inv pred off, .call off, .ret, .end_] →
    exec i s = .next (raiseIll s .execModel)) ∧ (s.cx.misplaced = false →
  let target := s.cx.head + 4 * off.signExtend 32
  let plain := s.cxCore.branchOk false (s.cxCore.textIdx s.cx.head) (s.cxCore.textIdx target)
  let goes := fun (i : Instr) (a : BitVec 32) (rest : State → Prop) => ∃ t, exec i s =
      .next (if s.cxCore.badLanding a = true then raiseTrap t s.cx.core s.cx.strand a 0 3 0 a 0 else t) ∧ t.cxStrand.pc = a ∧ t.mem = s.mem ∧ rest t
  (∀ a w, (s.cxCore.slot (s.cxCore.textIdx a) = none → s.cxCore.badLanding a = true) ∧ ∀ m, s.cxCore.slot (s.cxCore.textIdx a) = some (w, m) →
    (s.cxCore.badLanding a = true ↔ m = .payload ∨ m = .head true)) ∧
  (plain = true → goes (.j off) target (fun t => t.cxStrand.atEnd = false ∧
    t.cxStrand.walked = s.cxStrand.walked + s.cx.words ∧ t.cxStrand.ret = s.cxStrand.ret ∧ t.cxStrand.loops = s.cxStrand.loops)) ∧
  (plain = false → exec (.j off) s = .next (raiseIll s .execModel) ∧ exec (.br decA inv pred off) s = .next (raiseIll s .execModel)) ∧
  (plain = true → ∀ d, d = (if decA = 1 then Strand.a else Strand.x) →
    (s.cx.strand = d → ((∃ y, y ≠ d ∧ 32 ≤ (s.cxCore.strand y).outq.length) → exec (.br decA inv pred off) s = .next s) ∧
      ∀ b, b = ((s.cxCore.strand d).pAt (4 + pred.toNat) != (inv == 1)) →
      (∀ y, y ≠ d → (s.cxCore.strand y).outq.length < 32) →
      let told := fun (t : State) => ∀ y, y ≠ d → (t.cxCore.strand y).outq = (s.cxCore.strand y).outq ++ [b]
      (b = true → goes (.br decA inv pred off) target told) ∧
      (b = false → ∃ t, exec (.br decA inv pred off) s = .next t ∧ t.cxStrand.pc = s.cx.next ∧ t.mem = s.mem ∧ told t)) ∧
    (s.cx.strand ≠ d → (s.cxStrand.outq = [] → exec (.br decA inv pred off) s = .next s) ∧
      ∀ q, (s.cxStrand.outq = true :: q → goes (.br decA inv pred off) target (fun t => t.cxStrand.outq = q)) ∧
        (s.cxStrand.outq = false :: q → ∃ t, exec (.br decA inv pred off) s = .next t ∧ t.cxStrand.pc = s.cx.next ∧ t.cxStrand.outq = q ∧
          t.mem = s.mem))) ∧
  (s.cxStrand.ret.length < 8 → s.cxCore.branchOk true (s.cxCore.textIdx s.cx.head) (s.cxCore.textIdx target) = true →
    goes (.call off) target (fun t => t.cxStrand.ret = (s.cx.head + 4) :: s.cxStrand.ret)) ∧
  (8 ≤ s.cxStrand.ret.length ∨ s.cxCore.branchOk true (s.cxCore.textIdx s.cx.head) (s.cxCore.textIdx target) = false →
    exec (.call off) s = .next (raiseIll s .execModel)) ∧
  (∀ a r, s.cxStrand.ret = a :: r → goes .ret a (fun t => t.cxStrand.ret = r)) ∧
  (s.cxStrand.ret = [] → exec .ret s = .next (raiseIll s .execModel)) ∧
  (s.cxStrand.loops = [] → s.cxStrand.ret = [] →
    (s.cxStrand.phase = .prologue → ∃ t, exec .end_ s = .next t ∧ t.cxStrand.pc = s.cxCore.kernel ∧ t.cxStrand.phase = .kernel ∧ t.mem = s.mem) ∧
    (s.cxStrand.phase = .epilogue → ∃ t, exec .end_ s = .next t ∧ t.cxStrand.phase = .stopped ∧ t.mem = s.mem) ∧
    (s.cxStrand.phase = .kernel → exec .end_ s = .next (raiseIll s .execModel))))

/-- R42, R50, R58, R95, R133, R164, R165, R202, R210, R232, R250, R251, R262, R274, R292, R334 and R335: a strand stands at its BAR; its core's arrival, of all four with A's
accesses performed, is counted once on the host core; the last of the phase empties the slot, inverts its phase and lets every core that arrived
walk past the BAR; one that differs in its count, or names a host outside the gang, traps; to another core an arrival is a
packet, which waits for a drain's end and is not counted while it is lost; a released core whose release is lost passes once that comes again. A
core arrives once in a phase, also where it was restored at its BAR (log entries 18 and 46). What a strand's turn does besides: it passes words that it
skips, until it has passed eight or its block, or comes to one that it does not skip; raises what is due in M, or a crossed numeric threshold, which stays due until it is reported; a
word that is no instruction raises its cause; an event window that has run ends; and an instance with nothing left releases its writes and its
licence and loses the rows of its queues (log entry 35). -/
def Obligations.BarriersAndBoundaries : Prop := ∀ (s : State) (cnt : BitVec 8) (slot : BitVec 3) (coord : BitVec 9),
  (∀ h, coreOfCoord coord = some h → (s.cx.misplaced = true → exec (.bar cnt slot coord) s = .next (raiseIll s .execModel)) ∧
    (s.cx.misplaced = false → ∃ t, exec (.bar cnt slot coord) s = .next t ∧ t.cxStrand = { s.cxStrand with atBar := true } ∧ t.mem = s.mem ∧
      t.tasks = s.tasks ∧ ∀ c, c ≠ s.cx.core → t.core c = s.core c)) ∧
  (strands.all (fun t => (s.cxCore.strand t).atBar) = false ∨ s.cxCore.allPerformed = false → exec .barArrival s = .next s) ∧
  (∀ w p c, strands.all (fun t => (s.cxCore.strand t).atBar) = true → s.cxCore.allPerformed = true →
    s.cxCore.slot (s.cxCore.textIdx s.cxCore.x.pc) = some (w, c) →
    p = (s.cxCore.slot (s.cxCore.textIdx s.cxCore.x.pc + 1)).elim 0 (·.1) → decodeHead w p = .ok (.bar cnt slot coord) →
    (coreOfCoord coord = none ∨
        (s.recorded s.cx.core .bar = none ∧ ∃ h, coreOfCoord coord = some h ∧ h ≠ s.cx.core ∧ s.inGang s.cx.core h = false) →
      exec .barArrival s = .next (raiseTrap (s.answer s.cx.core .bar) s.cx.core .x s.cxCore.x.pc 0 13 0 s.cxCore.x.pc 0)) ∧
    ((coreOfCoord coord).isSome = true → (s.recorded s.cx.core .bar).isSome = true → s.unanswered s.cx.core .bar = false →
      ∃ t, exec .barArrival s = .next t ∧ t.asked s.cx.core .bar = [] ∧ t.mem = s.mem ∧ ∀ y, t.cxCore.strand y =
        { s.cxCore.strand y with atBar := false }.advance ((s.cxCore.strand y).pc + 8) 2) ∧
    ∀ h b, coreOfCoord coord = some h → h = s.cx.core ∨ s.inGang s.cx.core h = true → b = (s.core h).bars.get slot.toFin →
      s.recorded s.cx.core .bar = none →
      (s.cxCore.rank ∈ b.ranks → exec .barArrival s = .next s) ∧
      (s.cxCore.rank ∉ b.ranks → h ≠ s.cx.core →
        (s.asked s.cx.core .bar = [] → exec .barArrival s = .next (s.request s.cx.core .bar)) ∧
        (s.asked s.cx.core .bar ≠ [] → s.unanswered s.cx.core .bar = true → exec .barArrival s = .next s)) ∧
      (s.cxCore.rank ∉ b.ranks → h = s.cx.core ∨ s.asked s.cx.core .bar ≠ [] → s.unanswered s.cx.core .bar = false →
        (0 < b.count → b.expect ≠ cnt.toNat + 1 →
          exec .barArrival s = .next (raiseTrap (s.answer s.cx.core .bar) s.cx.core .x s.cxCore.x.pc 0 13 0 s.cxCore.x.pc 0)) ∧
        (b.count < cnt.toNat → (0 < b.count → b.expect = cnt.toNat + 1) → ∃ t, exec .barArrival s = .next t ∧
          (t.core h).bars.get slot.toFin = { b with count := b.count + 1, expect := cnt.toNat + 1, ranks := b.ranks ++ [s.cxCore.rank] } ∧
          (∀ d y, (t.core d).strand y = (s.core d).strand y) ∧ t.mem = s.mem) ∧
        (cnt.toNat ≤ b.count → (0 < b.count → b.expect = cnt.toNat + 1) → ∃ t, exec .barArrival s = .next t ∧
          (t.core h).bars.get slot.toFin = { count := 0, expect := 0, phase := !b.phase, ranks := [] } ∧ t.mem = s.mem ∧
          (∀ d, d = s.cx.core ∨ (∃ r ∈ b.ranks, s.coreOfRank s.cx.core r = some d) →
            (s.unanswered d .bar = false → t.asked d .bar = [] ∧ ∀ y, (t.core d).strand y =
              if ((s.core d).strand y).atBar then { (s.core d).strand y with atBar := false }.advance (((s.core d).strand y).pc + 8) 2
              else (s.core d).strand y) ∧
            (s.unanswered d .bar = true → t.recorded d .bar = some [] ∧ ∀ y, (t.core d).strand y = (s.core d).strand y)) ∧
          ∀ d, d ≠ h → d ≠ s.cx.core → (∀ r ∈ b.ranks, s.coreOfRank s.cx.core r ≠ some d) → t.core d = s.core d))) ∧
  (∃ t, exec .skippedWordsWalk s = .next t ∧ t.mem = s.mem ∧ t.tasks = s.tasks ∧ (∀ y, y ≠ s.cx.strand → t.cxCore.strand y = s.cxCore.strand y) ∧
    WentOn (s.cxStrand) t.cxStrand ∧ t.cxStrand.walked ≤ s.cxStrand.walked + 8 ∧ (∀ c, c ≠ s.cx.core → t.core c = s.core c) ∧
    (t.cxStrand.atEnd = true ∨ s.cxCore.textIdx t.cxStrand.pc / 8 ≠ s.cxCore.textIdx s.cxStrand.pc / 8 ∨
      ∀ n, t.cxCore.walk s.cx.strand = .skip n → s.cxStrand.walked + 8 < t.cxStrand.walked + n)) ∧
  exec .notAnInstruction s = .next (raiseIll s s.cx.cause) ∧
  (∀ c, s.cxCore.mIll = some c → ∃ t, exec .illAtNextBoundary s = .next t ∧ t.cxCore.mIll = some c ∧ SameOutside s t ∧
    ∀ g, s.taskOf s.cx.core = some g → ∃ g', t.taskOf s.cx.core = some g' ∧
      g'.traps = g.traps ++ [{ core := s.cx.core, strand := .m, cls := 0, cause := c.code, code := 0, next := s.cxCore.m.pc, words := 0,
                               wait := none, sig := none, due := true }]) ∧
  (∀ c src, s.cxCore.nev.due.find? (fun d => nevStrand d.2 == s.cx.strand) = some (c, src) → ∃ t, exec .numTrap s = .next t ∧
    t.cxCore.nev = s.cxCore.nev ∧ SameOutside s t ∧
    ∀ g, s.taskOf s.cx.core = some g → ∃ g', t.taskOf s.cx.core = some g' ∧
      g'.traps = g.traps ++ [{ core := s.cx.core, strand := s.cx.strand, cls := 1, cause := 0, code := c + 16 * src,
                               next := s.cxStrand.pc, words := 0, wait := none, sig := none, due := true }]) ∧
  (∀ c, (s.core c).resident = true → (s.core c).nev.window ≠ 0 → (s.core c).nev.window ≤ (s.core c).nev.elapsed →
    ∃ t, exec (.nevWindowEnd c) s = .next t ∧ (t.core c).nev.elapsed = 0 ∧ (t.core c).nev.crossw = 0 ∧ (t.core c).nev.cnt = Vector.replicate 6 0 ∧
      (t.core c).nev.stat = (s.core c).nev.stat ∧ (t.core c).nev.thr = (s.core c).nev.thr ∧ t.mem = s.mem) ∧
  (s.cxCore.instanceDone = false → exec .instanceComplete s = .next s) ∧
  (∀ g, s.cxCore.instanceDone = true → s.taskOf s.cx.core = some g → s.cx.core ∈ g.cores →
    ¬(∀ d ∈ g.cores, d ≠ s.cx.core → (s.core d).finished = true) →
    ∃ t, exec .instanceComplete s = .next t ∧ t.cxCore.finished = true ∧ t.cxCore.stash = [] ∧ t.holdsLic s.cx.core = false ∧
      t.mem = (s.settle s.cx.core).mem ∧ t.cxCore.ebuf = [] ∧ t.tasks = s.tasks ∧ t.cxCore.li = Vector.replicate 4 [] ∧
      (∀ q ∈ t.cxCore.lo.toList, q.rows = [])) ∧
  (∀ g, s.cxCore.instanceDone = true → s.taskOf s.cx.core = some g → (∀ d ∈ g.cores, d ≠ s.cx.core → (s.core d).finished = true) →
    s.cx.core ∈ g.cores → ∃ t g', exec .instanceComplete s = .next t ∧ t.task? g.part g.id = some g' ∧ g'.phase = .complete ∧ g'.kind = 0 ∧
      t.cxCore.resident = false)

/-! The fountainhead. -/

/-- R284: after EPRIO_UPDATE the effective priorities solve the equations: 0 for an ended task, else the greatest of the task's own base priority and
the effective priorities of the tasks that wait on it. It is the least solution, and nothing else of a task changes. -/
def Obligations.EffectivePrioritiesAreTheLeastSolution : Prop := ∀ (s : State), ∃ t, exec .eprioUpdate s = .next t ∧
  t = { s with tasks := t.tasks } ∧ t.tasks.map (fun x => { x with eprio := 0 }) = s.tasks.map (fun x => { x with eprio := 0 }) ∧
  (∀ x ∈ t.tasks, x.eprio = if x.ended then 0 else ((t.tasks.filter (fun u => u.waitsOn x)).map (·.eprio)).foldl max (s.basePrio x)) ∧
  ∀ g : Nat → Nat,
    (∀ i x, s.tasks[i]? = some x → x.ended = false → s.basePrio x ≤ g i ∧ ∀ j y, s.tasks[j]? = some y → y.waitsOn x = true → g j ≤ g i) →
    ∀ i x, t.tasks[i]? = some x → x.eprio ≤ g i

/-- R28, R34, R277, R281, R283, R284, R286 to R291, R305, R344 and R346: a task whose dependences and stream order allow it enters the ready pool while
there is room, unless its entry in the spill area has been written over (log entry 73); the
head of a stream that stands there longer than AGE is boosted; a decision with no head changes nothing but who waits for capacity; one with one
head that has a placement gives its stream rounds of credit until the gang fits and starts it there, each member at its prologue with zeroed registers
and its constants, or, where it was saved, each rank with what its image holds, the text relocated anew and the remote addresses in a0 to a15 rewritten
to the new cores; of several heads the next stream's is dispatched where the one that PTR names has too little credit or no placement, and both keep
their deficits; a level with a head that finds no placement asks for pre-emption: of the gangs of less
priority, of every partition (log entry 39), the least first and the latest
dispatched first, the fewest that give the head a placement, and none where a request for it is pending or no set is enough; every task that
has waited for capacity as long as the notice time is reported once, by an event record of kind 2. -/
def Obligations.TasksBecomeReadyAndAreDispatched : Prop := ∀ (s : State) (h : Task) (q key : Nat),
  (s.taskKey? key = some h → s.poolCount < 1024 → h.inPool = false → h.canReturn = true ∨ s.canEnter h = true ∧ s.tasks.any Task.canReturn = false →
    (s.spillIntact h = true → ∃ t g, exec (.taskReady key) s = .next t ∧ t.taskKey? key = some g ∧
      g = { h with phase := .ready, inPool := true, poolSince := s.cycle, spill := none } ∧ t.cores = s.cores ∧ t.mem = s.mem) ∧
    (s.spillIntact h = false → ∃ t g, exec (.taskReady key) s = .next t ∧ t.taskKey? key = some g ∧ g.phase = .failed ∧ g.kind = 11 ∧ g.detail = 1)) ∧
  (s.taskKey? key = some h → h.canReturn = false → s.canEnter h = false → exec (.taskReady key) s = .next s) ∧
  (s.headOf q = some h → ∃ t, exec (.streamAged q) s = .next t ∧
    if (s.stream q).age ≠ 0 ∧ Nat.max h.poolSince (s.stream q).lastDispatch + (s.stream q).age * 3200 < s.cycle then
      exec .eprioUpdate s = .next t ∧ s.basePrio h = Nat.max h.recd.prio (Nat.min (h.recd.prio + 1) 15)
    else t = s ∧ s.basePrio h = h.recd.prio) ∧
  ((∀ x ∈ s.tasks, s.judgeCapacity x = x) → (∀ i, s.headOf i = none) → exec .dispatchDecision s = .next s) ∧
  (∀ cores l, (∀ x ∈ s.tasks, s.judgeCapacity x = x) → h.eprio ≤ 15 → (∀ n, n ≤ 15 → s.levelStreams n = if n = h.eprio then [q] else []) →
    tget 0 s.ptr h.eprio = q → tget false s.cred h.eprio = false → s.headOf q = some h → 0 < (s.stream q).weight → h.recd.size ≤ 256 →
    s.place h [] = some cores → cores.Nodup → h.loaded.or (s.loadTask h).2 = some l → (∀ x ∈ s.tasks, x.part = h.part ∧ x.id = h.id → x = h) →
    ∃ t g n, exec .dispatchDecision s = .next t ∧ t.task? h.part h.id = some g ∧ g.phase = .running ∧ g.cores = cores ∧ g.inPool = false ∧
      (let credit := fun m => Nat.min ((s.stream q).deficit + m * (16 * (s.stream q).weight)) 4096
      0 < n ∧ n ≤ 16 ∧ h.recd.size ≤ credit n ∧ (∀ m, 0 < m → m < n → credit m < h.recd.size) ∧ (t.stream q).deficit = credit n - h.recd.size) ∧
      tget 0 t.ptr h.eprio = q ∧ tget false t.cred h.eprio = true ∧
      (∀ (ims : List Image), h.images = some ims → ims.length = cores.length → s.memWf → ∀ (r c : Nat) (im : Image), cores[r]? = some c → ims[r]? = some im →
        (t.core c).resident = true ∧ (t.core c).rank = im.st.rank ∧ (t.core c).stage = im.st.stage ∧ (t.core c).slipw = im.st.slipw ∧
        (t.core c).iteridx = im.st.iteridx ∧ (t.core c).text = relocated l cores ∧ (t.core c).g = im.st.g ∧ (t.core c).k = im.st.k ∧
        (t.core c).tk = im.st.tk ∧ (t.core c).tile = im.st.tile ∧ (t.core c).acc = im.st.acc ∧ (t.core c).rc = im.st.rc ∧ (t.core c).li = im.st.li ∧
        (t.core c).fqAt = [] ∧ (t.core c).owed = im.st.owed ∧ (t.core c).tlb = [] ∧ (t.core c).stash = [] ∧ (t.core c).timeh = 0 ∧
        (t.core c).ar = im.st.ar.map (rewriteAddr im.st.spad (ims.map (·.core)) cores) ∧
        (∀ (i : Fin 4) j d, (im.st.lo.get i).peer = some (j, d) → ((t.core c).lo.get i).peer = some (cores.getD j 0, d)) ∧
        (∀ y, ((t.core c).strand y) = { im.st.strand y with holding := false, fetched := none }) ∧
        ((im.spadBytes.map (·.1)).Nodup → (∀ x ∈ ims, ∀ e ∈ x.spadBytes, e.1 < 2 ^ 19) → ∀ i, i < 2 ^ 19 →
          mget t.mem (spadKey c i) = ((im.spadBytes.find? (fun e => e.1 == i)).map (·.2)).getD 0)) ∧
      (h.images = none → ∀ r c, cores[r]? = some c → (t.core c).resident = true ∧ (t.core c).task = h.id ∧ (t.core c).part = h.part ∧ (t.core c).rank = r ∧
        (t.core c).gangSize = h.recd.size ∧ (t.core c).demand = h.recd.tregs ∧ (t.core c).spad = h.recd.spad ∧ (t.core c).text = relocated l cores ∧
        (t.core c).kernel = BitVec.ofNat 32 h.recd.kernel ∧ (t.core c).epilogue = BitVec.ofNat 32 h.recd.epilogue ∧
        (t.core c).g = Vector.replicate 32 0 ∧ (t.core c).ar = Vector.replicate 16 0 ∧ (t.core c).tk = Vector.replicate 16 0 ∧
        (t.core c).loads = 0 ∧ (t.core c).slipw = 256 ∧ (t.core c).iteridx = 0 ∧
        (∀ i, i < 16 → (t.core c).kAt i = l.consts.getD i 0) ∧
        (∀ y, ((t.core c).strand y).pc = BitVec.ofNat 32 h.recd.prologue ∧ ((t.core c).strand y).phase = .prologue ∧
          ((t.core c).strand y).walked = 0 ∧ ((t.core c).strand y).p = Vector.replicate 8 false) ∧
        ∀ i, i < 2 ^ 19 → mget t.mem (spadKey c i) = 0)) ∧
  (∀ spad old new v f z y x off, regionOf v.toNat = .remote f → z = 1 ∨ z = 2 → y < 8 → x < 16 → off < 2 ^ 24 →
    f = z * 2 ^ 32 + y * 2 ^ 28 + x * 2 ^ 24 + off → (∀ c ∈ new, c < 256) →
    let c := (z - 1) * 128 + y * 16 + x
    (rewriteAddr spad old new v).toNat = if off < spad * 2 ^ 14 ∧ c ∈ old then
      let d := new.getD (old.idxOf c) c
      v.toNat - f + (d / 128 + 1) * 2 ^ 32 + d % 128 / 16 * 2 ^ 28 + d % 16 * 2 ^ 24 + off
    else v.toNat) ∧
  (∀ spad old new v, (∀ f, regionOf v.toNat ≠ .remote f) → rewriteAddr spad old new v = v) ∧
  (∀ cores l g p lv, (∀ x ∈ s.tasks, s.judgeCapacity x = x) → lv = h.eprio → lv ≤ 15 → (∀ n, lv < n → n ≤ 15 → s.levelStreams n = []) →
    p ∈ s.levelStreams lv → q ∈ s.levelStreams lv → nextStream (s.levelStreams lv) p = q → p ≠ q → tget 0 s.ptr lv = p → tget false s.cred lv = false →
    s.headOf p = some g → s.headOf q = some h → (∀ x ∈ s.tasks, x.part = h.part ∧ x.id = h.id → x = h) →
    let credit := fun i => Nat.min ((s.stream i).deficit + 16 * (s.stream i).weight) 4096
    credit p < g.recd.size ∨ s.place g [] = none → h.recd.size ≤ credit q → s.place h [] = some cores → h.loaded = some l →
    ∃ t u, exec .dispatchDecision s = .next t ∧ t.task? h.part h.id = some u ∧ u.phase = .running ∧ u.cores = cores ∧
      tget 0 t.ptr lv = q ∧ tget false t.cred lv = true ∧ (t.stream p).deficit = credit p ∧ (t.stream q).deficit = credit q - h.recd.size ∧
      ∀ x ∈ t.tasks, x.part ≠ h.part ∨ x.id ≠ h.id → x ∈ s.tasks) ∧
  ((∀ x ∈ s.tasks, s.judgeCapacity x = x) → h.eprio ≤ 15 → (∀ n, n ≤ 15 → s.levelStreams n = if n = h.eprio then [q] else []) →
    tget 0 s.ptr h.eprio = q → tget false s.cred h.eprio = false → s.headOf q = some h →
    h.recd.size ≤ Nat.min ((s.stream q).deficit + 16 * (s.stream q).weight) 4096 → s.place h [] = none →
    ∃ t, exec .dispatchDecision s = .next t ∧ tget false t.cred h.eprio = false ∧
      ((∃ v ∈ s.tasks, v.preemptFor = some h.key) ∨ s.chooseVictims h (s.candidates h) [] = none → t.tasks = s.tasks ∧ t.reserved = s.reserved) ∧
      ∀ vs, (∀ v ∈ s.tasks, v.preemptFor ≠ some h.key) → s.chooseVictims h (s.candidates h) [] = some vs →
        (s.tasks.map (fun x => (x.part, x.id))).Nodup → (vs.flatMap (·.cores)).Nodup →
        t.reserved = s.reserved ++ vs.flatMap (fun v => v.cores.map (fun c => (c, h.part, h.id))) ∧
        ∀ v ∈ vs, ∃ g, t.task? v.part v.id = some g ∧ g.preemptFor = some h.key ∧
          if v.halted = true ∨ (∀ c ∈ v.cores, (s.core c).allPast = true) then g.preemptAt = none
          else g.preemptAt = some s.cycle ∧
            ∀ c ∈ v.cores, (t.core c).hold = if (s.core c).pastKernel then .none else (s.core c).chooseHold) ∧
  (∀ v, v ∈ s.candidates h ↔ v ∈ s.tasks ∧ v.phase = .running ∧ v.eprio < h.eprio ∧ v.preemptFor = none) ∧
  (s.candidates h).Pairwise (fun u v => u.eprio < v.eprio ∨ u.eprio = v.eprio ∧ v.startedAt ≤ u.startedAt) ∧
  ((∀ i v, (s.candidates h)[i]? = some v → ((s.reserveSaves ((s.candidates h).take i)).saveRoom v).isSome = true) →
    s.chooseVictims h (s.candidates h) [] =
      ((List.range (s.candidates h).length).find? (fun n => (s.place h (((s.candidates h).take (n + 1)).flatMap (·.cores))).isSome)).map
        (fun n => (s.candidates h).take (n + 1))) ∧
  ((s.tasks.map (fun x => (x.part, x.id))).Nodup → ∃ t u, exec .capacityNotice s = .next t ∧
    t.tasks = s.tasks.map (fun x => if s.noticeDue x then { x with capNoted := true } else x) ∧ t = { u with tasks := t.tasks } ∧
    u = (s.tasks.filter s.noticeDue).foldl (fun u x => u.postEvent (some x.part) 2 x.stream x.id 0) s)

/-- R57, R112, R203, R263, R267, R288 and R290: when every member of a gang that was asked to hold has reached its hold point with its work done, its
images are taken, with what its engines had written, its licences are free and owed; when the save is written its cores are free; when the
limit passes first, or the array waits for rows that no member will send (log entry 24), the gang meets a fatal error of kind 5. -/
def Obligations.HoldsAndSaves : Prop := ∀ (s : State) (key : Nat) (t : Task), s.taskKey? key = some t → t.phase = .running →
  (∀ n, t.preemptAt = some n → t.halted = false → s.holdDone t = true → (∀ c ∈ t.cores, (s.core c).quiet = true) → t.cores.Nodup →
    ∃ (u : State) (g : Task) (ims : List Image), exec (.holdReached key) s = .next u ∧ u.taskKey? key = some g ∧ g.saving = true ∧ g.images = some ims ∧ g.preemptAt = none ∧
      ims.length = t.cores.length ∧ (∀ c ∈ t.cores, u.holdsLic c = false ∧ (u.core c).ebuf = []) ∧ u.mem = (t.cores.foldl State.settle s).mem ∧
      ∀ (r c : Nat), t.cores[r]? = some c → ∃ im : Image, ims[r]? = some im ∧ im.core = c ∧ im.st.owed = ((s.core c).owed || s.holdsLic c) ∧
        im.st.g = (s.core c).g ∧ im.st.ar = (s.core c).ar ∧ im.st.tile = (s.core c).tile ∧ im.st.acc = (s.core c).acc ∧ im.st.x = (s.core c).x ∧
        im.st.a = (s.core c).a ∧ im.st.v = (s.core c).v ∧ im.st.m = (s.core c).m ∧
        ∀ (i : Nat), i < 2 ^ 19 → ∀ b, (i, b) ∈ im.spadBytes ↔ (spadKey c i, b) ∈ u.mem) ∧
  (t.saving = true → t.fatal = none →
    ∃ u g, exec (.saveComplete key) s = .next u ∧ u.taskKey? key = some g ∧ g.phase = .saved ∧ g.saving = false ∧ g.images = t.images ∧ g.cores = [] ∧
      (t.recd.restart = true → g.boundary = t.images) ∧ ∀ c ∈ t.cores, (u.core c).resident = false) ∧
  (∀ n, t.preemptAt = some n → t.fatal = none → n + t.recd.ilimit * 1024 ≤ s.cycle →
    s.holdDone t = false ∨ (∃ c ∈ t.cores, s.arrayStarves t c = true) →
    ∃ u g, exec (.iterationLimitExpiry key) s = .next u ∧ u.taskKey? key = some g ∧ g = { t with fatal := some (5, 0) } ∧ u.cores = s.cores ∧
      u.mem = s.mem) ∧
  (∀ n, t.preemptAt = some n → s.holdDone t = true → (∀ c ∈ t.cores, s.arrayStarves t c = false) →
    exec (.iterationLimitExpiry key) s = .next s) ∧
  (∀ c m w sat, t.cores = [c] → s.headCmd c = some m → m.op = .tpl w sat → m.started = true → m.executed = false → s.arrayStopped c = true →
    m.gotA.length < tM w →
    (tAKind w = 1 ∧ (s.core c).fq = [] ∧ (s.core c).sluiceE.active = [] ∧ (s.core c).sluiceE.queue = []) ∨
      (tAKind w = 2 ∧ (s.core c).li.toList.getD (tAIdx w) [] = [] ∧ ∀ j, j < 4 → ((s.core c).loAt j).peer ≠ some (c, tAIdx w)) →
    s.arrayStarves t c = true) ∧
  (∀ n, t.preemptAt = some n → s.cycle < n + t.recd.ilimit * 1024 → exec (.iterationLimitExpiry key) s = .next s)

/-- R116, R137, R292, R293, R294, R295, R299 and R300: a gang with traps and no work in flight stops with its state saved: of several traps the one of
the lowest rank is reported, on one core in the order X, A, V, M, and a TRAP or a BRK that is not has its token back; the trap record goes into bytes
0x40 to 0x7F of the constants of the handler that the task's record names, which is released; without a valid handler, or where the record cannot
be written, the task ends with kind 9; a PROBE alone waits for service. When the handler has ended, DISP 1 makes the task ready again, and anything
else ends it with kind 10. A fatal error ends the gang with its kind once the commands in its engines and its array have come to rest (log entry 38): a
command that waits for a reply of the network goes on. A fault of the silicon in a core is such an error of kind 13, with the core's own work gone; it
ends a task that may not restart, and sends back one that may to its last boundary, at most three times (log entry 48). A fault of a basin or a link strikes
a gang with a request outstanding to it, whose requests that have met it go no further; one that strikes no gang changes nothing. -/
def Obligations.TrapsHandlersAndFatalErrors : Prop := ∀ (s : State) (key : Nat) (t : Task), s.taskKey? key = some t →
  (∀ r g, t.phase = .running → r ∈ t.traps → (∀ q ∈ t.traps, q = r ∨ q.cls = probeClass ∨ r.cls ≠ probeClass ∧
      ((s.core r.core).rank < (s.core q.core).rank ∨ (s.core r.core).rank = (s.core q.core).rank ∧ strandNum r.strand < strandNum q.strand)) → t.fatal = none → t.saving = false → (∀ c ∈ t.cores, (s.core c).quiet = true ∧ (s.core c).chain = none) →
    s.saveRoom t = some g → r.core ∈ t.cores →
    (r.cls = probeClass → ∃ u x, exec (.gangTrapStop key) s = .next u ∧ u.taskKey? key = some x ∧ x.phase = .saved ∧ x.awaits = .service ∧
      x.traps = [] ∧ x.images.isSome = true ∧ ∀ c ∈ t.cores, (u.core c).resident = false) ∧
    (r.cls ≠ probeClass → t.recd.handler = 0 ∨
        (∀ h, s.task? t.part t.recd.handler = some h → h.recd.hdlr = false ∨ h.released = true ∨ h.ended = true) →
      ∃ u x, exec (.gangTrapStop key) s = .next u ∧ u.taskKey? key = some x ∧ x.phase = .failed ∧
        x.kind = 9 ∧ x.detail = r.cls + r.cause * 256 ∧ ∀ c ∈ t.cores, (u.core c).resident = false) ∧
    (∀ h v k, r.cls ≠ probeClass → t.recd.handler ≠ 0 → s.task? t.part t.recd.handler = some h → h.recd.hdlr = true → h.released = false →
      h.ended = false → h.id ≠ t.id → v = t.cores.foldl State.settle s → k = strands.foldl (fun k y => k.endBodies 8 y) (s.core r.core) →
      (v.partUnwritable t.part (h.recd.kconst + 0x40) 64 = none → (∀ c ∈ t.cores, ∀ x ∈ (s.core c).stash, x.marked = false) → ∃ u x, exec (.gangTrapStop key) s = .next u ∧ u.taskKey? key = some x ∧
        x.phase = .saved ∧ x.awaits = .handler h.id r.cls r.cause h.recd.kconst ∧ x.traps = [] ∧ x.images.isSome = true ∧
        u.task? t.part h.id = some { h with released := true } ∧ (u.core r.core).seq = (s.core r.core).seq + 1 ∧
        (∀ c ∈ t.cores, (u.core c).resident = false) ∧
        u.mem = (v.partWrite t.part (h.recd.kconst + 0x40) (bytesOfNat 8 (t.id * 2 ^ 32 + strandNum r.strand * 2 ^ 16 + r.cause * 2 ^ 8 + r.cls) ++
          bytesOfNat 8 (k.iteridx.toNat * 2 ^ 32 + r.code % 2 ^ 14) ++ bytesOfNat 8 (k.a.pc.toNat * 2 ^ 32 + k.x.pc.toNat) ++
          bytesOfNat 8 (k.m.pc.toNat * 2 ^ 32 + k.v.pc.toNat) ++ bytesOfNat 8 (k.seq.toNat * 2 ^ 32 + k.rank * 2 ^ 16 + coordOfCore r.core) ++
          bytesOfNat 8 (h.recd.kconst % 2 ^ 56) ++ List.replicate 16 0)).mem) ∧
      ((v.partUnwritable t.part (h.recd.kconst + 0x40) 64).isSome = true → ∃ u x y, exec (.gangTrapStop key) s = .next u ∧
        u.taskKey? key = some x ∧ x.phase = .failed ∧ x.kind = 9 ∧ x.detail = r.cls + r.cause * 256 ∧ u.task? t.part h.id = some y ∧
        y.released = false)) ∧
    (∀ u, r.cls ≠ probeClass → exec (.gangTrapStop key) s = .next u → ∃ x, u.taskKey? key = some x ∧ (∀ c ∈ t.cores, (u.core c).resident = false) ∧
      (x.phase = .failed ∧ x.kind = 9 ∨ x.phase = .saved ∧ ∃ h, s.task? t.part t.recd.handler = some h ∧
        x.awaits = .handler h.id r.cls r.cause h.recd.kconst))) ∧
  (∀ r q w g u x ims, t.phase = .running → t.traps = [r, q] ∨ t.traps = [q, r] → t.fatal = none → t.saving = false →
    (∀ c ∈ t.cores, (s.core c).quiet = true ∧ (s.core c).chain = none) → s.saveRoom t = some g → r.core ∈ t.cores → q.core ∈ t.cores →
    (s.core r.core).rank < (s.core q.core).rank → r.cls ≠ probeClass → q.cls = 2 ∨ q.cls = 3 → q.wait = some w → (s.core q.core).tk.get w.toFin ≠ 255 →
    ((s.core q.core).strand q.strand).atEnd = false → exec (.gangTrapStop key) s = .next u → u.taskKey? key = some x → x.images = some ims →
    ∃ im ∈ ims, im.core = q.core ∧ im.st.tk.get w.toFin = (s.core q.core).tk.get w.toFin + 1 ∧
      (im.st.strand q.strand).pc = ((s.core q.core).strand q.strand).pc) ∧
  (∀ h cls cause va bs, t.awaits = .handler h.id cls cause va → s.task? t.part h.id = some h → h.phase = .complete →
    s.partRead t.part (va + 0x7C) 4 = .ok bs →
    (natOfBytes bs = 1 → ∃ u x, exec (.handlerDisposition key) s = .next u ∧ u.taskKey? key = some x ∧ x = { t with awaits := .nothing }) ∧
    (natOfBytes bs ≠ 1 → ∃ u x, exec (.handlerDisposition key) s = .next u ∧ u.taskKey? key = some x ∧ x.phase = .failed ∧ x.kind = 10 ∧
      x.detail = cls + cause * 256)) ∧
  (∀ h cls cause va, t.awaits = .handler h.id cls cause va → s.task? t.part h.id = some h →
    h.phase = .failed ∨ h.phase = .complete ∧ (∃ e, s.partRead t.part (va + 0x7C) 4 = .error e) →
    ∃ u x, exec (.handlerDisposition key) s = .next u ∧ u.taskKey? key = some x ∧ x.phase = .failed ∧ x.kind = 10) ∧
  (∀ kind addr, t.phase = .running → t.fatal = some (kind, addr) →
    (s.gangAtRest t = false → exec (.fatalContextError key) s = .next s) ∧
    (s.gangAtRest t = true → kind ≠ 13 ∨ t.recd.restart = false ∨ 3 ≤ t.restarts →
      ∃ u x, exec (.fatalContextError key) s = .next u ∧ u.taskKey? key = some x ∧
        x.phase = .failed ∧ x.kind = kind ∧ x.detail = 0 ∧ x.recordDue = true ∧ x.addr = (if kind ∈ [1, 2, 6, 7, 8] then addr % 2 ^ 56 else 0) ∧
        ∀ c ∈ t.cores, (u.core c).resident = false ∧ u.holdsLic c = false) ∧
    (s.gangAtRest t = true → kind = 13 → t.recd.restart = true → t.restarts < 3 →
      ∃ u x, exec (.fatalContextError key) s = .next u ∧ u.taskKey? key = some x ∧ x.phase = .saved ∧ x.images = t.boundary ∧
        x.atBoundary = t.boundary.isSome ∧ x.restarts = t.restarts + 1 ∧ x.fatal = none ∧ ∀ d ∈ t.cores, (u.core d).resident = false)) ∧
  ((∀ c ∈ t.cores, (s.core c).copyE.active = [] ∧ (s.core c).copyE.queue = [] ∧ (s.core c).sluiceE.active = [] ∧ (s.core c).sluiceE.queue = [] ∧
      (s.core c).confE.active = [] ∧ (s.core c).confE.queue = [] ∧ (s.core c).gathE.active = [] ∧ (s.core c).gathE.queue = [] ∧
      (s.core c).chainE.active = [] ∧ (s.core c).chainE.queue = [] ∧ (s.core c).mq = [] ∧ (s.core c).side = none) → s.gangAtRest t = true) ∧
  (∀ c ∈ t.cores, ∀ e m r, ((s.core c).engine e).active = m :: r → s.unanswered c (.engine e) = true → s.gangAtRest t = false) ∧
  (∀ c, t.phase = .running → s.tasks.filter (fun x => x.phase == .running && x.cores.any [c].contains) = [t] →
    ∃ u x, exec (.coreBasinLinkFault (.core c)) s = .next u ∧ u.taskKey? key = some x ∧ x = { t with fatal := t.fatal.or (some (13, 0)) } ∧
      u.mem = s.mem ∧ (∀ o ∈ u.outstanding, o.core ≠ c) ∧ (u.core c).aq = [] ∧ (u.core c).fe = none ∧ (u.core c).mq = [] ∧ (u.core c).side = none ∧
      (∀ e, ((u.core c).engine e).active = [] ∧ ((u.core c).engine e).queue = []) ∧ ∀ d, d ≠ c → u.core d = s.core d) ∧
  (∀ o b, o ∈ s.outstanding → thas s.cores o.core = true → (∃ y ∈ s.requestTrips o, y.2 = basinRouter b) → o.core ∈ s.struck (.basin b)) ∧
  (∀ o n d, o ∈ s.outstanding → thas s.cores o.core = true →
    (∃ y ∈ s.requestTrips o, (n, d) ∈ s.route y.1 y.2 ∨ (n, d) ∈ s.route y.2 y.1) → o.core ∈ s.struck (.link n d)) ∧
  (∀ f, (∀ c, f ≠ .core c) → s.tasks.filter (fun x => x.phase == .running && x.cores.any (s.struck f).contains) = [t] →
    ∃ u x, exec (.coreBasinLinkFault f) s = .next u ∧ u.taskKey? key = some x ∧ x = { t with fatal := t.fatal.or (some (13, 0)) } ∧ u.mem = s.mem ∧
      (∀ o ∈ u.outstanding, o ∈ s.outstanding) ∧ (∀ o ∈ u.outstanding, o.core ∈ t.cores → (s.requestTrips o).any (s.hits f) = false) ∧
      ∀ c, c ∉ t.cores → u.core c = s.core c) ∧
  (∀ f, (∀ x ∈ s.tasks, x.phase = .running → ∀ c ∈ x.cores, c ∉ s.struck f) → exec (.coreBasinLinkFault f) s = .next s)

/-- R267, R281, R295, R301, R337, R345 and R346: the next completion record of a stream is written where its ring's producer stands once the ring has room:
producer and sequence rise, and the host gets interrupt 3; while the ring is full it waits; one that could not be written is reported once and tried
again after 1,024 cycles. An event record goes into the ring of its partition, or of the device, at the place that PROD gives, with the number of its
source, and interrupt 1 fires; where the ring is full it is lost: OVF is set and the counts of lost records rise. One that comes while no ring is
configured is lost too (log entry 13). -/
def Obligations.CompletionRecordsAreWrittenInOrder : Prop := 
  (∀ (s : State) (q va : Nat) (t : Task), s.nextRecord q = some t →
  va = (s.stream q).crbase + 32 * ((s.stream q).prod.toNat % 2 ^ (s.stream q).l2ent) →
  (∀ i, (i = .completionRecordWrite q ∧ t.recordFault = none) ∨ (i = .completionRecordRetry q ∧ ∃ c, t.recordFault = some c ∧ c + 1024 ≤ s.cycle) →
    (2 ^ (s.stream q).l2ent ≤ ((s.stream q).prod - (s.stream q).cons).toNat → exec i s = .next s) ∧
    (((s.stream q).prod - (s.stream q).cons).toNat < 2 ^ (s.stream q).l2ent →
      (s.partUnwritable t.part va 32 = none →
        ∃ u x, exec i s = .next u ∧ (u.stream q).prod = (s.stream q).prod + 1 ∧ (u.stream q).seq = (s.stream q).seq + 1 ∧
          u.mem = (s.partWrite t.part va (bytesOfNat 8 (t.kind * 2 ^ 56 + t.stat * 2 ^ 48 + t.stream * 2 ^ 32 + t.id) ++
            bytesOfNat 8 (t.recd.trip * 2 ^ 32 + t.iter) ++
            bytesOfNat 8 ((s.stream q).seq.toNat * 2 ^ 32 + t.sat * 2 ^ 16 + t.detail % 2 ^ 16) ++ bytesOfNat 8 t.addr)).mem ∧
          u.outputs = s.outputs ++ [.msix t.part 3] ∧
          (s.task? t.part t.id = some t → u.task? t.part t.id = some x ∧ x.recordWritten = true ∧ x.phase = t.phase ∧ x.kind = t.kind)) ∧
      (∀ a, s.partUnwritable t.part va 32 = some a → s.task? t.part t.id = some t →
        ∃ u x, exec i s = .next u ∧ u.stream q = s.stream q ∧ u.task? t.part t.id = some x ∧ x = { t with recordFault := some s.cycle } ∧
          u.mem = (if t.recordFault = none then s.postEvent (some t.part) 10 q t.id a else s).mem)))) ∧
  (∀ (s : State) (part : Option Nat) (kind source d0 d1 : Nat), let r := part.elim s.devEvents (fun p => (s.part p).events)
    let key := sourceKey part kind source
    let lost := (tget ((0 : Word), 0) s.sources key).2
    let prod := s.ringNat part r.base 8
    let t := s.postEvent part kind source d0 d1
    (r.on = false → t.mem = s.mem ∧ t.outputs = s.outputs ∧ (tget ((0 : Word), 0) t.sources key).2 = lost + 1) ∧
    (r.on = true → prod - s.ringNat part (r.base + 8) 8 < 2 ^ r.n → t.outputs = s.outputs ++ [.msix (part.getD 16) 1] ∧
      t.mem = ((s.ringWrite part (r.base + 64 + 32 * (prod % 2 ^ r.n))
        (bytesOfNat 8 ((s.sourceSeq key).toNat * 2 ^ 32 + Nat.min lost 255 * 2 ^ 24 + kind * 2 ^ 16 + source % 2 ^ 16) ++ bytesOfNat 8 d0 ++
          bytesOfNat 8 d1 ++ bytesOfNat 8 s.cycle)).ringWrite part r.base (bytesOfNat 8 (prod + 1))).mem ∧
      t.sourceSeq key = s.sourceSeq key + 1 ∧ (tget ((0 : Word), 0) t.sources key).2 = 0) ∧
    (r.on = true → 2 ^ r.n ≤ prod - s.ringNat part (r.base + 8) 8 → t.outputs = s.outputs ∧ t.sourceSeq key = s.sourceSeq key ∧
      (tget ((0 : Word), 0) t.sources key).2 = lost + 1 ∧ ∃ u, u = s.ringWrite part (r.base + 0x10) (bytesOfNat 8 1) ∧
      t.mem = (u.ringWrite part (r.base + 0x18) (bytesOfNat 8 (Nat.min (u.ringNat part (r.base + 0x18) 8 + 1) (2 ^ 64 - 1)))).mem))

/-! The network, the host's and the peers' accesses, power and the intake. -/

/-- R128, R274, R300, R334 to R336, R346 and R362: every 65,536 cycles a drain begins (at which cycles it does, `lastDrain`, is log entry 11, the model's
choice); while it lasts no request is sent, new or again; it ends when no row is on its way, and after 192 cycles at the
latest, when the requests that it held back are sent; a corrected header counts on its link; an uncorrectable one counts as an error, loses the
packet, and at the third marks the link, which an event record of kind 5 reports. Where a reply is lost, its home has performed the request and keeps
the result, and does not perform it again. A request without its reply after 8,192 cycles is sent again, and
after three times it is a fault of its core's gang; one that waits at its home for its lines, its barrier or its stream is not. Which packets are
requests that are tracked so, what becomes of each and that one which waits at its home is not sent again is log entry 46, the model's choice. -/
def Obligations.TheNetworkRepairsAndCounts : Prop := ∀ (s : State) (router : BitVec 9) (dir tag : Nat) (pkt : PacketKind),
  (s.draining = none → s.lastDrain + 65536 ≤ s.cycle → ∃ t, exec .networkDrain s = .next t ∧ t.draining = some s.cycle ∧ t.mem = s.mem ∧
    t.cores = s.cores ∧ t.outstanding = s.outstanding ∧ t.lastDrain = s.cycle / 65536 * 65536) ∧
  (s.draining ≠ none ∨ s.cycle < s.lastDrain + 65536 → exec .networkDrain s = .next s) ∧
  (s.draining ≠ none → exec (.requestRetransmit tag) s = .next s) ∧
  (∀ c w, (s.request c w).outstanding = s.outstanding ++
    [{ tag := s.nextTag, core := c, what := w, sent := decide (s.draining = none), sentAt := s.cycle, retries := 0, lost := false, marked := false,
       spoils := [], result := none }]) ∧
  ((∃ o ∈ s.outstanding, o.sent = true ∧ o.lost = false ∧ ∃ j, o.what = .row j) → exec .drainEnd s = .next s) ∧
  ((∀ o ∈ s.outstanding, ∀ j, o.what = .row j → o.sent = false ∨ o.lost = true) → ∃ t, exec .drainEnd s = .next t ∧
    t = { s with draining := none, outstanding := t.outstanding, cores := t.cores, feOrder := t.feOrder } ∧
    t.outstanding = s.outstanding.map (fun o => if o.sent then o else { o with sent := true, sentAt := s.cycle }) ∧
    ∀ c, t.core c = { s.core c with fe := (t.core c).fe } ∧ ((s.core c).fe = none → (t.core c).fe = none) ∧
      ∀ r, (s.core c).fe = some r → ∃ q, (t.core c).fe = some q ∧ q = { r with order := q.order, at_ := q.at_ } ∧
        ((∃ o ∈ s.outstanding, o.core = c ∧ o.what = .access r.id ∧ o.sent = false) → q.at_ = s.cycle ∧ s.feOrder ≤ q.order)) ∧
  (∀ c, s.draining = some c → c + 192 ≤ s.cycle + 1 → s.tick.draining = none) ∧
  (dir ≤ 5 → ∃ t, exec (.headerCorrected router dir) s = .next t ∧ (t.link router.toNat dir) =
    { s.link router.toNat dir with corrected := Nat.min ((s.link router.toNat dir).corrected + 1) (2 ^ 32 - 1) } ∧ t = { s with links := t.links }) ∧
  (dir ≤ 5 → ∃ t, exec (.headerUncorrectable router dir pkt) s = .next t ∧
    (t.link router.toNat dir).errors = Nat.min ((s.link router.toNat dir).errors + 1) (2 ^ 32 - 1) ∧
    ((t.link router.toNat dir).marked = true ↔ (s.link router.toNat dir).marked = true ∨ 2 ≤ (s.link router.toNat dir).errors) ∧
    (pkt = .request tag → t.outstanding = s.outstanding.map (fun o => if o.tag = tag then { o with lost := true } else o) ∧
      ((t.link router.toNat dir).marked = (s.link router.toNat dir).marked → t = { s with links := t.links, outstanding := t.outstanding }) ∧
      ((t.link router.toNat dir).marked ≠ (s.link router.toNat dir).marked →
        t.mem = (s.postEvent none 5 router.toNat dir (t.link router.toNat dir).errors).mem))) ∧
  (∀ (v : State) (l : Link) (o : Outstanding), dir ≤ 5 → (s.link router.toNat dir).marked = true ∨ (s.link router.toNat dir).errors < 2 →
    l = { s.link router.toNat dir with errors := Nat.min ((s.link router.toNat dir).errors + 1) (2 ^ 32 - 1) } →
    v = { s with links := tset s.links (router.toNat * 8 + dir) l } →
    s.outstanding.find? (fun p => p.tag == tag) = some o →
    let i := Instr.headerUncorrectable router dir (.reply tag)
    let lost := fun (u : State) => { u with outstanding := u.outstanding.map (fun p => if p.tag = tag then { p with lost := true } else p) }
    (o.sent = false ∨ o.lost = true → exec i s = .next v) ∧
    (o.sent = true → o.lost = false →
      (∀ l, o.what = .line l → exec i s = .next (lost (v.homeLine o.core l))) ∧
      (∀ l a y, y = v.modCore o.core (fun k => k.lineWaiting l false) → (v.core o.core).aq = [a] → a.done + 1 = a.places →
        addrPlus a.ea (a.done * a.placeSize) / 128 = l →
        (∀ u, y.nextPlace o.core a = some u → v.homeLine o.core l = u.modCore o.core (fun k => k.lineWaiting l true)) ∧
        (y.nextPlace o.core a = none → v.homeLine o.core l = y.modCore o.core (fun k => k.lineWaiting l true))) ∧
      (∀ e, o.what = .engine e → exec i s = .next (lost v)) ∧
      (∀ j, o.what = .row j → exec i s = .next v) ∧
      (o.what = .bar → exec i s = .next (if v.barCounted o.core then lost v else v)) ∧
      (o.what = .spawn → v.spawnNow o.core = none → exec i s = .next v) ∧
      (∀ id u, o.what = .spawn → v.spawnNow o.core = some (id, u) →
        ∃ t, exec i s = .next t ∧ t = lost (u.modCore o.core (fun k => { k with spawned := some id }))) ∧
      (∀ r, o.what = .access r.id → (s.core o.core).fe = some r →
        (o.result.isSome = true → exec i s = .next (lost v)) ∧
        (o.result = none → ∀ e, v.feAct o.core r = .error e → exec i s = .next v) ∧
        (o.result = none → ∀ got u, v.feAct o.core r = .ok (got, u) → ∃ t, exec i s = .next t ∧ t.mem = u.mem ∧ t.core o.core = u.core o.core ∧
          t.outstanding.find? (fun p => p.tag == tag) = some { o with lost := true, result := some got })) ∧
      ∀ a, o.what = .access a.id → (s.core o.core).fe = none → ((s.core o.core).aq.map (·.id)).Nodup →
        (s.core o.core).aq.find? (fun b => !b.performed) = some a → a.done + 1 = a.places →
        (v.nextPlace o.core a = none → exec i s = .next v) ∧
        ∀ u, v.nextPlace o.core a = some u → (∃ b ∈ (u.core o.core).aq, b.id = a.id ∧ b.performed = true) →
          exec i s = .next (lost u))) ∧
  (∀ o, s.outstanding.find? (fun p => p.tag == tag) = some o →
    (o.sent = false ∨ s.cycle < o.sentAt + 8192 ∨ s.heldThere o = true → exec (.requestRetransmit tag) s = .next s) ∧
    (s.draining = none → o.sent = true → o.sentAt + 8192 ≤ s.cycle → s.heldThere o = false →
      (o.retries < 3 → ∃ t, exec (.requestRetransmit tag) s = .next t ∧
        t = { s with outstanding := t.outstanding, cores := t.cores, feOrder := t.feOrder } ∧
        (∀ c, t.core c = { s.core c with fe := (t.core c).fe } ∧ ((s.core c).fe.isSome = (t.core c).fe.isSome)) ∧
        ((∀ id, o.what ≠ .access id) → t.cores = s.cores) ∧
        t.outstanding.find? (fun p => p.tag == tag) = some { o with sentAt := s.cycle, retries := o.retries + 1, lost := false } ∧
        t.outstanding.filter (fun p => p.tag != tag) = s.outstanding.filter (fun p => p.tag != tag)) ∧
      (3 ≤ o.retries → ∀ g, s.taskOf o.core = some g → g.phase = .running → ∃ t, exec (.requestRetransmit tag) s = .next t ∧
        t.task? g.part g.id = some { g with fatal := g.fatal.or (some (13, 0)) } ∧ t.mem = s.mem ∧ ∀ p ∈ t.outstanding, p.tag ≠ tag)) ∧
    ((s.heldThere o = true ↔ o.sent = true ∧ o.lost = false ∧
      ((∃ r, (s.core o.core).fe = some r ∧ o.what = .access r.id) ∨ (o.what = .bar ∧ s.barCounted o.core = true) ∨ o.what = .spawn))))

/-- R9 to R12, R245, R252, R258, R260, R269, R274, R280, R337, R338, R341, R342 and R355: an access of the host through BAR2 to non-secure device memory
within its size reads or writes exactly its bytes, and is refused otherwise; the host gets the stored bytes also of a marked line (log entry 54).
So is one of a peer that a partition has joined; each is performed once for its tag, and sent again it is answered with what was recorded; updates store
their result and return the old value. The outputs name the
peer of aperture n by 32 + n (log entry 12). That engine writes which are pending in the bytes touched come before a write, an update or the copy of a
line, where R263 and R273 leave their order open, is the model's choice (log entries 69 and 49). A write to a register sets GO, DONE, a
command word or CONS of a stream, or nothing. A migration copies its lines one by one, with their marks and times. -/
def Obligations.HostAndPeerAccesses : Prop := ∀ (s : State) (fn off n ap : Nat) (bs : List Byte) (w : BitVec 64), (∀ p, s.forward p = p) →
  let joined := s.parts.any (fun e => s.isJoined e.1 ap)
  let stores := fun (i : Instr) (bs : List Byte) => ∃ t, exec i s = .next t ∧ (∀ j, j < bs.length → mget t.mem (off + j) = bs.getD j 0) ∧
    OnlyAt s t off bs.length ∧ t.outputs = s.outputs ∧ t.tasks = s.tasks ∧
    (∀ c, t.core c = { s.core c with ebuf := (t.core c).ebuf }) ∧ ∀ c, ∀ p ∈ (t.core c).ebuf, ¬(off ≤ p.1 ∧ p.1 < off + bs.length)
  (s.bar2Ok off n = true → exec (.hostBar2Access fn (.read off n)) s = .next (s.put (.data fn (mread s.mem off n)))) ∧
  (s.bar2Ok off n = false → exec (.hostBar2Access fn (.read off n)) s = .next (s.put (.unsupported fn))) ∧
  (s.bar2Ok off bs.length = true → stores (.hostBar2Access fn (.write off bs)) bs) ∧
  (s.bar2Ok off bs.length = false → exec (.hostBar2Access fn (.write off bs)) s = .next (s.put (.unsupported fn))) ∧
  (∀ tag, (joined = false ∨ s.bar2Ok off n = false → exec (.peerMessage ap (.read tag off n)) s = .next (s.put (.unsupported (32 + ap)))) ∧
    (joined = false ∨ s.bar2Ok off bs.length = false → exec (.peerMessage ap (.write tag off bs)) s = .next (s.put (.unsupported (32 + ap)))) ∧
    (∀ d, s.peerDone.find? (fun d => d.1 == ap && d.2.1 == tag) = some d →
      (joined = true ∧ s.bar2Ok off n = true → exec (.peerMessage ap (.read tag off n)) s = .next (s.put (.data (32 + ap) d.2.2))) ∧
      (joined = true ∧ s.bar2Ok off bs.length = true → exec (.peerMessage ap (.write tag off bs)) s = .next (s.put (.data (32 + ap) d.2.2)))) ∧
    (s.peerDone.find? (fun d => d.1 == ap && d.2.1 == tag) = none →
      (joined = true ∧ s.bar2Ok off n = true → ∃ t, exec (.peerMessage ap (.read tag off n)) s = .next t ∧
        t = { s with outputs := s.outputs ++ [.data (32 + ap) (mread s.mem off n)], peerDone := s.peerDone ++ [(ap, tag, mread s.mem off n)] }) ∧
      (joined = true ∧ s.bar2Ok off bs.length = true → ∃ t, exec (.peerMessage ap (.write tag off bs)) s = .next t ∧
        (∀ j, j < bs.length → mget t.mem (off + j) = bs.getD j 0) ∧ OnlyAt s t off bs.length ∧ t.outputs = s.outputs ++ [.data (32 + ap) []] ∧
        t.peerDone = s.peerDone ++ [(ap, tag, [])] ∧ t.tasks = s.tasks ∧ (∀ c, t.core c = { s.core c with ebuf := (t.core c).ebuf }) ∧
        ∀ c, ∀ p ∈ (t.core c).ebuf, ¬(off ≤ p.1 ∧ p.1 < off + bs.length)))) ∧
  (∀ tag opc ty value new, let z := typeWidth ty
    (opc = 7 ∨ joined = false ∨ s.bar2Ok off z = false ∨ off % z ≠ 0 →
      exec (.peerMessage ap (.update tag off opc ty value new)) s = .next (s.put (.unsupported (32 + ap)))) ∧
    (opc ≠ 7 → joined = true → s.bar2Ok off z = true → off % z = 0 →
      (∀ d, s.peerDone.find? (fun d => d.1 == ap && d.2.1 == tag) = some d →
        exec (.peerMessage ap (.update tag off opc ty value new)) s = .next (s.put (.data (32 + ap) d.2.2))) ∧
      (s.peerDone.find? (fun d => d.1 == ap && d.2.1 == tag) = none → (∀ e ∈ s.cores, ∀ p ∈ e.2.ebuf, sameUnits off z p.1 = false) →
        ∃ t old, exec (.peerMessage ap (.update tag off opc ty value new)) s = .next t ∧ old = mread s.mem off z ∧
          t.outputs = s.outputs ++ [.data (32 + ap) old] ∧ t.peerDone = s.peerDone ++ [(ap, tag, old)] ∧ t.cores = s.cores ∧
          t.mem = mwrite s.mem off (bytesOfNat z (if opc = 5 then value
            else if opc = 6 then (if natOfBytes old = value then new else natOfBytes old) else (saccStep opc ty (natOfBytes old) value).1))))) ∧
  (∀ a b : Int, -2 ^ 31 < a → a < 2 ^ 31 → -2 ^ 31 < b → b < 2 ^ 31 → saccStep 0 7 (BitVec.ofInt 32 a).toNat (BitVec.ofInt 32 b).toNat =
    ((BitVec.ofInt 32 (max (1 - 2 ^ 31) (min (2 ^ 31 - 1) (a + b)))).toNat, if a + b < 1 - 2 ^ 31 ∨ 2 ^ 31 - 1 < a + b then [evOVF] else [])) ∧
  (∀ tag, ∃ t, exec (.peerMessage ap (.ack tag)) s = .next t ∧ t = { s with peerDone := t.peerDone } ∧ ∀ r, (ap, tag, r) ∉ t.peerDone) ∧
  (∀ p q, ∃ t, exec (.peerMessage ap (.join p q)) s = .next t ∧ t = { s with peerJoins := t.peerJoins } ∧ (ap, p, q) ∈ t.peerJoins) ∧
  (fn ≤ 16 →
    (w.getLsbD 0 = true → (s.mailbox fn).busy = false → ∃ t, exec (.registerWrite fn 0x1000 w) s = .next t ∧ (t.mailbox fn).busy = true ∧
      t.goOrder = s.withGo fn ∧ (fn ≠ 16 → t.goOrder = s.goOrder ++ [fn]) ∧ (t.mailbox fn).goAt = s.cycle ∧ (t.mailbox fn).cmd = (s.mailbox fn).cmd ∧ t.mem = s.mem) ∧
    ((s.mailbox fn).busy = true → exec (.registerWrite fn 0x1000 w) s = .next s) ∧
    (w.getLsbD 1 = true → ∃ t, exec (.registerWrite fn 0x1008 w) s = .next t ∧ (t.mailbox fn).done = false ∧ t.mem = s.mem ∧
      (t.mailbox fn).busy = (s.mailbox fn).busy) ∧
    (∀ i, i < 32 → ∃ t, exec (.registerWrite fn (0x1100 + 8 * i) w) s = .next t ∧ tget 0 (t.mailbox fn).cmd i = w ∧ t.goOrder = s.goOrder ∧
      t.mem = s.mem) ∧
    (∀ i, i < 4096 → fn = 16 ∨ thas s.streams i = true ∧ (s.stream i).part = fn →
      ∃ t, exec (.registerWrite fn (0x20000 + 32 * i + 0x10) w) s = .next t ∧
        t.stream i = { s.stream i with cons := w.extractLsb' 32 32 } ∧ ∀ j, j ≠ i → t.stream j = s.stream j)) ∧
  (16 < fn ∨ off = 0x1000 ∧ w.getLsbD 0 = false ∨ off = 0x1008 ∧ w.getLsbD 1 = false ∨
      (∃ i, i < 4096 ∧ off = 0x20000 + 32 * i + 0x10 ∧ fn ≠ 16 ∧ (thas s.streams i = false ∨ (s.stream i).part ≠ fn)) ∨
      off ≠ 0x1000 ∧ off ≠ 0x1008 ∧ (∀ i, i < 32 → off ≠ 0x1100 + 8 * i) ∧ (∀ i, i < 4096 → off ≠ 0x20000 + 32 * i + 0x10) →
    exec (.registerWrite fn off w) s = .next s) ∧
  (∀ p m a b, (s.part p).migration = some m → a = m.src + 128 * m.copied → b = m.dst + 128 * m.copied →
    (m.lines ≤ m.copied → ∃ t, exec (.migrationLineCopied p) s = .next t ∧ (t.part p).migration = none ∧ (t.mailbox m.fn).busy = false ∧
      (t.mailbox m.fn).done = true) ∧
    (m.copied < m.lines → (∀ j, j < 128 → paKind (a + j) ≠ .view) →
      ∃ t, exec (.migrationLineCopied p) s = .next t ∧ (t.part p).migration = some { m with copied := m.copied + 1 } ∧
        (∀ j, j < 128 → mget t.mem (b + j) = mget (s.flush a 128).mem (a + j)) ∧ (b / 128 ∈ t.poison ↔ a / 128 ∈ s.poison) ∧
        t.timeOf b = s.timeOf a))

/-- R31, R253, R337, R345 to R354: what the wellhead does. A control interval takes the levels that the sensors read, writes an event
record of kind 8 with the thermal level and the rails that are throttled if one of the levels has changed, raises the pacing floors of the cores of
a rail by its current level, begins the raises that were deferred where no throttle is active and drops them where one is, lowers a rail to the level that
the divisors in use require and never below it, and moves the OFFSET of an undervolted rail by its canary count; a rail's raise ends at the level asked
for, within MAXLEVEL (log entry 72); at a command boundary of its domain a divisor that was granted, or whose rail has been raised far enough, takes
effect and its request is gone; an uncorrectable error on an undervolted rail ends its offset and lowers its margin two below it, as an event record
of kind 6 says; a core's counts, whose sums are the cycles of each engine's clock, go into its partition's ring while there is room. -/
def Obligations.PowerAndClocks : Prop := ∀ (s : State) (rd : Readings) (rail core : Nat) (dom : BitVec 2) (l : Option Nat) (counts : List EngineCounts),
  (∃ t, exec (.controlInterval rd) s = .next t ∧ t.thermal = Nat.min rd.thermal 5 ∧
    (t.thermal = s.thermal → (∀ r, r < 16 → (t.rail r).cur = (s.rail r).cur) → t.mem = s.mem) ∧
    (t.thermal ≠ s.thermal ∨ (∃ r, r < 16 ∧ (t.rail r).cur ≠ (s.rail r).cur) →
      t.mem = (s.postEvent none 8 0 t.thermal ((List.range 16).map (fun r => if (t.rail r).cur = 0 then 0 else 2 ^ r)).sum).mem) ∧ ∀ r, r < 16 → let o := s.rail r; let n := t.rail r; let cc := rd.canary.getD r 0
    n.cur = Nat.min (rd.current.getD r 0) 3 ∧ (n.throttled = true ↔ 0 < n.cur ∨ 0 < t.thermal) ∧ n.maxLevel = o.maxLevel ∧ n.undervolt = o.undervolt ∧ n.celim = o.celim ∧
    (∀ c, c < 256 → railOf c = r → (t.core c).div = (s.core c).div ∧ (t.core c).resident = (s.core c).resident ∧
      (∀ e, e < 7 → ((t.core c).floorUp.toList.getD e 0).toNat =
        [0, if e = 1 then 2 else 1, if e = 1 then 8 else 4, if e = 1 then 32 else 16].getD n.cur 0) ∧
      (∀ (i : Fin 4) q, (s.core c).divReq.get i = some q → thas s.cores c = true →
        (t.core c).divReq.get i = if q.deferred = false ∨ q.begun = true then some q
          else if n.throttled = true then (if q.keep = true then some q else none)
          else if levelOf q.d ≤ o.maxLevel then some { q with begun := true } else none) ∧
      ((s.core c).resident = true → ∀ i, i < 4 → levelOf ((s.core c).div.toList.getD i 1) ≤ o.level → levelOf ((s.core c).div.toList.getD i 1) ≤ n.level)) ∧
    (∀ l, o.raiseTo = some l → n.level = o.level ∧ n.raiseTo = o.raiseTo) ∧
    (o.raiseTo = none → (∀ c, c < 256 → railOf c = r → (s.core c).divReq = Vector.replicate 4 none) →
      let need := (((List.range 256).filter (fun c => railOf c == r)).flatMap (fun c =>
        if (s.core c).resident then [0, 1, 2, 3].map (fun i => levelOf ((s.core c).div.toList.getD i 1)) else [1])).foldl max 1
      n.level = Nat.min o.level need ∧ n.raiseTo = if o.level < need then some (Nat.min need o.maxLevel) else none) ∧
    (n.level ≠ o.level → n.offset = 0 ∧ n.goodRun = 0) ∧
    (n.level = o.level →
      (o.undervolt = false → n.offset = 0) ∧
      (o.undervolt = true → o.celim < cc → n.offset = o.offset - 1 ∧ n.goodRun = 0) ∧
      (o.undervolt = true → cc ≤ o.celim →
        (100 ≤ o.goodRun + 1 ∧ o.offset < n.margin ∧ o.holdoff = 0 → n.offset = o.offset + 1 ∧ n.goodRun = 0) ∧
        (¬(100 ≤ o.goodRun + 1 ∧ o.offset < n.margin ∧ o.holdoff = 0) → n.offset = o.offset ∧ n.goodRun = o.goodRun + 1))) ∧
    n.holdoff = o.holdoff - 1 ∧ n.margin = (if o.holdoff = 0 ∧ o.margin < 15 ∧ o.cleanRun + 1 = 100000 then o.margin + 1 else o.margin)) ∧
  (∀ n x, (s.rail rail).raiseTo = some n → x = Nat.max (s.rail rail).level (Nat.min n (s.rail rail).maxLevel) →
    ∃ t, exec (.railRaiseComplete rail) s = .next t ∧ (t.rail rail).level = x ∧
      (t.rail rail).raiseTo = none ∧ t.cores = s.cores ∧ t.mem = s.mem ∧ (x ≠ (s.rail rail).level → (t.rail rail).offset = 0)) ∧
  ((s.rail rail).raiseTo = none → exec (.railRaiseComplete rail) s = .next s) ∧
  (∀ r, (s.core core).divReq.get dom.toFin = some r →
    ((s.core core).atBoundary dom.toNat = true →
      r.deferred = false ∨ r.begun = true ∧ (s.rail (railOf core)).raiseTo = none ∧ levelOf r.d ≤ (s.rail (railOf core)).level →
      ∃ t, exec (.divisorChange core dom) s = .next t ∧ (t.core core).div.get dom.toFin = r.d ∧ (t.core core).divReq.get dom.toFin = none ∧
        (∀ e : BitVec 2, e ≠ dom → (t.core core).div.get e.toFin = (s.core core).div.get e.toFin ∧
          (t.core core).divReq.get e.toFin = (s.core core).divReq.get e.toFin) ∧ ∀ c, c ≠ core → t.core c = s.core c) ∧
    ((s.core core).atBoundary dom.toNat = false ∨ r.deferred = true ∧ (r.begun = false ∨ (s.rail (railOf core)).raiseTo ≠ none) →
      exec (.divisorChange core dom) s = .next s)) ∧
  ((s.core core).divReq.get dom.toFin = none → exec (.divisorChange core dom) s = .next s) ∧
  (rail < 16 → (∀ n, l = some n → ∃ t, exec (.undervoltReflex rail l) s = .next t ∧ n ∈ t.poison) ∧
    ((s.rail rail).offset ≠ 0 → ∃ t, exec (.undervoltReflex rail l) s = .next t ∧ (t.rail rail).offset = 0 ∧
      (t.rail rail).margin = (s.rail rail).offset - 2 ∧ (t.rail rail).holdoff = 10000 ∧
      t.mem = (s.postEvent none 6 rail (s.rail rail).offset ((s.rail rail).offset - 2)).mem) ∧
    ((s.rail rail).offset = 0 → ∃ t, exec (.undervoltReflex rail l) s = .next t ∧ t.rail rail = { s.rail rail with cleanRun := 0 } ∧ t.mem = s.mem ∧
      t.cores = s.cores)) ∧
  (∀ k r part prod, k = s.core core → part = k.part → r = (s.part part).counters → prod = s.ringNat (some part) r.base 8 → k.resident = true → r.on = true →
    k.sampledAt + 32000 ≤ s.cycle → k.countsOk counts s.cycle = true →
    (prod - s.ringNat (some part) (r.base + 8) 8 < 2 ^ r.n → ∃ t, exec (.counterSample core counts) s = .next t ∧
      (t.core core).samplerSeq = k.samplerSeq + 1 ∧ (t.core core).samplerLost = 0 ∧ (t.core core).sampledAt = s.cycle ∧
      t.mem = ((s.ringWrite (some part) (r.base + 64 + 64 * (prod % 2 ^ r.n))
        (bytesOfNat 8 (k.samplerSeq.toNat * 2 ^ 32 + Nat.min k.samplerLost 255 * 2 ^ 24 + coordOfCore core) ++ counts.flatMap (fun e =>
          bytesOfNat 8 (e.idle.toNat * 2 ^ 48 + e.qfull.toNat * 2 ^ 32 + e.ostall.toNat * 2 ^ 16 + e.busy.toNat)))).ringWrite (some part)
        r.base (bytesOfNat 8 (prod + 1))).mem) ∧
    (2 ^ r.n ≤ prod - s.ringNat (some part) (r.base + 8) 8 → ∃ t, exec (.counterSample core counts) s = .next t ∧
      (t.core core).samplerSeq = k.samplerSeq ∧ (t.core core).samplerLost = k.samplerLost + 1 ∧ (t.core core).sampledAt = s.cycle)) ∧
  ((s.core core).divPast = [] → 32000 ≤ s.cycle → (s.core core).countsOk counts s.cycle = true → counts.length = 7 ∧ ∀ (e : Nat) (x : EngineCounts) (d : Nat), counts[e]? = some x →
    d = (s.core core).div.toList.getD (if e = 0 then 1 else if e = 1 then 2 else 3) 1 → 0 < d →
    32000 / d ≤ x.idle.toNat + x.qfull.toNat + x.ostall.toNat + x.busy.toNat ∧
    x.idle.toNat + x.qfull.toNat + x.ostall.toNat + x.busy.toNat ≤ (32000 + d - 1) / d)

/-- R307 to R315, R317, R325 and R330: what the intake does. A period of 8 ms opens new credit, a debt taken from it; a turn serves the next stream with a
ready slice, one with credit first, and is charged its time, to no less than -2^31 (log entry 51); after an error recovery a unit before the next
key frame is discarded without a turn, and the discard is reported as the key frame comes; a unit that is discarded while it is served gives nothing
at the end of its turn, which is charged; what the decoder writes
meanwhile lies in the reference area of its partition (log entry 73); a quantum ends at 250 µs. Of the units that a
stream holds the one of the least presentation time is shown next, once it is decoded (log entry 52); a frame whose slot is free is numbered and
written: its planes, made even by repeating the last column or row, its vector and residual maps, its converted tiles and its record; one whose slot
is held waits; a freed slot lets its stream go on; a submission is made in frame order once its stream has room, with its own constants. -/
def Obligations.IntakeTurnsAndFrames : Prop := ∀ (s : State) (inst cam us : Nat) (f : FrameData) (u : AccessUnit),
  let inRefs := fun (t : State) (p : Nat) => let a := (s.part p).refBase; let n := 2 ^ 16 * (s.part p).refSize
    (n = 0 → t.mem = s.mem ∧ t.cores = s.cores) ∧
      (Takes s p a n → ∀ k, (∀ i, i < n → s.partAddr p (a + i) true ≠ .ok k) → mget t.mem k = mget s.mem k)
  (s.cycle < s.decodePeriods * (8 * 3200000) → exec .decodePeriod s = .next s) ∧
  (s.decodePeriods * (8 * 3200000) ≤ s.cycle → ∃ t, exec .decodePeriod s = .next t ∧ t.decodePeriods = s.decodePeriods + 1 ∧
    ∀ c x, x = min (s.camera c).credit 0 + ((8000 * (s.camera c).budget / 1024 : Nat) : Int) →
      t.camera c = if (s.camera c).running = true then { s.camera c with credit := x } else s.camera c) ∧
  (∀ l r : List (Nat × Camera), l = s.cameras.filter (fun e => e.2.state == 1 && e.2.inst == inst && e.2.units != [] && !e.2.blocked) →
    r = (if l.any (fun e => decide (0 < e.2.credit)) = true then l.filter (fun e => decide (0 < e.2.credit)) else l) →
    s.nextCamera inst = ((r.find? (fun e => decide ((s.decoder inst).last < e.1))).or r.head?).map (·.1)) ∧
  (∀ key, (s.decoder inst).serving = none → s.nextCamera inst = some cam → (s.camera cam).skipToKey = false →
    ∃ t, exec (.decodeTurnStart inst (.ok key)) s = .next t ∧
    (t.decoder inst).serving = some cam ∧ (t.decoder inst).since = s.cycle ∧ (t.decoder inst).last = cam ∧ (t.decoder inst).void = false ∧
    t.cameras = s.cameras ∧ inRefs t (s.camera cam).part) ∧
  (∀ key, (s.decoder inst).serving = none → s.nextCamera inst = some cam → (s.camera cam).skipToKey = false ∨ key = true →
    ∃ t, exec (.decodeTurnStart inst (.unsupported us key)) s = .next t ∧
    (t.decoder inst).serving = some cam ∧ (t.decoder inst).void = true ∧ (t.camera cam).state = 2 ∧ (t.camera cam).units = []) ∧
  (∀ sl r, (s.decoder inst).serving = none → s.nextCamera inst = some cam → (s.camera cam).skipToKey = true → sl = .ok false ∨ sl = .unsupported us false →
    (s.camera cam).units = u :: r → ∃ t, exec (.decodeTurnStart inst sl) s = .next t ∧ t = { s with cameras := t.cameras } ∧
      t.camera cam = { s.camera cam with units := r, skipped := (s.camera cam).skipped + u.len }) ∧
  ((s.decoder inst).serving = none → s.nextCamera inst = some cam → (s.camera cam).skipToKey = true → ∃ t, exec (.decodeTurnStart inst (.ok true)) s = .next t ∧
    (t.decoder inst).serving = some cam ∧ t.camera cam = { s.camera cam with skipToKey := false, skipped := 0 } ∧
    ((s.part (s.camera cam).part).refSize = 0 → t.mem = (if 0 < (s.camera cam).skipped then
      s.postEvent (some (s.camera cam).part) 4 cam (s.camera cam).skipped 0 else s).mem)) ∧
  ((s.decoder inst).serving = some cam → s.cycle < (s.decoder inst).since + 250 * 3200 → exec (.decodeQuantumExpiry inst) s = .next s) ∧
  ((s.decoder inst).serving = some cam → (s.decoder inst).since + 250 * 3200 ≤ s.cycle → ∃ t, exec (.decodeQuantumExpiry inst) s = .next t ∧
    (t.decoder inst).expired = true ∧ (t.decoder inst).serving = some cam ∧ t.cameras = s.cameras) ∧
  ((s.decoder inst).serving = some cam →
    (∃ t, exec (.decodeTurnEnd inst us .sliceOnly) s = .next t ∧ (t.decoder inst).serving = none ∧
      t.camera cam = { s.camera cam with credit := max ((s.camera cam).credit - us) (-(2 : Int) ^ 31) } ∧
      inRefs t (s.camera cam).part) ∧
    (∀ r, (s.camera cam).running = true → (s.camera cam).units = u :: r → (s.decoder inst).void = false →
      ∃ t, exec (.decodeTurnEnd inst us .accessUnit) s = .next t ∧ (t.decoder inst).serving = none ∧
      t.camera cam = { s.camera cam with
        credit := max ((s.camera cam).credit - us) (-(2 : Int) ^ 31)
        units := r
        decoded := (s.camera cam).decoded ++ [u] } ∧
      inRefs t (s.camera cam).part) ∧
    ((s.decoder inst).void = true → ∃ t, exec (.decodeTurnEnd inst us .accessUnit) s = .next t ∧ (t.decoder inst).serving = none ∧
      t.camera cam = { s.camera cam with credit := max ((s.camera cam).credit - us) (-(2 : Int) ^ 31) } ∧ inRefs t (s.camera cam).part)) ∧
  ((s.discardUnits cam).camera cam = { s.camera cam with units := [], decoded := [], skipped := 0 } ∧
    ((s.decoder inst).serving = some cam → thas s.decoders inst = true → ((s.discardUnits cam).decoder inst).void = true)) ∧
  (∀ c : Camera, (∀ v, c.nextShown = some v → v ∈ c.decoded ∧ ∀ w, w ∈ c.decoded ∨ w ∈ c.units → v.pts.toNat ≤ w.pts.toNat) ∧
    (c.nextShown = none ↔ c.decoded = [] ∨ ∃ v ∈ c.units, ∀ w ∈ c.decoded, v.pts.toNat < w.pts.toNat)) ∧
  (∀ b W H BW BH pitch o1 o2 o3 o4 n c addr late corrupt ofmt, c = s.camera cam → c.running = true → f.blocks.all blockOk = true → c.nextShown = some u →
    b = (if f.bits = 8 then 1 else 2) → W = f.width + f.width % 2 → H = f.height + f.height % 2 → BW = (W + 7) / 8 → BH = (H + 7) / 8 →
    pitch = 256 * ((W * b + 255) / 256) → o1 = up256 (256 + pitch * H) → o2 = up256 (o1 + pitch * (H / 2)) → o3 = up256 (o2 + 4 * (BW * BH)) →
    o4 = up256 (o3 + 2 * (BW * BH)) → ofmt = BitVec.ofNat 2 c.ofmt → n = o4 + (if c.conv then 256 * typeWidth (ofmtType ofmt) * (BW * BH) else 0) →
    addr = c.fbase + c.slotSize * 4096 * (c.frame % c.nslot) → late = decide (u.arrived + c.lat * 3200000 < s.cycle) →
    corrupt = (f.damaged || (c.corrupt && !f.key)) →
    (c.frameOk f = true ↔ f.width ≤ c.maxw ∧ f.height ≤ c.maxh ∧ (f.bits = 8 ∨ f.bits = 10)) ∧
    (c.frameOk f = false → c.skipToKey = false ∨ f.key = true → ∃ t, exec (.framePublish cam f) s = .next t ∧ (t.camera cam).state = 2 ∧ (t.camera cam).units = [] ∧
      (t.camera cam).frame = c.frame) ∧
    (c.skipToKey = true → f.key = false → ∃ t, exec (.framePublish cam f) s = .next t ∧ t.mem = s.mem ∧
      t.camera cam = { c with skipped := c.skipped + u.len, decoded := c.decoded.erase u }) ∧
    (c.frameOk f = true → c.skipToKey = false ∨ f.key = true → s.slotHeld cam = true → ∃ t, exec (.framePublish cam f) s = .next t ∧
      t.camera cam = { c with blocked := true } ∧ t.mem = s.mem) ∧
    (c.frameOk f = true → c.skipToKey = false → s.slotHeld cam = false → ∃ t, exec (.framePublish cam f) s = .next t ∧
      (t.camera cam).frame = (c.frame + 1) % 2 ^ 32 ∧ (t.camera cam).disc = false ∧ (t.camera cam).decoded = c.decoded.erase u ∧
      (t.camera cam).corrupt = corrupt ∧
      (t.camera cam).toSubmit = (if c.auto = true then c.toSubmit ++ [(c.frame % c.nslot, c.frame, addr)] else c.toSubmit) ∧
      (Takes s c.part addr n → 0 < f.width → 0 < f.height →
        (∀ k, (∀ i, i < n → s.partAddr c.part (addr + i) true ≠ .ok k) → mget t.mem k = mget s.mem k) ∧
        (∀ y, y < H → Holds s t c.part (addr + 256 + pitch * y) ((List.range W).flatMap (fun x =>
          bytesOfNat b (f.luma.getD (Nat.min y (f.height - 1) * f.width + Nat.min x (f.width - 1)) 0 % 2 ^ f.bits)))) ∧
        (∀ y, y < H / 2 → Holds s t c.part (addr + o1 + pitch * y) ((List.range W).flatMap (fun x =>
          bytesOfNat b (f.chroma.getD (2 * (y * (W / 2) + x / 2) + x % 2) 0 % 2 ^ f.bits)))) ∧
        (∀ i k, i < BW * BH → k = f.blocks.getD i { resid := .intra, vec := none } → Holds s t c.part (addr + o2 + 4 * i) (bytesOfNat 4 (vecEntry f.key k)) ∧
          Holds s t c.part (addr + o3 + 2 * i) (bytesOfNat 2 (resEntry f.bits k))) ∧
        (c.conv = true → Holds s t c.part (addr + o4) (convertFrame (tget CcSet.reset (s.part c.part).ccsets c.cset) ofmt f).1) ∧
        Holds s t c.part addr (bytesOfNat 8 ((if c.conv then 2 ^ 53 else 0) + (if c.disc then 2 ^ 52 else 0) + (if f.key then 2 ^ 51 else 0) +
            (if corrupt then 2 ^ 50 else 0) + (if late then 2 ^ 49 else 0) + 2 ^ 48 + c.frame % c.nslot * 2 ^ 40 + cam * 2 ^ 32 + c.frame) ++
          bytesOfNat 8 u.pts.toNat ++ bytesOfNat 8 (f.bits * 2 ^ 32 + H * 2 ^ 16 + W) ++ bytesOfNat 8 ((addr + 256) % 2 ^ 56) ++
          bytesOfNat 8 ((addr + o1) % 2 ^ 56) ++ bytesOfNat 8 ((addr + o2) % 2 ^ 56) ++ bytesOfNat 8 ((addr + o3) % 2 ^ 56) ++
          bytesOfNat 8 (if c.conv then (addr + o4) % 2 ^ 56 else 0))))) ∧
  (∀ (key : Bool) (v : Option MotionVec) (d : List Int), vecEntry key { resid := .intra, vec := v } = 0x80008000 ∧
    resEntry f.bits { resid := .intra, vec := v } = 65535 ∧ resEntry f.bits { resid := .skipped, vec := v } = 0 ∧
    vecEntry true { resid := .samples d, vec := v } = 0x80008000 ∧ vecEntry key { resid := .samples d, vec := none } = 0x80008000 ∧
    resEntry 8 { resid := .samples d, vec := v } = Nat.min 65535 ((d.map (fun x => (x * x).natAbs)).sum / 64) ∧
    resEntry 10 { resid := .samples d, vec := v } = Nat.min 65535 ((d.map (fun x => (Int.tdiv x 4 * Int.tdiv x 4).natAbs)).sum / 64)) ∧
  (∀ (v : MotionVec) (d : List Int) (k : BlockData), k = { resid := .skipped, vec := some v } ∨ k = { resid := .samples d, vec := some v } →
    (v.away = false → vecEntry false k = (BitVec.ofInt 16 v.y).toNat * 2 ^ 16 + (BitVec.ofInt 16 v.x).toNat) ∧
    (v.away = true → vecEntry false k = (BitVec.ofInt 16 (-v.y)).toNat * 2 ^ 16 + (BitVec.ofInt 16 (-v.x)).toNat)) ∧
  ((s.camera cam).blocked = true → s.slotHeld cam = false → ∃ t, exec (.intakeSlotFreed cam) s = .next t ∧ (t.camera cam).blocked = false ∧
    t.mem = s.mem) ∧
  (∀ slot frame addr r c q v kc id, c = s.camera cam → c.toSubmit = (slot, frame, addr) :: r → q = s.stream c.tstream → kc = c.kbase + 128 * slot →
    id = (s.part c.part).nextTask → v = s.partWrite c.part (kc + 0x70) (bytesOfNat 8 frame ++ bytesOfNat 8 addr) →
    (q.en = false ∨ q.part ≠ c.part ∨ s.streamFull c.tstream = true → exec (.autoSubmit cam) s = .next s) ∧
    (q.en = true → q.part = c.part → s.streamFull c.tstream = false → ∃ t x, exec (.autoSubmit cam) s = .next t ∧ (t.camera cam).toSubmit = r ∧
      (s.heldBy c.tstream < 32 → t.mem = v.mem) ∧ t.task? c.part id = some x ∧ x.stream = c.tstream ∧ x.order = (s.part c.part).nextOrder ∧
      (∀ k, (v.readRec c.part c.rcd (some kc)).2.2 = some k → x.phase = .failed ∧ x.kind = 11 ∧ x.detail = k) ∧
      ((v.readRec c.part c.rcd (some kc)).2.2 = none → x.recd = (v.readRec c.part c.rcd (some kc)).2.1 ∧ x.recd.kconst = kc ∧
        (x.recd.preds = [] → x.phase = .waiting))))

/-! The firmware, resets and what every step keeps. -/

/-- R166, R252, R259, R280, R296, R298, R306, R310, R316, R318, R339 and R341 to R345 (with R347, R350, R352, R354): the commands that configure the
device complete with status OK, each having written its parameters where its rule puts them, a ring's header with zeros; a function that names
another partition, or gives a command of the physical one, is denied, a device that is not ready answers NOTREADY, and either changes nothing. CAMERA_CFG with EN 0
turns a stream off and reports the bytes it discards; with EN 1 it starts one that is off, which waits where slot 0 is held, and recovers one in error,
whose FRAME goes on; it answers the stream's credit, as CAMERA_AU does (log entry 51, the model's choice). POWER_CFG sets OFFSET to 0 as it switches
undervolting, and keeps the margin limit. The
rings' empty start is log entry 13, a part's reset values are log entry 7, the forms of parameters log entry 12, MAXLEVEL's effect log entry 72, the
conditions of a window log entries 59 and 66. -/
def Obligations.ConfigurationCommands : Prop := ∀ (s : State) (fn part n k : Nat) (b : BitVec 64),
  let stays := fun (t : State) => t = { s with mailboxes := t.mailboxes, goOrder := t.goOrder, outputs := t.outputs }
  let answers := fun (i : Instr) (st : Nat) => ∃ t, exec i s = .next t ∧ Answered s t fn st [] ∧ stays t
  let zeroed := fun (v t : State) (p base : Nat) => Takes v p base 64 → Holds v t p base (List.replicate 64 0)
  let cores := fun (t : State) => ∀ c, t.core c = { s.core c with ebuf := (t.core c).ebuf }
  (∀ (pc : PartParams) (a₁ a₂ a₃ a₄ a₅ : BitVec 64) (cam : CameraParams) (cc : CcParams) (ck : ClkParams) (on : Bool) (router : BitVec 9)
      (nonce : BitVec 256) (rg : Option (BitVec 64 × BitVec 64)) (op : BitVec 16),
    (∀ x ∈ [(Instr.query fn, 0x01, true), (.partCfg fn pc, 0x02, false), (.streamCfg fn n b a₁ a₂, 0x03, false), (.submit fn n b, 0x04, false),
        (.taskEnd fn n, 0x05, false), (.faultService fn n, 0x06, false), (.shootdown fn part rg, 0x07, false), (.fmtwin fn n ⟨b, a₅⟩ a₁ a₂ a₃ a₄, 0x09, false),
        (.cameraCfg fn n cam, 0x0A, false), (.cameraAu fn n b k a₁, 0x0B, false), (.ccset fn part n cc, 0x0C, false), (.dict fn part n b a₁ a₂ a₃, 0x0D, false),
        (.eventRing fn part b k, 0x0E, false), (.counterRing fn part b k, 0x0F, false), (.peerJoin fn part n k, 0x10, false), (.clkCfg fn ck, 0x11, false),
        (.powerCfg fn n on k, 0x12, false), (.patchLoad fn b, 0x13, false), (.configWrite fn b, 0x14, false), (.attest fn nonce b, 0x15, true),
        (.linkQuery fn router k, 0x16, false), (.migrate fn part b a₁, 0x08, false)],
      ((s.part part).migration = none ∨ x.2.1 ≠ 0x08) → (s.mailbox fn).busy = true → (s.mailbox fn).op = x.2.1 → s.goOrder.head? = some fn →
        s.bootState ≠ 6 → x.2.2 = false ∨ s.bootState ≠ 7 → answers x.1 8) ∧
    (op = 0 ∨ 0x17 ≤ op.toNat → (s.mailbox fn).busy = true → (s.mailbox fn).op = op.toNat → s.goOrder.head? = some fn → s.bootState ≠ 6 →
      answers (.unsupportedCommand fn op) 8) ∧
    (∀ x ∈ [(Instr.partCfg fn pc, 0x02), (.fmtwin fn n ⟨b, a₅⟩ a₁ a₂ a₃ a₄, 0x09), (.peerJoin fn part n k, 0x10), (.clkCfg fn ck, 0x11),
        (.powerCfg fn n on k, 0x12), (.patchLoad fn b, 0x13), (.configWrite fn b, 0x14), (.linkQuery fn router k, 0x16)],
      Posted s fn x.2 false → fn ≠ 16 → answers x.1 3) ∧
    (∀ x ∈ [(Instr.shootdown fn part rg, 0x07), (.migrate fn part b a₁, 0x08), (.ccset fn part n cc, 0x0C), (.dict fn part n b a₁ a₂ a₃, 0x0D),
        (.eventRing fn part b k, 0x0E), (.counterRing fn part b k, 0x0F)],
      (s.part part).migration = none ∨ x.2 ≠ 0x08 → Posted s fn x.2 false → fn ≠ 16 → part ≠ fn → answers x.1 3) ∧
    (Posted s fn 0x03 false → s.streamDenied fn n = true → answers (.streamCfg fn n b a₁ a₂) 3) ∧
    (Posted s fn 0x04 false → fn ≠ 16 → n < 4096 → (s.stream n).part ≠ fn → answers (.submit fn n b) 3) ∧
    (Posted s fn 0x0A false → fn ≠ 16 → ((s.camera n).withRegs cam).part ≠ fn ∨ (s.camera n).state ≠ 0 ∧ (s.camera n).part ≠ fn →
      answers (.cameraCfg fn n cam) 3) ∧
    (Posted s fn 0x0B false → fn ≠ 16 → (s.camera n).part ≠ fn → answers (.cameraAu fn n b k a₁) 3)) ∧
  (∀ c v, c.part = part → Posted s 16 0x02 false → partParamsOk c = true → s.hasParts = true → s.spillSum part 4096 ≤ c.spillSize →
    s.refSum part 256 ≤ c.refSize → v = s.modPart part (fun p => p.configured c) →
    (c.spillSize = 0 ∨ v.pagesWritable part c.spillBase.toNat (128 * c.spillSize) = true) →
    (c.refSize = 0 ∨ v.pagesWritable part c.refBase.toNat (2 ^ 16 * c.refSize) = true) →
    ∃ t, exec (.partCfg 16 c) s = .next t ∧ Done s t 16 ∧ (∀ p, p ≠ part → t.part p = s.part p) ∧
      (t.part part).quads = c.quads ∧ (t.part part).ptbase = c.ptbase.toNat ∧ (t.part part).lease = c.lease.toNat ∧
      (t.part part).saveBase = c.saveBase.toNat ∧ (t.part part).saveSize = c.saveSize.toNat ∧ (t.part part).capUs = c.capUs ∧
      (t.part part).frBase = c.frBase.toNat ∧ (t.part part).frN = c.frN ∧ (t.part part).frOn = true ∧ (t.part part).frProd = 0 ∧
      (t.part part).frCons = 0 ∧ (t.part part).spillBase = c.spillBase.toNat ∧ (t.part part).spillSize = c.spillSize ∧
      (t.part part).refBase = c.refBase.toNat ∧ (t.part part).refSize = c.refSize ∧ zeroed v t part c.frBase.toNat ∧ cores t) ∧
  (∀ sctl crbase crsize : BitVec 64, Posted s fn 0x03 false → s.streamDenied fn n = false → streamArgsOk n sctl.toNat crbase.toNat crsize.toNat = true →
    ((s.part (actsFor fn (s.stream n).part)).spillSize < s.spillSum (actsFor fn (s.stream n).part) n + nfield sctl.toNat 32 16 →
      answers (.streamCfg fn n sctl crbase crsize) 5) ∧
    (s.spillSum (actsFor fn (s.stream n).part) n + nfield sctl.toNat 32 16 ≤ (s.part (actsFor fn (s.stream n).part)).spillSize →
      (∀ t ∈ s.tasks, t.recordFault = none) → ∃ t, exec (.streamCfg fn n sctl crbase crsize) s = .next t ∧ Done s t fn ∧
        (t.stream n).en = sctl.getLsbD 0 ∧ (t.stream n).weight = sctl.toNat / 2 ^ 8 % 2 ^ 8 ∧ (t.stream n).age = sctl.toNat / 2 ^ 16 % 2 ^ 16 ∧
        (t.stream n).spill = sctl.toNat / 2 ^ 32 % 2 ^ 16 ∧ (t.stream n).crbase = crbase.toNat ∧ (t.stream n).l2ent = crsize.toNat ∧
        (t.stream n).prod = (s.stream n).prod ∧ (t.stream n).part = actsFor fn (s.stream n).part)) ∧
  (∀ (ctl vb vl db ab st : BitVec 64) (v : Window), Posted s 16 0x09 false → n < 16 → nfield ctl.toNat 32 31 = 0 → nfield ctl.toNat 0 24 = 0 →
    v = { en := ctl.getLsbD 63, form := ctl.toNat / 2 ^ 28 % 16, cfmt := ctl.extractLsb' 24 4, vbase := vb.toNat, vlim := vl.toNat, data := db.toNat, aux := ab.toNat, satcnt := st.toNat } →
    s.windowOk n v = true → vb.toNat < 2 ^ 52 → vl.toNat < 2 ^ 52 → db.toNat < 2 ^ 52 → ab.toNat < 2 ^ 52 → vb.toNat % 2 ^ 16 = 0 →
    vl.toNat % 2 ^ 16 = 0 → db.toNat % 64 = 0 → ab.toNat % 16 = 0 → st.toNat < 2 ^ 32 →
    ∃ t, exec (.fmtwin 16 n ⟨ctl, st⟩ vb vl db ab) s = .next t ∧ Done s t 16 ∧ t.window n = v ∧ (∀ j, j ≠ n → t.window j = s.window j) ∧ t.mem = s.mem ∧
      t.cores = s.cores ∧ ∀ e ∈ t.viewLines, e ∈ s.viewLines ∧ ((s.window n).vlim ≤ e.1 * 128 ∨ e.1 * 128 + 128 ≤ (s.window n).vbase)) ∧
  (∀ p c, Posted s fn 0x0A false → c = (s.camera n).withRegs p → fn = 16 ∨ c.part = fn ∧ ((s.camera n).state = 0 ∨ (s.camera n).part = fn) → n < 256 →
    cameraReservedOk p = true → c.limitsOk = true → s.cameraFits n c = true → c.en = true →
    ((s.part c.part).refSize < s.refSum c.part n + c.refUnits → answers (.cameraCfg fn n p) 5) ∧
    (s.refSum c.part n + c.refUnits ≤ (s.part c.part).refSize → (s.camera n).state = 0 → ∃ t, exec (.cameraCfg fn n p) s = .next t ∧ Answered s t fn 0 [0] ∧
      (t.camera n).state = 1 ∧ (t.camera n).frame = 0 ∧ (t.camera n).disc = true ∧ (t.camera n).units = [] ∧ (t.camera n).credit = 0 ∧
      (t.camera n).blocked = (s.partNat c.part p.fbase.toNat 8 / 2 ^ 48 % 2 == 1) ∧
      (t.camera n).maxw = p.dim.toNat % 2 ^ 16 ∧ (t.camera n).maxh = p.dim.toNat / 2 ^ 16 % 2 ^ 16 ∧ (t.camera n).fbase = p.fbase.toNat ∧
      (t.camera n).budget = p.ctl.toNat / 2 ^ 16 % 2 ^ 11 ∧ (t.camera n).ingress = p.ingress) ∧
    (s.refSum c.part n + c.refUnits ≤ (s.part c.part).refSize → (s.camera n).state = 2 → ∃ t, exec (.cameraCfg fn n p) s = .next t ∧
      Answered s t fn 0 [0] ∧ t.mem = (s.discardUnits n).mem ∧
      t.camera n = { c with
        state := 1
        disc := true
        corrupt := false
        skipToKey := true
        credit := 0
        units := []
        decoded := []
        skipped := 0
        blocked := (s.discardUnits n).partNat c.part (c.fbase + c.slotSize * 4096 * (c.frame % c.nslot)) 8 / 2 ^ 48 % 2 == 1 }) ∧
    (s.refSum c.part n + c.refUnits ≤ (s.part c.part).refSize → (s.camera n).state = 1 → ∃ t, exec (.cameraCfg fn n p) s = .next t ∧
      Answered s t fn 0 [(BitVec.ofInt 32 (s.camera n).credit).toNat] ∧ t.mem = s.mem ∧ t.camera n = { c with blocked := (t.camera n).blocked })) ∧
  (∀ p c, Posted s fn 0x0A false → c = (s.camera n).withRegs p → fn = 16 ∨ c.part = fn ∧ ((s.camera n).state = 0 ∨ (s.camera n).part = fn) → n < 256 →
    cameraReservedOk p = true → c.limitsOk = true → s.cameraFits n c = true → c.en = false → ∃ t, exec (.cameraCfg fn n p) s = .next t ∧
      Answered s t fn 0 [(BitVec.ofInt 32 (s.camera n).credit).toNat] ∧ t.mem = (s.discardUnits n).mem ∧
      t.camera n = { c with
        state := 0
        units := []
        decoded := []
        skipped := 0 }) ∧
  ((s.camera n).held + (s.camera n).skipped = 0 → (s.discardUnits n).mem = s.mem) ∧
  ((s.camera n).held + (s.camera n).skipped ≠ 0 →
    (s.discardUnits n).mem = (s.postEvent (some (s.camera n).part) 4 n ((s.camera n).held + (s.camera n).skipped) 0).mem) ∧
  (∀ i p c, Posted s fn 0x0C false → fn = 16 ∨ fn = part → part < 16 → i < 16 → ccParams p = some c →
    ∃ t, exec (.ccset fn part i p) s = .next t ∧ Done s t fn ∧ tget CcSet.reset (t.part part).ccsets i = c ∧ t.mem = s.mem) ∧
  (∀ ctl node edge nedge : BitVec 64, Posted s fn 0x0D false → fn = 16 ∨ fn = part → part < 16 → n < 4 → ctl.toNat ≤ 262144 → node.toNat < 2 ^ 56 →
    node.toNat % 8 = 0 → edge.toNat < 2 ^ 56 → edge.toNat % 4 = 0 → nedge.toNat < 2 ^ 23 → ∃ t, exec (.dict fn part n ctl node edge nedge) s = .next t ∧
      Done s t fn ∧ tget Dict.reset (t.part part).dicts n = { nnodes := ctl.toNat, node := node.toNat, edge := edge.toNat, nedges := nedge.toNat }) ∧
  (∀ v, Posted s fn 0x0E false → fn = 16 ∨ fn = part → part < 16 → 6 ≤ k → k ≤ 16 → b.toNat < 2 ^ 56 →
    v = s.modPart part (fun p => { p with events := { on := true, base := b.toNat, n := k } }) → ∃ t, exec (.eventRing fn part b k) s = .next t ∧
    Done s t fn ∧ (t.part part).events = { on := true, base := b.toNat, n := k } ∧ zeroed v t part b.toNat ∧ cores t) ∧
  (Posted s 16 0x0E false → 16 ≤ part → 6 ≤ k → k ≤ 16 → b.toNat < 2 ^ 56 → ∃ t, exec (.eventRing 16 part b k) s = .next t ∧ Done s t 16 ∧
    t.devEvents = { on := true, base := b.toNat, n := k } ∧ t.parts = s.parts ∧ cores t) ∧
  (∀ v, Posted s fn 0x0F false → fn = 16 ∨ fn = part → part < 16 → 6 ≤ k → k ≤ 16 → b.toNat < 2 ^ 56 →
    v = s.modPart part (fun p => { p with counters := { on := true, base := b.toNat, n := k } }) → ∃ t, exec (.counterRing fn part b k) s = .next t ∧
    Done s t fn ∧ (t.part part).counters = { on := true, base := b.toNat, n := k } ∧ zeroed v t part b.toNat ∧ cores t) ∧
  (Posted s 16 0x10 false → part < 16 → n < 16 → k < 16 → ∃ t, exec (.peerJoin 16 part n k) s = .next t ∧ Done s t 16 ∧
    (n, k) ∈ (t.part part).joined ∧ (∀ j, (n, j) ∈ (t.part part).joined → j = k) ∧
    (t.isJoined part n = true ↔ (n, k, part) ∈ s.peerJoins) ∧ ∀ m, m ≠ n → t.isJoined part m = s.isJoined part m) ∧
  (∀ c, Posted s 16 0x11 false → s.clkOk c = true → ∃ t, exec (.clkCfg 16 c) s = .next t ∧ Done s t 16 ∧
    (∀ i, i < 4 → (t.part c.part).floors.toList.getD i 0 = c.floors.getD i 1 ∧ (t.part c.part).defaults.toList.getD i 0 = c.defaults.getD i 1) ∧
    (∀ i, i < 7 → t.pacing.toList.getD i 0 = BitVec.ofNat 16 (c.pacing.getD i 0)) ∧
    (∀ r, r < 16 → (t.rail r).maxLevel = c.maxLevel.getD r 7 ∧ (t.rail r).level = Nat.min (s.rail r).level (c.maxLevel.getD r 7)) ∧ t.cores = s.cores ∧
    t.mem = s.mem) ∧
  (∀ on, Posted s 16 0x12 false → n < 16 → k < 2 ^ 16 → ∃ t, exec (.powerCfg 16 n on k) s = .next t ∧ Done s t 16 ∧ (t.rail n).undervolt = on ∧
    (t.rail n).celim = k ∧ (t.rail n).margin = (s.rail n).margin ∧ t.cores = s.cores ∧ t.mem = s.mem ∧
    ((s.rail n).undervolt ≠ on → (t.rail n).offset = 0 ∧ (t.rail n).goodRun = 0) ∧
    ((s.rail n).undervolt = on → (t.rail n).offset = (s.rail n).offset) ∧ ∀ m, m ≠ n → t.rail m = s.rail m)

/-- R252, R274, R277, R280, R281, R294, R297, R299, R309, R339, R342 to R344, R356 to R358 and R362: the commands that ask or act. QUERY and LINK_QUERY
return what the device holds; SUBMIT accepts a record and returns its id; TASK_END ends a task with kind 12, of a gang that runs as a fatal error does,
and answers when it has ended; FAULT_SERVICE ends a wait for service; SHOOTDOWN drops a partition's translations; MIGRATE begins a migration and
answers later; CAMERA_AU adds a unit that its buffer has room for, and answers the stream's credit (R330; log entry 51, the
model's choice); an image or a record with a good signature and version is stored and changes
nothing before a reset; ATTEST writes its report; an OP without a command is UNSUPPORTED. How functions name tasks and ports is log entry 12, what
verifies a signature and the places of an image's, a record's and the report's fields log entry 8, what a window's page is log entry 49. -/
def Obligations.ServiceCommands : Prop := ∀ (s : State) (fn part id n : Nat) (b c : BitVec 64) (router : BitVec 9) (nonce : BitVec 256),
  (Posted s fn 0x01 true → ∃ t, exec (.query fn) s = .next t ∧ Answered s t fn 0 [s.patchver.toNat * 2 ^ 32 + s.romver.toNat, s.wdrawn 0, s.wdrawn 1,
    s.wdrawn 2, s.wdrawn 3, s.bootState, if fn = 16 then Config.pfQuads.toNat else (s.part fn).quads.toNat] ∧ t.cores = s.cores ∧ t.mem = s.mem) ∧
  (Posted s 16 0x16 false → n ≤ 5 → router.toNat < 384 → ∃ t, exec (.linkQuery 16 router n) s = .next t ∧ t.links = s.links ∧
    Answered s t 16 0 [(s.link router.toNat n).errors * 2 ^ 32 + (s.link router.toNat n).corrected, if (s.link router.toNat n).marked then 1 else 0]) ∧
  (∀ op : BitVec 16, op = 0 ∨ 0x17 ≤ op.toNat → Posted s fn op.toNat false → ∃ t, exec (.unsupportedCommand fn op) s = .next t ∧
    Answered s t fn 4 [] ∧ t.cores = s.cores ∧ t.tasks = s.tasks ∧ t.mem = s.mem) ∧
  (∀ p id, Posted s fn 0x04 false → n < 4096 → p = (s.stream n).part → id = (s.part p).nextTask → fn = 16 ∨ p = fn →
    ((s.stream n).en = true → s.streamFull n = false → ∃ t x, exec (.submit fn n b) s = .next t ∧ Answered s t fn 0 [id] ∧
      t.task? p id = some x ∧ x.stream = n ∧ x.order = (s.part p).nextOrder ∧ (t.part p).nextOrder = (s.part p).nextOrder + 1 ∧
      (∀ k, (s.readRec p b.toNat none).2.2 = some k → x.phase = .failed ∧ x.kind = 11 ∧ x.detail = k) ∧
      ((s.readRec p b.toNat none).2.2 = none → x.recd = (s.readRec p b.toNat none).2.1 ∧ (x.recd.preds = [] → x.phase = .waiting))) ∧
    ((s.stream n).en = true → s.streamFull n = true → ∃ t, exec (.submit fn n b) s = .next t ∧ Answered s t fn 5 [] ∧ t.tasks = s.tasks) ∧
    ((s.stream n).en = false → ∃ t, exec (.submit fn n b) s = .next t ∧ Answered s t fn 2 [] ∧ t.tasks = s.tasks)) ∧
  (Posted s fn 0x05 false → taskName fn n = (part, id) →
    (s.tstat part id = 0 → ∃ t, exec (.taskEnd fn n) s = .next t ∧ Answered s t fn 2 [] ∧ t.tasks = s.tasks) ∧
    (∀ x, s.task? part id = some x → s.tstat part id ≠ 0 →
      (x.phase = .running → ∃ t, exec (.taskEnd fn n) s = .next t ∧ t = { s with tasks := t.tasks } ∧
        t.task? part id = some { x with fatal := x.fatal.or (some (12, 0)) }) ∧
      (x.ended = true → ∃ t, exec (.taskEnd fn n) s = .next t ∧ Answered s t fn 0 [] ∧ t.tasks = s.tasks) ∧
      (x.phase ≠ .running → x.ended = false → ∃ t y, exec (.taskEnd fn n) s = .next t ∧ Answered s t fn 0 [] ∧ t.task? part id = some y ∧
        y.phase = .failed ∧ y.kind = 12 ∧ y.recordDue = true ∧ t.mem = s.mem))) ∧
  (∀ x, Posted s fn 0x06 false → taskName fn n = (part, id) → s.task? part id = some x → ∃ t y, exec (.faultService fn n) s = .next t ∧
    Answered s t fn 0 [] ∧ t.task? part id = some y ∧ y = { x with awaits := if x.awaits = .service then .nothing else x.awaits }) ∧
  (Posted s fn 0x07 false → fn = 16 ∨ fn = part → part < 16 → ∃ t, exec (.shootdown fn part none) s = .next t ∧ Answered s t fn 0 [] ∧
    (∀ k, (s.core k).resident = true → (s.core k).part = part → (t.core k).tlb = []) ∧ t.mem = s.mem) ∧
  (Posted s fn 0x07 false → fn = 16 ∨ fn = part → part < 16 → ∃ t, exec (.shootdown fn part (some (b, c))) s = .next t ∧ Answered s t fn 0 [] ∧
    (∀ k, (s.core k).resident = true → (s.core k).part = part →
      ∀ e ∈ (t.core k).tlb, c.toNat ≤ e.vpage * 2 ^ 16 ∨ (e.vpage + e.units) * 2 ^ 16 ≤ b.toNat)) ∧
  (∀ l a, Posted s fn 0x08 false → fn = 16 ∨ fn = part → part < 16 → (s.part part).migration = none → s.leafEntry part b.toNat = some (l, a) →
    (b.toNat < 2 ^ 56 → b.toNat % (l.units * 2 ^ 16) = 0 → c.toNat % (l.units * 2 ^ 16) = 0 → s.pageOk part c.toNat l.units = true →
      migrationWay l.pa c.toNat = true → s.inWindow l.pa (l.units * 2 ^ 16) = false → s.inWindow c.toNat (l.units * 2 ^ 16) = false →
      ∃ t m, exec (.migrate fn part b c) s = .next t ∧ (t.part part).migration = some m ∧ m.src = l.pa ∧ m.dst = c.toNat ∧ m.copied = 0 ∧
        m.lines = l.units * 512 ∧ m.fn = fn ∧ (t.mailbox fn).busy = true ∧ t.goOrder = s.goOrder.filter (· != fn) ∧ t.mem = s.mem) ∧
    (s.inWindow l.pa (l.units * 2 ^ 16) = true → ∃ t, exec (.migrate fn part b c) s = .next t ∧ Answered s t fn 2 [] ∧ t.parts = s.parts ∧
      t.mem = s.mem)) ∧
  (Posted s fn 0x0B false → fn = 16 ∨ (s.camera n).part = fn → n < 256 → (s.camera n).running = true →
    (∀ len, (s.camera n).held + len ≤ (s.camera n).ingress → ∃ t, exec (.cameraAu fn n b len c) s = .next t ∧
      Answered s t fn 0 [(BitVec.ofInt 32 (s.camera n).credit).toNat] ∧
      t.camera n = { s.camera n with units := (s.camera n).units ++ [{ len := len, pts := c, arrived := s.cycle }] }) ∧
    (∀ len, (s.camera n).ingress < (s.camera n).held + len → ∃ t, exec (.cameraAu fn n b len c) s = .next t ∧ Answered s t fn 1 [] ∧
      t.cameras = s.cameras)) ∧
  (∀ hdr img, Posted s 16 0x13 false → hdr = s.readPa b.toNat 128 → img = s.readPa b.toNat (Config.patchLen hdr) →
    (Config.signatureOk [] img = true → s.config.minpatch ≤ imageVersion img →
      ∃ t, exec (.patchLoad 16 b) s = .next t ∧ Answered s t 16 0 [] ∧ t.flashPatch = some img ∧ t.patchver = s.patchver ∧ t.patch = s.patch) ∧
    (Config.signatureOk [] img = true → imageVersion img < s.config.minpatch → ∃ t, exec (.patchLoad 16 b) s = .next t ∧
      Answered s t 16 7 [] ∧ t.flashPatch = s.flashPatch) ∧
    (Config.signatureOk [] img = false → ∃ t, exec (.patchLoad 16 b) s = .next t ∧ Answered s t 16 6 [] ∧ t.flashPatch = s.flashPatch)) ∧
  (∀ bs keys, Posted s 16 0x14 false → bs = s.readPa b.toNat Config.configLen → keys = (if s.config.bytes = [] then bs else s.config.bytes) →
    (Config.signatureOk keys bs = true → Config.configCounter bs = s.config.counter + 1 → ∃ t, exec (.configWrite 16 b) s = .next t ∧
      Answered s t 16 0 [] ∧ t.config = { s.config with counter := s.config.counter + 1, bytes := bs } ∧ t.regions = s.regions ∧ t.parts = s.parts) ∧
    (Config.signatureOk keys bs = true → Config.configCounter bs ≠ s.config.counter + 1 → ∃ t, exec (.configWrite 16 b) s = .next t ∧
      Answered s t 16 7 [] ∧ t.config = s.config) ∧
    (Config.signatureOk keys bs = false → ∃ t, exec (.configWrite 16 b) s = .next t ∧ Answered s t 16 6 [] ∧ t.config = s.config)) ∧
  (∀ rep all, Posted s fn 0x15 true → b.toNat < 2 ^ 50 → (∀ p, s.forward p = p) → rep = bytesOfNat 68 Config.serial.toNat ++ bytesOfNat 32 nonce.toNat ++
      bytesOfNat 48 Config.romDigest.toNat ++ sha384 s.patch ++ sha384 s.config.bytes ++
      bytesOfNat 8 s.config.counter ++ bytesOfNat 4 s.patchver.toNat → all = rep ++ Config.attestSignatures rep ++ Config.certificates →
    rep.length = 256 ∧ ∃ t, exec (.attest fn nonce b) s = .next t ∧ Answered s t fn 0 [] ∧ OnlyAt s t (2 ^ 51 + b.toNat) all.length ∧
      (∀ j, j < all.length → mget t.mem (2 ^ 51 + b.toNat + j) = all.getD j 0) ∧ ∀ k, t.core k = { s.core k with ebuf := (t.core k).ebuf })

/-- R26, R339, R355 to R357, R359 and R360: PERST# takes the device back to reset, with what the flash holds and with the memory that is not the
device's; what its own memory reads as then is log entry 2. Bring-up goes through the STATES one by one, each checking and applying what the rule gives
it, to STATE 6, or to STATE 7 with the code of what failed: 1 ROM, 2 flash, 3 patch, 4 HBM, 5 no placeable core; a withdrawn core is reported
(log entry 66 for the code where all four banks are faulty; log entries 8 and 74 for what the record, the image and the host give). A function-level
reset of a VF ends every task of its partition, and of the PF of all, with kind 12, completes a migration, and stops the cameras. -/
def Obligations.ResetsAndBringUp : Prop := ∀ (s : State) (b : BootReport) (fn : Nat),
  (∃ t, exec .perstAssertion s = .next t ∧ t = { State.reset with turns := s.turns, rr := s.rr, mem := t.mem, flashPatch := s.flashPatch, config := s.config, romver := s.romver, outputs := s.outputs } ∧
    ∀ k, mget t.mem k = if 2 ^ 49 ≤ k ∧ k < 2 ^ 52 then mget s.mem k else 0) ∧
  (s.bootState = 0 → ∃ t, exec (.resetRelease b) s = .next t ∧ t = { s with bootState := 1, bar2 := t.bar2 } ∧
    t.bar2 = if 30 ≤ b.bar2 ∧ b.bar2 ≤ 39 then b.bar2 else s.bar2) ∧
  (s.bootState = 1 → exec (.resetRelease b) s = .next (if b.romOk then { s with bootState := 2 } else { s with bootState := 7, failcode := 1 })) ∧
  (s.bootState = 2 → b.flashOk = false → exec (.resetRelease b) s = .next { s with bootState := 7, failcode := 2 }) ∧
  (s.bootState = 2 → b.flashOk = true → s.config.bytes = [] →
    exec (.resetRelease b) s = .next { s with bootState := 3, config := { s.config with valid := true } }) ∧
  (s.bootState = 2 → b.flashOk = true → s.config.bytes ≠ [] → ∃ t, exec (.resetRelease b) s = .next t ∧ t.bootState = 3 ∧ t.mem = s.mem ∧
    ((Config.signatureOk s.config.bytes s.config.bytes = false ∨ regionsOk (regionsOf s.config.bytes) = false) → t.parts = [] ∧ t.hasParts = false) ∧
    (Config.signatureOk s.config.bytes s.config.bytes = true → regionsOk (regionsOf s.config.bytes) = true → s.windowStorage = [] →
      t.regions = regionsOf s.config.bytes ∧ t.config.minpatch = Config.configMinPatch s.config.bytes ∧ t.hasParts = true ∧
      ∀ p, p < 16 → (t.part p).secure = (Config.configWorlds s.config.bytes).getLsbD p)) ∧
  (s.bootState = 3 → s.flashPatch = none → exec (.resetRelease b) s = .next { s with bootState := 4 }) ∧
  (∀ img, s.bootState = 3 → s.flashPatch = some img →
    (Config.signatureOk [] img = true → s.config.minpatch ≤ imageVersion img → exec (.resetRelease b) s =
      .next { s with bootState := 4, patch := img, patchver := BitVec.ofNat 32 (imageVersion img) }) ∧
    (Config.signatureOk [] img = false ∨ imageVersion img < s.config.minpatch →
      exec (.resetRelease b) s = .next { s with bootState := 7, failcode := 3 })) ∧
  (s.bootState = 4 → ∃ t, exec (.resetRelease b) s = .next t ∧
    (∀ c, c < 256 → ((t.core c).withdrawn = true ↔ (s.core c).withdrawn = true ∨ (∃ n, (c, n) ∈ b.withdrawn) ∨ (c, 0) ∈ b.bankmap) ∧
      (∀ m, (c, m) ∈ b.bankmap → (∀ m', (c, m') ∈ b.bankmap → m' = m) → (t.core c).bankmap = m)) ∧
    ((∃ c, c < 256 ∧ (t.core c).withdrawn = false) → t.bootState = 5 ∧ t.failcode = s.failcode) ∧
    ((∀ c, c < 256 → (t.core c).withdrawn = true) → t.bootState = 7 ∧ t.failcode = 5) ∧
    (∀ c n, b.bankmap = [] → b.withdrawn = [(c, n)] → c < 256 → t.mem = (s.postEvent none 7 c n 0).mem)) ∧
  (s.bootState = 5 → exec (.resetRelease b) s = .next (if b.hbmOk then { s with bootState := 6 } else { s with bootState := 7, failcode := 4 })) ∧
  (6 ≤ s.bootState → exec (.resetRelease b) s = .next s) ∧
  (∀ q, q < 16 → fn = q ∨ fn = 16 → ∃ t, exec (.functionLevelReset fn) s = .next t ∧ (t.part q).migration = none ∧
    (∀ m, (s.part q).migration = some m → fn = q → (t.mailbox m.fn).busy = false ∧ (t.mailbox m.fn).done = true) ∧
    (∀ x ∈ t.tasks, x.part = q → x.ended = true) ∧
    (∀ x ∈ s.tasks, x.part = q → x.ended = false → ∃ y ∈ t.tasks, y.part = q ∧ y.id = x.id ∧ y.phase = .failed ∧ y.kind = 12 ∧ y.recordDue = true) ∧
    (∀ x ∈ s.tasks, x.part = q → x.phase = .running → ∀ c ∈ x.cores, (t.core c).resident = false) ∧
    (∀ cam, (s.camera cam).part = q → (t.camera cam).state = 0 ∧ ((s.camera cam).state ≠ 0 → (t.camera cam).units = [] ∧ (t.camera cam).decoded = [])) ∧
    (fn = q → ∀ x ∈ s.tasks, x.part ≠ q → x ∈ t.tasks))

/-- Every step keeps the memory in its canonical form: keys rising and no byte listed that an unlisted one already reads as (the model's own form of
memory, log entry 2). -/
def Obligations.EveryStepKeepsMemoryCanonical : Prop := ∀ s s' : State, s.memWf → step s = .next s' → s'.memWf

/-- R10, R28, R30, R34, R35, R163, R225, R259, R280, R306, R337, R339, R342, R347 and R352: what reset leaves: STATE 0; no core with a context, and of
every core all registers, predicates, stacks, queues, rows, tokens, counters and engines 0 or empty, with SLIPW 256 and divisors 1; pairs free with
empty weir rows; streams, camera entries, rails and mailboxes at their reset values; no memory listed, in canonical form. The values that the spec does
not give (log entries 2 to 8 and 74) are the model's. -/
def Obligations.WhatResetLeaves : Prop :=
  State.reset.memWf ∧ State.reset.mem = [] ∧ State.reset.poison = [] ∧ State.reset.bootState = 0 ∧ State.reset.tasks = [] ∧ State.reset.cycle = 0 ∧
  State.reset.outstanding = [] ∧ State.reset.bar2 = 39 ∧ State.reset.viewLines = [] ∧ State.reset.goOrder = [] ∧
  State.reset.hasParts = true ∧
  (∀ c k, k = State.reset.core c → k.resident = false ∧ k.withdrawn = false ∧ k.g = Vector.replicate 32 0 ∧ k.ar = Vector.replicate 16 0 ∧
    k.k = Vector.replicate 16 0 ∧ (∀ t : Strand, (k.strand t).p = Vector.replicate 8 false ∧ (k.strand t).ret = [] ∧ (k.strand t).loops = [] ∧
      (k.strand t).outq = [] ∧ (k.strand t).pc = 0 ∧ (k.strand t).walked = 0 ∧ (k.strand t).sigDue = []) ∧
    (∀ r : RowName, k.row r = 0) ∧ k.o = Vector.replicate 8 0 ∧ k.lr = 0 ∧ k.ax = Vector.replicate 4 [] ∧ k.xa = Vector.replicate 2 [] ∧ k.xv = [] ∧
    k.vx = [] ∧ (∀ i, (k.lo.toList.getD i { rows := [], peer := none, flight := [], used := 0 }).rows = []) ∧ k.li = Vector.replicate 4 [] ∧ k.liBad = Vector.replicate 4 [] ∧ k.spawned = none ∧ k.fq = [] ∧
    k.tk = Vector.replicate 16 0 ∧ k.rc = Vector.replicate 4 0 ∧ k.tpl = [] ∧ k.full = [] ∧ k.busy = [] ∧ k.aq = [] ∧ k.mq = [] ∧ k.ebuf = [] ∧
    k.tlb = [] ∧ k.stash = [] ∧ (∀ e : Engine, (k.engine e).queue = [] ∧ (k.engine e).active = []) ∧
    k.slipw = 256 ∧ k.div = Vector.replicate 4 1 ∧ k.loads = 0 ∧ k.stores = 0 ∧ k.copies = 0 ∧ k.tileops = 0 ∧ k.iteridx = 0 ∧ k.ptime = 0 ∧
    k.seq = 0 ∧ k.bankmap = 15 ∧ k.accSat = Vector.replicate 2 false ∧ k.nev = Nev.reset ∧ ∀ a i, a < 2 → i < 64 → k.accRow a i = AccRow.reset) ∧
  (∀ p, (State.reset.pair p).holder = none ∧ (State.reset.pair p).pending = [] ∧ (State.reset.pair p).tw = Vector.replicate 4 0 ∧
    (State.reset.pair p).twFull = Vector.replicate 4 false) ∧
  (∀ i, (State.reset.stream i).en = false ∧ (State.reset.stream i).age = 1000 ∧ (State.reset.stream i).weight = 1 ∧ (State.reset.stream i).l2ent = 4) ∧
  (∀ i, (State.reset.camera i).state = 0 ∧ (State.reset.camera i).lat = 33 ∧ (State.reset.camera i).nslot = 4 ∧ (State.reset.camera i).budget = 32 ∧
    (State.reset.camera i).maxw = 1920 ∧ (State.reset.camera i).maxh = 1080) ∧
  (∀ w, (State.reset.window w).en = false) ∧ (∀ p, (State.reset.part p).lease = 64) ∧
  (∀ r, (State.reset.rail r).level = 7 ∧ (State.reset.rail r).maxLevel = 7 ∧ (State.reset.rail r).margin = 15 ∧ (State.reset.rail r).offset = 0 ∧
    (State.reset.rail r).undervolt = false) ∧
  ∀ fn, (State.reset.mailbox fn).busy = false ∧ (State.reset.mailbox fn).done = false
end

