-- ==== Sys2Proof/Laws/Digest.lean ====
section
/-! SUPPORT. The digest of R358: it is 48 bytes, whatever it is taken of. -/

namespace Sys2Proof.Machine

@[simp] theorem bytesOfNat_length (n v : Nat) : (bytesOfNat n v).length = n := by
  induction n generalizing v with
  | zero => rfl
  | succ n ih => simp [bytesOfNat, ih]

@[simp] theorem bigEndianBytes_length (n v : Nat) : (bigEndianBytes n v).length = n := by simp [bigEndianBytes]

theorem shaInit_length : shaInit.length = 8 := by
  have h : shaPrimes.length = 80 := by decide +kernel
  simp [shaInit, h]

/-- A block keeps the eight words of a hash value. -/
theorem shaBlock_length (hv : List Nat) (blk : List Byte) (h : hv.length = 8) : (shaBlock hv blk).length = 8 := by
  simp [shaBlock, ShaVars.list, h]

theorem shaBlocks_length (blks : List (List Byte)) (hv : List Nat) (h : hv.length = 8) : (blks.foldl shaBlock hv).length = 8 := by
  induction blks generalizing hv with
  | nil => exact h
  | cons b r ih => exact ih _ (shaBlock_length hv b h)

@[simp] theorem sha384_length (bs : List Byte) : (sha384 bs).length = 48 := by
  have h := shaBlocks_length (partsOf 128 (bs.length / 128 + 2) (shaPadded bs)) shaInit shaInit_length
  simp [sha384, List.length_flatMap, List.map_const', h]

end Sys2Proof.Machine
end

