-- ==== Sys2Proof/Laws/State.lean ====
section
/-! SUPPORT. One lemma per field and update of the device, and of a core: what an update leaves as it was, so that no proof unfolds one. -/

namespace Sys2Proof.Machine

/-! setCore. -/

@[simp] theorem State.setCore_turns (s : State) (c : Nat) (k : CoreSt) : (s.setCore c k).turns = s.turns := rfl
@[simp] theorem State.setCore_rr (s : State) (c : Nat) (k : CoreSt) : (s.setCore c k).rr = s.rr := rfl
@[simp] theorem State.setCore_cx (s : State) (c : Nat) (k : CoreSt) : (s.setCore c k).cx = s.cx := rfl
@[simp] theorem State.setCore_pairs (s : State) (c : Nat) (k : CoreSt) : (s.setCore c k).pairs = s.pairs := rfl
@[simp] theorem State.setCore_mem (s : State) (c : Nat) (k : CoreSt) : (s.setCore c k).mem = s.mem := rfl
@[simp] theorem State.setCore_poison (s : State) (c : Nat) (k : CoreSt) : (s.setCore c k).poison = s.poison := rfl
@[simp] theorem State.setCore_times (s : State) (c : Nat) (k : CoreSt) : (s.setCore c k).times = s.times := rfl
@[simp] theorem State.setCore_cycle (s : State) (c : Nat) (k : CoreSt) : (s.setCore c k).cycle = s.cycle := rfl
@[simp] theorem State.setCore_feOrder (s : State) (c : Nat) (k : CoreSt) : (s.setCore c k).feOrder = s.feOrder := rfl
@[simp] theorem State.setCore_fresh (s : State) (c : Nat) (k : CoreSt) : (s.setCore c k).fresh = s.fresh := rfl
@[simp] theorem State.setCore_tasks (s : State) (c : Nat) (k : CoreSt) : (s.setCore c k).tasks = s.tasks := rfl
@[simp] theorem State.setCore_streams (s : State) (c : Nat) (k : CoreSt) : (s.setCore c k).streams = s.streams := rfl
@[simp] theorem State.setCore_ptr (s : State) (c : Nat) (k : CoreSt) : (s.setCore c k).ptr = s.ptr := rfl
@[simp] theorem State.setCore_cred (s : State) (c : Nat) (k : CoreSt) : (s.setCore c k).cred = s.cred := rfl
@[simp] theorem State.setCore_reserved (s : State) (c : Nat) (k : CoreSt) : (s.setCore c k).reserved = s.reserved := rfl
@[simp] theorem State.setCore_parts (s : State) (c : Nat) (k : CoreSt) : (s.setCore c k).parts = s.parts := rfl
@[simp] theorem State.setCore_cameras (s : State) (c : Nat) (k : CoreSt) : (s.setCore c k).cameras = s.cameras := rfl
@[simp] theorem State.setCore_decoders (s : State) (c : Nat) (k : CoreSt) : (s.setCore c k).decoders = s.decoders := rfl
@[simp] theorem State.setCore_windows (s : State) (c : Nat) (k : CoreSt) : (s.setCore c k).windows = s.windows := rfl
@[simp] theorem State.setCore_viewLines (s : State) (c : Nat) (k : CoreSt) : (s.setCore c k).viewLines = s.viewLines := rfl
@[simp] theorem State.setCore_rails (s : State) (c : Nat) (k : CoreSt) : (s.setCore c k).rails = s.rails := rfl
@[simp] theorem State.setCore_thermal (s : State) (c : Nat) (k : CoreSt) : (s.setCore c k).thermal = s.thermal := rfl
@[simp] theorem State.setCore_links (s : State) (c : Nat) (k : CoreSt) : (s.setCore c k).links = s.links := rfl
@[simp] theorem State.setCore_draining (s : State) (c : Nat) (k : CoreSt) : (s.setCore c k).draining = s.draining := rfl
@[simp] theorem State.setCore_lastDrain (s : State) (c : Nat) (k : CoreSt) : (s.setCore c k).lastDrain = s.lastDrain := rfl
@[simp] theorem State.setCore_outstanding (s : State) (c : Nat) (k : CoreSt) : (s.setCore c k).outstanding = s.outstanding := rfl
@[simp] theorem State.setCore_nextTag (s : State) (c : Nat) (k : CoreSt) : (s.setCore c k).nextTag = s.nextTag := rfl
@[simp] theorem State.setCore_mailboxes (s : State) (c : Nat) (k : CoreSt) : (s.setCore c k).mailboxes = s.mailboxes := rfl
@[simp] theorem State.setCore_goOrder (s : State) (c : Nat) (k : CoreSt) : (s.setCore c k).goOrder = s.goOrder := rfl
@[simp] theorem State.setCore_devEvents (s : State) (c : Nat) (k : CoreSt) : (s.setCore c k).devEvents = s.devEvents := rfl
@[simp] theorem State.setCore_sources (s : State) (c : Nat) (k : CoreSt) : (s.setCore c k).sources = s.sources := rfl
@[simp] theorem State.setCore_peerJoins (s : State) (c : Nat) (k : CoreSt) : (s.setCore c k).peerJoins = s.peerJoins := rfl
@[simp] theorem State.setCore_peerDone (s : State) (c : Nat) (k : CoreSt) : (s.setCore c k).peerDone = s.peerDone := rfl
@[simp] theorem State.setCore_bootState (s : State) (c : Nat) (k : CoreSt) : (s.setCore c k).bootState = s.bootState := rfl
@[simp] theorem State.setCore_failcode (s : State) (c : Nat) (k : CoreSt) : (s.setCore c k).failcode = s.failcode := rfl
@[simp] theorem State.setCore_romver (s : State) (c : Nat) (k : CoreSt) : (s.setCore c k).romver = s.romver := rfl
@[simp] theorem State.setCore_patchver (s : State) (c : Nat) (k : CoreSt) : (s.setCore c k).patchver = s.patchver := rfl
@[simp] theorem State.setCore_patch (s : State) (c : Nat) (k : CoreSt) : (s.setCore c k).patch = s.patch := rfl
@[simp] theorem State.setCore_flashPatch (s : State) (c : Nat) (k : CoreSt) : (s.setCore c k).flashPatch = s.flashPatch := rfl
@[simp] theorem State.setCore_bar2 (s : State) (c : Nat) (k : CoreSt) : (s.setCore c k).bar2 = s.bar2 := rfl
@[simp] theorem State.setCore_pacing (s : State) (c : Nat) (k : CoreSt) : (s.setCore c k).pacing = s.pacing := rfl
@[simp] theorem State.setCore_decodePeriods (s : State) (c : Nat) (k : CoreSt) : (s.setCore c k).decodePeriods = s.decodePeriods := rfl
@[simp] theorem State.setCore_config (s : State) (c : Nat) (k : CoreSt) : (s.setCore c k).config = s.config := rfl
@[simp] theorem State.setCore_regions (s : State) (c : Nat) (k : CoreSt) : (s.setCore c k).regions = s.regions := rfl
@[simp] theorem State.setCore_outputs (s : State) (c : Nat) (k : CoreSt) : (s.setCore c k).outputs = s.outputs := rfl

/-! modCore. -/

@[simp] theorem State.modCore_turns (s : State) (c : Nat) (f : CoreSt → CoreSt) : (s.modCore c f).turns = s.turns := rfl
@[simp] theorem State.modCore_rr (s : State) (c : Nat) (f : CoreSt → CoreSt) : (s.modCore c f).rr = s.rr := rfl
@[simp] theorem State.modCore_cx (s : State) (c : Nat) (f : CoreSt → CoreSt) : (s.modCore c f).cx = s.cx := rfl
@[simp] theorem State.modCore_pairs (s : State) (c : Nat) (f : CoreSt → CoreSt) : (s.modCore c f).pairs = s.pairs := rfl
@[simp] theorem State.modCore_mem (s : State) (c : Nat) (f : CoreSt → CoreSt) : (s.modCore c f).mem = s.mem := rfl
@[simp] theorem State.modCore_poison (s : State) (c : Nat) (f : CoreSt → CoreSt) : (s.modCore c f).poison = s.poison := rfl
@[simp] theorem State.modCore_times (s : State) (c : Nat) (f : CoreSt → CoreSt) : (s.modCore c f).times = s.times := rfl
@[simp] theorem State.modCore_cycle (s : State) (c : Nat) (f : CoreSt → CoreSt) : (s.modCore c f).cycle = s.cycle := rfl
@[simp] theorem State.modCore_feOrder (s : State) (c : Nat) (f : CoreSt → CoreSt) : (s.modCore c f).feOrder = s.feOrder := rfl
@[simp] theorem State.modCore_fresh (s : State) (c : Nat) (f : CoreSt → CoreSt) : (s.modCore c f).fresh = s.fresh := rfl
@[simp] theorem State.modCore_tasks (s : State) (c : Nat) (f : CoreSt → CoreSt) : (s.modCore c f).tasks = s.tasks := rfl
@[simp] theorem State.modCore_streams (s : State) (c : Nat) (f : CoreSt → CoreSt) : (s.modCore c f).streams = s.streams := rfl
@[simp] theorem State.modCore_ptr (s : State) (c : Nat) (f : CoreSt → CoreSt) : (s.modCore c f).ptr = s.ptr := rfl
@[simp] theorem State.modCore_cred (s : State) (c : Nat) (f : CoreSt → CoreSt) : (s.modCore c f).cred = s.cred := rfl
@[simp] theorem State.modCore_reserved (s : State) (c : Nat) (f : CoreSt → CoreSt) : (s.modCore c f).reserved = s.reserved := rfl
@[simp] theorem State.modCore_parts (s : State) (c : Nat) (f : CoreSt → CoreSt) : (s.modCore c f).parts = s.parts := rfl
@[simp] theorem State.modCore_cameras (s : State) (c : Nat) (f : CoreSt → CoreSt) : (s.modCore c f).cameras = s.cameras := rfl
@[simp] theorem State.modCore_decoders (s : State) (c : Nat) (f : CoreSt → CoreSt) : (s.modCore c f).decoders = s.decoders := rfl
@[simp] theorem State.modCore_windows (s : State) (c : Nat) (f : CoreSt → CoreSt) : (s.modCore c f).windows = s.windows := rfl
@[simp] theorem State.modCore_viewLines (s : State) (c : Nat) (f : CoreSt → CoreSt) : (s.modCore c f).viewLines = s.viewLines := rfl
@[simp] theorem State.modCore_rails (s : State) (c : Nat) (f : CoreSt → CoreSt) : (s.modCore c f).rails = s.rails := rfl
@[simp] theorem State.modCore_thermal (s : State) (c : Nat) (f : CoreSt → CoreSt) : (s.modCore c f).thermal = s.thermal := rfl
@[simp] theorem State.modCore_links (s : State) (c : Nat) (f : CoreSt → CoreSt) : (s.modCore c f).links = s.links := rfl
@[simp] theorem State.modCore_draining (s : State) (c : Nat) (f : CoreSt → CoreSt) : (s.modCore c f).draining = s.draining := rfl
@[simp] theorem State.modCore_lastDrain (s : State) (c : Nat) (f : CoreSt → CoreSt) : (s.modCore c f).lastDrain = s.lastDrain := rfl
@[simp] theorem State.modCore_outstanding (s : State) (c : Nat) (f : CoreSt → CoreSt) : (s.modCore c f).outstanding = s.outstanding := rfl
@[simp] theorem State.modCore_nextTag (s : State) (c : Nat) (f : CoreSt → CoreSt) : (s.modCore c f).nextTag = s.nextTag := rfl
@[simp] theorem State.modCore_mailboxes (s : State) (c : Nat) (f : CoreSt → CoreSt) : (s.modCore c f).mailboxes = s.mailboxes := rfl
@[simp] theorem State.modCore_goOrder (s : State) (c : Nat) (f : CoreSt → CoreSt) : (s.modCore c f).goOrder = s.goOrder := rfl
@[simp] theorem State.modCore_devEvents (s : State) (c : Nat) (f : CoreSt → CoreSt) : (s.modCore c f).devEvents = s.devEvents := rfl
@[simp] theorem State.modCore_sources (s : State) (c : Nat) (f : CoreSt → CoreSt) : (s.modCore c f).sources = s.sources := rfl
@[simp] theorem State.modCore_peerJoins (s : State) (c : Nat) (f : CoreSt → CoreSt) : (s.modCore c f).peerJoins = s.peerJoins := rfl
@[simp] theorem State.modCore_peerDone (s : State) (c : Nat) (f : CoreSt → CoreSt) : (s.modCore c f).peerDone = s.peerDone := rfl
@[simp] theorem State.modCore_bootState (s : State) (c : Nat) (f : CoreSt → CoreSt) : (s.modCore c f).bootState = s.bootState := rfl
@[simp] theorem State.modCore_failcode (s : State) (c : Nat) (f : CoreSt → CoreSt) : (s.modCore c f).failcode = s.failcode := rfl
@[simp] theorem State.modCore_romver (s : State) (c : Nat) (f : CoreSt → CoreSt) : (s.modCore c f).romver = s.romver := rfl
@[simp] theorem State.modCore_patchver (s : State) (c : Nat) (f : CoreSt → CoreSt) : (s.modCore c f).patchver = s.patchver := rfl
@[simp] theorem State.modCore_patch (s : State) (c : Nat) (f : CoreSt → CoreSt) : (s.modCore c f).patch = s.patch := rfl
@[simp] theorem State.modCore_flashPatch (s : State) (c : Nat) (f : CoreSt → CoreSt) : (s.modCore c f).flashPatch = s.flashPatch := rfl
@[simp] theorem State.modCore_bar2 (s : State) (c : Nat) (f : CoreSt → CoreSt) : (s.modCore c f).bar2 = s.bar2 := rfl
@[simp] theorem State.modCore_pacing (s : State) (c : Nat) (f : CoreSt → CoreSt) : (s.modCore c f).pacing = s.pacing := rfl
@[simp] theorem State.modCore_decodePeriods (s : State) (c : Nat) (f : CoreSt → CoreSt) : (s.modCore c f).decodePeriods = s.decodePeriods := rfl
@[simp] theorem State.modCore_config (s : State) (c : Nat) (f : CoreSt → CoreSt) : (s.modCore c f).config = s.config := rfl
@[simp] theorem State.modCore_regions (s : State) (c : Nat) (f : CoreSt → CoreSt) : (s.modCore c f).regions = s.regions := rfl
@[simp] theorem State.modCore_outputs (s : State) (c : Nat) (f : CoreSt → CoreSt) : (s.modCore c f).outputs = s.outputs := rfl

/-! modCx. -/

@[simp] theorem State.modCx_turns (s : State) (f : CoreSt → CoreSt) : (s.modCx f).turns = s.turns := rfl
@[simp] theorem State.modCx_rr (s : State) (f : CoreSt → CoreSt) : (s.modCx f).rr = s.rr := rfl
@[simp] theorem State.modCx_cx (s : State) (f : CoreSt → CoreSt) : (s.modCx f).cx = s.cx := rfl
@[simp] theorem State.modCx_pairs (s : State) (f : CoreSt → CoreSt) : (s.modCx f).pairs = s.pairs := rfl
@[simp] theorem State.modCx_mem (s : State) (f : CoreSt → CoreSt) : (s.modCx f).mem = s.mem := rfl
@[simp] theorem State.modCx_poison (s : State) (f : CoreSt → CoreSt) : (s.modCx f).poison = s.poison := rfl
@[simp] theorem State.modCx_times (s : State) (f : CoreSt → CoreSt) : (s.modCx f).times = s.times := rfl
@[simp] theorem State.modCx_cycle (s : State) (f : CoreSt → CoreSt) : (s.modCx f).cycle = s.cycle := rfl
@[simp] theorem State.modCx_feOrder (s : State) (f : CoreSt → CoreSt) : (s.modCx f).feOrder = s.feOrder := rfl
@[simp] theorem State.modCx_fresh (s : State) (f : CoreSt → CoreSt) : (s.modCx f).fresh = s.fresh := rfl
@[simp] theorem State.modCx_tasks (s : State) (f : CoreSt → CoreSt) : (s.modCx f).tasks = s.tasks := rfl
@[simp] theorem State.modCx_streams (s : State) (f : CoreSt → CoreSt) : (s.modCx f).streams = s.streams := rfl
@[simp] theorem State.modCx_ptr (s : State) (f : CoreSt → CoreSt) : (s.modCx f).ptr = s.ptr := rfl
@[simp] theorem State.modCx_cred (s : State) (f : CoreSt → CoreSt) : (s.modCx f).cred = s.cred := rfl
@[simp] theorem State.modCx_reserved (s : State) (f : CoreSt → CoreSt) : (s.modCx f).reserved = s.reserved := rfl
@[simp] theorem State.modCx_parts (s : State) (f : CoreSt → CoreSt) : (s.modCx f).parts = s.parts := rfl
@[simp] theorem State.modCx_cameras (s : State) (f : CoreSt → CoreSt) : (s.modCx f).cameras = s.cameras := rfl
@[simp] theorem State.modCx_decoders (s : State) (f : CoreSt → CoreSt) : (s.modCx f).decoders = s.decoders := rfl
@[simp] theorem State.modCx_windows (s : State) (f : CoreSt → CoreSt) : (s.modCx f).windows = s.windows := rfl
@[simp] theorem State.modCx_viewLines (s : State) (f : CoreSt → CoreSt) : (s.modCx f).viewLines = s.viewLines := rfl
@[simp] theorem State.modCx_rails (s : State) (f : CoreSt → CoreSt) : (s.modCx f).rails = s.rails := rfl
@[simp] theorem State.modCx_thermal (s : State) (f : CoreSt → CoreSt) : (s.modCx f).thermal = s.thermal := rfl
@[simp] theorem State.modCx_links (s : State) (f : CoreSt → CoreSt) : (s.modCx f).links = s.links := rfl
@[simp] theorem State.modCx_draining (s : State) (f : CoreSt → CoreSt) : (s.modCx f).draining = s.draining := rfl
@[simp] theorem State.modCx_lastDrain (s : State) (f : CoreSt → CoreSt) : (s.modCx f).lastDrain = s.lastDrain := rfl
@[simp] theorem State.modCx_outstanding (s : State) (f : CoreSt → CoreSt) : (s.modCx f).outstanding = s.outstanding := rfl
@[simp] theorem State.modCx_nextTag (s : State) (f : CoreSt → CoreSt) : (s.modCx f).nextTag = s.nextTag := rfl
@[simp] theorem State.modCx_mailboxes (s : State) (f : CoreSt → CoreSt) : (s.modCx f).mailboxes = s.mailboxes := rfl
@[simp] theorem State.modCx_goOrder (s : State) (f : CoreSt → CoreSt) : (s.modCx f).goOrder = s.goOrder := rfl
@[simp] theorem State.modCx_devEvents (s : State) (f : CoreSt → CoreSt) : (s.modCx f).devEvents = s.devEvents := rfl
@[simp] theorem State.modCx_sources (s : State) (f : CoreSt → CoreSt) : (s.modCx f).sources = s.sources := rfl
@[simp] theorem State.modCx_peerJoins (s : State) (f : CoreSt → CoreSt) : (s.modCx f).peerJoins = s.peerJoins := rfl
@[simp] theorem State.modCx_peerDone (s : State) (f : CoreSt → CoreSt) : (s.modCx f).peerDone = s.peerDone := rfl
@[simp] theorem State.modCx_bootState (s : State) (f : CoreSt → CoreSt) : (s.modCx f).bootState = s.bootState := rfl
@[simp] theorem State.modCx_failcode (s : State) (f : CoreSt → CoreSt) : (s.modCx f).failcode = s.failcode := rfl
@[simp] theorem State.modCx_romver (s : State) (f : CoreSt → CoreSt) : (s.modCx f).romver = s.romver := rfl
@[simp] theorem State.modCx_patchver (s : State) (f : CoreSt → CoreSt) : (s.modCx f).patchver = s.patchver := rfl
@[simp] theorem State.modCx_patch (s : State) (f : CoreSt → CoreSt) : (s.modCx f).patch = s.patch := rfl
@[simp] theorem State.modCx_flashPatch (s : State) (f : CoreSt → CoreSt) : (s.modCx f).flashPatch = s.flashPatch := rfl
@[simp] theorem State.modCx_bar2 (s : State) (f : CoreSt → CoreSt) : (s.modCx f).bar2 = s.bar2 := rfl
@[simp] theorem State.modCx_pacing (s : State) (f : CoreSt → CoreSt) : (s.modCx f).pacing = s.pacing := rfl
@[simp] theorem State.modCx_decodePeriods (s : State) (f : CoreSt → CoreSt) : (s.modCx f).decodePeriods = s.decodePeriods := rfl
@[simp] theorem State.modCx_config (s : State) (f : CoreSt → CoreSt) : (s.modCx f).config = s.config := rfl
@[simp] theorem State.modCx_regions (s : State) (f : CoreSt → CoreSt) : (s.modCx f).regions = s.regions := rfl
@[simp] theorem State.modCx_outputs (s : State) (f : CoreSt → CoreSt) : (s.modCx f).outputs = s.outputs := rfl

/-! modCxStrand. -/

@[simp] theorem State.modCxStrand_turns (s : State) (f : StrandSt → StrandSt) : (s.modCxStrand f).turns = s.turns := rfl
@[simp] theorem State.modCxStrand_rr (s : State) (f : StrandSt → StrandSt) : (s.modCxStrand f).rr = s.rr := rfl
@[simp] theorem State.modCxStrand_cx (s : State) (f : StrandSt → StrandSt) : (s.modCxStrand f).cx = s.cx := rfl
@[simp] theorem State.modCxStrand_pairs (s : State) (f : StrandSt → StrandSt) : (s.modCxStrand f).pairs = s.pairs := rfl
@[simp] theorem State.modCxStrand_mem (s : State) (f : StrandSt → StrandSt) : (s.modCxStrand f).mem = s.mem := rfl
@[simp] theorem State.modCxStrand_poison (s : State) (f : StrandSt → StrandSt) : (s.modCxStrand f).poison = s.poison := rfl
@[simp] theorem State.modCxStrand_times (s : State) (f : StrandSt → StrandSt) : (s.modCxStrand f).times = s.times := rfl
@[simp] theorem State.modCxStrand_cycle (s : State) (f : StrandSt → StrandSt) : (s.modCxStrand f).cycle = s.cycle := rfl
@[simp] theorem State.modCxStrand_feOrder (s : State) (f : StrandSt → StrandSt) : (s.modCxStrand f).feOrder = s.feOrder := rfl
@[simp] theorem State.modCxStrand_fresh (s : State) (f : StrandSt → StrandSt) : (s.modCxStrand f).fresh = s.fresh := rfl
@[simp] theorem State.modCxStrand_tasks (s : State) (f : StrandSt → StrandSt) : (s.modCxStrand f).tasks = s.tasks := rfl
@[simp] theorem State.modCxStrand_streams (s : State) (f : StrandSt → StrandSt) : (s.modCxStrand f).streams = s.streams := rfl
@[simp] theorem State.modCxStrand_ptr (s : State) (f : StrandSt → StrandSt) : (s.modCxStrand f).ptr = s.ptr := rfl
@[simp] theorem State.modCxStrand_cred (s : State) (f : StrandSt → StrandSt) : (s.modCxStrand f).cred = s.cred := rfl
@[simp] theorem State.modCxStrand_reserved (s : State) (f : StrandSt → StrandSt) : (s.modCxStrand f).reserved = s.reserved := rfl
@[simp] theorem State.modCxStrand_parts (s : State) (f : StrandSt → StrandSt) : (s.modCxStrand f).parts = s.parts := rfl
@[simp] theorem State.modCxStrand_cameras (s : State) (f : StrandSt → StrandSt) : (s.modCxStrand f).cameras = s.cameras := rfl
@[simp] theorem State.modCxStrand_decoders (s : State) (f : StrandSt → StrandSt) : (s.modCxStrand f).decoders = s.decoders := rfl
@[simp] theorem State.modCxStrand_windows (s : State) (f : StrandSt → StrandSt) : (s.modCxStrand f).windows = s.windows := rfl
@[simp] theorem State.modCxStrand_viewLines (s : State) (f : StrandSt → StrandSt) : (s.modCxStrand f).viewLines = s.viewLines := rfl
@[simp] theorem State.modCxStrand_rails (s : State) (f : StrandSt → StrandSt) : (s.modCxStrand f).rails = s.rails := rfl
@[simp] theorem State.modCxStrand_thermal (s : State) (f : StrandSt → StrandSt) : (s.modCxStrand f).thermal = s.thermal := rfl
@[simp] theorem State.modCxStrand_links (s : State) (f : StrandSt → StrandSt) : (s.modCxStrand f).links = s.links := rfl
@[simp] theorem State.modCxStrand_draining (s : State) (f : StrandSt → StrandSt) : (s.modCxStrand f).draining = s.draining := rfl
@[simp] theorem State.modCxStrand_lastDrain (s : State) (f : StrandSt → StrandSt) : (s.modCxStrand f).lastDrain = s.lastDrain := rfl
@[simp] theorem State.modCxStrand_outstanding (s : State) (f : StrandSt → StrandSt) : (s.modCxStrand f).outstanding = s.outstanding := rfl
@[simp] theorem State.modCxStrand_nextTag (s : State) (f : StrandSt → StrandSt) : (s.modCxStrand f).nextTag = s.nextTag := rfl
@[simp] theorem State.modCxStrand_mailboxes (s : State) (f : StrandSt → StrandSt) : (s.modCxStrand f).mailboxes = s.mailboxes := rfl
@[simp] theorem State.modCxStrand_goOrder (s : State) (f : StrandSt → StrandSt) : (s.modCxStrand f).goOrder = s.goOrder := rfl
@[simp] theorem State.modCxStrand_devEvents (s : State) (f : StrandSt → StrandSt) : (s.modCxStrand f).devEvents = s.devEvents := rfl
@[simp] theorem State.modCxStrand_sources (s : State) (f : StrandSt → StrandSt) : (s.modCxStrand f).sources = s.sources := rfl
@[simp] theorem State.modCxStrand_peerJoins (s : State) (f : StrandSt → StrandSt) : (s.modCxStrand f).peerJoins = s.peerJoins := rfl
@[simp] theorem State.modCxStrand_peerDone (s : State) (f : StrandSt → StrandSt) : (s.modCxStrand f).peerDone = s.peerDone := rfl
@[simp] theorem State.modCxStrand_bootState (s : State) (f : StrandSt → StrandSt) : (s.modCxStrand f).bootState = s.bootState := rfl
@[simp] theorem State.modCxStrand_failcode (s : State) (f : StrandSt → StrandSt) : (s.modCxStrand f).failcode = s.failcode := rfl
@[simp] theorem State.modCxStrand_romver (s : State) (f : StrandSt → StrandSt) : (s.modCxStrand f).romver = s.romver := rfl
@[simp] theorem State.modCxStrand_patchver (s : State) (f : StrandSt → StrandSt) : (s.modCxStrand f).patchver = s.patchver := rfl
@[simp] theorem State.modCxStrand_patch (s : State) (f : StrandSt → StrandSt) : (s.modCxStrand f).patch = s.patch := rfl
@[simp] theorem State.modCxStrand_flashPatch (s : State) (f : StrandSt → StrandSt) : (s.modCxStrand f).flashPatch = s.flashPatch := rfl
@[simp] theorem State.modCxStrand_bar2 (s : State) (f : StrandSt → StrandSt) : (s.modCxStrand f).bar2 = s.bar2 := rfl
@[simp] theorem State.modCxStrand_pacing (s : State) (f : StrandSt → StrandSt) : (s.modCxStrand f).pacing = s.pacing := rfl
@[simp] theorem State.modCxStrand_decodePeriods (s : State) (f : StrandSt → StrandSt) : (s.modCxStrand f).decodePeriods = s.decodePeriods := rfl
@[simp] theorem State.modCxStrand_config (s : State) (f : StrandSt → StrandSt) : (s.modCxStrand f).config = s.config := rfl
@[simp] theorem State.modCxStrand_regions (s : State) (f : StrandSt → StrandSt) : (s.modCxStrand f).regions = s.regions := rfl
@[simp] theorem State.modCxStrand_outputs (s : State) (f : StrandSt → StrandSt) : (s.modCxStrand f).outputs = s.outputs := rfl

/-! setPair. -/

@[simp] theorem State.setPair_turns (s : State) (p : Nat) (v : Pair) : (s.setPair p v).turns = s.turns := rfl
@[simp] theorem State.setPair_rr (s : State) (p : Nat) (v : Pair) : (s.setPair p v).rr = s.rr := rfl
@[simp] theorem State.setPair_cx (s : State) (p : Nat) (v : Pair) : (s.setPair p v).cx = s.cx := rfl
@[simp] theorem State.setPair_cores (s : State) (p : Nat) (v : Pair) : (s.setPair p v).cores = s.cores := rfl
@[simp] theorem State.setPair_mem (s : State) (p : Nat) (v : Pair) : (s.setPair p v).mem = s.mem := rfl
@[simp] theorem State.setPair_poison (s : State) (p : Nat) (v : Pair) : (s.setPair p v).poison = s.poison := rfl
@[simp] theorem State.setPair_times (s : State) (p : Nat) (v : Pair) : (s.setPair p v).times = s.times := rfl
@[simp] theorem State.setPair_cycle (s : State) (p : Nat) (v : Pair) : (s.setPair p v).cycle = s.cycle := rfl
@[simp] theorem State.setPair_feOrder (s : State) (p : Nat) (v : Pair) : (s.setPair p v).feOrder = s.feOrder := rfl
@[simp] theorem State.setPair_fresh (s : State) (p : Nat) (v : Pair) : (s.setPair p v).fresh = s.fresh := rfl
@[simp] theorem State.setPair_tasks (s : State) (p : Nat) (v : Pair) : (s.setPair p v).tasks = s.tasks := rfl
@[simp] theorem State.setPair_streams (s : State) (p : Nat) (v : Pair) : (s.setPair p v).streams = s.streams := rfl
@[simp] theorem State.setPair_ptr (s : State) (p : Nat) (v : Pair) : (s.setPair p v).ptr = s.ptr := rfl
@[simp] theorem State.setPair_cred (s : State) (p : Nat) (v : Pair) : (s.setPair p v).cred = s.cred := rfl
@[simp] theorem State.setPair_reserved (s : State) (p : Nat) (v : Pair) : (s.setPair p v).reserved = s.reserved := rfl
@[simp] theorem State.setPair_parts (s : State) (p : Nat) (v : Pair) : (s.setPair p v).parts = s.parts := rfl
@[simp] theorem State.setPair_cameras (s : State) (p : Nat) (v : Pair) : (s.setPair p v).cameras = s.cameras := rfl
@[simp] theorem State.setPair_decoders (s : State) (p : Nat) (v : Pair) : (s.setPair p v).decoders = s.decoders := rfl
@[simp] theorem State.setPair_windows (s : State) (p : Nat) (v : Pair) : (s.setPair p v).windows = s.windows := rfl
@[simp] theorem State.setPair_viewLines (s : State) (p : Nat) (v : Pair) : (s.setPair p v).viewLines = s.viewLines := rfl
@[simp] theorem State.setPair_rails (s : State) (p : Nat) (v : Pair) : (s.setPair p v).rails = s.rails := rfl
@[simp] theorem State.setPair_thermal (s : State) (p : Nat) (v : Pair) : (s.setPair p v).thermal = s.thermal := rfl
@[simp] theorem State.setPair_links (s : State) (p : Nat) (v : Pair) : (s.setPair p v).links = s.links := rfl
@[simp] theorem State.setPair_draining (s : State) (p : Nat) (v : Pair) : (s.setPair p v).draining = s.draining := rfl
@[simp] theorem State.setPair_lastDrain (s : State) (p : Nat) (v : Pair) : (s.setPair p v).lastDrain = s.lastDrain := rfl
@[simp] theorem State.setPair_outstanding (s : State) (p : Nat) (v : Pair) : (s.setPair p v).outstanding = s.outstanding := rfl
@[simp] theorem State.setPair_nextTag (s : State) (p : Nat) (v : Pair) : (s.setPair p v).nextTag = s.nextTag := rfl
@[simp] theorem State.setPair_mailboxes (s : State) (p : Nat) (v : Pair) : (s.setPair p v).mailboxes = s.mailboxes := rfl
@[simp] theorem State.setPair_goOrder (s : State) (p : Nat) (v : Pair) : (s.setPair p v).goOrder = s.goOrder := rfl
@[simp] theorem State.setPair_devEvents (s : State) (p : Nat) (v : Pair) : (s.setPair p v).devEvents = s.devEvents := rfl
@[simp] theorem State.setPair_sources (s : State) (p : Nat) (v : Pair) : (s.setPair p v).sources = s.sources := rfl
@[simp] theorem State.setPair_peerJoins (s : State) (p : Nat) (v : Pair) : (s.setPair p v).peerJoins = s.peerJoins := rfl
@[simp] theorem State.setPair_peerDone (s : State) (p : Nat) (v : Pair) : (s.setPair p v).peerDone = s.peerDone := rfl
@[simp] theorem State.setPair_bootState (s : State) (p : Nat) (v : Pair) : (s.setPair p v).bootState = s.bootState := rfl
@[simp] theorem State.setPair_failcode (s : State) (p : Nat) (v : Pair) : (s.setPair p v).failcode = s.failcode := rfl
@[simp] theorem State.setPair_romver (s : State) (p : Nat) (v : Pair) : (s.setPair p v).romver = s.romver := rfl
@[simp] theorem State.setPair_patchver (s : State) (p : Nat) (v : Pair) : (s.setPair p v).patchver = s.patchver := rfl
@[simp] theorem State.setPair_patch (s : State) (p : Nat) (v : Pair) : (s.setPair p v).patch = s.patch := rfl
@[simp] theorem State.setPair_flashPatch (s : State) (p : Nat) (v : Pair) : (s.setPair p v).flashPatch = s.flashPatch := rfl
@[simp] theorem State.setPair_bar2 (s : State) (p : Nat) (v : Pair) : (s.setPair p v).bar2 = s.bar2 := rfl
@[simp] theorem State.setPair_pacing (s : State) (p : Nat) (v : Pair) : (s.setPair p v).pacing = s.pacing := rfl
@[simp] theorem State.setPair_decodePeriods (s : State) (p : Nat) (v : Pair) : (s.setPair p v).decodePeriods = s.decodePeriods := rfl
@[simp] theorem State.setPair_config (s : State) (p : Nat) (v : Pair) : (s.setPair p v).config = s.config := rfl
@[simp] theorem State.setPair_regions (s : State) (p : Nat) (v : Pair) : (s.setPair p v).regions = s.regions := rfl
@[simp] theorem State.setPair_outputs (s : State) (p : Nat) (v : Pair) : (s.setPair p v).outputs = s.outputs := rfl

/-! modPart. -/

@[simp] theorem State.modPart_turns (s : State) (p : Nat) (f : Part → Part) : (s.modPart p f).turns = s.turns := rfl
@[simp] theorem State.modPart_rr (s : State) (p : Nat) (f : Part → Part) : (s.modPart p f).rr = s.rr := rfl
@[simp] theorem State.modPart_cx (s : State) (p : Nat) (f : Part → Part) : (s.modPart p f).cx = s.cx := rfl
@[simp] theorem State.modPart_cores (s : State) (p : Nat) (f : Part → Part) : (s.modPart p f).cores = s.cores := rfl
@[simp] theorem State.modPart_pairs (s : State) (p : Nat) (f : Part → Part) : (s.modPart p f).pairs = s.pairs := rfl
@[simp] theorem State.modPart_mem (s : State) (p : Nat) (f : Part → Part) : (s.modPart p f).mem = s.mem := rfl
@[simp] theorem State.modPart_poison (s : State) (p : Nat) (f : Part → Part) : (s.modPart p f).poison = s.poison := rfl
@[simp] theorem State.modPart_times (s : State) (p : Nat) (f : Part → Part) : (s.modPart p f).times = s.times := rfl
@[simp] theorem State.modPart_cycle (s : State) (p : Nat) (f : Part → Part) : (s.modPart p f).cycle = s.cycle := rfl
@[simp] theorem State.modPart_feOrder (s : State) (p : Nat) (f : Part → Part) : (s.modPart p f).feOrder = s.feOrder := rfl
@[simp] theorem State.modPart_fresh (s : State) (p : Nat) (f : Part → Part) : (s.modPart p f).fresh = s.fresh := rfl
@[simp] theorem State.modPart_tasks (s : State) (p : Nat) (f : Part → Part) : (s.modPart p f).tasks = s.tasks := rfl
@[simp] theorem State.modPart_streams (s : State) (p : Nat) (f : Part → Part) : (s.modPart p f).streams = s.streams := rfl
@[simp] theorem State.modPart_ptr (s : State) (p : Nat) (f : Part → Part) : (s.modPart p f).ptr = s.ptr := rfl
@[simp] theorem State.modPart_cred (s : State) (p : Nat) (f : Part → Part) : (s.modPart p f).cred = s.cred := rfl
@[simp] theorem State.modPart_reserved (s : State) (p : Nat) (f : Part → Part) : (s.modPart p f).reserved = s.reserved := rfl
@[simp] theorem State.modPart_cameras (s : State) (p : Nat) (f : Part → Part) : (s.modPart p f).cameras = s.cameras := rfl
@[simp] theorem State.modPart_decoders (s : State) (p : Nat) (f : Part → Part) : (s.modPart p f).decoders = s.decoders := rfl
@[simp] theorem State.modPart_windows (s : State) (p : Nat) (f : Part → Part) : (s.modPart p f).windows = s.windows := rfl
@[simp] theorem State.modPart_viewLines (s : State) (p : Nat) (f : Part → Part) : (s.modPart p f).viewLines = s.viewLines := rfl
@[simp] theorem State.modPart_rails (s : State) (p : Nat) (f : Part → Part) : (s.modPart p f).rails = s.rails := rfl
@[simp] theorem State.modPart_thermal (s : State) (p : Nat) (f : Part → Part) : (s.modPart p f).thermal = s.thermal := rfl
@[simp] theorem State.modPart_links (s : State) (p : Nat) (f : Part → Part) : (s.modPart p f).links = s.links := rfl
@[simp] theorem State.modPart_draining (s : State) (p : Nat) (f : Part → Part) : (s.modPart p f).draining = s.draining := rfl
@[simp] theorem State.modPart_lastDrain (s : State) (p : Nat) (f : Part → Part) : (s.modPart p f).lastDrain = s.lastDrain := rfl
@[simp] theorem State.modPart_outstanding (s : State) (p : Nat) (f : Part → Part) : (s.modPart p f).outstanding = s.outstanding := rfl
@[simp] theorem State.modPart_nextTag (s : State) (p : Nat) (f : Part → Part) : (s.modPart p f).nextTag = s.nextTag := rfl
@[simp] theorem State.modPart_mailboxes (s : State) (p : Nat) (f : Part → Part) : (s.modPart p f).mailboxes = s.mailboxes := rfl
@[simp] theorem State.modPart_goOrder (s : State) (p : Nat) (f : Part → Part) : (s.modPart p f).goOrder = s.goOrder := rfl
@[simp] theorem State.modPart_devEvents (s : State) (p : Nat) (f : Part → Part) : (s.modPart p f).devEvents = s.devEvents := rfl
@[simp] theorem State.modPart_sources (s : State) (p : Nat) (f : Part → Part) : (s.modPart p f).sources = s.sources := rfl
@[simp] theorem State.modPart_peerJoins (s : State) (p : Nat) (f : Part → Part) : (s.modPart p f).peerJoins = s.peerJoins := rfl
@[simp] theorem State.modPart_peerDone (s : State) (p : Nat) (f : Part → Part) : (s.modPart p f).peerDone = s.peerDone := rfl
@[simp] theorem State.modPart_bootState (s : State) (p : Nat) (f : Part → Part) : (s.modPart p f).bootState = s.bootState := rfl
@[simp] theorem State.modPart_failcode (s : State) (p : Nat) (f : Part → Part) : (s.modPart p f).failcode = s.failcode := rfl
@[simp] theorem State.modPart_romver (s : State) (p : Nat) (f : Part → Part) : (s.modPart p f).romver = s.romver := rfl
@[simp] theorem State.modPart_patchver (s : State) (p : Nat) (f : Part → Part) : (s.modPart p f).patchver = s.patchver := rfl
@[simp] theorem State.modPart_patch (s : State) (p : Nat) (f : Part → Part) : (s.modPart p f).patch = s.patch := rfl
@[simp] theorem State.modPart_flashPatch (s : State) (p : Nat) (f : Part → Part) : (s.modPart p f).flashPatch = s.flashPatch := rfl
@[simp] theorem State.modPart_bar2 (s : State) (p : Nat) (f : Part → Part) : (s.modPart p f).bar2 = s.bar2 := rfl
@[simp] theorem State.modPart_pacing (s : State) (p : Nat) (f : Part → Part) : (s.modPart p f).pacing = s.pacing := rfl
@[simp] theorem State.modPart_decodePeriods (s : State) (p : Nat) (f : Part → Part) : (s.modPart p f).decodePeriods = s.decodePeriods := rfl
@[simp] theorem State.modPart_config (s : State) (p : Nat) (f : Part → Part) : (s.modPart p f).config = s.config := rfl
@[simp] theorem State.modPart_regions (s : State) (p : Nat) (f : Part → Part) : (s.modPart p f).regions = s.regions := rfl
@[simp] theorem State.modPart_outputs (s : State) (p : Nat) (f : Part → Part) : (s.modPart p f).outputs = s.outputs := rfl

/-! modStream. -/

@[simp] theorem State.modStream_turns (s : State) (i : Nat) (f : Stream → Stream) : (s.modStream i f).turns = s.turns := rfl
@[simp] theorem State.modStream_rr (s : State) (i : Nat) (f : Stream → Stream) : (s.modStream i f).rr = s.rr := rfl
@[simp] theorem State.modStream_cx (s : State) (i : Nat) (f : Stream → Stream) : (s.modStream i f).cx = s.cx := rfl
@[simp] theorem State.modStream_cores (s : State) (i : Nat) (f : Stream → Stream) : (s.modStream i f).cores = s.cores := rfl
@[simp] theorem State.modStream_pairs (s : State) (i : Nat) (f : Stream → Stream) : (s.modStream i f).pairs = s.pairs := rfl
@[simp] theorem State.modStream_mem (s : State) (i : Nat) (f : Stream → Stream) : (s.modStream i f).mem = s.mem := rfl
@[simp] theorem State.modStream_poison (s : State) (i : Nat) (f : Stream → Stream) : (s.modStream i f).poison = s.poison := rfl
@[simp] theorem State.modStream_times (s : State) (i : Nat) (f : Stream → Stream) : (s.modStream i f).times = s.times := rfl
@[simp] theorem State.modStream_cycle (s : State) (i : Nat) (f : Stream → Stream) : (s.modStream i f).cycle = s.cycle := rfl
@[simp] theorem State.modStream_feOrder (s : State) (i : Nat) (f : Stream → Stream) : (s.modStream i f).feOrder = s.feOrder := rfl
@[simp] theorem State.modStream_fresh (s : State) (i : Nat) (f : Stream → Stream) : (s.modStream i f).fresh = s.fresh := rfl
@[simp] theorem State.modStream_tasks (s : State) (i : Nat) (f : Stream → Stream) : (s.modStream i f).tasks = s.tasks := rfl
@[simp] theorem State.modStream_ptr (s : State) (i : Nat) (f : Stream → Stream) : (s.modStream i f).ptr = s.ptr := rfl
@[simp] theorem State.modStream_cred (s : State) (i : Nat) (f : Stream → Stream) : (s.modStream i f).cred = s.cred := rfl
@[simp] theorem State.modStream_reserved (s : State) (i : Nat) (f : Stream → Stream) : (s.modStream i f).reserved = s.reserved := rfl
@[simp] theorem State.modStream_parts (s : State) (i : Nat) (f : Stream → Stream) : (s.modStream i f).parts = s.parts := rfl
@[simp] theorem State.modStream_cameras (s : State) (i : Nat) (f : Stream → Stream) : (s.modStream i f).cameras = s.cameras := rfl
@[simp] theorem State.modStream_decoders (s : State) (i : Nat) (f : Stream → Stream) : (s.modStream i f).decoders = s.decoders := rfl
@[simp] theorem State.modStream_windows (s : State) (i : Nat) (f : Stream → Stream) : (s.modStream i f).windows = s.windows := rfl
@[simp] theorem State.modStream_viewLines (s : State) (i : Nat) (f : Stream → Stream) : (s.modStream i f).viewLines = s.viewLines := rfl
@[simp] theorem State.modStream_rails (s : State) (i : Nat) (f : Stream → Stream) : (s.modStream i f).rails = s.rails := rfl
@[simp] theorem State.modStream_thermal (s : State) (i : Nat) (f : Stream → Stream) : (s.modStream i f).thermal = s.thermal := rfl
@[simp] theorem State.modStream_links (s : State) (i : Nat) (f : Stream → Stream) : (s.modStream i f).links = s.links := rfl
@[simp] theorem State.modStream_draining (s : State) (i : Nat) (f : Stream → Stream) : (s.modStream i f).draining = s.draining := rfl
@[simp] theorem State.modStream_lastDrain (s : State) (i : Nat) (f : Stream → Stream) : (s.modStream i f).lastDrain = s.lastDrain := rfl
@[simp] theorem State.modStream_outstanding (s : State) (i : Nat) (f : Stream → Stream) : (s.modStream i f).outstanding = s.outstanding := rfl
@[simp] theorem State.modStream_nextTag (s : State) (i : Nat) (f : Stream → Stream) : (s.modStream i f).nextTag = s.nextTag := rfl
@[simp] theorem State.modStream_mailboxes (s : State) (i : Nat) (f : Stream → Stream) : (s.modStream i f).mailboxes = s.mailboxes := rfl
@[simp] theorem State.modStream_goOrder (s : State) (i : Nat) (f : Stream → Stream) : (s.modStream i f).goOrder = s.goOrder := rfl
@[simp] theorem State.modStream_devEvents (s : State) (i : Nat) (f : Stream → Stream) : (s.modStream i f).devEvents = s.devEvents := rfl
@[simp] theorem State.modStream_sources (s : State) (i : Nat) (f : Stream → Stream) : (s.modStream i f).sources = s.sources := rfl
@[simp] theorem State.modStream_peerJoins (s : State) (i : Nat) (f : Stream → Stream) : (s.modStream i f).peerJoins = s.peerJoins := rfl
@[simp] theorem State.modStream_peerDone (s : State) (i : Nat) (f : Stream → Stream) : (s.modStream i f).peerDone = s.peerDone := rfl
@[simp] theorem State.modStream_bootState (s : State) (i : Nat) (f : Stream → Stream) : (s.modStream i f).bootState = s.bootState := rfl
@[simp] theorem State.modStream_failcode (s : State) (i : Nat) (f : Stream → Stream) : (s.modStream i f).failcode = s.failcode := rfl
@[simp] theorem State.modStream_romver (s : State) (i : Nat) (f : Stream → Stream) : (s.modStream i f).romver = s.romver := rfl
@[simp] theorem State.modStream_patchver (s : State) (i : Nat) (f : Stream → Stream) : (s.modStream i f).patchver = s.patchver := rfl
@[simp] theorem State.modStream_patch (s : State) (i : Nat) (f : Stream → Stream) : (s.modStream i f).patch = s.patch := rfl
@[simp] theorem State.modStream_flashPatch (s : State) (i : Nat) (f : Stream → Stream) : (s.modStream i f).flashPatch = s.flashPatch := rfl
@[simp] theorem State.modStream_bar2 (s : State) (i : Nat) (f : Stream → Stream) : (s.modStream i f).bar2 = s.bar2 := rfl
@[simp] theorem State.modStream_pacing (s : State) (i : Nat) (f : Stream → Stream) : (s.modStream i f).pacing = s.pacing := rfl
@[simp] theorem State.modStream_decodePeriods (s : State) (i : Nat) (f : Stream → Stream) : (s.modStream i f).decodePeriods = s.decodePeriods := rfl
@[simp] theorem State.modStream_config (s : State) (i : Nat) (f : Stream → Stream) : (s.modStream i f).config = s.config := rfl
@[simp] theorem State.modStream_regions (s : State) (i : Nat) (f : Stream → Stream) : (s.modStream i f).regions = s.regions := rfl
@[simp] theorem State.modStream_outputs (s : State) (i : Nat) (f : Stream → Stream) : (s.modStream i f).outputs = s.outputs := rfl

/-! modCamera. -/

@[simp] theorem State.modCamera_turns (s : State) (i : Nat) (f : Camera → Camera) : (s.modCamera i f).turns = s.turns := rfl
@[simp] theorem State.modCamera_rr (s : State) (i : Nat) (f : Camera → Camera) : (s.modCamera i f).rr = s.rr := rfl
@[simp] theorem State.modCamera_cx (s : State) (i : Nat) (f : Camera → Camera) : (s.modCamera i f).cx = s.cx := rfl
@[simp] theorem State.modCamera_cores (s : State) (i : Nat) (f : Camera → Camera) : (s.modCamera i f).cores = s.cores := rfl
@[simp] theorem State.modCamera_pairs (s : State) (i : Nat) (f : Camera → Camera) : (s.modCamera i f).pairs = s.pairs := rfl
@[simp] theorem State.modCamera_mem (s : State) (i : Nat) (f : Camera → Camera) : (s.modCamera i f).mem = s.mem := rfl
@[simp] theorem State.modCamera_poison (s : State) (i : Nat) (f : Camera → Camera) : (s.modCamera i f).poison = s.poison := rfl
@[simp] theorem State.modCamera_times (s : State) (i : Nat) (f : Camera → Camera) : (s.modCamera i f).times = s.times := rfl
@[simp] theorem State.modCamera_cycle (s : State) (i : Nat) (f : Camera → Camera) : (s.modCamera i f).cycle = s.cycle := rfl
@[simp] theorem State.modCamera_feOrder (s : State) (i : Nat) (f : Camera → Camera) : (s.modCamera i f).feOrder = s.feOrder := rfl
@[simp] theorem State.modCamera_fresh (s : State) (i : Nat) (f : Camera → Camera) : (s.modCamera i f).fresh = s.fresh := rfl
@[simp] theorem State.modCamera_tasks (s : State) (i : Nat) (f : Camera → Camera) : (s.modCamera i f).tasks = s.tasks := rfl
@[simp] theorem State.modCamera_streams (s : State) (i : Nat) (f : Camera → Camera) : (s.modCamera i f).streams = s.streams := rfl
@[simp] theorem State.modCamera_ptr (s : State) (i : Nat) (f : Camera → Camera) : (s.modCamera i f).ptr = s.ptr := rfl
@[simp] theorem State.modCamera_cred (s : State) (i : Nat) (f : Camera → Camera) : (s.modCamera i f).cred = s.cred := rfl
@[simp] theorem State.modCamera_reserved (s : State) (i : Nat) (f : Camera → Camera) : (s.modCamera i f).reserved = s.reserved := rfl
@[simp] theorem State.modCamera_parts (s : State) (i : Nat) (f : Camera → Camera) : (s.modCamera i f).parts = s.parts := rfl
@[simp] theorem State.modCamera_decoders (s : State) (i : Nat) (f : Camera → Camera) : (s.modCamera i f).decoders = s.decoders := rfl
@[simp] theorem State.modCamera_windows (s : State) (i : Nat) (f : Camera → Camera) : (s.modCamera i f).windows = s.windows := rfl
@[simp] theorem State.modCamera_viewLines (s : State) (i : Nat) (f : Camera → Camera) : (s.modCamera i f).viewLines = s.viewLines := rfl
@[simp] theorem State.modCamera_rails (s : State) (i : Nat) (f : Camera → Camera) : (s.modCamera i f).rails = s.rails := rfl
@[simp] theorem State.modCamera_thermal (s : State) (i : Nat) (f : Camera → Camera) : (s.modCamera i f).thermal = s.thermal := rfl
@[simp] theorem State.modCamera_links (s : State) (i : Nat) (f : Camera → Camera) : (s.modCamera i f).links = s.links := rfl
@[simp] theorem State.modCamera_draining (s : State) (i : Nat) (f : Camera → Camera) : (s.modCamera i f).draining = s.draining := rfl
@[simp] theorem State.modCamera_lastDrain (s : State) (i : Nat) (f : Camera → Camera) : (s.modCamera i f).lastDrain = s.lastDrain := rfl
@[simp] theorem State.modCamera_outstanding (s : State) (i : Nat) (f : Camera → Camera) : (s.modCamera i f).outstanding = s.outstanding := rfl
@[simp] theorem State.modCamera_nextTag (s : State) (i : Nat) (f : Camera → Camera) : (s.modCamera i f).nextTag = s.nextTag := rfl
@[simp] theorem State.modCamera_mailboxes (s : State) (i : Nat) (f : Camera → Camera) : (s.modCamera i f).mailboxes = s.mailboxes := rfl
@[simp] theorem State.modCamera_goOrder (s : State) (i : Nat) (f : Camera → Camera) : (s.modCamera i f).goOrder = s.goOrder := rfl
@[simp] theorem State.modCamera_devEvents (s : State) (i : Nat) (f : Camera → Camera) : (s.modCamera i f).devEvents = s.devEvents := rfl
@[simp] theorem State.modCamera_sources (s : State) (i : Nat) (f : Camera → Camera) : (s.modCamera i f).sources = s.sources := rfl
@[simp] theorem State.modCamera_peerJoins (s : State) (i : Nat) (f : Camera → Camera) : (s.modCamera i f).peerJoins = s.peerJoins := rfl
@[simp] theorem State.modCamera_peerDone (s : State) (i : Nat) (f : Camera → Camera) : (s.modCamera i f).peerDone = s.peerDone := rfl
@[simp] theorem State.modCamera_bootState (s : State) (i : Nat) (f : Camera → Camera) : (s.modCamera i f).bootState = s.bootState := rfl
@[simp] theorem State.modCamera_failcode (s : State) (i : Nat) (f : Camera → Camera) : (s.modCamera i f).failcode = s.failcode := rfl
@[simp] theorem State.modCamera_romver (s : State) (i : Nat) (f : Camera → Camera) : (s.modCamera i f).romver = s.romver := rfl
@[simp] theorem State.modCamera_patchver (s : State) (i : Nat) (f : Camera → Camera) : (s.modCamera i f).patchver = s.patchver := rfl
@[simp] theorem State.modCamera_patch (s : State) (i : Nat) (f : Camera → Camera) : (s.modCamera i f).patch = s.patch := rfl
@[simp] theorem State.modCamera_flashPatch (s : State) (i : Nat) (f : Camera → Camera) : (s.modCamera i f).flashPatch = s.flashPatch := rfl
@[simp] theorem State.modCamera_bar2 (s : State) (i : Nat) (f : Camera → Camera) : (s.modCamera i f).bar2 = s.bar2 := rfl
@[simp] theorem State.modCamera_pacing (s : State) (i : Nat) (f : Camera → Camera) : (s.modCamera i f).pacing = s.pacing := rfl
@[simp] theorem State.modCamera_decodePeriods (s : State) (i : Nat) (f : Camera → Camera) : (s.modCamera i f).decodePeriods = s.decodePeriods := rfl
@[simp] theorem State.modCamera_config (s : State) (i : Nat) (f : Camera → Camera) : (s.modCamera i f).config = s.config := rfl
@[simp] theorem State.modCamera_regions (s : State) (i : Nat) (f : Camera → Camera) : (s.modCamera i f).regions = s.regions := rfl
@[simp] theorem State.modCamera_outputs (s : State) (i : Nat) (f : Camera → Camera) : (s.modCamera i f).outputs = s.outputs := rfl

/-! modRail. -/

@[simp] theorem State.modRail_turns (s : State) (i : Nat) (f : Rail → Rail) : (s.modRail i f).turns = s.turns := rfl
@[simp] theorem State.modRail_rr (s : State) (i : Nat) (f : Rail → Rail) : (s.modRail i f).rr = s.rr := rfl
@[simp] theorem State.modRail_cx (s : State) (i : Nat) (f : Rail → Rail) : (s.modRail i f).cx = s.cx := rfl
@[simp] theorem State.modRail_cores (s : State) (i : Nat) (f : Rail → Rail) : (s.modRail i f).cores = s.cores := rfl
@[simp] theorem State.modRail_pairs (s : State) (i : Nat) (f : Rail → Rail) : (s.modRail i f).pairs = s.pairs := rfl
@[simp] theorem State.modRail_mem (s : State) (i : Nat) (f : Rail → Rail) : (s.modRail i f).mem = s.mem := rfl
@[simp] theorem State.modRail_poison (s : State) (i : Nat) (f : Rail → Rail) : (s.modRail i f).poison = s.poison := rfl
@[simp] theorem State.modRail_times (s : State) (i : Nat) (f : Rail → Rail) : (s.modRail i f).times = s.times := rfl
@[simp] theorem State.modRail_cycle (s : State) (i : Nat) (f : Rail → Rail) : (s.modRail i f).cycle = s.cycle := rfl
@[simp] theorem State.modRail_feOrder (s : State) (i : Nat) (f : Rail → Rail) : (s.modRail i f).feOrder = s.feOrder := rfl
@[simp] theorem State.modRail_fresh (s : State) (i : Nat) (f : Rail → Rail) : (s.modRail i f).fresh = s.fresh := rfl
@[simp] theorem State.modRail_tasks (s : State) (i : Nat) (f : Rail → Rail) : (s.modRail i f).tasks = s.tasks := rfl
@[simp] theorem State.modRail_streams (s : State) (i : Nat) (f : Rail → Rail) : (s.modRail i f).streams = s.streams := rfl
@[simp] theorem State.modRail_ptr (s : State) (i : Nat) (f : Rail → Rail) : (s.modRail i f).ptr = s.ptr := rfl
@[simp] theorem State.modRail_cred (s : State) (i : Nat) (f : Rail → Rail) : (s.modRail i f).cred = s.cred := rfl
@[simp] theorem State.modRail_reserved (s : State) (i : Nat) (f : Rail → Rail) : (s.modRail i f).reserved = s.reserved := rfl
@[simp] theorem State.modRail_parts (s : State) (i : Nat) (f : Rail → Rail) : (s.modRail i f).parts = s.parts := rfl
@[simp] theorem State.modRail_cameras (s : State) (i : Nat) (f : Rail → Rail) : (s.modRail i f).cameras = s.cameras := rfl
@[simp] theorem State.modRail_decoders (s : State) (i : Nat) (f : Rail → Rail) : (s.modRail i f).decoders = s.decoders := rfl
@[simp] theorem State.modRail_windows (s : State) (i : Nat) (f : Rail → Rail) : (s.modRail i f).windows = s.windows := rfl
@[simp] theorem State.modRail_viewLines (s : State) (i : Nat) (f : Rail → Rail) : (s.modRail i f).viewLines = s.viewLines := rfl
@[simp] theorem State.modRail_thermal (s : State) (i : Nat) (f : Rail → Rail) : (s.modRail i f).thermal = s.thermal := rfl
@[simp] theorem State.modRail_links (s : State) (i : Nat) (f : Rail → Rail) : (s.modRail i f).links = s.links := rfl
@[simp] theorem State.modRail_draining (s : State) (i : Nat) (f : Rail → Rail) : (s.modRail i f).draining = s.draining := rfl
@[simp] theorem State.modRail_lastDrain (s : State) (i : Nat) (f : Rail → Rail) : (s.modRail i f).lastDrain = s.lastDrain := rfl
@[simp] theorem State.modRail_outstanding (s : State) (i : Nat) (f : Rail → Rail) : (s.modRail i f).outstanding = s.outstanding := rfl
@[simp] theorem State.modRail_nextTag (s : State) (i : Nat) (f : Rail → Rail) : (s.modRail i f).nextTag = s.nextTag := rfl
@[simp] theorem State.modRail_mailboxes (s : State) (i : Nat) (f : Rail → Rail) : (s.modRail i f).mailboxes = s.mailboxes := rfl
@[simp] theorem State.modRail_goOrder (s : State) (i : Nat) (f : Rail → Rail) : (s.modRail i f).goOrder = s.goOrder := rfl
@[simp] theorem State.modRail_devEvents (s : State) (i : Nat) (f : Rail → Rail) : (s.modRail i f).devEvents = s.devEvents := rfl
@[simp] theorem State.modRail_sources (s : State) (i : Nat) (f : Rail → Rail) : (s.modRail i f).sources = s.sources := rfl
@[simp] theorem State.modRail_peerJoins (s : State) (i : Nat) (f : Rail → Rail) : (s.modRail i f).peerJoins = s.peerJoins := rfl
@[simp] theorem State.modRail_peerDone (s : State) (i : Nat) (f : Rail → Rail) : (s.modRail i f).peerDone = s.peerDone := rfl
@[simp] theorem State.modRail_bootState (s : State) (i : Nat) (f : Rail → Rail) : (s.modRail i f).bootState = s.bootState := rfl
@[simp] theorem State.modRail_failcode (s : State) (i : Nat) (f : Rail → Rail) : (s.modRail i f).failcode = s.failcode := rfl
@[simp] theorem State.modRail_romver (s : State) (i : Nat) (f : Rail → Rail) : (s.modRail i f).romver = s.romver := rfl
@[simp] theorem State.modRail_patchver (s : State) (i : Nat) (f : Rail → Rail) : (s.modRail i f).patchver = s.patchver := rfl
@[simp] theorem State.modRail_patch (s : State) (i : Nat) (f : Rail → Rail) : (s.modRail i f).patch = s.patch := rfl
@[simp] theorem State.modRail_flashPatch (s : State) (i : Nat) (f : Rail → Rail) : (s.modRail i f).flashPatch = s.flashPatch := rfl
@[simp] theorem State.modRail_bar2 (s : State) (i : Nat) (f : Rail → Rail) : (s.modRail i f).bar2 = s.bar2 := rfl
@[simp] theorem State.modRail_pacing (s : State) (i : Nat) (f : Rail → Rail) : (s.modRail i f).pacing = s.pacing := rfl
@[simp] theorem State.modRail_decodePeriods (s : State) (i : Nat) (f : Rail → Rail) : (s.modRail i f).decodePeriods = s.decodePeriods := rfl
@[simp] theorem State.modRail_config (s : State) (i : Nat) (f : Rail → Rail) : (s.modRail i f).config = s.config := rfl
@[simp] theorem State.modRail_regions (s : State) (i : Nat) (f : Rail → Rail) : (s.modRail i f).regions = s.regions := rfl
@[simp] theorem State.modRail_outputs (s : State) (i : Nat) (f : Rail → Rail) : (s.modRail i f).outputs = s.outputs := rfl

/-! modTask. -/

@[simp] theorem State.modTask_turns (s : State) (p i : Nat) (f : Task → Task) : (s.modTask p i f).turns = s.turns := rfl
@[simp] theorem State.modTask_rr (s : State) (p i : Nat) (f : Task → Task) : (s.modTask p i f).rr = s.rr := rfl
@[simp] theorem State.modTask_cx (s : State) (p i : Nat) (f : Task → Task) : (s.modTask p i f).cx = s.cx := rfl
@[simp] theorem State.modTask_cores (s : State) (p i : Nat) (f : Task → Task) : (s.modTask p i f).cores = s.cores := rfl
@[simp] theorem State.modTask_pairs (s : State) (p i : Nat) (f : Task → Task) : (s.modTask p i f).pairs = s.pairs := rfl
@[simp] theorem State.modTask_mem (s : State) (p i : Nat) (f : Task → Task) : (s.modTask p i f).mem = s.mem := rfl
@[simp] theorem State.modTask_poison (s : State) (p i : Nat) (f : Task → Task) : (s.modTask p i f).poison = s.poison := rfl
@[simp] theorem State.modTask_times (s : State) (p i : Nat) (f : Task → Task) : (s.modTask p i f).times = s.times := rfl
@[simp] theorem State.modTask_cycle (s : State) (p i : Nat) (f : Task → Task) : (s.modTask p i f).cycle = s.cycle := rfl
@[simp] theorem State.modTask_feOrder (s : State) (p i : Nat) (f : Task → Task) : (s.modTask p i f).feOrder = s.feOrder := rfl
@[simp] theorem State.modTask_fresh (s : State) (p i : Nat) (f : Task → Task) : (s.modTask p i f).fresh = s.fresh := rfl
@[simp] theorem State.modTask_streams (s : State) (p i : Nat) (f : Task → Task) : (s.modTask p i f).streams = s.streams := rfl
@[simp] theorem State.modTask_ptr (s : State) (p i : Nat) (f : Task → Task) : (s.modTask p i f).ptr = s.ptr := rfl
@[simp] theorem State.modTask_cred (s : State) (p i : Nat) (f : Task → Task) : (s.modTask p i f).cred = s.cred := rfl
@[simp] theorem State.modTask_reserved (s : State) (p i : Nat) (f : Task → Task) : (s.modTask p i f).reserved = s.reserved := rfl
@[simp] theorem State.modTask_parts (s : State) (p i : Nat) (f : Task → Task) : (s.modTask p i f).parts = s.parts := rfl
@[simp] theorem State.modTask_cameras (s : State) (p i : Nat) (f : Task → Task) : (s.modTask p i f).cameras = s.cameras := rfl
@[simp] theorem State.modTask_decoders (s : State) (p i : Nat) (f : Task → Task) : (s.modTask p i f).decoders = s.decoders := rfl
@[simp] theorem State.modTask_windows (s : State) (p i : Nat) (f : Task → Task) : (s.modTask p i f).windows = s.windows := rfl
@[simp] theorem State.modTask_viewLines (s : State) (p i : Nat) (f : Task → Task) : (s.modTask p i f).viewLines = s.viewLines := rfl
@[simp] theorem State.modTask_rails (s : State) (p i : Nat) (f : Task → Task) : (s.modTask p i f).rails = s.rails := rfl
@[simp] theorem State.modTask_thermal (s : State) (p i : Nat) (f : Task → Task) : (s.modTask p i f).thermal = s.thermal := rfl
@[simp] theorem State.modTask_links (s : State) (p i : Nat) (f : Task → Task) : (s.modTask p i f).links = s.links := rfl
@[simp] theorem State.modTask_draining (s : State) (p i : Nat) (f : Task → Task) : (s.modTask p i f).draining = s.draining := rfl
@[simp] theorem State.modTask_lastDrain (s : State) (p i : Nat) (f : Task → Task) : (s.modTask p i f).lastDrain = s.lastDrain := rfl
@[simp] theorem State.modTask_outstanding (s : State) (p i : Nat) (f : Task → Task) : (s.modTask p i f).outstanding = s.outstanding := rfl
@[simp] theorem State.modTask_nextTag (s : State) (p i : Nat) (f : Task → Task) : (s.modTask p i f).nextTag = s.nextTag := rfl
@[simp] theorem State.modTask_mailboxes (s : State) (p i : Nat) (f : Task → Task) : (s.modTask p i f).mailboxes = s.mailboxes := rfl
@[simp] theorem State.modTask_goOrder (s : State) (p i : Nat) (f : Task → Task) : (s.modTask p i f).goOrder = s.goOrder := rfl
@[simp] theorem State.modTask_devEvents (s : State) (p i : Nat) (f : Task → Task) : (s.modTask p i f).devEvents = s.devEvents := rfl
@[simp] theorem State.modTask_sources (s : State) (p i : Nat) (f : Task → Task) : (s.modTask p i f).sources = s.sources := rfl
@[simp] theorem State.modTask_peerJoins (s : State) (p i : Nat) (f : Task → Task) : (s.modTask p i f).peerJoins = s.peerJoins := rfl
@[simp] theorem State.modTask_peerDone (s : State) (p i : Nat) (f : Task → Task) : (s.modTask p i f).peerDone = s.peerDone := rfl
@[simp] theorem State.modTask_bootState (s : State) (p i : Nat) (f : Task → Task) : (s.modTask p i f).bootState = s.bootState := rfl
@[simp] theorem State.modTask_failcode (s : State) (p i : Nat) (f : Task → Task) : (s.modTask p i f).failcode = s.failcode := rfl
@[simp] theorem State.modTask_romver (s : State) (p i : Nat) (f : Task → Task) : (s.modTask p i f).romver = s.romver := rfl
@[simp] theorem State.modTask_patchver (s : State) (p i : Nat) (f : Task → Task) : (s.modTask p i f).patchver = s.patchver := rfl
@[simp] theorem State.modTask_patch (s : State) (p i : Nat) (f : Task → Task) : (s.modTask p i f).patch = s.patch := rfl
@[simp] theorem State.modTask_flashPatch (s : State) (p i : Nat) (f : Task → Task) : (s.modTask p i f).flashPatch = s.flashPatch := rfl
@[simp] theorem State.modTask_bar2 (s : State) (p i : Nat) (f : Task → Task) : (s.modTask p i f).bar2 = s.bar2 := rfl
@[simp] theorem State.modTask_pacing (s : State) (p i : Nat) (f : Task → Task) : (s.modTask p i f).pacing = s.pacing := rfl
@[simp] theorem State.modTask_decodePeriods (s : State) (p i : Nat) (f : Task → Task) : (s.modTask p i f).decodePeriods = s.decodePeriods := rfl
@[simp] theorem State.modTask_config (s : State) (p i : Nat) (f : Task → Task) : (s.modTask p i f).config = s.config := rfl
@[simp] theorem State.modTask_regions (s : State) (p i : Nat) (f : Task → Task) : (s.modTask p i f).regions = s.regions := rfl
@[simp] theorem State.modTask_outputs (s : State) (p i : Nat) (f : Task → Task) : (s.modTask p i f).outputs = s.outputs := rfl

/-! deferSig. -/

@[simp] theorem State.deferSig_turns (s : State) : (s.deferSig).turns = s.turns := rfl
@[simp] theorem State.deferSig_rr (s : State) : (s.deferSig).rr = s.rr := rfl
@[simp] theorem State.deferSig_cores (s : State) : (s.deferSig).cores = s.cores := rfl
@[simp] theorem State.deferSig_pairs (s : State) : (s.deferSig).pairs = s.pairs := rfl
@[simp] theorem State.deferSig_mem (s : State) : (s.deferSig).mem = s.mem := rfl
@[simp] theorem State.deferSig_poison (s : State) : (s.deferSig).poison = s.poison := rfl
@[simp] theorem State.deferSig_times (s : State) : (s.deferSig).times = s.times := rfl
@[simp] theorem State.deferSig_cycle (s : State) : (s.deferSig).cycle = s.cycle := rfl
@[simp] theorem State.deferSig_feOrder (s : State) : (s.deferSig).feOrder = s.feOrder := rfl
@[simp] theorem State.deferSig_fresh (s : State) : (s.deferSig).fresh = s.fresh := rfl
@[simp] theorem State.deferSig_tasks (s : State) : (s.deferSig).tasks = s.tasks := rfl
@[simp] theorem State.deferSig_streams (s : State) : (s.deferSig).streams = s.streams := rfl
@[simp] theorem State.deferSig_ptr (s : State) : (s.deferSig).ptr = s.ptr := rfl
@[simp] theorem State.deferSig_cred (s : State) : (s.deferSig).cred = s.cred := rfl
@[simp] theorem State.deferSig_reserved (s : State) : (s.deferSig).reserved = s.reserved := rfl
@[simp] theorem State.deferSig_parts (s : State) : (s.deferSig).parts = s.parts := rfl
@[simp] theorem State.deferSig_cameras (s : State) : (s.deferSig).cameras = s.cameras := rfl
@[simp] theorem State.deferSig_decoders (s : State) : (s.deferSig).decoders = s.decoders := rfl
@[simp] theorem State.deferSig_windows (s : State) : (s.deferSig).windows = s.windows := rfl
@[simp] theorem State.deferSig_viewLines (s : State) : (s.deferSig).viewLines = s.viewLines := rfl
@[simp] theorem State.deferSig_rails (s : State) : (s.deferSig).rails = s.rails := rfl
@[simp] theorem State.deferSig_thermal (s : State) : (s.deferSig).thermal = s.thermal := rfl
@[simp] theorem State.deferSig_links (s : State) : (s.deferSig).links = s.links := rfl
@[simp] theorem State.deferSig_draining (s : State) : (s.deferSig).draining = s.draining := rfl
@[simp] theorem State.deferSig_lastDrain (s : State) : (s.deferSig).lastDrain = s.lastDrain := rfl
@[simp] theorem State.deferSig_outstanding (s : State) : (s.deferSig).outstanding = s.outstanding := rfl
@[simp] theorem State.deferSig_nextTag (s : State) : (s.deferSig).nextTag = s.nextTag := rfl
@[simp] theorem State.deferSig_mailboxes (s : State) : (s.deferSig).mailboxes = s.mailboxes := rfl
@[simp] theorem State.deferSig_goOrder (s : State) : (s.deferSig).goOrder = s.goOrder := rfl
@[simp] theorem State.deferSig_devEvents (s : State) : (s.deferSig).devEvents = s.devEvents := rfl
@[simp] theorem State.deferSig_sources (s : State) : (s.deferSig).sources = s.sources := rfl
@[simp] theorem State.deferSig_peerJoins (s : State) : (s.deferSig).peerJoins = s.peerJoins := rfl
@[simp] theorem State.deferSig_peerDone (s : State) : (s.deferSig).peerDone = s.peerDone := rfl
@[simp] theorem State.deferSig_bootState (s : State) : (s.deferSig).bootState = s.bootState := rfl
@[simp] theorem State.deferSig_failcode (s : State) : (s.deferSig).failcode = s.failcode := rfl
@[simp] theorem State.deferSig_romver (s : State) : (s.deferSig).romver = s.romver := rfl
@[simp] theorem State.deferSig_patchver (s : State) : (s.deferSig).patchver = s.patchver := rfl
@[simp] theorem State.deferSig_patch (s : State) : (s.deferSig).patch = s.patch := rfl
@[simp] theorem State.deferSig_flashPatch (s : State) : (s.deferSig).flashPatch = s.flashPatch := rfl
@[simp] theorem State.deferSig_bar2 (s : State) : (s.deferSig).bar2 = s.bar2 := rfl
@[simp] theorem State.deferSig_pacing (s : State) : (s.deferSig).pacing = s.pacing := rfl
@[simp] theorem State.deferSig_decodePeriods (s : State) : (s.deferSig).decodePeriods = s.decodePeriods := rfl
@[simp] theorem State.deferSig_config (s : State) : (s.deferSig).config = s.config := rfl
@[simp] theorem State.deferSig_regions (s : State) : (s.deferSig).regions = s.regions := rfl
@[simp] theorem State.deferSig_outputs (s : State) : (s.deferSig).outputs = s.outputs := rfl

/-! goto. -/

@[simp] theorem State.goto_turns (s : State) (pc : BitVec 32) : (s.goto pc).turns = s.turns := rfl
@[simp] theorem State.goto_rr (s : State) (pc : BitVec 32) : (s.goto pc).rr = s.rr := rfl
@[simp] theorem State.goto_cores (s : State) (pc : BitVec 32) : (s.goto pc).cores = s.cores := rfl
@[simp] theorem State.goto_pairs (s : State) (pc : BitVec 32) : (s.goto pc).pairs = s.pairs := rfl
@[simp] theorem State.goto_mem (s : State) (pc : BitVec 32) : (s.goto pc).mem = s.mem := rfl
@[simp] theorem State.goto_poison (s : State) (pc : BitVec 32) : (s.goto pc).poison = s.poison := rfl
@[simp] theorem State.goto_times (s : State) (pc : BitVec 32) : (s.goto pc).times = s.times := rfl
@[simp] theorem State.goto_cycle (s : State) (pc : BitVec 32) : (s.goto pc).cycle = s.cycle := rfl
@[simp] theorem State.goto_feOrder (s : State) (pc : BitVec 32) : (s.goto pc).feOrder = s.feOrder := rfl
@[simp] theorem State.goto_fresh (s : State) (pc : BitVec 32) : (s.goto pc).fresh = s.fresh := rfl
@[simp] theorem State.goto_tasks (s : State) (pc : BitVec 32) : (s.goto pc).tasks = s.tasks := rfl
@[simp] theorem State.goto_streams (s : State) (pc : BitVec 32) : (s.goto pc).streams = s.streams := rfl
@[simp] theorem State.goto_ptr (s : State) (pc : BitVec 32) : (s.goto pc).ptr = s.ptr := rfl
@[simp] theorem State.goto_cred (s : State) (pc : BitVec 32) : (s.goto pc).cred = s.cred := rfl
@[simp] theorem State.goto_reserved (s : State) (pc : BitVec 32) : (s.goto pc).reserved = s.reserved := rfl
@[simp] theorem State.goto_parts (s : State) (pc : BitVec 32) : (s.goto pc).parts = s.parts := rfl
@[simp] theorem State.goto_cameras (s : State) (pc : BitVec 32) : (s.goto pc).cameras = s.cameras := rfl
@[simp] theorem State.goto_decoders (s : State) (pc : BitVec 32) : (s.goto pc).decoders = s.decoders := rfl
@[simp] theorem State.goto_windows (s : State) (pc : BitVec 32) : (s.goto pc).windows = s.windows := rfl
@[simp] theorem State.goto_viewLines (s : State) (pc : BitVec 32) : (s.goto pc).viewLines = s.viewLines := rfl
@[simp] theorem State.goto_rails (s : State) (pc : BitVec 32) : (s.goto pc).rails = s.rails := rfl
@[simp] theorem State.goto_thermal (s : State) (pc : BitVec 32) : (s.goto pc).thermal = s.thermal := rfl
@[simp] theorem State.goto_links (s : State) (pc : BitVec 32) : (s.goto pc).links = s.links := rfl
@[simp] theorem State.goto_draining (s : State) (pc : BitVec 32) : (s.goto pc).draining = s.draining := rfl
@[simp] theorem State.goto_lastDrain (s : State) (pc : BitVec 32) : (s.goto pc).lastDrain = s.lastDrain := rfl
@[simp] theorem State.goto_outstanding (s : State) (pc : BitVec 32) : (s.goto pc).outstanding = s.outstanding := rfl
@[simp] theorem State.goto_nextTag (s : State) (pc : BitVec 32) : (s.goto pc).nextTag = s.nextTag := rfl
@[simp] theorem State.goto_mailboxes (s : State) (pc : BitVec 32) : (s.goto pc).mailboxes = s.mailboxes := rfl
@[simp] theorem State.goto_goOrder (s : State) (pc : BitVec 32) : (s.goto pc).goOrder = s.goOrder := rfl
@[simp] theorem State.goto_devEvents (s : State) (pc : BitVec 32) : (s.goto pc).devEvents = s.devEvents := rfl
@[simp] theorem State.goto_sources (s : State) (pc : BitVec 32) : (s.goto pc).sources = s.sources := rfl
@[simp] theorem State.goto_peerJoins (s : State) (pc : BitVec 32) : (s.goto pc).peerJoins = s.peerJoins := rfl
@[simp] theorem State.goto_peerDone (s : State) (pc : BitVec 32) : (s.goto pc).peerDone = s.peerDone := rfl
@[simp] theorem State.goto_bootState (s : State) (pc : BitVec 32) : (s.goto pc).bootState = s.bootState := rfl
@[simp] theorem State.goto_failcode (s : State) (pc : BitVec 32) : (s.goto pc).failcode = s.failcode := rfl
@[simp] theorem State.goto_romver (s : State) (pc : BitVec 32) : (s.goto pc).romver = s.romver := rfl
@[simp] theorem State.goto_patchver (s : State) (pc : BitVec 32) : (s.goto pc).patchver = s.patchver := rfl
@[simp] theorem State.goto_patch (s : State) (pc : BitVec 32) : (s.goto pc).patch = s.patch := rfl
@[simp] theorem State.goto_flashPatch (s : State) (pc : BitVec 32) : (s.goto pc).flashPatch = s.flashPatch := rfl
@[simp] theorem State.goto_bar2 (s : State) (pc : BitVec 32) : (s.goto pc).bar2 = s.bar2 := rfl
@[simp] theorem State.goto_pacing (s : State) (pc : BitVec 32) : (s.goto pc).pacing = s.pacing := rfl
@[simp] theorem State.goto_decodePeriods (s : State) (pc : BitVec 32) : (s.goto pc).decodePeriods = s.decodePeriods := rfl
@[simp] theorem State.goto_config (s : State) (pc : BitVec 32) : (s.goto pc).config = s.config := rfl
@[simp] theorem State.goto_regions (s : State) (pc : BitVec 32) : (s.goto pc).regions = s.regions := rfl
@[simp] theorem State.goto_outputs (s : State) (pc : BitVec 32) : (s.goto pc).outputs = s.outputs := rfl

/-! stay. -/

@[simp] theorem State.stay_turns (s : State) : (s.stay).turns = s.turns := rfl
@[simp] theorem State.stay_rr (s : State) : (s.stay).rr = s.rr := rfl
@[simp] theorem State.stay_cores (s : State) : (s.stay).cores = s.cores := rfl
@[simp] theorem State.stay_pairs (s : State) : (s.stay).pairs = s.pairs := rfl
@[simp] theorem State.stay_mem (s : State) : (s.stay).mem = s.mem := rfl
@[simp] theorem State.stay_poison (s : State) : (s.stay).poison = s.poison := rfl
@[simp] theorem State.stay_times (s : State) : (s.stay).times = s.times := rfl
@[simp] theorem State.stay_cycle (s : State) : (s.stay).cycle = s.cycle := rfl
@[simp] theorem State.stay_feOrder (s : State) : (s.stay).feOrder = s.feOrder := rfl
@[simp] theorem State.stay_fresh (s : State) : (s.stay).fresh = s.fresh := rfl
@[simp] theorem State.stay_tasks (s : State) : (s.stay).tasks = s.tasks := rfl
@[simp] theorem State.stay_streams (s : State) : (s.stay).streams = s.streams := rfl
@[simp] theorem State.stay_ptr (s : State) : (s.stay).ptr = s.ptr := rfl
@[simp] theorem State.stay_cred (s : State) : (s.stay).cred = s.cred := rfl
@[simp] theorem State.stay_reserved (s : State) : (s.stay).reserved = s.reserved := rfl
@[simp] theorem State.stay_parts (s : State) : (s.stay).parts = s.parts := rfl
@[simp] theorem State.stay_cameras (s : State) : (s.stay).cameras = s.cameras := rfl
@[simp] theorem State.stay_decoders (s : State) : (s.stay).decoders = s.decoders := rfl
@[simp] theorem State.stay_windows (s : State) : (s.stay).windows = s.windows := rfl
@[simp] theorem State.stay_viewLines (s : State) : (s.stay).viewLines = s.viewLines := rfl
@[simp] theorem State.stay_rails (s : State) : (s.stay).rails = s.rails := rfl
@[simp] theorem State.stay_thermal (s : State) : (s.stay).thermal = s.thermal := rfl
@[simp] theorem State.stay_links (s : State) : (s.stay).links = s.links := rfl
@[simp] theorem State.stay_draining (s : State) : (s.stay).draining = s.draining := rfl
@[simp] theorem State.stay_lastDrain (s : State) : (s.stay).lastDrain = s.lastDrain := rfl
@[simp] theorem State.stay_outstanding (s : State) : (s.stay).outstanding = s.outstanding := rfl
@[simp] theorem State.stay_nextTag (s : State) : (s.stay).nextTag = s.nextTag := rfl
@[simp] theorem State.stay_mailboxes (s : State) : (s.stay).mailboxes = s.mailboxes := rfl
@[simp] theorem State.stay_goOrder (s : State) : (s.stay).goOrder = s.goOrder := rfl
@[simp] theorem State.stay_devEvents (s : State) : (s.stay).devEvents = s.devEvents := rfl
@[simp] theorem State.stay_sources (s : State) : (s.stay).sources = s.sources := rfl
@[simp] theorem State.stay_peerJoins (s : State) : (s.stay).peerJoins = s.peerJoins := rfl
@[simp] theorem State.stay_peerDone (s : State) : (s.stay).peerDone = s.peerDone := rfl
@[simp] theorem State.stay_bootState (s : State) : (s.stay).bootState = s.bootState := rfl
@[simp] theorem State.stay_failcode (s : State) : (s.stay).failcode = s.failcode := rfl
@[simp] theorem State.stay_romver (s : State) : (s.stay).romver = s.romver := rfl
@[simp] theorem State.stay_patchver (s : State) : (s.stay).patchver = s.patchver := rfl
@[simp] theorem State.stay_patch (s : State) : (s.stay).patch = s.patch := rfl
@[simp] theorem State.stay_flashPatch (s : State) : (s.stay).flashPatch = s.flashPatch := rfl
@[simp] theorem State.stay_bar2 (s : State) : (s.stay).bar2 = s.bar2 := rfl
@[simp] theorem State.stay_pacing (s : State) : (s.stay).pacing = s.pacing := rfl
@[simp] theorem State.stay_decodePeriods (s : State) : (s.stay).decodePeriods = s.decodePeriods := rfl
@[simp] theorem State.stay_config (s : State) : (s.stay).config = s.config := rfl
@[simp] theorem State.stay_regions (s : State) : (s.stay).regions = s.regions := rfl
@[simp] theorem State.stay_outputs (s : State) : (s.stay).outputs = s.outputs := rfl

/-- A request that leaves touches its core and the order of full/empty requests alone. -/
theorem State.leaves_only (s : State) (o : Outstanding) : s.leaves o = { s with cores := (s.leaves o).cores, feOrder := (s.leaves o).feOrder } := by
  unfold State.leaves
  split
  · split <;> rfl
  · rfl

theorem State.foldl_leaves_only (l : List Outstanding) (s : State) :
    l.foldl State.leaves s = { s with cores := (l.foldl State.leaves s).cores, feOrder := (l.foldl State.leaves s).feOrder } := by
  induction l generalizing s with
  | nil => rfl
  | cons o r ih =>
    rw [List.foldl_cons, ih (s.leaves o), State.leaves_only s o]

/-- The end of a drain touches the drain, the requests, their cores and the order of full/empty requests alone. -/
theorem State.drainLimit_only (s : State) : s.drainLimit =
    { s with
      draining := s.drainLimit.draining
      outstanding := s.drainLimit.outstanding
      cores := s.drainLimit.cores
      feOrder := s.drainLimit.feOrder } := by
  unfold State.drainLimit
  split
  · unfold State.endDrain
    rw [State.foldl_leaves_only]
  · rfl

/-! drainLimit. -/

@[simp] theorem State.drainLimit_turns (s : State) : (s.drainLimit).turns = s.turns := by rw [State.drainLimit_only]
@[simp] theorem State.drainLimit_rr (s : State) : (s.drainLimit).rr = s.rr := by rw [State.drainLimit_only]
@[simp] theorem State.drainLimit_cx (s : State) : (s.drainLimit).cx = s.cx := by rw [State.drainLimit_only]
@[simp] theorem State.drainLimit_pairs (s : State) : (s.drainLimit).pairs = s.pairs := by rw [State.drainLimit_only]
@[simp] theorem State.drainLimit_mem (s : State) : (s.drainLimit).mem = s.mem := by rw [State.drainLimit_only]
@[simp] theorem State.drainLimit_poison (s : State) : (s.drainLimit).poison = s.poison := by rw [State.drainLimit_only]
@[simp] theorem State.drainLimit_times (s : State) : (s.drainLimit).times = s.times := by rw [State.drainLimit_only]
@[simp] theorem State.drainLimit_cycle (s : State) : (s.drainLimit).cycle = s.cycle := by rw [State.drainLimit_only]
@[simp] theorem State.drainLimit_fresh (s : State) : (s.drainLimit).fresh = s.fresh := by rw [State.drainLimit_only]
@[simp] theorem State.drainLimit_tasks (s : State) : (s.drainLimit).tasks = s.tasks := by rw [State.drainLimit_only]
@[simp] theorem State.drainLimit_streams (s : State) : (s.drainLimit).streams = s.streams := by rw [State.drainLimit_only]
@[simp] theorem State.drainLimit_ptr (s : State) : (s.drainLimit).ptr = s.ptr := by rw [State.drainLimit_only]
@[simp] theorem State.drainLimit_cred (s : State) : (s.drainLimit).cred = s.cred := by rw [State.drainLimit_only]
@[simp] theorem State.drainLimit_reserved (s : State) : (s.drainLimit).reserved = s.reserved := by rw [State.drainLimit_only]
@[simp] theorem State.drainLimit_parts (s : State) : (s.drainLimit).parts = s.parts := by rw [State.drainLimit_only]
@[simp] theorem State.drainLimit_cameras (s : State) : (s.drainLimit).cameras = s.cameras := by rw [State.drainLimit_only]
@[simp] theorem State.drainLimit_decoders (s : State) : (s.drainLimit).decoders = s.decoders := by rw [State.drainLimit_only]
@[simp] theorem State.drainLimit_windows (s : State) : (s.drainLimit).windows = s.windows := by rw [State.drainLimit_only]
@[simp] theorem State.drainLimit_viewLines (s : State) : (s.drainLimit).viewLines = s.viewLines := by rw [State.drainLimit_only]
@[simp] theorem State.drainLimit_rails (s : State) : (s.drainLimit).rails = s.rails := by rw [State.drainLimit_only]
@[simp] theorem State.drainLimit_thermal (s : State) : (s.drainLimit).thermal = s.thermal := by rw [State.drainLimit_only]
@[simp] theorem State.drainLimit_links (s : State) : (s.drainLimit).links = s.links := by rw [State.drainLimit_only]
@[simp] theorem State.drainLimit_lastDrain (s : State) : (s.drainLimit).lastDrain = s.lastDrain := by rw [State.drainLimit_only]
@[simp] theorem State.drainLimit_nextTag (s : State) : (s.drainLimit).nextTag = s.nextTag := by rw [State.drainLimit_only]
@[simp] theorem State.drainLimit_mailboxes (s : State) : (s.drainLimit).mailboxes = s.mailboxes := by rw [State.drainLimit_only]
@[simp] theorem State.drainLimit_goOrder (s : State) : (s.drainLimit).goOrder = s.goOrder := by rw [State.drainLimit_only]
@[simp] theorem State.drainLimit_devEvents (s : State) : (s.drainLimit).devEvents = s.devEvents := by rw [State.drainLimit_only]
@[simp] theorem State.drainLimit_sources (s : State) : (s.drainLimit).sources = s.sources := by rw [State.drainLimit_only]
@[simp] theorem State.drainLimit_peerJoins (s : State) : (s.drainLimit).peerJoins = s.peerJoins := by rw [State.drainLimit_only]
@[simp] theorem State.drainLimit_peerDone (s : State) : (s.drainLimit).peerDone = s.peerDone := by rw [State.drainLimit_only]
@[simp] theorem State.drainLimit_bootState (s : State) : (s.drainLimit).bootState = s.bootState := by rw [State.drainLimit_only]
@[simp] theorem State.drainLimit_failcode (s : State) : (s.drainLimit).failcode = s.failcode := by rw [State.drainLimit_only]
@[simp] theorem State.drainLimit_romver (s : State) : (s.drainLimit).romver = s.romver := by rw [State.drainLimit_only]
@[simp] theorem State.drainLimit_patchver (s : State) : (s.drainLimit).patchver = s.patchver := by rw [State.drainLimit_only]
@[simp] theorem State.drainLimit_patch (s : State) : (s.drainLimit).patch = s.patch := by rw [State.drainLimit_only]
@[simp] theorem State.drainLimit_flashPatch (s : State) : (s.drainLimit).flashPatch = s.flashPatch := by rw [State.drainLimit_only]
@[simp] theorem State.drainLimit_bar2 (s : State) : (s.drainLimit).bar2 = s.bar2 := by rw [State.drainLimit_only]
@[simp] theorem State.drainLimit_pacing (s : State) : (s.drainLimit).pacing = s.pacing := by rw [State.drainLimit_only]
@[simp] theorem State.drainLimit_decodePeriods (s : State) : (s.drainLimit).decodePeriods = s.decodePeriods := by rw [State.drainLimit_only]
@[simp] theorem State.drainLimit_config (s : State) : (s.drainLimit).config = s.config := by rw [State.drainLimit_only]
@[simp] theorem State.drainLimit_regions (s : State) : (s.drainLimit).regions = s.regions := by rw [State.drainLimit_only]
@[simp] theorem State.drainLimit_outputs (s : State) : (s.drainLimit).outputs = s.outputs := by rw [State.drainLimit_only]

/-! tick. -/

@[simp] theorem State.tick_turns (s : State) : (s.tick).turns = s.turns := State.drainLimit_turns _
@[simp] theorem State.tick_rr (s : State) : (s.tick).rr = s.rr := State.drainLimit_rr _
@[simp] theorem State.tick_cx (s : State) : (s.tick).cx = s.cx := State.drainLimit_cx _
@[simp] theorem State.tick_pairs (s : State) : (s.tick).pairs = s.pairs := State.drainLimit_pairs _
@[simp] theorem State.tick_mem (s : State) : (s.tick).mem = s.mem := State.drainLimit_mem _
@[simp] theorem State.tick_poison (s : State) : (s.tick).poison = s.poison := State.drainLimit_poison _
@[simp] theorem State.tick_times (s : State) : (s.tick).times = s.times := State.drainLimit_times _
@[simp] theorem State.tick_fresh (s : State) : (s.tick).fresh = s.fresh := State.drainLimit_fresh _
@[simp] theorem State.tick_tasks (s : State) : (s.tick).tasks = s.tasks := State.drainLimit_tasks _
@[simp] theorem State.tick_streams (s : State) : (s.tick).streams = s.streams := State.drainLimit_streams _
@[simp] theorem State.tick_ptr (s : State) : (s.tick).ptr = s.ptr := State.drainLimit_ptr _
@[simp] theorem State.tick_cred (s : State) : (s.tick).cred = s.cred := State.drainLimit_cred _
@[simp] theorem State.tick_reserved (s : State) : (s.tick).reserved = s.reserved := State.drainLimit_reserved _
@[simp] theorem State.tick_parts (s : State) : (s.tick).parts = s.parts := State.drainLimit_parts _
@[simp] theorem State.tick_cameras (s : State) : (s.tick).cameras = s.cameras := State.drainLimit_cameras _
@[simp] theorem State.tick_decoders (s : State) : (s.tick).decoders = s.decoders := State.drainLimit_decoders _
@[simp] theorem State.tick_windows (s : State) : (s.tick).windows = s.windows := State.drainLimit_windows _
@[simp] theorem State.tick_viewLines (s : State) : (s.tick).viewLines = s.viewLines := State.drainLimit_viewLines _
@[simp] theorem State.tick_rails (s : State) : (s.tick).rails = s.rails := State.drainLimit_rails _
@[simp] theorem State.tick_thermal (s : State) : (s.tick).thermal = s.thermal := State.drainLimit_thermal _
@[simp] theorem State.tick_links (s : State) : (s.tick).links = s.links := State.drainLimit_links _
@[simp] theorem State.tick_lastDrain (s : State) : (s.tick).lastDrain = s.lastDrain := State.drainLimit_lastDrain _
@[simp] theorem State.tick_nextTag (s : State) : (s.tick).nextTag = s.nextTag := State.drainLimit_nextTag _
@[simp] theorem State.tick_mailboxes (s : State) : (s.tick).mailboxes = s.mailboxes := State.drainLimit_mailboxes _
@[simp] theorem State.tick_goOrder (s : State) : (s.tick).goOrder = s.goOrder := State.drainLimit_goOrder _
@[simp] theorem State.tick_devEvents (s : State) : (s.tick).devEvents = s.devEvents := State.drainLimit_devEvents _
@[simp] theorem State.tick_sources (s : State) : (s.tick).sources = s.sources := State.drainLimit_sources _
@[simp] theorem State.tick_peerJoins (s : State) : (s.tick).peerJoins = s.peerJoins := State.drainLimit_peerJoins _
@[simp] theorem State.tick_peerDone (s : State) : (s.tick).peerDone = s.peerDone := State.drainLimit_peerDone _
@[simp] theorem State.tick_bootState (s : State) : (s.tick).bootState = s.bootState := State.drainLimit_bootState _
@[simp] theorem State.tick_failcode (s : State) : (s.tick).failcode = s.failcode := State.drainLimit_failcode _
@[simp] theorem State.tick_romver (s : State) : (s.tick).romver = s.romver := State.drainLimit_romver _
@[simp] theorem State.tick_patchver (s : State) : (s.tick).patchver = s.patchver := State.drainLimit_patchver _
@[simp] theorem State.tick_patch (s : State) : (s.tick).patch = s.patch := State.drainLimit_patch _
@[simp] theorem State.tick_flashPatch (s : State) : (s.tick).flashPatch = s.flashPatch := State.drainLimit_flashPatch _
@[simp] theorem State.tick_bar2 (s : State) : (s.tick).bar2 = s.bar2 := State.drainLimit_bar2 _
@[simp] theorem State.tick_pacing (s : State) : (s.tick).pacing = s.pacing := State.drainLimit_pacing _
@[simp] theorem State.tick_decodePeriods (s : State) : (s.tick).decodePeriods = s.decodePeriods := State.drainLimit_decodePeriods _
@[simp] theorem State.tick_config (s : State) : (s.tick).config = s.config := State.drainLimit_config _
@[simp] theorem State.tick_regions (s : State) : (s.tick).regions = s.regions := State.drainLimit_regions _
@[simp] theorem State.tick_outputs (s : State) : (s.tick).outputs = s.outputs := State.drainLimit_outputs _

/-! msix. -/

@[simp] theorem State.msix_turns (s : State) (fn v : Nat) : (s.msix fn v).turns = s.turns := rfl
@[simp] theorem State.msix_rr (s : State) (fn v : Nat) : (s.msix fn v).rr = s.rr := rfl
@[simp] theorem State.msix_cx (s : State) (fn v : Nat) : (s.msix fn v).cx = s.cx := rfl
@[simp] theorem State.msix_cores (s : State) (fn v : Nat) : (s.msix fn v).cores = s.cores := rfl
@[simp] theorem State.msix_pairs (s : State) (fn v : Nat) : (s.msix fn v).pairs = s.pairs := rfl
@[simp] theorem State.msix_mem (s : State) (fn v : Nat) : (s.msix fn v).mem = s.mem := rfl
@[simp] theorem State.msix_poison (s : State) (fn v : Nat) : (s.msix fn v).poison = s.poison := rfl
@[simp] theorem State.msix_times (s : State) (fn v : Nat) : (s.msix fn v).times = s.times := rfl
@[simp] theorem State.msix_cycle (s : State) (fn v : Nat) : (s.msix fn v).cycle = s.cycle := rfl
@[simp] theorem State.msix_feOrder (s : State) (fn v : Nat) : (s.msix fn v).feOrder = s.feOrder := rfl
@[simp] theorem State.msix_fresh (s : State) (fn v : Nat) : (s.msix fn v).fresh = s.fresh := rfl
@[simp] theorem State.msix_tasks (s : State) (fn v : Nat) : (s.msix fn v).tasks = s.tasks := rfl
@[simp] theorem State.msix_streams (s : State) (fn v : Nat) : (s.msix fn v).streams = s.streams := rfl
@[simp] theorem State.msix_ptr (s : State) (fn v : Nat) : (s.msix fn v).ptr = s.ptr := rfl
@[simp] theorem State.msix_cred (s : State) (fn v : Nat) : (s.msix fn v).cred = s.cred := rfl
@[simp] theorem State.msix_reserved (s : State) (fn v : Nat) : (s.msix fn v).reserved = s.reserved := rfl
@[simp] theorem State.msix_parts (s : State) (fn v : Nat) : (s.msix fn v).parts = s.parts := rfl
@[simp] theorem State.msix_cameras (s : State) (fn v : Nat) : (s.msix fn v).cameras = s.cameras := rfl
@[simp] theorem State.msix_decoders (s : State) (fn v : Nat) : (s.msix fn v).decoders = s.decoders := rfl
@[simp] theorem State.msix_windows (s : State) (fn v : Nat) : (s.msix fn v).windows = s.windows := rfl
@[simp] theorem State.msix_viewLines (s : State) (fn v : Nat) : (s.msix fn v).viewLines = s.viewLines := rfl
@[simp] theorem State.msix_rails (s : State) (fn v : Nat) : (s.msix fn v).rails = s.rails := rfl
@[simp] theorem State.msix_thermal (s : State) (fn v : Nat) : (s.msix fn v).thermal = s.thermal := rfl
@[simp] theorem State.msix_links (s : State) (fn v : Nat) : (s.msix fn v).links = s.links := rfl
@[simp] theorem State.msix_draining (s : State) (fn v : Nat) : (s.msix fn v).draining = s.draining := rfl
@[simp] theorem State.msix_lastDrain (s : State) (fn v : Nat) : (s.msix fn v).lastDrain = s.lastDrain := rfl
@[simp] theorem State.msix_outstanding (s : State) (fn v : Nat) : (s.msix fn v).outstanding = s.outstanding := rfl
@[simp] theorem State.msix_nextTag (s : State) (fn v : Nat) : (s.msix fn v).nextTag = s.nextTag := rfl
@[simp] theorem State.msix_mailboxes (s : State) (fn v : Nat) : (s.msix fn v).mailboxes = s.mailboxes := rfl
@[simp] theorem State.msix_goOrder (s : State) (fn v : Nat) : (s.msix fn v).goOrder = s.goOrder := rfl
@[simp] theorem State.msix_devEvents (s : State) (fn v : Nat) : (s.msix fn v).devEvents = s.devEvents := rfl
@[simp] theorem State.msix_sources (s : State) (fn v : Nat) : (s.msix fn v).sources = s.sources := rfl
@[simp] theorem State.msix_peerJoins (s : State) (fn v : Nat) : (s.msix fn v).peerJoins = s.peerJoins := rfl
@[simp] theorem State.msix_peerDone (s : State) (fn v : Nat) : (s.msix fn v).peerDone = s.peerDone := rfl
@[simp] theorem State.msix_bootState (s : State) (fn v : Nat) : (s.msix fn v).bootState = s.bootState := rfl
@[simp] theorem State.msix_failcode (s : State) (fn v : Nat) : (s.msix fn v).failcode = s.failcode := rfl
@[simp] theorem State.msix_romver (s : State) (fn v : Nat) : (s.msix fn v).romver = s.romver := rfl
@[simp] theorem State.msix_patchver (s : State) (fn v : Nat) : (s.msix fn v).patchver = s.patchver := rfl
@[simp] theorem State.msix_patch (s : State) (fn v : Nat) : (s.msix fn v).patch = s.patch := rfl
@[simp] theorem State.msix_flashPatch (s : State) (fn v : Nat) : (s.msix fn v).flashPatch = s.flashPatch := rfl
@[simp] theorem State.msix_bar2 (s : State) (fn v : Nat) : (s.msix fn v).bar2 = s.bar2 := rfl
@[simp] theorem State.msix_pacing (s : State) (fn v : Nat) : (s.msix fn v).pacing = s.pacing := rfl
@[simp] theorem State.msix_decodePeriods (s : State) (fn v : Nat) : (s.msix fn v).decodePeriods = s.decodePeriods := rfl
@[simp] theorem State.msix_config (s : State) (fn v : Nat) : (s.msix fn v).config = s.config := rfl
@[simp] theorem State.msix_regions (s : State) (fn v : Nat) : (s.msix fn v).regions = s.regions := rfl

/-! put. -/

@[simp] theorem State.put_turns (s : State) (o : Output) : (s.put o).turns = s.turns := rfl
@[simp] theorem State.put_rr (s : State) (o : Output) : (s.put o).rr = s.rr := rfl
@[simp] theorem State.put_cx (s : State) (o : Output) : (s.put o).cx = s.cx := rfl
@[simp] theorem State.put_cores (s : State) (o : Output) : (s.put o).cores = s.cores := rfl
@[simp] theorem State.put_pairs (s : State) (o : Output) : (s.put o).pairs = s.pairs := rfl
@[simp] theorem State.put_mem (s : State) (o : Output) : (s.put o).mem = s.mem := rfl
@[simp] theorem State.put_poison (s : State) (o : Output) : (s.put o).poison = s.poison := rfl
@[simp] theorem State.put_times (s : State) (o : Output) : (s.put o).times = s.times := rfl
@[simp] theorem State.put_cycle (s : State) (o : Output) : (s.put o).cycle = s.cycle := rfl
@[simp] theorem State.put_feOrder (s : State) (o : Output) : (s.put o).feOrder = s.feOrder := rfl
@[simp] theorem State.put_fresh (s : State) (o : Output) : (s.put o).fresh = s.fresh := rfl
@[simp] theorem State.put_tasks (s : State) (o : Output) : (s.put o).tasks = s.tasks := rfl
@[simp] theorem State.put_streams (s : State) (o : Output) : (s.put o).streams = s.streams := rfl
@[simp] theorem State.put_ptr (s : State) (o : Output) : (s.put o).ptr = s.ptr := rfl
@[simp] theorem State.put_cred (s : State) (o : Output) : (s.put o).cred = s.cred := rfl
@[simp] theorem State.put_reserved (s : State) (o : Output) : (s.put o).reserved = s.reserved := rfl
@[simp] theorem State.put_parts (s : State) (o : Output) : (s.put o).parts = s.parts := rfl
@[simp] theorem State.put_cameras (s : State) (o : Output) : (s.put o).cameras = s.cameras := rfl
@[simp] theorem State.put_decoders (s : State) (o : Output) : (s.put o).decoders = s.decoders := rfl
@[simp] theorem State.put_windows (s : State) (o : Output) : (s.put o).windows = s.windows := rfl
@[simp] theorem State.put_viewLines (s : State) (o : Output) : (s.put o).viewLines = s.viewLines := rfl
@[simp] theorem State.put_rails (s : State) (o : Output) : (s.put o).rails = s.rails := rfl
@[simp] theorem State.put_thermal (s : State) (o : Output) : (s.put o).thermal = s.thermal := rfl
@[simp] theorem State.put_links (s : State) (o : Output) : (s.put o).links = s.links := rfl
@[simp] theorem State.put_draining (s : State) (o : Output) : (s.put o).draining = s.draining := rfl
@[simp] theorem State.put_lastDrain (s : State) (o : Output) : (s.put o).lastDrain = s.lastDrain := rfl
@[simp] theorem State.put_outstanding (s : State) (o : Output) : (s.put o).outstanding = s.outstanding := rfl
@[simp] theorem State.put_nextTag (s : State) (o : Output) : (s.put o).nextTag = s.nextTag := rfl
@[simp] theorem State.put_mailboxes (s : State) (o : Output) : (s.put o).mailboxes = s.mailboxes := rfl
@[simp] theorem State.put_goOrder (s : State) (o : Output) : (s.put o).goOrder = s.goOrder := rfl
@[simp] theorem State.put_devEvents (s : State) (o : Output) : (s.put o).devEvents = s.devEvents := rfl
@[simp] theorem State.put_sources (s : State) (o : Output) : (s.put o).sources = s.sources := rfl
@[simp] theorem State.put_peerJoins (s : State) (o : Output) : (s.put o).peerJoins = s.peerJoins := rfl
@[simp] theorem State.put_peerDone (s : State) (o : Output) : (s.put o).peerDone = s.peerDone := rfl
@[simp] theorem State.put_bootState (s : State) (o : Output) : (s.put o).bootState = s.bootState := rfl
@[simp] theorem State.put_failcode (s : State) (o : Output) : (s.put o).failcode = s.failcode := rfl
@[simp] theorem State.put_romver (s : State) (o : Output) : (s.put o).romver = s.romver := rfl
@[simp] theorem State.put_patchver (s : State) (o : Output) : (s.put o).patchver = s.patchver := rfl
@[simp] theorem State.put_patch (s : State) (o : Output) : (s.put o).patch = s.patch := rfl
@[simp] theorem State.put_flashPatch (s : State) (o : Output) : (s.put o).flashPatch = s.flashPatch := rfl
@[simp] theorem State.put_bar2 (s : State) (o : Output) : (s.put o).bar2 = s.bar2 := rfl
@[simp] theorem State.put_pacing (s : State) (o : Output) : (s.put o).pacing = s.pacing := rfl
@[simp] theorem State.put_decodePeriods (s : State) (o : Output) : (s.put o).decodePeriods = s.decodePeriods := rfl
@[simp] theorem State.put_config (s : State) (o : Output) : (s.put o).config = s.config := rfl
@[simp] theorem State.put_regions (s : State) (o : Output) : (s.put o).regions = s.regions := rfl

/-! setMailbox. -/

@[simp] theorem State.setMailbox_turns (s : State) (fn : Nat) (m : Mailbox) : (s.setMailbox fn m).turns = s.turns := rfl
@[simp] theorem State.setMailbox_rr (s : State) (fn : Nat) (m : Mailbox) : (s.setMailbox fn m).rr = s.rr := rfl
@[simp] theorem State.setMailbox_cx (s : State) (fn : Nat) (m : Mailbox) : (s.setMailbox fn m).cx = s.cx := rfl
@[simp] theorem State.setMailbox_cores (s : State) (fn : Nat) (m : Mailbox) : (s.setMailbox fn m).cores = s.cores := rfl
@[simp] theorem State.setMailbox_pairs (s : State) (fn : Nat) (m : Mailbox) : (s.setMailbox fn m).pairs = s.pairs := rfl
@[simp] theorem State.setMailbox_mem (s : State) (fn : Nat) (m : Mailbox) : (s.setMailbox fn m).mem = s.mem := rfl
@[simp] theorem State.setMailbox_poison (s : State) (fn : Nat) (m : Mailbox) : (s.setMailbox fn m).poison = s.poison := rfl
@[simp] theorem State.setMailbox_times (s : State) (fn : Nat) (m : Mailbox) : (s.setMailbox fn m).times = s.times := rfl
@[simp] theorem State.setMailbox_cycle (s : State) (fn : Nat) (m : Mailbox) : (s.setMailbox fn m).cycle = s.cycle := rfl
@[simp] theorem State.setMailbox_feOrder (s : State) (fn : Nat) (m : Mailbox) : (s.setMailbox fn m).feOrder = s.feOrder := rfl
@[simp] theorem State.setMailbox_fresh (s : State) (fn : Nat) (m : Mailbox) : (s.setMailbox fn m).fresh = s.fresh := rfl
@[simp] theorem State.setMailbox_tasks (s : State) (fn : Nat) (m : Mailbox) : (s.setMailbox fn m).tasks = s.tasks := rfl
@[simp] theorem State.setMailbox_streams (s : State) (fn : Nat) (m : Mailbox) : (s.setMailbox fn m).streams = s.streams := rfl
@[simp] theorem State.setMailbox_ptr (s : State) (fn : Nat) (m : Mailbox) : (s.setMailbox fn m).ptr = s.ptr := rfl
@[simp] theorem State.setMailbox_cred (s : State) (fn : Nat) (m : Mailbox) : (s.setMailbox fn m).cred = s.cred := rfl
@[simp] theorem State.setMailbox_reserved (s : State) (fn : Nat) (m : Mailbox) : (s.setMailbox fn m).reserved = s.reserved := rfl
@[simp] theorem State.setMailbox_parts (s : State) (fn : Nat) (m : Mailbox) : (s.setMailbox fn m).parts = s.parts := rfl
@[simp] theorem State.setMailbox_cameras (s : State) (fn : Nat) (m : Mailbox) : (s.setMailbox fn m).cameras = s.cameras := rfl
@[simp] theorem State.setMailbox_decoders (s : State) (fn : Nat) (m : Mailbox) : (s.setMailbox fn m).decoders = s.decoders := rfl
@[simp] theorem State.setMailbox_windows (s : State) (fn : Nat) (m : Mailbox) : (s.setMailbox fn m).windows = s.windows := rfl
@[simp] theorem State.setMailbox_viewLines (s : State) (fn : Nat) (m : Mailbox) : (s.setMailbox fn m).viewLines = s.viewLines := rfl
@[simp] theorem State.setMailbox_rails (s : State) (fn : Nat) (m : Mailbox) : (s.setMailbox fn m).rails = s.rails := rfl
@[simp] theorem State.setMailbox_thermal (s : State) (fn : Nat) (m : Mailbox) : (s.setMailbox fn m).thermal = s.thermal := rfl
@[simp] theorem State.setMailbox_links (s : State) (fn : Nat) (m : Mailbox) : (s.setMailbox fn m).links = s.links := rfl
@[simp] theorem State.setMailbox_draining (s : State) (fn : Nat) (m : Mailbox) : (s.setMailbox fn m).draining = s.draining := rfl
@[simp] theorem State.setMailbox_lastDrain (s : State) (fn : Nat) (m : Mailbox) : (s.setMailbox fn m).lastDrain = s.lastDrain := rfl
@[simp] theorem State.setMailbox_outstanding (s : State) (fn : Nat) (m : Mailbox) : (s.setMailbox fn m).outstanding = s.outstanding := rfl
@[simp] theorem State.setMailbox_nextTag (s : State) (fn : Nat) (m : Mailbox) : (s.setMailbox fn m).nextTag = s.nextTag := rfl
@[simp] theorem State.setMailbox_goOrder (s : State) (fn : Nat) (m : Mailbox) : (s.setMailbox fn m).goOrder = s.goOrder := rfl
@[simp] theorem State.setMailbox_devEvents (s : State) (fn : Nat) (m : Mailbox) : (s.setMailbox fn m).devEvents = s.devEvents := rfl
@[simp] theorem State.setMailbox_sources (s : State) (fn : Nat) (m : Mailbox) : (s.setMailbox fn m).sources = s.sources := rfl
@[simp] theorem State.setMailbox_peerJoins (s : State) (fn : Nat) (m : Mailbox) : (s.setMailbox fn m).peerJoins = s.peerJoins := rfl
@[simp] theorem State.setMailbox_peerDone (s : State) (fn : Nat) (m : Mailbox) : (s.setMailbox fn m).peerDone = s.peerDone := rfl
@[simp] theorem State.setMailbox_bootState (s : State) (fn : Nat) (m : Mailbox) : (s.setMailbox fn m).bootState = s.bootState := rfl
@[simp] theorem State.setMailbox_failcode (s : State) (fn : Nat) (m : Mailbox) : (s.setMailbox fn m).failcode = s.failcode := rfl
@[simp] theorem State.setMailbox_romver (s : State) (fn : Nat) (m : Mailbox) : (s.setMailbox fn m).romver = s.romver := rfl
@[simp] theorem State.setMailbox_patchver (s : State) (fn : Nat) (m : Mailbox) : (s.setMailbox fn m).patchver = s.patchver := rfl
@[simp] theorem State.setMailbox_patch (s : State) (fn : Nat) (m : Mailbox) : (s.setMailbox fn m).patch = s.patch := rfl
@[simp] theorem State.setMailbox_flashPatch (s : State) (fn : Nat) (m : Mailbox) : (s.setMailbox fn m).flashPatch = s.flashPatch := rfl
@[simp] theorem State.setMailbox_bar2 (s : State) (fn : Nat) (m : Mailbox) : (s.setMailbox fn m).bar2 = s.bar2 := rfl
@[simp] theorem State.setMailbox_pacing (s : State) (fn : Nat) (m : Mailbox) : (s.setMailbox fn m).pacing = s.pacing := rfl
@[simp] theorem State.setMailbox_decodePeriods (s : State) (fn : Nat) (m : Mailbox) : (s.setMailbox fn m).decodePeriods = s.decodePeriods := rfl
@[simp] theorem State.setMailbox_config (s : State) (fn : Nat) (m : Mailbox) : (s.setMailbox fn m).config = s.config := rfl
@[simp] theorem State.setMailbox_regions (s : State) (fn : Nat) (m : Mailbox) : (s.setMailbox fn m).regions = s.regions := rfl
@[simp] theorem State.setMailbox_outputs (s : State) (fn : Nat) (m : Mailbox) : (s.setMailbox fn m).outputs = s.outputs := rfl

/-! modTaskOf, through its two cases. -/

@[simp] theorem State.modTaskOf_turns (s : State) (c : Nat) (f : Task → Task) : (s.modTaskOf c f).turns = s.turns := by unfold State.modTaskOf; split <;> rfl
@[simp] theorem State.modTaskOf_rr (s : State) (c : Nat) (f : Task → Task) : (s.modTaskOf c f).rr = s.rr := by unfold State.modTaskOf; split <;> rfl
@[simp] theorem State.modTaskOf_cx (s : State) (c : Nat) (f : Task → Task) : (s.modTaskOf c f).cx = s.cx := by unfold State.modTaskOf; split <;> rfl
@[simp] theorem State.modTaskOf_cores (s : State) (c : Nat) (f : Task → Task) : (s.modTaskOf c f).cores = s.cores := by unfold State.modTaskOf; split <;> rfl
@[simp] theorem State.modTaskOf_pairs (s : State) (c : Nat) (f : Task → Task) : (s.modTaskOf c f).pairs = s.pairs := by unfold State.modTaskOf; split <;> rfl
@[simp] theorem State.modTaskOf_mem (s : State) (c : Nat) (f : Task → Task) : (s.modTaskOf c f).mem = s.mem := by unfold State.modTaskOf; split <;> rfl
@[simp] theorem State.modTaskOf_poison (s : State) (c : Nat) (f : Task → Task) : (s.modTaskOf c f).poison = s.poison := by unfold State.modTaskOf; split <;> rfl
@[simp] theorem State.modTaskOf_times (s : State) (c : Nat) (f : Task → Task) : (s.modTaskOf c f).times = s.times := by unfold State.modTaskOf; split <;> rfl
@[simp] theorem State.modTaskOf_cycle (s : State) (c : Nat) (f : Task → Task) : (s.modTaskOf c f).cycle = s.cycle := by unfold State.modTaskOf; split <;> rfl
@[simp] theorem State.modTaskOf_feOrder (s : State) (c : Nat) (f : Task → Task) : (s.modTaskOf c f).feOrder = s.feOrder := by unfold State.modTaskOf; split <;> rfl
@[simp] theorem State.modTaskOf_fresh (s : State) (c : Nat) (f : Task → Task) : (s.modTaskOf c f).fresh = s.fresh := by unfold State.modTaskOf; split <;> rfl
@[simp] theorem State.modTaskOf_streams (s : State) (c : Nat) (f : Task → Task) : (s.modTaskOf c f).streams = s.streams := by unfold State.modTaskOf; split <;> rfl
@[simp] theorem State.modTaskOf_ptr (s : State) (c : Nat) (f : Task → Task) : (s.modTaskOf c f).ptr = s.ptr := by unfold State.modTaskOf; split <;> rfl
@[simp] theorem State.modTaskOf_cred (s : State) (c : Nat) (f : Task → Task) : (s.modTaskOf c f).cred = s.cred := by unfold State.modTaskOf; split <;> rfl
@[simp] theorem State.modTaskOf_reserved (s : State) (c : Nat) (f : Task → Task) : (s.modTaskOf c f).reserved = s.reserved := by unfold State.modTaskOf; split <;> rfl
@[simp] theorem State.modTaskOf_parts (s : State) (c : Nat) (f : Task → Task) : (s.modTaskOf c f).parts = s.parts := by unfold State.modTaskOf; split <;> rfl
@[simp] theorem State.modTaskOf_cameras (s : State) (c : Nat) (f : Task → Task) : (s.modTaskOf c f).cameras = s.cameras := by unfold State.modTaskOf; split <;> rfl
@[simp] theorem State.modTaskOf_decoders (s : State) (c : Nat) (f : Task → Task) : (s.modTaskOf c f).decoders = s.decoders := by unfold State.modTaskOf; split <;> rfl
@[simp] theorem State.modTaskOf_windows (s : State) (c : Nat) (f : Task → Task) : (s.modTaskOf c f).windows = s.windows := by unfold State.modTaskOf; split <;> rfl
@[simp] theorem State.modTaskOf_viewLines (s : State) (c : Nat) (f : Task → Task) : (s.modTaskOf c f).viewLines = s.viewLines := by unfold State.modTaskOf; split <;> rfl
@[simp] theorem State.modTaskOf_rails (s : State) (c : Nat) (f : Task → Task) : (s.modTaskOf c f).rails = s.rails := by unfold State.modTaskOf; split <;> rfl
@[simp] theorem State.modTaskOf_thermal (s : State) (c : Nat) (f : Task → Task) : (s.modTaskOf c f).thermal = s.thermal := by unfold State.modTaskOf; split <;> rfl
@[simp] theorem State.modTaskOf_links (s : State) (c : Nat) (f : Task → Task) : (s.modTaskOf c f).links = s.links := by unfold State.modTaskOf; split <;> rfl
@[simp] theorem State.modTaskOf_draining (s : State) (c : Nat) (f : Task → Task) : (s.modTaskOf c f).draining = s.draining := by unfold State.modTaskOf; split <;> rfl
@[simp] theorem State.modTaskOf_lastDrain (s : State) (c : Nat) (f : Task → Task) : (s.modTaskOf c f).lastDrain = s.lastDrain := by unfold State.modTaskOf; split <;> rfl
@[simp] theorem State.modTaskOf_outstanding (s : State) (c : Nat) (f : Task → Task) : (s.modTaskOf c f).outstanding = s.outstanding := by unfold State.modTaskOf; split <;> rfl
@[simp] theorem State.modTaskOf_nextTag (s : State) (c : Nat) (f : Task → Task) : (s.modTaskOf c f).nextTag = s.nextTag := by unfold State.modTaskOf; split <;> rfl
@[simp] theorem State.modTaskOf_mailboxes (s : State) (c : Nat) (f : Task → Task) : (s.modTaskOf c f).mailboxes = s.mailboxes := by unfold State.modTaskOf; split <;> rfl
@[simp] theorem State.modTaskOf_goOrder (s : State) (c : Nat) (f : Task → Task) : (s.modTaskOf c f).goOrder = s.goOrder := by unfold State.modTaskOf; split <;> rfl
@[simp] theorem State.modTaskOf_devEvents (s : State) (c : Nat) (f : Task → Task) : (s.modTaskOf c f).devEvents = s.devEvents := by unfold State.modTaskOf; split <;> rfl
@[simp] theorem State.modTaskOf_sources (s : State) (c : Nat) (f : Task → Task) : (s.modTaskOf c f).sources = s.sources := by unfold State.modTaskOf; split <;> rfl
@[simp] theorem State.modTaskOf_peerJoins (s : State) (c : Nat) (f : Task → Task) : (s.modTaskOf c f).peerJoins = s.peerJoins := by unfold State.modTaskOf; split <;> rfl
@[simp] theorem State.modTaskOf_peerDone (s : State) (c : Nat) (f : Task → Task) : (s.modTaskOf c f).peerDone = s.peerDone := by unfold State.modTaskOf; split <;> rfl
@[simp] theorem State.modTaskOf_bootState (s : State) (c : Nat) (f : Task → Task) : (s.modTaskOf c f).bootState = s.bootState := by unfold State.modTaskOf; split <;> rfl
@[simp] theorem State.modTaskOf_failcode (s : State) (c : Nat) (f : Task → Task) : (s.modTaskOf c f).failcode = s.failcode := by unfold State.modTaskOf; split <;> rfl
@[simp] theorem State.modTaskOf_romver (s : State) (c : Nat) (f : Task → Task) : (s.modTaskOf c f).romver = s.romver := by unfold State.modTaskOf; split <;> rfl
@[simp] theorem State.modTaskOf_patchver (s : State) (c : Nat) (f : Task → Task) : (s.modTaskOf c f).patchver = s.patchver := by unfold State.modTaskOf; split <;> rfl
@[simp] theorem State.modTaskOf_patch (s : State) (c : Nat) (f : Task → Task) : (s.modTaskOf c f).patch = s.patch := by unfold State.modTaskOf; split <;> rfl
@[simp] theorem State.modTaskOf_flashPatch (s : State) (c : Nat) (f : Task → Task) : (s.modTaskOf c f).flashPatch = s.flashPatch := by unfold State.modTaskOf; split <;> rfl
@[simp] theorem State.modTaskOf_bar2 (s : State) (c : Nat) (f : Task → Task) : (s.modTaskOf c f).bar2 = s.bar2 := by unfold State.modTaskOf; split <;> rfl
@[simp] theorem State.modTaskOf_pacing (s : State) (c : Nat) (f : Task → Task) : (s.modTaskOf c f).pacing = s.pacing := by unfold State.modTaskOf; split <;> rfl
@[simp] theorem State.modTaskOf_decodePeriods (s : State) (c : Nat) (f : Task → Task) : (s.modTaskOf c f).decodePeriods = s.decodePeriods := by unfold State.modTaskOf; split <;> rfl
@[simp] theorem State.modTaskOf_config (s : State) (c : Nat) (f : Task → Task) : (s.modTaskOf c f).config = s.config := by unfold State.modTaskOf; split <;> rfl
@[simp] theorem State.modTaskOf_regions (s : State) (c : Nat) (f : Task → Task) : (s.modTaskOf c f).regions = s.regions := by unfold State.modTaskOf; split <;> rfl
@[simp] theorem State.modTaskOf_outputs (s : State) (c : Nat) (f : Task → Task) : (s.modTaskOf c f).outputs = s.outputs := by unfold State.modTaskOf; split <;> rfl

/-! A strand of a core is replaced. -/

@[simp] theorem CoreSt.setStrand_resident (k : CoreSt) (t : Strand) (st : StrandSt) : (k.setStrand t st).resident = k.resident := by cases t <;> rfl
@[simp] theorem CoreSt.setStrand_finished (k : CoreSt) (t : Strand) (st : StrandSt) : (k.setStrand t st).finished = k.finished := by cases t <;> rfl
@[simp] theorem CoreSt.setStrand_task (k : CoreSt) (t : Strand) (st : StrandSt) : (k.setStrand t st).task = k.task := by cases t <;> rfl
@[simp] theorem CoreSt.setStrand_part (k : CoreSt) (t : Strand) (st : StrandSt) : (k.setStrand t st).part = k.part := by cases t <;> rfl
@[simp] theorem CoreSt.setStrand_rank (k : CoreSt) (t : Strand) (st : StrandSt) : (k.setStrand t st).rank = k.rank := by cases t <;> rfl
@[simp] theorem CoreSt.setStrand_gangSize (k : CoreSt) (t : Strand) (st : StrandSt) : (k.setStrand t st).gangSize = k.gangSize := by cases t <;> rfl
@[simp] theorem CoreSt.setStrand_stage (k : CoreSt) (t : Strand) (st : StrandSt) : (k.setStrand t st).stage = k.stage := by cases t <;> rfl
@[simp] theorem CoreSt.setStrand_stream (k : CoreSt) (t : Strand) (st : StrandSt) : (k.setStrand t st).stream = k.stream := by cases t <;> rfl
@[simp] theorem CoreSt.setStrand_prio (k : CoreSt) (t : Strand) (st : StrandSt) : (k.setStrand t st).prio = k.prio := by cases t <;> rfl
@[simp] theorem CoreSt.setStrand_demand (k : CoreSt) (t : Strand) (st : StrandSt) : (k.setStrand t st).demand = k.demand := by cases t <;> rfl
@[simp] theorem CoreSt.setStrand_lic (k : CoreSt) (t : Strand) (st : StrandSt) : (k.setStrand t st).lic = k.lic := by cases t <;> rfl
@[simp] theorem CoreSt.setStrand_weir (k : CoreSt) (t : Strand) (st : StrandSt) : (k.setStrand t st).weir = k.weir := by cases t <;> rfl
@[simp] theorem CoreSt.setStrand_spad (k : CoreSt) (t : Strand) (st : StrandSt) : (k.setStrand t st).spad = k.spad := by cases t <;> rfl
@[simp] theorem CoreSt.setStrand_stashUnits (k : CoreSt) (t : Strand) (st : StrandSt) : (k.setStrand t st).stashUnits = k.stashUnits := by cases t <;> rfl
@[simp] theorem CoreSt.setStrand_text (k : CoreSt) (t : Strand) (st : StrandSt) : (k.setStrand t st).text = k.text := by cases t <;> rfl
@[simp] theorem CoreSt.setStrand_tbase (k : CoreSt) (t : Strand) (st : StrandSt) : (k.setStrand t st).tbase = k.tbase := by cases t <;> rfl
@[simp] theorem CoreSt.setStrand_kernel (k : CoreSt) (t : Strand) (st : StrandSt) : (k.setStrand t st).kernel = k.kernel := by cases t <;> rfl
@[simp] theorem CoreSt.setStrand_epilogue (k : CoreSt) (t : Strand) (st : StrandSt) : (k.setStrand t st).epilogue = k.epilogue := by cases t <;> rfl
@[simp] theorem CoreSt.setStrand_g (k : CoreSt) (t : Strand) (st : StrandSt) : (k.setStrand t st).g = k.g := by cases t <;> rfl
@[simp] theorem CoreSt.setStrand_ar (k : CoreSt) (t : Strand) (st : StrandSt) : (k.setStrand t st).ar = k.ar := by cases t <;> rfl
@[simp] theorem CoreSt.setStrand_k (k : CoreSt) (t : Strand) (st : StrandSt) : (k.setStrand t st).k = k.k := by cases t <;> rfl
@[simp] theorem CoreSt.setStrand_tile (k : CoreSt) (t : Strand) (st : StrandSt) : (k.setStrand t st).tile = k.tile := by cases t <;> rfl
@[simp] theorem CoreSt.setStrand_o (k : CoreSt) (t : Strand) (st : StrandSt) : (k.setStrand t st).o = k.o := by cases t <;> rfl
@[simp] theorem CoreSt.setStrand_lr (k : CoreSt) (t : Strand) (st : StrandSt) : (k.setStrand t st).lr = k.lr := by cases t <;> rfl
@[simp] theorem CoreSt.setStrand_acc (k : CoreSt) (t : Strand) (st : StrandSt) : (k.setStrand t st).acc = k.acc := by cases t <;> rfl
@[simp] theorem CoreSt.setStrand_accSat (k : CoreSt) (t : Strand) (st : StrandSt) : (k.setStrand t st).accSat = k.accSat := by cases t <;> rfl
@[simp] theorem CoreSt.setStrand_rc (k : CoreSt) (t : Strand) (st : StrandSt) : (k.setStrand t st).rc = k.rc := by cases t <;> rfl
@[simp] theorem CoreSt.setStrand_tk (k : CoreSt) (t : Strand) (st : StrandSt) : (k.setStrand t st).tk = k.tk := by cases t <;> rfl
@[simp] theorem CoreSt.setStrand_loads (k : CoreSt) (t : Strand) (st : StrandSt) : (k.setStrand t st).loads = k.loads := by cases t <;> rfl
@[simp] theorem CoreSt.setStrand_stores (k : CoreSt) (t : Strand) (st : StrandSt) : (k.setStrand t st).stores = k.stores := by cases t <;> rfl
@[simp] theorem CoreSt.setStrand_copies (k : CoreSt) (t : Strand) (st : StrandSt) : (k.setStrand t st).copies = k.copies := by cases t <;> rfl
@[simp] theorem CoreSt.setStrand_tileops (k : CoreSt) (t : Strand) (st : StrandSt) : (k.setStrand t st).tileops = k.tileops := by cases t <;> rfl
@[simp] theorem CoreSt.setStrand_ax (k : CoreSt) (t : Strand) (st : StrandSt) : (k.setStrand t st).ax = k.ax := by cases t <;> rfl
@[simp] theorem CoreSt.setStrand_xa (k : CoreSt) (t : Strand) (st : StrandSt) : (k.setStrand t st).xa = k.xa := by cases t <;> rfl
@[simp] theorem CoreSt.setStrand_xv (k : CoreSt) (t : Strand) (st : StrandSt) : (k.setStrand t st).xv = k.xv := by cases t <;> rfl
@[simp] theorem CoreSt.setStrand_vx (k : CoreSt) (t : Strand) (st : StrandSt) : (k.setStrand t st).vx = k.vx := by cases t <;> rfl
@[simp] theorem CoreSt.setStrand_lo (k : CoreSt) (t : Strand) (st : StrandSt) : (k.setStrand t st).lo = k.lo := by cases t <;> rfl
@[simp] theorem CoreSt.setStrand_li (k : CoreSt) (t : Strand) (st : StrandSt) : (k.setStrand t st).li = k.li := by cases t <;> rfl
@[simp] theorem CoreSt.setStrand_liBad (k : CoreSt) (t : Strand) (st : StrandSt) : (k.setStrand t st).liBad = k.liBad := by cases t <;> rfl
@[simp] theorem CoreSt.setStrand_fq (k : CoreSt) (t : Strand) (st : StrandSt) : (k.setStrand t st).fq = k.fq := by cases t <;> rfl
@[simp] theorem CoreSt.setStrand_fqAt (k : CoreSt) (t : Strand) (st : StrandSt) : (k.setStrand t st).fqAt = k.fqAt := by cases t <;> rfl
@[simp] theorem CoreSt.setStrand_tpl (k : CoreSt) (t : Strand) (st : StrandSt) : (k.setStrand t st).tpl = k.tpl := by cases t <;> rfl
@[simp] theorem CoreSt.setStrand_full (k : CoreSt) (t : Strand) (st : StrandSt) : (k.setStrand t st).full = k.full := by cases t <;> rfl
@[simp] theorem CoreSt.setStrand_busy (k : CoreSt) (t : Strand) (st : StrandSt) : (k.setStrand t st).busy = k.busy := by cases t <;> rfl
@[simp] theorem CoreSt.setStrand_aq (k : CoreSt) (t : Strand) (st : StrandSt) : (k.setStrand t st).aq = k.aq := by cases t <;> rfl
@[simp] theorem CoreSt.setStrand_fe (k : CoreSt) (t : Strand) (st : StrandSt) : (k.setStrand t st).fe = k.fe := by cases t <;> rfl
@[simp] theorem CoreSt.setStrand_probe (k : CoreSt) (t : Strand) (st : StrandSt) : (k.setStrand t st).probe = k.probe := by cases t <;> rfl
@[simp] theorem CoreSt.setStrand_chain (k : CoreSt) (t : Strand) (st : StrandSt) : (k.setStrand t st).chain = k.chain := by cases t <;> rfl
@[simp] theorem CoreSt.setStrand_copyE (k : CoreSt) (t : Strand) (st : StrandSt) : (k.setStrand t st).copyE = k.copyE := by cases t <;> rfl
@[simp] theorem CoreSt.setStrand_sluiceE (k : CoreSt) (t : Strand) (st : StrandSt) : (k.setStrand t st).sluiceE = k.sluiceE := by cases t <;> rfl
@[simp] theorem CoreSt.setStrand_confE (k : CoreSt) (t : Strand) (st : StrandSt) : (k.setStrand t st).confE = k.confE := by cases t <;> rfl
@[simp] theorem CoreSt.setStrand_gathE (k : CoreSt) (t : Strand) (st : StrandSt) : (k.setStrand t st).gathE = k.gathE := by cases t <;> rfl
@[simp] theorem CoreSt.setStrand_chainE (k : CoreSt) (t : Strand) (st : StrandSt) : (k.setStrand t st).chainE = k.chainE := by cases t <;> rfl
@[simp] theorem CoreSt.setStrand_pace (k : CoreSt) (t : Strand) (st : StrandSt) : (k.setStrand t st).pace = k.pace := by cases t <;> rfl
@[simp] theorem CoreSt.setStrand_vStart (k : CoreSt) (t : Strand) (st : StrandSt) : (k.setStrand t st).vStart = k.vStart := by cases t <;> rfl
@[simp] theorem CoreSt.setStrand_mStart (k : CoreSt) (t : Strand) (st : StrandSt) : (k.setStrand t st).mStart = k.mStart := by cases t <;> rfl
@[simp] theorem CoreSt.setStrand_mq (k : CoreSt) (t : Strand) (st : StrandSt) : (k.setStrand t st).mq = k.mq := by cases t <;> rfl
@[simp] theorem CoreSt.setStrand_mqAt (k : CoreSt) (t : Strand) (st : StrandSt) : (k.setStrand t st).mqAt = k.mqAt := by cases t <;> rfl
@[simp] theorem CoreSt.setStrand_side (k : CoreSt) (t : Strand) (st : StrandSt) : (k.setStrand t st).side = k.side := by cases t <;> rfl
@[simp] theorem CoreSt.setStrand_mIll (k : CoreSt) (t : Strand) (st : StrandSt) : (k.setStrand t st).mIll = k.mIll := by cases t <;> rfl
@[simp] theorem CoreSt.setStrand_ebuf (k : CoreSt) (t : Strand) (st : StrandSt) : (k.setStrand t st).ebuf = k.ebuf := by cases t <;> rfl
@[simp] theorem CoreSt.setStrand_tlb (k : CoreSt) (t : Strand) (st : StrandSt) : (k.setStrand t st).tlb = k.tlb := by cases t <;> rfl
@[simp] theorem CoreSt.setStrand_stash (k : CoreSt) (t : Strand) (st : StrandSt) : (k.setStrand t st).stash = k.stash := by cases t <;> rfl
@[simp] theorem CoreSt.setStrand_bars (k : CoreSt) (t : Strand) (st : StrandSt) : (k.setStrand t st).bars = k.bars := by cases t <;> rfl
@[simp] theorem CoreSt.setStrand_spawned (k : CoreSt) (t : Strand) (st : StrandSt) : (k.setStrand t st).spawned = k.spawned := by cases t <;> rfl
@[simp] theorem CoreSt.setStrand_iteridx (k : CoreSt) (t : Strand) (st : StrandSt) : (k.setStrand t st).iteridx = k.iteridx := by cases t <;> rfl
@[simp] theorem CoreSt.setStrand_slipw (k : CoreSt) (t : Strand) (st : StrandSt) : (k.setStrand t st).slipw = k.slipw := by cases t <;> rfl
@[simp] theorem CoreSt.setStrand_slipwDue (k : CoreSt) (t : Strand) (st : StrandSt) : (k.setStrand t st).slipwDue = k.slipwDue := by cases t <;> rfl
@[simp] theorem CoreSt.setStrand_timeh (k : CoreSt) (t : Strand) (st : StrandSt) : (k.setStrand t st).timeh = k.timeh := by cases t <;> rfl
@[simp] theorem CoreSt.setStrand_nev (k : CoreSt) (t : Strand) (st : StrandSt) : (k.setStrand t st).nev = k.nev := by cases t <;> rfl
@[simp] theorem CoreSt.setStrand_hold (k : CoreSt) (t : Strand) (st : StrandSt) : (k.setStrand t st).hold = k.hold := by cases t <;> rfl
@[simp] theorem CoreSt.setStrand_owed (k : CoreSt) (t : Strand) (st : StrandSt) : (k.setStrand t st).owed = k.owed := by cases t <;> rfl
@[simp] theorem CoreSt.setStrand_seq (k : CoreSt) (t : Strand) (st : StrandSt) : (k.setStrand t st).seq = k.seq := by cases t <;> rfl
@[simp] theorem CoreSt.setStrand_samplerSeq (k : CoreSt) (t : Strand) (st : StrandSt) : (k.setStrand t st).samplerSeq = k.samplerSeq := by cases t <;> rfl
@[simp] theorem CoreSt.setStrand_samplerLost (k : CoreSt) (t : Strand) (st : StrandSt) : (k.setStrand t st).samplerLost = k.samplerLost := by cases t <;> rfl
@[simp] theorem CoreSt.setStrand_ptime (k : CoreSt) (t : Strand) (st : StrandSt) : (k.setStrand t st).ptime = k.ptime := by cases t <;> rfl
@[simp] theorem CoreSt.setStrand_div (k : CoreSt) (t : Strand) (st : StrandSt) : (k.setStrand t st).div = k.div := by cases t <;> rfl
@[simp] theorem CoreSt.setStrand_divPast (k : CoreSt) (t : Strand) (st : StrandSt) : (k.setStrand t st).divPast = k.divPast := by cases t <;> rfl
@[simp] theorem CoreSt.setStrand_sampledAt (k : CoreSt) (t : Strand) (st : StrandSt) : (k.setStrand t st).sampledAt = k.sampledAt := by cases t <;> rfl
@[simp] theorem CoreSt.setStrand_divReq (k : CoreSt) (t : Strand) (st : StrandSt) : (k.setStrand t st).divReq = k.divReq := by cases t <;> rfl
@[simp] theorem CoreSt.setStrand_floorUp (k : CoreSt) (t : Strand) (st : StrandSt) : (k.setStrand t st).floorUp = k.floorUp := by cases t <;> rfl
@[simp] theorem CoreSt.setStrand_bankmap (k : CoreSt) (t : Strand) (st : StrandSt) : (k.setStrand t st).bankmap = k.bankmap := by cases t <;> rfl
@[simp] theorem CoreSt.setStrand_withdrawn (k : CoreSt) (t : Strand) (st : StrandSt) : (k.setStrand t st).withdrawn = k.withdrawn := by cases t <;> rfl
@[simp] theorem CoreSt.setStrand_nextId (k : CoreSt) (t : Strand) (st : StrandSt) : (k.setStrand t st).nextId = k.nextId := by cases t <;> rfl

@[simp] theorem CoreSt.strand_setStrand (k : CoreSt) (t : Strand) (st : StrandSt) : (k.setStrand t st).strand t = st := by cases t <;> rfl

theorem CoreSt.strand_setStrand_ne (k : CoreSt) (t u : Strand) (st : StrandSt) (h : u ≠ t) : (k.setStrand t st).strand u = k.strand u := by
  cases t <;> cases u <;> first | rfl | exact absurd rfl h

@[simp] theorem CoreSt.setStrand_strand (k : CoreSt) (t : Strand) : k.setStrand t (k.strand t) = k := by cases t <;> rfl

@[simp] theorem CoreSt.setStrand_setStrand (k : CoreSt) (t : Strand) (a b : StrandSt) : (k.setStrand t a).setStrand t b = k.setStrand t b := by
  cases t <;> rfl

end Sys2Proof.Machine
end

