-- ==== Sys2Proof/Laws/Tables.lean ====
section
/-! SUPPORT. Tables: reading what was written, and leaving the rest alone; cores, pairs, partitions, streams, cameras and rails through them. -/

namespace Sys2Proof.Machine

@[simp] theorem tget_tset_self {α : Type} (d : α) (t : Tbl α) (k : Nat) (v : α) : tget d (tset t k v) k = v := by
  induction t with
  | nil => simp [tset, tget]
  | cons e r ih =>
    obtain ⟨k', v'⟩ := e
    by_cases h1 : k < k'
    · simp [tset, h1, tget]
    · by_cases h2 : k = k'
      · simp [tset, h2, tget]
      · simp [tset, h1, h2, tget, ih, Ne.symm h2]

theorem tget_tset_ne {α : Type} (d : α) (t : Tbl α) (k j : Nat) (v : α) (h : j ≠ k) : tget d (tset t k v) j = tget d t j := by
  induction t with
  | nil => simp [tset, tget, Ne.symm h]
  | cons e r ih =>
    obtain ⟨k', v'⟩ := e
    by_cases h1 : k < k'
    · simp [tset, h1, tget, Ne.symm h]
    · by_cases h2 : k = k'
      · subst h2
        simp [tset, tget, Ne.symm h]
      · by_cases h3 : k' = j
        · subst h3
          simp [tset, h1, h2, tget]
        · simp [tset, h1, h2, tget, h3, ih]

@[simp] theorem State.core_setCore_self (s : State) (c : Nat) (k : CoreSt) : (s.setCore c k).core c = k := tget_tset_self _ _ _ _

theorem State.core_setCore_ne (s : State) (c d : Nat) (k : CoreSt) (h : d ≠ c) : (s.setCore c k).core d = s.core d := tget_tset_ne _ _ _ _ _ h

@[simp] theorem State.core_modCore_self (s : State) (c : Nat) (f : CoreSt → CoreSt) : (s.modCore c f).core c = f (s.core c) := tget_tset_self _ _ _ _

theorem State.core_modCore_ne (s : State) (c d : Nat) (f : CoreSt → CoreSt) (h : d ≠ c) : (s.modCore c f).core d = s.core d := tget_tset_ne _ _ _ _ _ h

theorem State.core_of_cores {s t : State} (h : s.cores = t.cores) (c : Nat) : s.core c = t.core c := by simp [State.core, h]

@[simp] theorem State.pair_setPair_self (s : State) (p : Nat) (v : Pair) : (s.setPair p v).pair p = v := tget_tset_self _ _ _ _

theorem State.pair_setPair_ne (s : State) (p q : Nat) (v : Pair) (h : q ≠ p) : (s.setPair p v).pair q = s.pair q := tget_tset_ne _ _ _ _ _ h

@[simp] theorem State.part_modPart_self (s : State) (p : Nat) (f : Part → Part) : (s.modPart p f).part p = f (s.part p) := tget_tset_self _ _ _ _

@[simp] theorem State.stream_modStream_self (s : State) (i : Nat) (f : Stream → Stream) : (s.modStream i f).stream i = f (s.stream i) :=
  tget_tset_self _ _ _ _

@[simp] theorem State.camera_modCamera_self (s : State) (i : Nat) (f : Camera → Camera) : (s.modCamera i f).camera i = f (s.camera i) :=
  tget_tset_self _ _ _ _

@[simp] theorem State.rail_modRail_self (s : State) (i : Nat) (f : Rail → Rail) : (s.modRail i f).rail i = f (s.rail i) := tget_tset_self _ _ _ _

@[simp] theorem State.core_modTask (s : State) (p i c : Nat) (f : Task → Task) : (s.modTask p i f).core c = s.core c := rfl

@[simp] theorem State.core_modTaskOf (s : State) (c d : Nat) (f : Task → Task) : (s.modTaskOf c f).core d = s.core d :=
  State.core_of_cores (s.modTaskOf_cores c f) d

@[simp] theorem State.core_setPair (s : State) (p c : Nat) (v : Pair) : (s.setPair p v).core c = s.core c := rfl

@[simp] theorem State.core_deferSig (s : State) (c : Nat) : s.deferSig.core c = s.core c := rfl

@[simp] theorem State.core_goto (s : State) (pc : BitVec 32) (c : Nat) : (s.goto pc).core c = s.core c := rfl

@[simp] theorem State.cxCore_setCore (s : State) (k : CoreSt) : (s.setCore s.cx.core k).cxCore = k := s.core_setCore_self _ _

end Sys2Proof.Machine
end

