-- ==== Sys2Proof/Laws/Mem.lean ====
section
/-! SUPPORT. Memory: reading after writing, and its canonical form, which every operation over it keeps. -/

namespace Sys2Proof.Machine

/-- Every key of a memory lies above a bound. -/
def Mem.above (b : Nat) (m : Mem) : Prop := ∀ e ∈ m, b < e.1

theorem Mem.wf_cons (k : Nat) (v : Byte) (m : Mem) : Mem.wf ((k, v) :: m) = true ↔ v ≠ blankByte ∧ Mem.above k m ∧ Mem.wf m = true := by
  induction m generalizing k v with
  | nil => simp [Mem.wf, Mem.above]
  | cons e r ih =>
    obtain ⟨k', v'⟩ := e
    simp only [Mem.wf, Bool.and_eq_true, bne_iff_ne, decide_eq_true_eq]
    constructor
    · rintro ⟨⟨hv, hk⟩, hw⟩
      refine ⟨hv, ?_, hw⟩
      intro e he
      rcases List.mem_cons.mp he with rfl | he
      · exact hk
      · exact Nat.lt_trans hk (((ih k' v').mp hw).2.1 e he)
    · rintro ⟨hv, ha, hw⟩
      exact ⟨⟨hv, ha (k', v') (by simp)⟩, hw⟩

theorem Mem.wf_filter (m : Mem) (p : Host.Cell → Bool) (h : m.wf = true) : Mem.wf (m.filter p) = true := by
  induction m with
  | nil => rfl
  | cons e r ih =>
    obtain ⟨k, v⟩ := e
    obtain ⟨hv, ha, hw⟩ := (Mem.wf_cons k v r).mp h
    by_cases hp : p (k, v) = true
    · rw [List.filter_cons_of_pos hp]
      exact (Mem.wf_cons _ _ _).mpr ⟨hv, fun e he => ha e (List.mem_filter.mp he).1, ih hw⟩
    · rw [List.filter_cons_of_neg hp]
      exact ih hw

theorem Mem.above_minsert (b : Nat) (m : Mem) (k : Nat) (v : Byte) (h : Mem.above b m) (hk : b < k) : Mem.above b (minsert m k v) := by
  induction m with
  | nil => intro e he; simp only [minsert, List.mem_singleton] at he; subst he; exact hk
  | cons e r ih =>
    obtain ⟨k', v'⟩ := e
    have hr : Mem.above b r := fun e he => h e (List.mem_cons_of_mem _ he)
    intro x hx
    simp only [minsert] at hx
    split at hx
    · rcases List.mem_cons.mp hx with rfl | hx
      · exact hk
      · exact h x hx
    · split at hx
      · rcases List.mem_cons.mp hx with rfl | hx
        · exact hk
        · exact hr x hx
      · rcases List.mem_cons.mp hx with rfl | hx
        · exact h (k', v') (by simp)
        · exact ih hr x hx

theorem Mem.wf_minsert (m : Mem) (k : Nat) (v : Byte) (h : m.wf = true) (hv : v ≠ blankByte) : Mem.wf (minsert m k v) = true := by
  induction m with
  | nil => simp [minsert, Mem.wf, hv]
  | cons e r ih =>
    obtain ⟨k', v'⟩ := e
    obtain ⟨hv', ha, hw⟩ := (Mem.wf_cons k' v' r).mp h
    simp only [minsert]
    split
    · next hk =>
      refine (Mem.wf_cons _ _ _).mpr ⟨hv, ?_, h⟩
      intro e he
      rcases List.mem_cons.mp he with rfl | he
      · exact hk
      · exact Nat.lt_trans hk (ha e he)
    · split
      · next hk => subst hk; exact (Mem.wf_cons _ _ _).mpr ⟨hv, ha, hw⟩
      · next h1 h2 => exact (Mem.wf_cons _ _ _).mpr ⟨hv', Mem.above_minsert _ _ _ _ ha (by omega), ih hw⟩

/-- A write of a byte keeps the canonical form. -/
theorem Mem.wf_mset (m : Mem) (k : Nat) (v : Byte) (h : m.wf = true) : Mem.wf (mset m k v) = true := by
  unfold mset
  split
  · exact Mem.wf_filter _ _ h
  · next hv => exact Mem.wf_minsert _ _ _ h hv

/-- A write of bytes keeps the canonical form. -/
theorem Mem.wf_mwrite (m : Mem) (k : Nat) (bs : List Byte) (h : m.wf = true) : Mem.wf (mwrite m k bs) = true := by
  induction bs generalizing m k with
  | nil => exact h
  | cons b r ih => exact ih _ _ (Mem.wf_mset _ _ _ h)

/-- Clearing a range keeps the canonical form. -/
theorem Mem.wf_mclear (m : Mem) (lo hi : Nat) (h : m.wf = true) : Mem.wf (mclear m lo hi) = true := Mem.wf_filter _ _ h

/-- A fold of writes keeps the canonical form. -/
theorem Mem.wf_foldl_mset {α : Type} (l : List α) (key : α → Nat) (val : α → Byte) (m : Mem) (h : m.wf = true) :
    Mem.wf (l.foldl (fun m e => mset m (key e) (val e)) m) = true := by
  induction l generalizing m with
  | nil => exact h
  | cons e r ih => exact ih _ (Mem.wf_mset _ _ _ h)

theorem mget_of_not_mem (m : Mem) (k : Nat) (h : ∀ e ∈ m, e.1 ≠ k) : mget m k = blankByte := by
  induction m with
  | nil => rfl
  | cons e r ih =>
    obtain ⟨k', v⟩ := e
    have : k' ≠ k := h (k', v) (by simp)
    simp only [mget, if_neg this]
    exact ih (fun e he => h e (List.mem_cons_of_mem _ he))

theorem mget_minsert_self (m : Mem) (k : Nat) (v : Byte) : mget (minsert m k v) k = v := by
  induction m with
  | nil => simp [minsert, mget]
  | cons e r ih =>
    obtain ⟨k', v'⟩ := e
    by_cases h1 : k < k'
    · simp [minsert, h1, mget]
    · by_cases h2 : k = k'
      · simp [minsert, h2, mget]
      · simp [minsert, h1, h2, mget, ih, Ne.symm h2]

theorem mget_minsert_ne (m : Mem) (k j : Nat) (v : Byte) (h : j ≠ k) : mget (minsert m k v) j = mget m j := by
  induction m with
  | nil => simp [minsert, mget, Ne.symm h]
  | cons e r ih =>
    obtain ⟨k', v'⟩ := e
    by_cases h1 : k < k'
    · simp [minsert, h1, mget, Ne.symm h]
    · by_cases h2 : k = k'
      · subst h2
        simp [minsert, mget, Ne.symm h]
      · by_cases h3 : k' = j
        · subst h3
          simp [minsert, h1, h2, mget]
        · simp [minsert, h1, h2, mget, h3, ih]

theorem mget_filter_ne (m : Mem) (k j : Nat) (h : j ≠ k) : mget (m.filter (fun e => e.1 != k)) j = mget m j := by
  induction m with
  | nil => rfl
  | cons e r ih =>
    obtain ⟨k', v⟩ := e
    by_cases h1 : k' = k
    · rw [List.filter_cons_of_neg (by simp [h1]), ih, mget, if_neg (by omega)]
    · rw [List.filter_cons_of_pos (by simp [h1])]
      by_cases h2 : k' = j
      · simp [mget, h2]
      · simp [mget, h2, ih]

/-- A byte reads as it was last written. -/
@[simp] theorem mget_mset_self (m : Mem) (k : Nat) (v : Byte) : mget (mset m k v) k = v := by
  unfold mset
  split
  · next h => rw [h]; exact mget_of_not_mem _ _ (fun e he => by simpa using (List.mem_filter.mp he).2)
  · exact mget_minsert_self _ _ _

/-- A write leaves every other byte alone. -/
theorem mget_mset_ne (m : Mem) (k j : Nat) (v : Byte) (h : j ≠ k) : mget (mset m k v) j = mget m j := by
  unfold mset
  split
  · exact mget_filter_ne _ _ _ h
  · exact mget_minsert_ne _ _ _ _ h

/-- A write of bytes leaves every byte outside them alone. -/
theorem mget_mwrite_out (m : Mem) (k j : Nat) (bs : List Byte) (h : j < k ∨ k + bs.length ≤ j) : mget (mwrite m k bs) j = mget m j := by
  induction bs generalizing m k with
  | nil => rfl
  | cons b r ih =>
    simp only [List.length_cons] at h
    rw [mwrite, ih _ _ (by omega), mget_mset_ne _ _ _ _ (by omega)]

/-- A byte among those written reads as it was written. -/
theorem mget_mwrite_in (m : Mem) (k i : Nat) (bs : List Byte) (h : i < bs.length) : mget (mwrite m k bs) (k + i) = bs[i] := by
  induction bs generalizing m k i with
  | nil => simp at h
  | cons b r ih =>
    cases i with
    | zero => rw [mwrite, mget_mwrite_out _ _ _ _ (by omega)]; simp
    | succ i =>
      rw [mwrite, show k + (i + 1) = k + 1 + i by omega, ih _ _ _ (by simpa using h)]
      rfl

/-! The state's memory: each write of it keeps the canonical form. -/

theorem State.memWf_flush (s : State) (key n : Nat) (h : s.memWf) : (s.flush key n).memWf := by
  have go : ∀ (l : List Nat) (u : State), u.memWf → (l.foldl (fun (u : State) c =>
      let l := (u.core c).ebuf.filter (fun p => sameUnits key n p.1)
      if l.isEmpty then u
      else ({ u with mem := l.foldl (fun m p => mset m p.1 p.2) u.mem } : State).modCore c (fun k =>
        { k with ebuf := k.ebuf.filter (fun p => !sameUnits key n p.1) })) u).memWf := by
    intro l
    induction l with
    | nil => exact fun _ h => h
    | cons e r ih =>
      intro u hu
      refine ih _ ?_
      dsimp only
      split
      · exact hu
      · exact Mem.wf_foldl_mset _ (fun p : Nat × Byte => p.1) (fun p : Nat × Byte => p.2) _ hu
  exact go _ s h

theorem State.memWf_write (s : State) (key : Nat) (bs : List Byte) (h : s.memWf) : (s.write key bs).memWf :=
  Mem.wf_mwrite _ _ _ (State.memWf_flush s key bs.length h)

theorem State.memWf_writePa (s : State) (pa : Nat) (bs : List Byte) (h : s.memWf) : (s.writePa pa bs).memWf := by
  have go : ∀ (l : List Nat) (u : State), u.memWf → (l.foldl (fun s i => s.write (s.forward (pa + i)) [bs.getD i 0]) u).memWf := by
    intro l
    induction l with
    | nil => exact fun _ h => h
    | cons i r ih => exact fun u hu => ih _ (State.memWf_write _ _ _ hu)
  exact go _ s h

theorem State.memWf_settle (s : State) (c : Nat) (h : s.memWf) : (s.settle c).memWf := by
  have go : ∀ (l : Tbl Byte) (u : State), u.memWf → (l.foldl (fun s e => s.write e.1 [e.2]) u).memWf := by
    intro l
    induction l with
    | nil => exact fun _ h => h
    | cons e r ih => exact fun u hu => ih _ (State.memWf_write _ _ _ hu)
  exact go _ _ h

end Sys2Proof.Machine
end

