-- ==== Sys2Proof/Laws/Issue.lean ====
section
/-! SUPPORT. Issue and retirement: what the one way an instruction issues can do. -/

namespace Sys2Proof.Machine

@[simp] theorem fault?_false (c : IllCause) : fault? false c = [] := rfl

@[simp] theorem fault?_true (c : IllCause) : fault? true c = [c] := rfl

theorem fault?_eq_nil {b : Bool} {c : IllCause} : fault? b c = [] ↔ b = false := by cases b <;> simp

@[simp] theorem worst_nil : worst [] = none := rfl

@[simp] theorem worst_singleton (c : IllCause) : worst [c] = some c := rfl

theorem worst_eq_none {l : List IllCause} : worst l = none ↔ l = [] := by
  cases l with
  | nil => simp
  | cons c r => simp only [worst]; split <;> (try split) <;> simp

@[simp] theorem need_true : need true = .ok () := rfl

@[simp] theorem need_false : need false = .error .stall := rfl

/-- What taking the token of a TK prefix can do: nothing, or one unit of one counter of the core that issues. -/
theorem takeWait_ok {s u : State} (h : takeWait s = .ok u) :
    u = s ∨ ∃ t k, s.cx.mods.wait = some t ∧ s.cxCore.take? t = some k ∧ u = s.setCore s.cx.core k := by
  unfold takeWait at h
  split at h
  · exact .inl (by injection h with h; exact h.symm)
  · next t ht =>
    split at h
    · next k hk => exact .inr ⟨t, k, ht, hk, by injection h with h; exact h.symm⟩
    · cases h

@[simp] theorem takeWait_none {s : State} (h : s.cx.mods.wait = none) : takeWait s = .ok s := by simp [takeWait, h]

theorem takeWait_cx {s u : State} (h : takeWait s = .ok u) : u.cx = s.cx := by
  rcases takeWait_ok h with rfl | ⟨t, k, -, -, rfl⟩ <;> rfl

/-- Everything that the way an instruction issues can do: an encoding fault; a stall, an ILL, a trap or a fatal error of its token or its
effect; or its effect and its retirement. -/
theorem issue_cases (s : State) (faults : List IllCause) (body : State → Try State) :
    (∃ c, worst (faults ++ rsFault s) = some c ∧ issue s faults body = .next (raiseIll s c)) ∨
    (worst (faults ++ rsFault s) = none ∧ issue s faults body = conclude s (takeWait s >>= body)) := by
  unfold issue
  split
  · next c hc => exact .inl ⟨c, hc, rfl⟩
  · next hc => exact .inr ⟨hc, rfl⟩

theorem conclude_next (s : State) (r : Try State) : ∃ s', conclude s r = .next s' := by
  unfold conclude
  split <;> exact ⟨_, rfl⟩

/-- An instruction of the text always goes on. -/
theorem issue_next (s : State) (faults : List IllCause) (body : State → Try State) : ∃ s', issue s faults body = .next s' := by
  rcases issue_cases s faults body with ⟨c, -, h⟩ | ⟨-, h⟩
  · exact ⟨_, h⟩
  · rw [h]; exact conclude_next _ _

/-- An instruction with no fault, whose token is there, whose effect is not stopped and whose signal has room, takes its effect and retires. -/
theorem issue_ok {s u v : State} {faults : List IllCause} {body : State → Try State} (hf : faults = []) (hr : Admits s u)
    (hb : body u = .ok v) (hv : v.sigStuck = false) : issue s faults body = .next (retire v) := by
  unfold issue
  rw [hf, hr.1, hr.2]
  simp only [List.append_nil, worst_nil]
  show conclude s (body u) = _
  rw [hb]
  simp [conclude, hv]

/-- Whether a signal has room depends on the issue register and on the token counters of the core that issues alone. -/
theorem sigStuck_congr {u v : State} (hc : v.cx.mods.sig = u.cx.mods.sig) (ht : v.cxCore.tk = u.cxCore.tk) : v.sigStuck = u.sigStuck := by
  simp [State.sigStuck, hc, ht]

/-- A signal that has been taken away from retirement stops nothing. -/
@[simp] theorem sigStuck_deferSig (s : State) : s.deferSig.sigStuck = false := rfl

@[simp] theorem sigStuck_stay (s : State) : s.stay.sigStuck = false := rfl

theorem issue_ill {s : State} {faults : List IllCause} {body : State → Try State} {c : IllCause} (h : worst (faults ++ rsFault s) = some c) :
    issue s faults body = .next (raiseIll s c) := by
  unfold issue
  rw [h]

theorem issueCore_ok {s u : State} {k : CoreSt} {faults : List IllCause} {body : CoreSt → Try CoreSt} (hf : faults = []) (hr : Ready s u)
    (hb : body u.cxCore = .ok k) (ht : k.tk = u.cxCore.tk) : issueCore s faults body = .next (After u k) := by
  have := takeWait_cx hr.1.2
  unfold issueCore After
  refine issue_ok hf hr.1 (v := u.setCore u.cx.core k) ?_ ?_
  · simp [hb, Except.map, this]
  · exact (sigStuck_congr (u := u) (v := u.setCore u.cx.core k) rfl (by rw [State.cxCore_setCore]; exact ht)).trans hr.2

/-- Taking the token touches one thing at most: the token counters of the core that issues. -/
theorem takeWait_core {s u : State} (h : takeWait s = .ok u) : ∃ n, u = s ∨ u = s.setCore s.cx.core { s.cxCore with tk := n } := by
  rcases takeWait_ok h with rfl | ⟨t, k, -, hk, rfl⟩
  · exact ⟨0, .inl rfl⟩
  · unfold CoreSt.take? at hk
    split at hk
    · cases hk
    · injection hk with hk
      exact ⟨_, .inr (by rw [← hk])⟩

/-- An effect that is not yet possible leaves the state as it was: the instruction waits. -/
theorem issueCore_stall {s u : State} {faults : List IllCause} {body : CoreSt → Try CoreSt} (hf : faults = []) (hr : Admits s u)
    (hb : body u.cxCore = .error .stall) : issueCore s faults body = .next s := by
  unfold issueCore issue
  rw [hf, hr.1, hr.2]
  simp only [List.append_nil, worst_nil]
  show conclude s _ = _
  simp [hb, Except.map, bind, Except.bind, conclude]

/-- An effect that ends in an ILL raises it from the state before the token was taken. -/
theorem issueCore_ill {s u : State} {c : IllCause} {faults : List IllCause} {body : CoreSt → Try CoreSt} (hf : faults = [])
    (hr : Admits s u) (hb : body u.cxCore = .error (.ill c)) : issueCore s faults body = .next (raiseIll s c) := by
  unfold issueCore issue
  rw [hf, hr.1, hr.2]
  simp only [List.append_nil, worst_nil]
  show conclude s _ = _
  simp [hb, Except.map, bind, Except.bind, conclude]

theorem issueCore_next (s : State) (faults : List IllCause) (body : CoreSt → Try CoreSt) : ∃ s', issueCore s faults body = .next s' :=
  issue_next _ _ _

end Sys2Proof.Machine
end

