-- ==== Sys2Proof/Laws/PerInstr.lean ====
section
/-! SUPPORT. The family Encodes: what the encoder gives for each instruction, one lemma per constructor of Instr. -/

namespace Sys2Proof.Laws.Encodes

/-- An instruction of the text has one word or, exactly where SEL of its first word is 01, two (R66, R67). -/
def Statement (i : Instr) : Prop := WellFormed i = true → ∃ w ps, encode i = w :: ps ∧ ps.length ≤ 1 ∧ (ps.length = 1 ↔ selOf w = 1)

/-- The two low bits of a word are those of its lowest field. -/
theorem low_bits {n m : Nat} (a : BitVec n) (b : BitVec m) (h : 2 ≤ m) : (a ++ b).extractLsb' 0 2 = b.extractLsb' 0 2 := by
  ext i hi
  have h1 : i < m := by omega
  simp [BitVec.getElem_extractLsb', BitVec.getLsbD_append, h1]

/-- SEL of a word that ends in OP, TAG and SEL. -/
theorem sel_low {n : Nat} (a : BitVec n) (op : BitVec 7) (tag : BitVec 3) (s : BitVec 2) : (a ++ low op tag s).extractLsb' 0 2 = s := by
  rw [low_bits _ _ (by decide), low, low_bits _ _ (by decide)]
  simp

/-- An instruction of one word. -/
theorem ofOne {i : Instr} {w : Word} {s : BitVec 2} (h : encode i = [w]) (hs : selOf w = s) (hn : s ≠ 1) : Statement i :=
  fun _ => ⟨w, [], h, by decide, by simpa [hs] using hn⟩

/-- An instruction of two words. -/
theorem ofTwo {i : Instr} {w p : Word} (h : encode i = [w, p]) (hs : selOf w = 1) : Statement i :=
  fun _ => ⟨w, [p], h, by simp, by simp [hs]⟩

/-- A step of an agent. -/
theorem ofNone {i : Instr} (h : WellFormed i = false) : Statement i := fun g => absurd (h.symm.trans g) (by decide)

theorem nopX : Statement .nopX := ofOne rfl (sel_low _ _ _ _) (by decide)
theorem add (x1 x2 x3) : Statement (.add x1 x2 x3) := ofOne rfl (sel_low _ _ _ _) (by decide)
theorem sub (x1 x2 x3) : Statement (.sub x1 x2 x3) := ofOne rfl (sel_low _ _ _ _) (by decide)
theorem addi (x1 x2 x3) : Statement (.addi x1 x2 x3) := ofOne rfl (sel_low _ _ _ _) (by decide)
theorem mul (x1 x2 x3) : Statement (.mul x1 x2 x3) := ofOne rfl (sel_low _ _ _ _) (by decide)
theorem mulh (x1 x2 x3) : Statement (.mulh x1 x2 x3) := ofOne rfl (sel_low _ _ _ _) (by decide)
theorem mulhz (x1 x2 x3) : Statement (.mulhz x1 x2 x3) := ofOne rfl (sel_low _ _ _ _) (by decide)
theorem div (x1 x2 x3) : Statement (.div x1 x2 x3) := ofOne rfl (sel_low _ _ _ _) (by decide)
theorem divz (x1 x2 x3) : Statement (.divz x1 x2 x3) := ofOne rfl (sel_low _ _ _ _) (by decide)
theorem rem (x1 x2 x3) : Statement (.rem x1 x2 x3) := ofOne rfl (sel_low _ _ _ _) (by decide)
theorem remz (x1 x2 x3) : Statement (.remz x1 x2 x3) := ofOne rfl (sel_low _ _ _ _) (by decide)
theorem and_ (x1 x2 x3) : Statement (.and_ x1 x2 x3) := ofOne rfl (sel_low _ _ _ _) (by decide)
theorem or_ (x1 x2 x3) : Statement (.or_ x1 x2 x3) := ofOne rfl (sel_low _ _ _ _) (by decide)
theorem xor (x1 x2 x3) : Statement (.xor x1 x2 x3) := ofOne rfl (sel_low _ _ _ _) (by decide)
theorem andn (x1 x2 x3) : Statement (.andn x1 x2 x3) := ofOne rfl (sel_low _ _ _ _) (by decide)
theorem shl (x1 x2 x3) : Statement (.shl x1 x2 x3) := ofOne rfl (sel_low _ _ _ _) (by decide)
theorem shr (x1 x2 x3) : Statement (.shr x1 x2 x3) := ofOne rfl (sel_low _ _ _ _) (by decide)
theorem sra (x1 x2 x3) : Statement (.sra x1 x2 x3) := ofOne rfl (sel_low _ _ _ _) (by decide)
theorem min (x1 x2 x3) : Statement (.min x1 x2 x3) := ofOne rfl (sel_low _ _ _ _) (by decide)
theorem max (x1 x2 x3) : Statement (.max x1 x2 x3) := ofOne rfl (sel_low _ _ _ _) (by decide)
theorem minz (x1 x2 x3) : Statement (.minz x1 x2 x3) := ofOne rfl (sel_low _ _ _ _) (by decide)
theorem maxz (x1 x2 x3) : Statement (.maxz x1 x2 x3) := ofOne rfl (sel_low _ _ _ _) (by decide)
theorem clz (x1 x2) : Statement (.clz x1 x2) := ofOne rfl (sel_low _ _ _ _) (by decide)
theorem popc (x1 x2) : Statement (.popc x1 x2) := ofOne rfl (sel_low _ _ _ _) (by decide)
theorem extb (x1 x2 x3) : Statement (.extb x1 x2 x3) := ofOne rfl (sel_low _ _ _ _) (by decide)
theorem exth (x1 x2 x3) : Statement (.exth x1 x2 x3) := ofOne rfl (sel_low _ _ _ _) (by decide)
theorem bfx (x1 x2 x3 x4 x5) : Statement (.bfx x1 x2 x3 x4 x5) := ofTwo rfl (sel_low _ _ _ _)
theorem bfi (x1 x2 x3 x4 x5) : Statement (.bfi x1 x2 x3 x4 x5) := ofTwo rfl (sel_low _ _ _ _)
theorem cmp (x1 x2 x3 x4 x5) : Statement (.cmp x1 x2 x3 x4 x5) := ofOne rfl (sel_low _ _ _ _) (by decide)
theorem sel (x1 x2 x3 x4) : Statement (.sel x1 x2 x3 x4) := ofOne rfl (sel_low _ _ _ _) (by decide)
theorem mov (x1 x2) : Statement (.mov x1 x2) := ofOne rfl (sel_low _ _ _ _) (by decide)
theorem li (x1 x2) : Statement (.li x1 x2) := ofTwo rfl (sel_low _ _ _ _)
theorem add64 (x1 x2 x3) : Statement (.add64 x1 x2 x3) := ofOne rfl (sel_low _ _ _ _) (by decide)
theorem sub64 (x1 x2 x3) : Statement (.sub64 x1 x2 x3) := ofOne rfl (sel_low _ _ _ _) (by decide)
theorem shl64 (x1 x2 x3) : Statement (.shl64 x1 x2 x3) := ofOne rfl (sel_low _ _ _ _) (by decide)
theorem shr64 (x1 x2 x3) : Statement (.shr64 x1 x2 x3) := ofOne rfl (sel_low _ _ _ _) (by decide)
theorem sra64 (x1 x2 x3) : Statement (.sra64 x1 x2 x3) := ofOne rfl (sel_low _ _ _ _) (by decide)
theorem cmp64 (x1 x2 x3 x4 x5) : Statement (.cmp64 x1 x2 x3 x4 x5) := ofOne rfl (sel_low _ _ _ _) (by decide)
theorem mov64 (x1 x2) : Statement (.mov64 x1 x2) := ofOne rfl (sel_low _ _ _ _) (by decide)
theorem li64 (x1 x2) : Statement (.li64 x1 x2) := ofTwo rfl (sel_low _ _ _ _)
theorem waitX (x1) : Statement (.waitX x1) := ofOne rfl (sel_low _ _ _ _) (by decide)
theorem sigX (x1) : Statement (.sigX x1) := ofOne rfl (sel_low _ _ _ _) (by decide)
theorem awaitX (x1) : Statement (.awaitX x1) := ofOne rfl (sel_low _ _ _ _) (by decide)
theorem qbindBind (x1 x2 x3) : Statement (.qbindBind x1 x2 x3) := ofTwo rfl (sel_low _ _ _ _)
theorem qbindUnbind (x1) : Statement (.qbindUnbind x1) := ofTwo rfl (sel_low _ _ _ _)
theorem qdepth (x1 x2) : Statement (.qdepth x1 x2) := ofOne rfl (sel_low _ _ _ _) (by decide)
theorem spawn (x1 x2 x3) : Statement (.spawn x1 x2 x3) := ofOne rfl (sel_low _ _ _ _) (by decide)
theorem spawnNb (x1 x2 x3) : Statement (.spawnNb x1 x2 x3) := ofOne rfl (sel_low _ _ _ _) (by decide)
theorem tstat (x1 x2) : Statement (.tstat x1 x2) := ofOne rfl (sel_low _ _ _ _) (by decide)
theorem trap (x1) : Statement (.trap x1) := ofOne rfl (sel_low _ _ _ _) (by decide)
theorem brk (x1) : Statement (.brk x1) := ofOne rfl (sel_low _ _ _ _) (by decide)
theorem rdcap (x1 x2) : Statement (.rdcap x1 x2) := ofOne rfl (sel_low _ _ _ _) (by decide)
theorem rdsys (x1 x2) : Statement (.rdsys x1 x2) := ofOne rfl (sel_low _ _ _ _) (by decide)
theorem timelRead (x1) : Statement (.timelRead x1) := ofOne rfl (sel_low _ _ _ _) (by decide)
theorem wrsys (x1 x2) : Statement (.wrsys x1 x2) := ofOne rfl (sel_low _ _ _ _) (by decide)
theorem slipwWrite (x1) : Statement (.slipwWrite x1) := ofOne rfl (sel_low _ _ _ _) (by decide)
theorem nevcfgWrite (x1) : Statement (.nevcfgWrite x1) := ofOne rfl (sel_low _ _ _ _) (by decide)
theorem nevcntWrite (x1 x2) : Statement (.nevcntWrite x1 x2) := ofOne rfl (sel_low _ _ _ _) (by decide)
theorem nevstatClear (x1) : Statement (.nevstatClear x1) := ofOne rfl (sel_low _ _ _ _) (by decide)
theorem clkdiv (x1 x2 x3) : Statement (.clkdiv x1 x2 x3) := ofOne rfl (sel_low _ _ _ _) (by decide)
theorem pace (x1 x2) : Statement (.pace x1 x2) := ofOne rfl (sel_low _ _ _ _) (by decide)
theorem nopA : Statement .nopA := ofOne rfl (sel_low _ _ _ _) (by decide)
theorem aadd (x1 x2 x3) : Statement (.aadd x1 x2 x3) := ofOne rfl (sel_low _ _ _ _) (by decide)
theorem asub (x1 x2 x3) : Statement (.asub x1 x2 x3) := ofOne rfl (sel_low _ _ _ _) (by decide)
theorem aaddi (x1 x2 x3) : Statement (.aaddi x1 x2 x3) := ofOne rfl (sel_low _ _ _ _) (by decide)
theorem amuli (x1 x2 x3) : Statement (.amuli x1 x2 x3) := ofOne rfl (sel_low _ _ _ _) (by decide)
theorem ashl (x1 x2 x3) : Statement (.ashl x1 x2 x3) := ofOne rfl (sel_low _ _ _ _) (by decide)
theorem ashr (x1 x2 x3) : Statement (.ashr x1 x2 x3) := ofOne rfl (sel_low _ _ _ _) (by decide)
theorem aand (x1 x2 x3) : Statement (.aand x1 x2 x3) := ofOne rfl (sel_low _ _ _ _) (by decide)
theorem amov (x1 x2) : Statement (.amov x1 x2) := ofOne rfl (sel_low _ _ _ _) (by decide)
theorem ali (x1 x2) : Statement (.ali x1 x2) := ofTwo rfl (sel_low _ _ _ _)
theorem alih (x1 x2) : Statement (.alih x1 x2) := ofTwo rfl (sel_low _ _ _ _)
theorem acmp (x1 x2 x3 x4 x5) : Statement (.acmp x1 x2 x3 x4 x5) := ofOne rfl (sel_low _ _ _ _) (by decide)
theorem apop (x1 x2) : Statement (.apop x1 x2) := ofOne rfl (sel_low _ _ _ _) (by decide)
theorem apush (x1 x2) : Statement (.apush x1 x2) := ofOne rfl (sel_low _ _ _ _) (by decide)
theorem acoord (x1 x2 x3) : Statement (.acoord x1 x2 x3) := ofTwo rfl (sel_low _ _ _ _)
theorem ldz8 (x1 x2 x3) : Statement (.ldz8 x1 x2 x3) := ofOne rfl (sel_low _ _ _ _) (by decide)
theorem lds8 (x1 x2 x3) : Statement (.lds8 x1 x2 x3) := ofOne rfl (sel_low _ _ _ _) (by decide)
theorem ldz16 (x1 x2 x3) : Statement (.ldz16 x1 x2 x3) := ofOne rfl (sel_low _ _ _ _) (by decide)
theorem lds16 (x1 x2 x3) : Statement (.lds16 x1 x2 x3) := ofOne rfl (sel_low _ _ _ _) (by decide)
theorem ld32 (x1 x2 x3) : Statement (.ld32 x1 x2 x3) := ofOne rfl (sel_low _ _ _ _) (by decide)
theorem ld64 (x1 x2 x3) : Statement (.ld64 x1 x2 x3) := ofOne rfl (sel_low _ _ _ _) (by decide)
theorem st8 (x1 x2 x3) : Statement (.st8 x1 x2 x3) := ofOne rfl (sel_low _ _ _ _) (by decide)
theorem st16 (x1 x2 x3) : Statement (.st16 x1 x2 x3) := ofOne rfl (sel_low _ _ _ _) (by decide)
theorem st32 (x1 x2 x3) : Statement (.st32 x1 x2 x3) := ofOne rfl (sel_low _ _ _ _) (by decide)
theorem st64 (x1 x2 x3) : Statement (.st64 x1 x2 x3) := ofOne rfl (sel_low _ _ _ _) (by decide)
theorem loadDelivery (x1) : Statement (.loadDelivery x1) := ofNone rfl
theorem storePerformed (x1) : Statement (.storePerformed x1) := ofNone rfl
theorem ldrow (x1) : Statement (.ldrow x1) := ofTwo rfl (sel_low _ _ _ _)
theorem rowLoadLanded (x1) : Statement (.rowLoadLanded x1) := ofNone rfl
theorem strow (x1) : Statement (.strow x1) := ofTwo rfl (sel_low _ _ _ _)
theorem ldfe (x1 x2 x3) : Statement (.ldfe x1 x2 x3) := ofOne rfl (sel_low _ _ _ _) (by decide)
theorem stfe (x1 x2 x3) : Statement (.stfe x1 x2 x3) := ofOne rfl (sel_low _ _ _ _) (by decide)
theorem ldrfe (x1) : Statement (.ldrfe x1) := ofTwo rfl (sel_low _ _ _ _)
theorem strfe (x1) : Statement (.strfe x1) := ofTwo rfl (sel_low _ _ _ _)
theorem fullEmptyPerform (x1) : Statement (.fullEmptyPerform x1) := ofNone rfl
theorem probe (x1 x2 x3) : Statement (.probe x1 x2 x3) := ofOne rfl (sel_low _ _ _ _) (by decide)
theorem faultRingPoll (x1) : Statement (.faultRingPoll x1) := ofNone rfl
theorem copy (x1 x2) : Statement (.copy x1 x2) := ofTwo rfl (sel_low _ _ _ _)
theorem copym (x1 x2) : Statement (.copym x1 x2) := ofTwo rfl (sel_low _ _ _ _)
theorem mcast (x1 x2 x3 x4) : Statement (.mcast x1 x2 x3 x4) := ofTwo rfl (sel_low _ _ _ _)
theorem tfetch (x1 x2) : Statement (.tfetch x1 x2) := ofTwo rfl (sel_low _ _ _ _)
theorem sluiceRowFill (x1) : Statement (.sluiceRowFill x1) := ofNone rfl
theorem sacc (x1 x2 x3 x4 x5) : Statement (.sacc x1 x2 x3 x4 x5) := ofTwo rfl (sel_low _ _ _ _)
theorem gath (x1 x2 x3 x4) : Statement (.gath x1 x2 x3 x4) := ofTwo rfl (sel_low _ _ _ _)
theorem scat (x1 x2 x3 x4) : Statement (.scat x1 x2 x3 x4) := ofTwo rfl (sel_low _ _ _ _)
theorem gathmc (x1 x2 x3 x4 x5) : Statement (.gathmc x1 x2 x3 x4 x5) := ofTwo rfl (sel_low _ _ _ _)
theorem chain (x1 x2 x3 x4 x5 x6 x7 x8) : Statement (.chain x1 x2 x3 x4 x5 x6 x7 x8) := ofTwo rfl (sel_low _ _ _ _)
theorem chop (x1 x2 x3) : Statement (.chop x1 x2 x3) := ofOne rfl (sel_low _ _ _ _) (by decide)
theorem cmask (x1 x2) : Statement (.cmask x1 x2) := ofTwo rfl (sel_low _ _ _ _)
theorem tlist (x1) : Statement (.tlist x1) := ofTwo rfl (sel_low _ _ _ _)
theorem tokz (x1 x2 x3) : Statement (.tokz x1 x2 x3) := ofTwo rfl (sel_low _ _ _ _)
theorem ccvt (x1 x2 x3 x4 x5) : Statement (.ccvt x1 x2 x3 x4 x5) := ofTwo rfl (sel_low _ _ _ _)
theorem engineCommandStart (x1 x2) : Statement (.engineCommandStart x1 x2) := ofNone rfl
theorem engineCommandComplete (x1 x2) : Statement (.engineCommandComplete x1 x2) := ofNone rfl
theorem waitA (x1) : Statement (.waitA x1) := ofOne rfl (sel_low _ _ _ _) (by decide)
theorem sigA (x1) : Statement (.sigA x1) := ofOne rfl (sel_low _ _ _ _) (by decide)
theorem awaitA (x1) : Statement (.awaitA x1) := ofOne rfl (sel_low _ _ _ _) (by decide)
theorem nopV : Statement .nopV := ofTwo rfl (sel_low _ _ _ _)
theorem vadd (x1) : Statement (.vadd x1) := ofTwo rfl (sel_low _ _ _ _)
theorem vsub (x1) : Statement (.vsub x1) := ofTwo rfl (sel_low _ _ _ _)
theorem vmul (x1) : Statement (.vmul x1) := ofTwo rfl (sel_low _ _ _ _)
theorem vfma (x1) : Statement (.vfma x1) := ofTwo rfl (sel_low _ _ _ _)
theorem vfms (x1) : Statement (.vfms x1) := ofTwo rfl (sel_low _ _ _ _)
theorem vmin (x1) : Statement (.vmin x1) := ofTwo rfl (sel_low _ _ _ _)
theorem vmax (x1) : Statement (.vmax x1) := ofTwo rfl (sel_low _ _ _ _)
theorem vabs (x1) : Statement (.vabs x1) := ofTwo rfl (sel_low _ _ _ _)
theorem vneg (x1) : Statement (.vneg x1) := ofTwo rfl (sel_low _ _ _ _)
theorem vrcp (x1) : Statement (.vrcp x1) := ofTwo rfl (sel_low _ _ _ _)
theorem vrsq (x1) : Statement (.vrsq x1) := ofTwo rfl (sel_low _ _ _ _)
theorem vsqrt (x1) : Statement (.vsqrt x1) := ofTwo rfl (sel_low _ _ _ _)
theorem vexp (x1) : Statement (.vexp x1) := ofTwo rfl (sel_low _ _ _ _)
theorem vlog (x1) : Statement (.vlog x1) := ofTwo rfl (sel_low _ _ _ _)
theorem vtanh (x1) : Statement (.vtanh x1) := ofTwo rfl (sel_low _ _ _ _)
theorem vsigm (x1) : Statement (.vsigm x1) := ofTwo rfl (sel_low _ _ _ _)
theorem vcvt (x1) : Statement (.vcvt x1) := ofTwo rfl (sel_low _ _ _ _)
theorem vcmp (x1) : Statement (.vcmp x1) := ofTwo rfl (sel_low _ _ _ _)
theorem vsel (x1) : Statement (.vsel x1) := ofTwo rfl (sel_low _ _ _ _)
theorem vand (x1) : Statement (.vand x1) := ofTwo rfl (sel_low _ _ _ _)
theorem vor (x1) : Statement (.vor x1) := ofTwo rfl (sel_low _ _ _ _)
theorem vxor (x1) : Statement (.vxor x1) := ofTwo rfl (sel_low _ _ _ _)
theorem vnot (x1) : Statement (.vnot x1) := ofTwo rfl (sel_low _ _ _ _)
theorem vshl (x1) : Statement (.vshl x1) := ofTwo rfl (sel_low _ _ _ _)
theorem vshr (x1) : Statement (.vshr x1) := ofTwo rfl (sel_low _ _ _ _)
theorem vsra (x1) : Statement (.vsra x1) := ofTwo rfl (sel_low _ _ _ _)
theorem vadd64 (x1) : Statement (.vadd64 x1) := ofTwo rfl (sel_low _ _ _ _)
theorem vsub64 (x1) : Statement (.vsub64 x1) := ofTwo rfl (sel_low _ _ _ _)
theorem vcmp64 (x1) : Statement (.vcmp64 x1) := ofTwo rfl (sel_low _ _ _ _)
theorem vshl64 (x1) : Statement (.vshl64 x1) := ofTwo rfl (sel_low _ _ _ _)
theorem vshr64 (x1) : Statement (.vshr64 x1) := ofTwo rfl (sel_low _ _ _ _)
theorem vmov (x1) : Statement (.vmov x1) := ofTwo rfl (sel_low _ _ _ _)
theorem vbcast (x1) : Statement (.vbcast x1) := ofTwo rfl (sel_low _ _ _ _)
theorem vred (x1) : Statement (.vred x1) := ofTwo rfl (sel_low _ _ _ _)
theorem vscan (x1) : Statement (.vscan x1) := ofTwo rfl (sel_low _ _ _ _)
theorem vmerge (x1) : Statement (.vmerge x1) := ofTwo rfl (sel_low _ _ _ _)
theorem vcompact (x1) : Statement (.vcompact x1) := ofTwo rfl (sel_low _ _ _ _)
theorem vexpand (x1) : Statement (.vexpand x1) := ofTwo rfl (sel_low _ _ _ _)
theorem vperm (x1) : Statement (.vperm x1) := ofTwo rfl (sel_low _ _ _ _)
theorem vrot (x1) : Statement (.vrot x1) := ofTwo rfl (sel_low _ _ _ _)
theorem visab (x1) : Statement (.visab x1) := ofTwo rfl (sel_low _ _ _ _)
theorem vmkab (x1) : Statement (.vmkab x1) := ofTwo rfl (sel_low _ _ _ _)
theorem vcnt (x1) : Statement (.vcnt x1) := ofTwo rfl (sel_low _ _ _ _)
theorem vseti (x1) : Statement (.vseti x1) := ofTwo rfl (sel_low _ _ _ _)
theorem viota (x1) : Statement (.viota x1) := ofTwo rfl (sel_low _ _ _ _)
theorem waitV (x1) : Statement (.waitV x1) := ofTwo rfl (sel_low _ _ _ _)
theorem sigV (x1) : Statement (.sigV x1) := ofTwo rfl (sel_low _ _ _ _)
theorem awaitV (x1) : Statement (.awaitV x1) := ofTwo rfl (sel_low _ _ _ _)
theorem nopM : Statement .nopM := ofOne rfl (sel_low _ _ _ _) (by decide)
theorem mlicAcq : Statement .mlicAcq := ofOne rfl (sel_low _ _ _ _) (by decide)
theorem mlicRel : Statement .mlicRel := ofOne rfl (sel_low _ _ _ _) (by decide)
theorem mlicTry : Statement .mlicTry := ofOne rfl (sel_low _ _ _ _) (by decide)
theorem licenceGrant (x1) : Statement (.licenceGrant x1) := ofNone rfl
theorem tplld (x1 x2 x3) : Statement (.tplld x1 x2 x3) := ofOne rfl (sel_low _ _ _ _) (by decide)
theorem mx (x1 x2 x3) : Statement (.mx x1 x2 x3) := ofOne rfl (low_bits _ 0b01111#5 (by decide)) (by decide)
theorem sidePortCommand (x1) : Statement (.sidePortCommand x1) := ofNone rfl
theorem mzero (x1) : Statement (.mzero x1) := ofOne rfl (sel_low _ _ _ _) (by decide)
theorem mdrain (x1) : Statement (.mdrain x1) := ofTwo rfl (sel_low _ _ _ _)
theorem mmaExecute (x1) : Statement (.mmaExecute x1) := ofNone rfl
theorem mxposeExecute (x1) : Statement (.mxposeExecute x1) := ofNone rfl
theorem mzeroExecute (x1) : Statement (.mzeroExecute x1) := ofNone rfl
theorem mdrainExecute (x1) : Statement (.mdrainExecute x1) := ofNone rfl
theorem arrayCommandComplete (x1) : Statement (.arrayCommandComplete x1) := ofNone rfl
theorem waitM (x1) : Statement (.waitM x1) := ofOne rfl (sel_low _ _ _ _) (by decide)
theorem sigM (x1) : Statement (.sigM x1) := ofOne rfl (sel_low _ _ _ _) (by decide)
theorem awaitM (x1) : Statement (.awaitM x1) := ofOne rfl (sel_low _ _ _ _) (by decide)
theorem loop (x1 x2 x3 x4 x5) : Statement (.loop x1 x2 x3 x4 x5) := ofTwo rfl (sel_low _ _ _ _)
theorem loopIterationEnd : Statement .loopIterationEnd := ofNone rfl
theorem stage (x1) : Statement (.stage x1) := ofOne rfl (sel_low _ _ _ _) (by decide)
theorem br (x1 x2 x3 x4) : Statement (.br x1 x2 x3 x4) := ofOne rfl (sel_low _ _ _ _) (by decide)
theorem j (x1) : Statement (.j x1) := ofOne rfl (sel_low _ _ _ _) (by decide)
theorem call (x1) : Statement (.call x1) := ofOne rfl (sel_low _ _ _ _) (by decide)
theorem ret : Statement .ret := ofOne rfl (sel_low _ _ _ _) (by decide)
theorem end_ : Statement .end_ := ofOne rfl (sel_low _ _ _ _) (by decide)
theorem bar (x1 x2 x3) : Statement (.bar x1 x2 x3) := ofTwo rfl (sel_low _ _ _ _)
theorem barArrival : Statement .barArrival := ofNone rfl
theorem runnelRowSend (x1 x2) : Statement (.runnelRowSend x1 x2) := ofNone rfl
theorem runnelRowArrive (x1 x2) : Statement (.runnelRowArrive x1 x2) := ofNone rfl
theorem runnelCreditReturn (x1 x2) : Statement (.runnelCreditReturn x1 x2) := ofNone rfl
theorem instanceComplete : Statement .instanceComplete := ofNone rfl
theorem nevWindowEnd (x1) : Statement (.nevWindowEnd x1) := ofNone rfl
theorem numTrap : Statement .numTrap := ofNone rfl
theorem gangTrapStop (x1) : Statement (.gangTrapStop x1) := ofNone rfl
theorem handlerDisposition (x1) : Statement (.handlerDisposition x1) := ofNone rfl
theorem fatalContextError (x1) : Statement (.fatalContextError x1) := ofNone rfl
theorem dispatchDecision : Statement .dispatchDecision := ofNone rfl
theorem holdReached (x1) : Statement (.holdReached x1) := ofNone rfl
theorem iterationLimitExpiry (x1) : Statement (.iterationLimitExpiry x1) := ofNone rfl
theorem taskReady (x1) : Statement (.taskReady x1) := ofNone rfl
theorem eprioUpdate : Statement .eprioUpdate := ofNone rfl
theorem streamAged (x1) : Statement (.streamAged x1) := ofNone rfl
theorem capacityNotice : Statement .capacityNotice := ofNone rfl
theorem completionRecordWrite (x1) : Statement (.completionRecordWrite x1) := ofNone rfl
theorem completionRecordRetry (x1) : Statement (.completionRecordRetry x1) := ofNone rfl
theorem coreBasinLinkFault (x1) : Statement (.coreBasinLinkFault x1) := ofNone rfl
theorem dataReplyArrival (x1 x2) : Statement (.dataReplyArrival x1 x2) := ofNone rfl
theorem recallArrival (x1 x2) : Statement (.recallArrival x1 x2) := ofNone rfl
theorem migrationLineCopied (x1) : Statement (.migrationLineCopied x1) := ofNone rfl
theorem networkDrain : Statement .networkDrain := ofNone rfl
theorem drainEnd : Statement .drainEnd := ofNone rfl
theorem headerUncorrectable (x1 x2 x3) : Statement (.headerUncorrectable x1 x2 x3) := ofNone rfl
theorem requestRetransmit (x1) : Statement (.requestRetransmit x1) := ofNone rfl
theorem hostBar2Access (x1 x2) : Statement (.hostBar2Access x1 x2) := ofNone rfl
theorem peerMessage (x1 x2) : Statement (.peerMessage x1 x2) := ofNone rfl
theorem registerWrite (x1 x2 x3) : Statement (.registerWrite x1 x2 x3) := ofNone rfl
theorem controlInterval (x1) : Statement (.controlInterval x1) := ofNone rfl
theorem railRaiseComplete (x1) : Statement (.railRaiseComplete x1) := ofNone rfl
theorem divisorChange (x1 x2) : Statement (.divisorChange x1 x2) := ofNone rfl
theorem undervoltReflex (x1 x2) : Statement (.undervoltReflex x1 x2) := ofNone rfl
theorem counterSample (x1 x2) : Statement (.counterSample x1 x2) := ofNone rfl
theorem decodePeriod : Statement .decodePeriod := ofNone rfl
theorem decodeTurnStart (x1 x2) : Statement (.decodeTurnStart x1 x2) := ofNone rfl
theorem decodeQuantumExpiry (x1) : Statement (.decodeQuantumExpiry x1) := ofNone rfl
theorem decodeTurnEnd (x1 x2 x3) : Statement (.decodeTurnEnd x1 x2 x3) := ofNone rfl
theorem framePublish (x1 x2) : Statement (.framePublish x1 x2) := ofNone rfl
theorem intakeSlotFreed (x1) : Statement (.intakeSlotFreed x1) := ofNone rfl
theorem autoSubmit (x1) : Statement (.autoSubmit x1) := ofNone rfl
theorem resetRelease (x1) : Statement (.resetRelease x1) := ofNone rfl
theorem functionLevelReset (x1) : Statement (.functionLevelReset x1) := ofNone rfl
theorem query (x1) : Statement (.query x1) := ofNone rfl
theorem partCfg (x1 x2) : Statement (.partCfg x1 x2) := ofNone rfl
theorem streamCfg (x1 x2 x3 x4 x5) : Statement (.streamCfg x1 x2 x3 x4 x5) := ofNone rfl
theorem submit (x1 x2 x3) : Statement (.submit x1 x2 x3) := ofNone rfl
theorem taskEnd (x1 x2) : Statement (.taskEnd x1 x2) := ofNone rfl
theorem faultService (x1 x2) : Statement (.faultService x1 x2) := ofNone rfl
theorem shootdown (x1 x2 x3) : Statement (.shootdown x1 x2 x3) := ofNone rfl
theorem migrate (x1 x2 x3 x4) : Statement (.migrate x1 x2 x3 x4) := ofNone rfl
theorem fmtwin (x1 x2 x3 x4 x5 x6 x7) : Statement (.fmtwin x1 x2 x3 x4 x5 x6 x7) := ofNone rfl
theorem cameraCfg (x1 x2 x3) : Statement (.cameraCfg x1 x2 x3) := ofNone rfl
theorem cameraAu (x1 x2 x3 x4 x5) : Statement (.cameraAu x1 x2 x3 x4 x5) := ofNone rfl
theorem ccset (x1 x2 x3 x4) : Statement (.ccset x1 x2 x3 x4) := ofNone rfl
theorem dict (x1 x2 x3 x4 x5 x6 x7) : Statement (.dict x1 x2 x3 x4 x5 x6 x7) := ofNone rfl
theorem eventRing (x1 x2 x3 x4) : Statement (.eventRing x1 x2 x3 x4) := ofNone rfl
theorem counterRing (x1 x2 x3 x4) : Statement (.counterRing x1 x2 x3 x4) := ofNone rfl
theorem peerJoin (x1 x2 x3 x4) : Statement (.peerJoin x1 x2 x3 x4) := ofNone rfl
theorem clkCfg (x1 x2) : Statement (.clkCfg x1 x2) := ofNone rfl
theorem powerCfg (x1 x2 x3 x4) : Statement (.powerCfg x1 x2 x3 x4) := ofNone rfl
theorem patchLoad (x1 x2) : Statement (.patchLoad x1 x2) := ofNone rfl
theorem configWrite (x1 x2) : Statement (.configWrite x1 x2) := ofNone rfl
theorem attest (x1 x2 x3) : Statement (.attest x1 x2 x3) := ofNone rfl
theorem linkQuery (x1 x2 x3) : Statement (.linkQuery x1 x2 x3) := ofNone rfl
theorem unsupportedCommand (x1 x2) : Statement (.unsupportedCommand x1 x2) := ofNone rfl
theorem skippedWordsWalk : Statement .skippedWordsWalk := ofNone rfl
theorem notAnInstruction : Statement .notAnInstruction := ofNone rfl
theorem illAtNextBoundary : Statement .illAtNextBoundary := ofNone rfl
theorem headerCorrected (x1 x2) : Statement (.headerCorrected x1 x2) := ofNone rfl
theorem saveComplete (x1) : Statement (.saveComplete x1) := ofNone rfl
theorem perstAssertion : Statement .perstAssertion := ofNone rfl

end Sys2Proof.Laws.Encodes
end

