-- ==== Sys2Proof/Laws/Scalar.lean ====
section
/-! SUPPORT. Scalar instructions of X and A: what the shared forms answer when their operands can be read and their result written. -/

namespace Sys2Proof.Machine

/-- The faults of codes that are legal. -/
theorem xFaults_nil {d : BitVec 6} {l : List (BitVec 6)} (hd : xDstOk d = true) (hl : ∀ a ∈ l, xSrcOk a = true) : xFaults d l = [] := by
  have : l.any (!xSrcOk ·) = false := by
    rw [List.any_eq_false]
    intro a ha
    simp [hl a ha]
  simp [xFaults, hd, this]

theorem aFaults_nil {d : BitVec 6} {l : List (BitVec 6)} (hd : aDstOk d = true) (hl : ∀ a ∈ l, aSrcOk a = true) : aFaults d l = [] := by
  have : l.any (!aSrcOk ·) = false := by
    rw [List.any_eq_false]
    intro a ha
    simp [hl a ha]
  simp [aFaults, hd, this]

theorem pairFaults_nil {l : List (BitVec 6)} (hl : ∀ a ∈ l, xPairOk a = true) : pairFaults l = [] := by
  have : l.any (!xPairOk ·) = false := by
    rw [List.any_eq_false]
    intro a ha
    simp [hl a ha]
  simp [pairFaults, this]

/-! Operands move no token: what a signal finds at retirement is what it found before (R62, R137). -/

theorem readX_tk {k k' : CoreSt} {c : BitVec 6} {v : Word} (h : readX k c = .ok (v, k')) : k'.tk = k.tk := by
  unfold readX at h
  dsimp only at h
  repeat' split at h
  all_goals cases h <;> rfl

theorem CoreSt.setG_tk (k : CoreSt) (n : Nat) (v : Word) : (k.setG n v).tk = k.tk := by unfold CoreSt.setG; split <;> rfl

theorem writeX_tk {k k' : CoreSt} {c : BitVec 6} {v : Word} (h : writeX k c v = .ok k') : k'.tk = k.tk := by
  unfold writeX at h
  dsimp only at h
  repeat' split at h
  all_goals cases h <;> first | rfl | exact CoreSt.setG_tk _ _ _

theorem writePair_tk (k : CoreSt) (c : BitVec 6) (v : Dword) : (writePair k c v).tk = k.tk := by
  unfold writePair
  dsimp only
  split
  · rfl
  · rw [CoreSt.setG_tk, CoreSt.setG_tk]

theorem readA_tk {k k' : CoreSt} {c : BitVec 6} {v : Dword} (h : readA k c = .ok (v, k')) : k'.tk = k.tk := by
  unfold readA at h
  dsimp only at h
  repeat' split at h
  all_goals cases h <;> rfl

theorem writeA_tk {k k' : CoreSt} {c : BitVec 6} {v : Dword} (h : writeA k c v = .ok k') : k'.tk = k.tk := by
  unfold writeA CoreSt.setA CoreSt.axPush at h
  dsimp only at h
  repeat' split at h
  all_goals cases h <;> rfl

theorem xBinaryWith_ok {extra : List IllCause} {d a b : BitVec 6} {f : Word → Word → Word} {s u : State} {va vb : Word} {k1 k2 k3 : CoreSt}
    (he : extra = []) (hr : Ready s u) (hd : xDstOk d = true) (ha : xSrcOk a = true) (hb : xSrcOk b = true)
    (h1 : readX u.cxCore a = .ok (va, k1)) (h2 : readX k1 b = .ok (vb, k2)) (h3 : writeX k2 d (f va vb) = .ok k3) :
    xBinaryWith extra d a b f s = .next (After u k3) := by
  refine issueCore_ok ?_ hr ?_ (by rw [writeX_tk h3, readX_tk h2, readX_tk h1])
  · rw [xFaults_nil hd (by simp [ha, hb]), he]; rfl
  · simp only [h1, bind, Except.bind, h2]
    exact h3

theorem xUnary_ok {d a : BitVec 6} {f : Word → Word} {s u : State} {va : Word} {k1 k2 : CoreSt} (hr : Ready s u) (hd : xDstOk d = true)
    (ha : xSrcOk a = true) (h1 : readX u.cxCore a = .ok (va, k1)) (h2 : writeX k1 d (f va) = .ok k2) :
    xUnary d a f s = .next (After u k2) := by
  refine issueCore_ok (xFaults_nil hd (by simp [ha])) hr ?_ (by rw [writeX_tk h2, readX_tk h1])
  simp only [h1, bind, Except.bind]
  exact h2

theorem xPairBinary_ok {d a b : BitVec 6} {f : Dword → Dword → Dword} {s u : State} (hr : Ready s u) (hd : xPairOk d = true)
    (ha : xPairOk a = true) (hb : xPairOk b = true) :
    xPairBinary d a b f s = .next (After u (writePair u.cxCore d (f (readPair u.cxCore a) (readPair u.cxCore b)))) :=
  issueCore_ok (pairFaults_nil (by simp [hd, ha, hb])) hr rfl (writePair_tk _ _ _)

theorem xPairShift_ok {d a b : BitVec 6} {f : Dword → Word → Dword} {s u : State} {n : Word} {k : CoreSt} (hr : Ready s u)
    (hd : xPairOk d = true) (ha : xPairOk a = true) (hb : xSrcOk b = true) (h1 : readX u.cxCore b = .ok (n, k)) :
    xPairShift d a b f s = .next (After u (writePair k d (f (readPair k a) n))) := by
  refine issueCore_ok ?_ hr ?_ (by rw [writePair_tk, readX_tk h1])
  · rw [pairFaults_nil (by simp [hd, ha])]; simp [hb]
  · simp only [h1]
    rfl

theorem chainFaults_nil {s : State} (h : s.cxCore.chain = none) : chainFaults s = [] := by simp [chainFaults, h]

theorem issueA_ok {s u : State} {k : CoreSt} {faults : List IllCause} {body : CoreSt → Try CoreSt} (hf : faults = []) (hr : Ready s u)
    (hc : s.cxCore.chain = none) (hb : body u.cxCore = .ok k) (ht : k.tk = u.cxCore.tk) : issueA s faults body = .next (After u k) :=
  issueCore_ok (by rw [hf, chainFaults_nil hc]; rfl) hr hb ht

theorem aBinary_ok {d a b : BitVec 6} {f : Dword → Dword → Dword} {s u : State} {va vb : Dword} {k1 k2 k3 : CoreSt} (hr : Ready s u)
    (hc : s.cxCore.chain = none) (hd : aDstOk d = true) (ha : aSrcOk a = true) (hb : aSrcOk b = true)
    (h1 : readA u.cxCore a = .ok (va, k1)) (h2 : readA k1 b = .ok (vb, k2)) (h3 : writeA k2 d (f va vb) = .ok k3) :
    aBinary d a b f s = .next (After u k3) := by
  refine issueA_ok (aFaults_nil hd (by simp [ha, hb])) hr hc ?_ (by rw [writeA_tk h3, readA_tk h2, readA_tk h1])
  simp only [h1, bind, Except.bind, h2]
  exact h3

theorem aUnaryWith_ok {extra : List IllCause} {d a : BitVec 6} {f : Dword → Dword} {s u : State} {va : Dword} {k1 k2 : CoreSt}
    (he : extra = []) (hr : Ready s u) (hc : s.cxCore.chain = none) (hd : aDstOk d = true) (ha : aSrcOk a = true)
    (h1 : readA u.cxCore a = .ok (va, k1)) (h2 : writeA k1 d (f va) = .ok k2) : aUnaryWith extra d a f s = .next (After u k2) := by
  refine issueA_ok ?_ hr hc ?_ (by rw [writeA_tk h2, readA_tk h1])
  · rw [aFaults_nil hd (by simp [ha]), he]; rfl
  · simp only [h1, bind, Except.bind]
    exact h2

end Sys2Proof.Machine
end

