-- ==== Sys2Proof/Laws/Tokens.lean ====
section
/-! SUPPORT. What moves no token: the operations over memory, rows and events leave the issue register and every core's token counters as they
were, so that a signal finds at retirement what it found at issue (R39, R62). -/

namespace Sys2Proof.Machine

/-- Two states hold the same issue register and the same token counters on every core. -/
def SameTokens (s t : State) : Prop := t.cx = s.cx ∧ ∀ c, (t.core c).tk = (s.core c).tk

theorem SameTokens.refl (s : State) : SameTokens s s := ⟨rfl, fun _ => rfl⟩

theorem SameTokens.trans {s t u : State} (h : SameTokens s t) (g : SameTokens t u) : SameTokens s u :=
  ⟨g.1.trans h.1, fun c => (g.2 c).trans (h.2 c)⟩

theorem SameTokens.sigStuck {s t : State} (h : SameTokens s t) : t.sigStuck = s.sigStuck := by
  refine sigStuck_congr (by rw [h.1]) ?_
  simp only [State.cxCore, h.1]
  exact h.2 _

theorem SameTokens.of_cores {s t : State} (hx : t.cx = s.cx) (hc : t.cores = s.cores) : SameTokens s t :=
  ⟨hx, fun c => by rw [State.core_of_cores hc]⟩

theorem SameTokens.setCore {s : State} {c : Nat} {k : CoreSt} (h : k.tk = (s.core c).tk) : SameTokens s (s.setCore c k) := by
  refine ⟨rfl, fun d => ?_⟩
  by_cases hd : d = c
  · subst hd; rw [State.core_setCore_self]; exact h
  · rw [State.core_setCore_ne _ _ _ _ hd]

theorem SameTokens.modCore {s : State} {c : Nat} {f : CoreSt → CoreSt} (h : ∀ k, (f k).tk = k.tk) : SameTokens s (s.modCore c f) :=
  SameTokens.setCore (h _)

/-- A fold of steps that move no token moves none. -/
theorem SameTokens.foldl {α : Type} (l : List α) (f : State → α → State) (h : ∀ s a, SameTokens s (f s a)) (s : State) :
    SameTokens s (l.foldl f s) := by
  induction l generalizing s with
  | nil => exact .refl s
  | cons a r ih => exact (h s a).trans (ih _)

theorem SameTokens.flush (s : State) (key n : Nat) : SameTokens s (s.flush key n) := by
  refine SameTokens.foldl _ _ (fun s e => ?_) s
  dsimp only
  split
  · exact .refl s
  · exact (SameTokens.of_cores rfl rfl).trans (SameTokens.modCore (fun _ => rfl))

theorem SameTokens.write (s : State) (key : Nat) (bs : List Byte) : SameTokens s (s.write key bs) :=
  (SameTokens.flush s key bs.length).trans (SameTokens.of_cores rfl rfl)

theorem SameTokens.writePa (s : State) (pa : Nat) (bs : List Byte) : SameTokens s (s.writePa pa bs) :=
  SameTokens.foldl _ _ (fun s _ => SameTokens.write s _ _) s

theorem SameTokens.settle (s : State) (c : Nat) : SameTokens s (s.settle c) :=
  (SameTokens.modCore (f := fun k => { k with ebuf := [] }) (fun _ => rfl)).trans (SameTokens.foldl _ _ (fun s _ => SameTokens.write s _ _) _)

theorem SameTokens.partWrite (s : State) (part va : Nat) (bs : List Byte) : SameTokens s (s.partWrite part va bs) := by
  unfold State.partWrite
  split
  · exact .refl s
  · refine SameTokens.foldl _ _ (fun s i => ?_) s
    split
    · exact SameTokens.write s _ _
    · exact .refl s

theorem SameTokens.ringWrite (s : State) (part : Option Nat) (addr : Nat) (bs : List Byte) : SameTokens s (s.ringWrite part addr bs) := by
  cases part with
  | none => exact SameTokens.writePa s _ _
  | some p => exact SameTokens.partWrite s _ _ _

theorem SameTokens.ringPut (s : State) (part : Option Nat) (r : Ring) (rec : List Byte) : SameTokens s (s.ringPut part r rec).2 := by
  unfold State.ringPut
  dsimp only
  split
  · exact .refl s
  · split <;> exact (SameTokens.ringWrite s _ _ _).trans (SameTokens.ringWrite _ _ _ _)

theorem SameTokens.sourceNext (s : State) (key : Nat) (ok : Bool) : SameTokens s (s.sourceNext key ok) := by
  unfold State.sourceNext
  dsimp only
  split
  · split
    · exact (SameTokens.of_cores (t := { s with sources := _ }) rfl rfl).trans (SameTokens.modCore (fun _ => rfl))
    · exact .of_cores rfl rfl
  · exact .of_cores rfl rfl

theorem SameTokens.postEvent (s : State) (part : Option Nat) (kind source d0 d1 : Nat) :
    SameTokens s (s.postEvent part kind source d0 d1) := by
  unfold State.postEvent
  have h1 := SameTokens.ringPut s part (part.elim s.devEvents (fun p => (s.part p).events))
    (eventRecord (s.sourceSeq (sourceKey part kind source)).toNat (tget ((0 : Word), 0) s.sources (sourceKey part kind source)).2 kind source d0 d1
      s.cycle)
  have h2 := h1.trans (SameTokens.sourceNext _ (sourceKey part kind source) (s.ringPut part (part.elim s.devEvents (fun p => (s.part p).events))
    (eventRecord (s.sourceSeq (sourceKey part kind source)).toNat (tget ((0 : Word), 0) s.sources (sourceKey part kind source)).2 kind source d0 d1
      s.cycle)).1)
  dsimp only
  split
  · exact h2.trans (.of_cores rfl rfl)
  · exact h2

theorem SameTokens.countClass (s : State) (core src : Nat) (evs : List Nat) (c : Nat) : SameTokens s (s.countClass core src evs c) := by
  unfold State.countClass
  extract_lets k inc
  split
  · exact .refl s
  · split
    extract_lets n1 n2 t
    have h : SameTokens s t := SameTokens.setCore rfl
    split
    · exact h.trans (SameTokens.postEvent _ _ _ _ _ _)
    · exact h

/-- Counting events moves no token. -/
theorem SameTokens.countEvents (s : State) (core src : Nat) (evs : List Nat) : SameTokens s (s.countEvents core src evs) := by
  unfold State.countEvents
  split
  · exact .refl s
  · exact SameTokens.foldl _ _ (fun s c => SameTokens.countClass s _ _ _ c) s

theorem CoreSt.setRow_tk (k : CoreSt) (n : RowName) (v : Row) : (k.setRow n v).tk = k.tk := by
  cases n with
  | tile r i => rfl
  | operand i => simp only [CoreSt.setRow]; split <;> rfl

theorem CoreSt.bumpAll_tk (k : CoreSt) (ds : List (BitVec 13)) : (bumpAll k ds).tk = k.tk := by
  have go : ∀ (l : List (BitVec 2)) (k : CoreSt), (l.foldl CoreSt.bumpRc k).tk = k.tk := by
    intro l
    induction l with
    | nil => exact fun _ => rfl
    | cons i r ih => exact fun k => ih _
  exact go _ k

/-- Taking the entries that V's sources name moves no token. -/
theorem SameTokens.popOnce (s : State) (c : Nat) (rs : List RowRef) : SameTokens s (s.popOnce c rs) := by
  have go : ∀ s : State, SameTokens s ([0, 1, 2, 3].foldl (fun s i =>
      let s := if rs.contains (.li i) then s.modCore c (fun k => k.popLi i) else s
      if rs.contains (.tw i) then
        let p := s.pair (pairOf c)
        s.setPair (pairOf c) { p with twFull := p.twFull.setIfInBounds i false }
      else s) s) := by
    intro s
    refine SameTokens.foldl _ _ (fun s i => ?_) s
    dsimp only
    have h1 : SameTokens s (if rs.contains (.li i) then s.modCore c (fun k => k.popLi i) else s) := by
      split
      · exact SameTokens.modCore (fun _ => rfl)
      · exact .refl s
    split
    · exact h1.trans (.of_cores rfl rfl)
    · exact h1
  unfold State.popOnce
  dsimp only
  split
  · exact (SameTokens.modCore (f := fun k => { k with xv := k.xv.drop 1 }) (fun _ => rfl)).trans (go _)
  · exact go s

theorem SameTokens.putRow (s : State) (c : Nat) (r : RowRef) (v lr : Row) : SameTokens s (s.putRow c r v lr) := by
  unfold State.putRow
  have h1 : SameTokens s (s.modCore c (fun k => { k with lr := lr })) := SameTokens.modCore (fun _ => rfl)
  dsimp only
  split
  · exact h1.trans (SameTokens.modCore (fun k => CoreSt.setRow_tk k _ _))
  · exact h1.trans (SameTokens.modCore (fun k => CoreSt.setRow_tk k _ _))
  · exact h1.trans (.of_cores rfl rfl)
  · refine h1.trans (SameTokens.modCore (fun k => ?_))
    split <;> rfl
  · exact h1

/-- Writing a result of V moves no token. -/
theorem SameTokens.vPut (s : State) (c : Nat) (dst : Option RowRef) (old : VSrc) (o : VOut) : SameTokens s (s.vPut c dst old o) := by
  unfold State.vPut
  split
  · exact SameTokens.modCore (fun _ => rfl)
  · exact SameTokens.modCore (fun _ => rfl)
  · exact SameTokens.putRow s _ _ _ _
  · exact SameTokens.putRow s _ _ _ _
  · exact SameTokens.modCore (fun _ => rfl)
  · exact .refl s

/-- A V instruction moves no token before it retires. -/
theorem vAfter_tokens (u : State) (srcs : List (BitVec 13)) (mask : Option (BitVec 3)) (dst : Option (BitVec 13)) (f : VIn → VOut × List Nat) :
    SameTokens u (vAfter u srcs mask dst f) := by
  unfold vAfter
  extract_lets c rs dr old xs w o
  have h1 : SameTokens u (u.modCore c (fun k => { bumpAll k (srcs ++ dst.toList) with vStart := u.cycle + 1 })) :=
    SameTokens.modCore (fun k => CoreSt.bumpAll_tk k _)
  have h2 : SameTokens u w := h1.trans (SameTokens.popOnce _ _ _)
  exact (h2.trans (SameTokens.vPut _ _ _ _ _)).trans (SameTokens.countEvents _ _ _ _)

end Sys2Proof.Machine
end

