-- ==== Sys2Proof/Laws/Vector.lean ====
section
/-! SUPPORT. V: what the one shared form of its instructions answers. -/

namespace Sys2Proof.Machine

/-- A V instruction that is legal and ready takes its effect as a whole, and retires. -/
theorem vIssue_ok {s u : State} {faults : List IllCause} {srcs : List (BitVec 13)} {mask : Option (BitVec 3)} {dst : Option (BitVec 13)}
    {f : VIn → VOut × List Nat} (hf : faults = []) (hr : Ready s u) (hv : VReady u srcs mask dst) :
    vIssue s faults srcs mask dst f = .next (retire (vAfter u srcs mask dst f)) := by
  obtain ⟨h1, h2, hg, h3, h4, h5, h6⟩ := hv
  have hs : (srcs.map (resolveRow u.cxCore false)).all (u.srcReady u.cx.core) = true := by simpa using h2
  have hd : (dst.map (resolveRow u.cxCore true)).all (u.dstReady u.cx.core) = true := by
    cases dst with
    | none => rfl
    | some d => simpa using h3 d rfl
  have hx : (dst.isSome || decide (u.cxCore.vx.length < 8)) = true := by
    cases dst with
    | none => simpa using h4 rfl
    | some d => rfl
  have hm : mask.all (fun i => !u.cxCore.rowBusy (.operand i.toNat)) = true := by
    cases mask with
    | none => rfl
    | some i => simpa using h5 i rfl
  unfold vIssue
  refine issue_ok hf hr.1 ?_ ((vAfter_tokens u srcs mask dst f).sigStuck.trans hr.2)
  simp only [h1, bind, Except.bind, hs, hd, hx, hm, hg, h6, Bool.and_self, need_true]
  rfl

/-- A stall of R178 changes nothing. -/
theorem vIssue_next (s : State) (faults : List IllCause) (srcs : List (BitVec 13)) (mask : Option (BitVec 3)) (dst : Option (BitVec 13))
    (f : VIn → VOut × List Nat) : ∃ s', vIssue s faults srcs mask dst f = .next s' := issue_next _ _ _

end Sys2Proof.Machine
end

