-- ==== Sys2Proof/Tests/Slice0.lean ====
section
/-! SUPPORT. Tests of the model. Words are written out from the bit places of the spec; a witness shows a state and operands that meet the
premises of a statement. -/

namespace Sys2Proof.Tests

open Sys2Proof Sys2Proof.Machine

set_option Elab.async false

/-! Words. Each builder takes the bits [11:0] that the spec prints for the instruction, then its fields from bit 31 down (R70, R71). -/

def f3 (low fn s2 s1 d : Nat) : Word := BitVec.ofNat 32 (fn * 2 ^ 30 + s2 * 2 ^ 24 + s1 * 2 ^ 18 + d * 2 ^ 12 + low)

def f2 (low imm s1 d : Nat) : Word := BitVec.ofNat 32 (imm * 2 ^ 24 + s1 * 2 ^ 18 + d * 2 ^ 12 + low)

def fj (low off cond : Nat) : Word := BitVec.ofNat 32 (off * 2 ^ 16 + cond * 2 ^ 12 + low)

def wt (low t c s l : Nat) : Word := BitVec.ofNat 32 (t * 2 ^ 27 + c * 2 ^ 22 + s * 2 ^ 17 + l * 2 ^ 12 + low)

def fe (low scope rel acq as2 as1 ad : Nat) : Word :=
  BitVec.ofNat 32 (scope * 2 ^ 29 + rel * 2 ^ 28 + acq * 2 ^ 27 + as2 * 2 ^ 22 + as1 * 2 ^ 17 + ad * 2 ^ 12 + low)

def fv0 (low dst min ty : Nat) : Word := BitVec.ofNat 32 (dst * 2 ^ 18 + min * 2 ^ 16 + ty * 2 ^ 12 + low)

def fv1 (s3v s3i src2 src1 : Nat) : Word := BitVec.ofNat 32 (s3v * 2 ^ 29 + s3i * 2 ^ 26 + src2 * 2 ^ 13 + src1)

def mxw (val fsel tpl : Nat) : Word := BitVec.ofNat 32 (val * 2 ^ 16 + fsel * 2 ^ 11 + tpl * 2 ^ 5 + 0b01111)

def decodesTo (l : List (Word × Word × Instr)) : Bool :=
  l.all (fun x => match decodeHead x.1 x.2.1 with
    | .ok i => decide (i = x.2.2)
    | .error _ => false)

/-! Decoding: one word or pair for every instruction of the text, at the opcodes of R90 to R93 and with its fields at the places of R51, R54, R60,
R70, R71, R85, R87, R94, R105, R110, R125, R133, R218 and R238 to R246. The words of LOOP, STAGE and BAR are the spec's own examples. -/

theorem test_decode_x_1 :
    decodesTo [
      (f3 0x000 0 0 0 0, 0, .nopX),
      (f3 0x020 0 25 2 29, 0, .add 29 2 25),
      (f3 0x040 0 10 35 50, 0, .sub 50 35 10),
      (f3 0x080 0 49 14 17, 0, .mul 17 14 49),
      (f3 0x0a0 0 34 47 38, 0, .mulh 38 47 34),
      (f3 0x0c0 0 19 26 5, 0, .mulhz 5 26 19),
      (f3 0x0e0 0 4 5 26, 0, .div 26 5 4),
      (f3 0x100 0 43 38 47, 0, .divz 47 38 43),
      (f3 0x120 0 28 17 14, 0, .rem 14 17 28),
      (f3 0x140 0 13 50 35, 0, .remz 35 50 13),
      (f3 0x160 0 52 29 2, 0, .and_ 2 29 52),
      (f3 0x180 0 37 8 23, 0, .or_ 23 8 37),
      (f3 0x1a0 0 22 41 44, 0, .xor 44 41 22),
      (f3 0x1c0 0 7 20 11, 0, .andn 11 20 7),
      (f3 0x1e0 0 46 53 32, 0, .shl 32 53 46),
      (f3 0x200 0 31 32 53, 0, .shr 53 32 31),
      (f3 0x220 0 16 11 20, 0, .sra 20 11 16),
      (f3 0x240 0 1 44 41, 0, .min 41 44 1),
      (f3 0x260 0 40 23 8, 0, .max 8 23 40),
      (f3 0x280 0 25 2 29, 0, .minz 29 2 25)] = true := by
  decide +kernel

theorem test_decode_x_2 :
    decodesTo [
      (f3 0x2a0 0 10 35 50, 0, .maxz 50 35 10),
      (f2 0x060 0x9c 14 17, 0, .addi 17 14 0x9c),
      (f3 0x2c0 0 0 47 38, 0, .clz 38 47),
      (f3 0x2e0 0 0 26 5, 0, .popc 5 26),
      (f3 0x3c0 0 0 5 26, 0, .mov 26 5),
      (f3 0x300 1 0 38 47, 0, .extb 1 47 38),
      (f3 0x320 1 0 17 14, 0, .exth 1 14 17),
      (f3 0x341 1 0 50 35, 19 * 256 + 7, .bfx 1 35 50 7 19),
      (f3 0x361 0 52 29 2, 19 * 256 + 7, .bfi 2 29 52 7 19),
      (f3 0x380 1 37 8 (3 * 8 + 6), 0, .cmp 1 3 6 8 37),
      (f3 0x3a0 2 22 41 44, 0, .sel 2 44 41 22),
      (f3 0x3e1 0 0 0 11, 0x89abcdef, .li 11 0x89abcdef),
      (f3 0x400 0 46 53 32, 0, .add64 32 53 46),
      (f3 0x420 0 31 32 53, 0, .sub64 53 32 31),
      (f3 0x440 0 16 11 20, 0, .shl64 20 11 16),
      (f3 0x460 0 1 44 41, 0, .shr64 41 44 1),
      (f3 0x480 0 40 23 8, 0, .sra64 8 23 40),
      (f3 0x4a0 1 25 2 (3 * 8 + 6), 0, .cmp64 1 3 6 2 25),
      (f3 0x4c0 0 0 35 50, 0, .mov64 50 35),
      (f3 0x4e1 0 0 0 17, 0x89abcdef, .li64 17 0x89abcdef)] = true := by
  decide +kernel

theorem test_decode_x_3 :
    decodesTo [
      (wt 0x500 30 2 31 4, 0, .waitX ⟨30, 2, 31, 4⟩),
      (f3 0x520 0 0 0 13, 0, .sigX 13),
      (f3 0x540 0 0 0 13, 0, .awaitX 13),
      (f3 0x561 0 0 2 3, 0x1a5, .qbindBind 3 2 0x1a5),
      (f3 0x561 1 0 0 3, 0, .qbindUnbind 3),
      (f2 0x580 0x04 0 35, 0, .qdepth 35 0x04),
      (f3 0x5a0 0 52 29 2, 0, .spawn 2 29 52),
      (f3 0x5a0 1 37 8 23, 0, .spawnNb 23 8 37),
      (f3 0x5c0 0 0 41 44, 0, .tstat 44 41),
      (f2 0x5e0 0x9c 0b100001 0, 0, .trap 0x2721),
      (f2 0x600 0x9c 0b100001 0, 0, .brk 0x2721),
      (f2 0x620 0x04 0 53, 0, .rdcap 53 0x04),
      (f2 0x640 0x04 0 20, 0, .rdsys 20 0x04),
      (f2 0x640 0x0b 0 41, 0, .timelRead 41),
      (f2 0x660 0x41 23 0, 0, .wrsys 23 0x41),
      (f2 0x660 0x06 2 0, 0, .slipwWrite 2),
      (f2 0x660 0x40 35 0, 0, .nevcfgWrite 35),
      (f2 0x660 0x49 14 0, 0, .nevcntWrite 5 14),
      (f2 0x660 0x42 47 0, 0, .nevstatClear 47),
      (f2 0x680 0xd2 0 5, 0, .clkdiv 5 13 2)] = true := by
  decide +kernel

theorem test_decode_x_4 :
    decodesTo [
      (f2 0x6a0 6 5 0, 0, .pace 5 6)] = true := by
  decide +kernel

theorem test_decode_a_1 :
    decodesTo [
      (f3 0x004 0 0 0 0, 0, .nopA),
      (f3 0x024 0 28 17 14, 0, .aadd 14 17 28),
      (f3 0x044 0 13 50 35, 0, .asub 35 50 13),
      (f3 0x0e4 0 52 29 2, 0, .aand 2 29 52),
      (f2 0x064 0x9c 8 23, 0, .aaddi 23 8 0x9c),
      (f2 0x084 0x9c 41 44, 0, .amuli 44 41 0x9c),
      (f2 0x0a4 0x9c 20 11, 0, .ashl 11 20 0x9c),
      (f2 0x0c4 0x9c 53 32, 0, .ashr 32 53 0x9c),
      (f3 0x104 0 0 32 53, 0, .amov 53 32),
      (f3 0x125 0 0 0 20, 0x89abcdef, .ali 20 0x89abcdef),
      (f3 0x145 0 0 0 41, 0x89abcdef, .alih 41 0x89abcdef),
      (f3 0x164 1 40 23 (3 * 8 + 6), 0, .acmp 1 3 6 23 40),
      (f3 0x184 0 0 2 29, 0, .apop 29 2),
      (f3 0x1a4 0 0 35 50, 0, .apush 50 35),
      (f3 0x1c5 0 0 14 17, 0x1a5, .acoord 17 14 0x1a5),
      (f2 0x1e4 0x9c 47 38, 0, .ldz8 38 47 0x9c),
      (f2 0x204 0x9c 26 5, 0, .lds8 5 26 0x9c),
      (f2 0x224 0x9c 5 26, 0, .ldz16 26 5 0x9c),
      (f2 0x244 0x9c 38 47, 0, .lds16 47 38 0x9c),
      (f2 0x264 0x9c 17 14, 0, .ld32 14 17 0x9c)] = true := by
  decide +kernel

theorem test_decode_a_2 :
    decodesTo [
      (f2 0x284 0x9c 50 35, 0, .ld64 35 50 0x9c),
      (f2 0x2a4 0x9c 29 2, 0, .st8 2 29 0x9c),
      (f2 0x2c4 0x9c 8 23, 0, .st16 23 8 0x9c),
      (f2 0x2e4 0x9c 41 44, 0, .st32 44 41 0x9c),
      (f2 0x304 0x9c 20 11, 0, .st64 11 20 0x9c),
      (f3 0x325 0 46 53 0, 17 * 64 + 5 * 4, .ldrow ⟨46, 53, 17 * 64 + 5 * 4⟩),
      (f3 0x345 0 31 32 0, 17 * 64 + 5 * 4, .strow ⟨31, 32, 17 * 64 + 5 * 4⟩),
      (f2 0x364 0x9c 11 20, 0, .ldfe 20 11 0x9c),
      (f2 0x384 0x9c 44 41, 0, .stfe 41 44 0x9c),
      (f3 0x3a5 0 40 23 0, 17 * 64 + 5 * 4, .ldrfe ⟨40, 23, 17 * 64 + 5 * 4⟩),
      (f3 0x3c5 0 25 2 0, 17 * 64 + 5 * 4, .strfe ⟨25, 2, 17 * 64 + 5 * 4⟩),
      (f3 0x3e4 1 10 35 0, 0, .probe 1 35 10),
      (fe 0x405 3 1 0 29 17 6, 1, .copy ⟨3, 1, 0, 29, 17, 6⟩ 1),
      (fe 0x425 3 1 0 29 17 6, 210975, .copym ⟨3, 1, 0, 29, 17, 6⟩ 210975),
      (fe 0x445 3 1 0 29 17 6, 225 + 4 * 2 ^ 9 + 11 * 2 ^ 12, .mcast ⟨3, 1, 0, 29, 17, 6⟩ 225 4 11),
      (fe 0x465 3 1 0 29 17 6, 1, .tfetch ⟨3, 1, 0, 29, 17, 6⟩ 1),
      (fe 0x485 3 1 0 29 17 6, 1 + 12 * 2 ^ 4 + 62043 * 2 ^ 8 + 11 * 2 ^ 24, .sacc ⟨3, 1, 0, 29, 17, 6⟩ 1 12 62043 11),
      (fe 0x4a5 3 1 0 29 17 6, 38625 + 220 * 2 ^ 16 + 11 * 2 ^ 24, .gath ⟨3, 1, 0, 29, 17, 6⟩ 38625 220 11),
      (fe 0x4c5 3 1 0 29 17 6, 38625 + 220 * 2 ^ 16 + 11 * 2 ^ 24, .scat ⟨3, 1, 0, 29, 17, 6⟩ 38625 220 11),
      (fe 0x4e5 3 1 0 29 17 6, 225 + 220 * 2 ^ 8 + 27 * 2 ^ 22 + 11 * 2 ^ 28, .gathmc ⟨3, 1, 0, 29, 17, 6⟩ 225 220 27 11)] = true := by
  decide +kernel

theorem test_decode_a_3 :
    decodesTo [
      (fe 0x505 3 1 0 29 17 6, 1 + 12 * 2 ^ 4 + 3 * 2 ^ 8 + 1 * 2 ^ 11 + 1 * 2 ^ 12 + 1 * 2 ^ 13 + 5775 * 2 ^ 16, .chain ⟨3, 1, 0, 29, 17, 6⟩ 1 12 3 1 1 1 5775),
      (fe 0x545 3 1 0 29 17 6, 1, .cmask ⟨3, 1, 0, 29, 17, 6⟩ 1),
      (fe 0x565 3 1 0 29 17 6, 0, .tlist ⟨3, 1, 0, 29, 17, 6⟩),
      (fe 0x585 3 1 0 29 17 6, 1 + 37596 * 2 ^ 16, .tokz ⟨3, 1, 0, 29, 17, 6⟩ 1 37596),
      (fe 0x5a5 3 1 0 29 17 6, 225 + 220 * 2 ^ 8 + 11 * 2 ^ 16 + 3 * 2 ^ 20, .ccvt ⟨3, 1, 0, 29, 17, 6⟩ 225 220 11 3),
      (f3 0x524 0 16 11 20, 0, .chop 20 11 16),
      (wt 0x5c4 30 2 31 4, 0, .waitA ⟨30, 2, 31, 4⟩),
      (f3 0x5e4 0 0 0 13, 0, .sigA 13),
      (f3 0x604 0 0 0 13, 0, .awaitA 13)] = true := by
  decide +kernel

theorem test_decode_v_1 :
    decodesTo [
      (f3 0x009 0 0 0 0, 0, .nopV),
      (fv0 0x029 0x1234 2 2, fv1 1 6 0x0abc 0x1321, .vadd ⟨0x1234, 2, 2, 1, 6, 0x0abc, 0x1321⟩),
      (fv0 0x049 0x1234 2 6, fv1 1 6 0x0abc 0x1321, .vsub ⟨0x1234, 2, 6, 1, 6, 0x0abc, 0x1321⟩),
      (fv0 0x069 0x1234 2 2, fv1 1 6 0x0abc 0x1321, .vmul ⟨0x1234, 2, 2, 1, 6, 0x0abc, 0x1321⟩),
      (fv0 0x089 0x1234 2 6, fv1 1 6 0x0abc 0x1321, .vfma ⟨0x1234, 2, 6, 1, 6, 0x0abc, 0x1321⟩),
      (fv0 0x0a9 0x1234 2 2, fv1 1 6 0x0abc 0x1321, .vfms ⟨0x1234, 2, 2, 1, 6, 0x0abc, 0x1321⟩),
      (fv0 0x0c9 0x1234 2 6, fv1 1 6 0x0abc 0x1321, .vmin ⟨0x1234, 2, 6, 1, 6, 0x0abc, 0x1321⟩),
      (fv0 0x0e9 0x1234 2 2, fv1 1 6 0x0abc 0x1321, .vmax ⟨0x1234, 2, 2, 1, 6, 0x0abc, 0x1321⟩),
      (fv0 0x109 0x1234 2 6, fv1 1 6 0x0abc 0x1321, .vabs ⟨0x1234, 2, 6, 1, 6, 0x0abc, 0x1321⟩),
      (fv0 0x129 0x1234 2 2, fv1 1 6 0x0abc 0x1321, .vneg ⟨0x1234, 2, 2, 1, 6, 0x0abc, 0x1321⟩),
      (fv0 0x149 0x1234 2 6, fv1 1 6 0x0abc 0x1321, .vrcp ⟨0x1234, 2, 6, 1, 6, 0x0abc, 0x1321⟩),
      (fv0 0x169 0x1234 2 2, fv1 1 6 0x0abc 0x1321, .vrsq ⟨0x1234, 2, 2, 1, 6, 0x0abc, 0x1321⟩),
      (fv0 0x189 0x1234 2 6, fv1 1 6 0x0abc 0x1321, .vsqrt ⟨0x1234, 2, 6, 1, 6, 0x0abc, 0x1321⟩),
      (fv0 0x1a9 0x1234 2 2, fv1 1 6 0x0abc 0x1321, .vexp ⟨0x1234, 2, 2, 1, 6, 0x0abc, 0x1321⟩),
      (fv0 0x1c9 0x1234 2 6, fv1 1 6 0x0abc 0x1321, .vlog ⟨0x1234, 2, 6, 1, 6, 0x0abc, 0x1321⟩),
      (fv0 0x1e9 0x1234 2 2, fv1 1 6 0x0abc 0x1321, .vtanh ⟨0x1234, 2, 2, 1, 6, 0x0abc, 0x1321⟩),
      (fv0 0x209 0x1234 2 6, fv1 1 6 0x0abc 0x1321, .vsigm ⟨0x1234, 2, 6, 1, 6, 0x0abc, 0x1321⟩),
      (fv0 0x229 0x1234 2 2, fv1 1 6 0x0abc 0x1321, .vcvt ⟨0x1234, 2, 2, 1, 6, 0x0abc, 0x1321⟩),
      (fv0 0x249 0x1234 2 6, fv1 1 6 0x0abc 0x1321, .vcmp ⟨0x1234, 2, 6, 1, 6, 0x0abc, 0x1321⟩),
      (fv0 0x269 0x1234 2 2, fv1 1 6 0x0abc 0x1321, .vsel ⟨0x1234, 2, 2, 1, 6, 0x0abc, 0x1321⟩)] = true := by
  decide +kernel

theorem test_decode_v_2 :
    decodesTo [
      (fv0 0x289 0x1234 2 6, fv1 1 6 0x0abc 0x1321, .vand ⟨0x1234, 2, 6, 1, 6, 0x0abc, 0x1321⟩),
      (fv0 0x2a9 0x1234 2 2, fv1 1 6 0x0abc 0x1321, .vor ⟨0x1234, 2, 2, 1, 6, 0x0abc, 0x1321⟩),
      (fv0 0x2c9 0x1234 2 6, fv1 1 6 0x0abc 0x1321, .vxor ⟨0x1234, 2, 6, 1, 6, 0x0abc, 0x1321⟩),
      (fv0 0x2e9 0x1234 2 2, fv1 1 6 0x0abc 0x1321, .vnot ⟨0x1234, 2, 2, 1, 6, 0x0abc, 0x1321⟩),
      (fv0 0x309 0x1234 2 6, fv1 1 6 0x0abc 0x1321, .vshl ⟨0x1234, 2, 6, 1, 6, 0x0abc, 0x1321⟩),
      (fv0 0x329 0x1234 2 2, fv1 1 6 0x0abc 0x1321, .vshr ⟨0x1234, 2, 2, 1, 6, 0x0abc, 0x1321⟩),
      (fv0 0x349 0x1234 2 6, fv1 1 6 0x0abc 0x1321, .vsra ⟨0x1234, 2, 6, 1, 6, 0x0abc, 0x1321⟩),
      (fv0 0x369 0x1234 2 2, fv1 1 6 0x0abc 0x1321, .vadd64 ⟨0x1234, 2, 2, 1, 6, 0x0abc, 0x1321⟩),
      (fv0 0x389 0x1234 2 6, fv1 1 6 0x0abc 0x1321, .vsub64 ⟨0x1234, 2, 6, 1, 6, 0x0abc, 0x1321⟩),
      (fv0 0x3a9 0x1234 2 2, fv1 1 6 0x0abc 0x1321, .vcmp64 ⟨0x1234, 2, 2, 1, 6, 0x0abc, 0x1321⟩),
      (fv0 0x3c9 0x1234 2 6, fv1 1 6 0x0abc 0x1321, .vshl64 ⟨0x1234, 2, 6, 1, 6, 0x0abc, 0x1321⟩),
      (fv0 0x3e9 0x1234 2 2, fv1 1 6 0x0abc 0x1321, .vshr64 ⟨0x1234, 2, 2, 1, 6, 0x0abc, 0x1321⟩),
      (fv0 0x409 0x1234 2 6, fv1 1 6 0x0abc 0x1321, .vmov ⟨0x1234, 2, 6, 1, 6, 0x0abc, 0x1321⟩),
      (fv0 0x429 0x1234 2 2, fv1 1 6 0x0abc 0x1321, .vbcast ⟨0x1234, 2, 2, 1, 6, 0x0abc, 0x1321⟩),
      (fv0 0x449 0x1234 2 6, fv1 1 6 0x0abc 0x1321, .vred ⟨0x1234, 2, 6, 1, 6, 0x0abc, 0x1321⟩),
      (fv0 0x469 0x1234 2 2, fv1 1 6 0x0abc 0x1321, .vscan ⟨0x1234, 2, 2, 1, 6, 0x0abc, 0x1321⟩),
      (fv0 0x489 0x1234 2 6, fv1 1 6 0x0abc 0x1321, .vmerge ⟨0x1234, 2, 6, 1, 6, 0x0abc, 0x1321⟩),
      (fv0 0x4a9 0x1234 2 2, fv1 1 6 0x0abc 0x1321, .vcompact ⟨0x1234, 2, 2, 1, 6, 0x0abc, 0x1321⟩),
      (fv0 0x4c9 0x1234 2 6, fv1 1 6 0x0abc 0x1321, .vexpand ⟨0x1234, 2, 6, 1, 6, 0x0abc, 0x1321⟩),
      (fv0 0x4e9 0x1234 2 2, fv1 1 6 0x0abc 0x1321, .vperm ⟨0x1234, 2, 2, 1, 6, 0x0abc, 0x1321⟩)] = true := by
  decide +kernel

theorem test_decode_v_3 :
    decodesTo [
      (fv0 0x509 0x1234 2 6, fv1 1 6 0x0abc 0x1321, .vrot ⟨0x1234, 2, 6, 1, 6, 0x0abc, 0x1321⟩),
      (fv0 0x529 0x1234 2 2, fv1 1 6 0x0abc 0x1321, .visab ⟨0x1234, 2, 2, 1, 6, 0x0abc, 0x1321⟩),
      (fv0 0x549 0x1234 2 6, fv1 1 6 0x0abc 0x1321, .vmkab ⟨0x1234, 2, 6, 1, 6, 0x0abc, 0x1321⟩),
      (fv0 0x569 0x1234 2 2, fv1 1 6 0x0abc 0x1321, .vcnt ⟨0x1234, 2, 2, 1, 6, 0x0abc, 0x1321⟩),
      (fv0 0x589 0x1234 2 6, fv1 1 6 0x0abc 0x1321, .vseti ⟨0x1234, 2, 6, 1, 6, 0x0abc, 0x1321⟩),
      (fv0 0x5a9 0x1234 2 2, fv1 1 6 0x0abc 0x1321, .viota ⟨0x1234, 2, 2, 1, 6, 0x0abc, 0x1321⟩),
      (wt 0x5c9 30 2 31 4, 0, .waitV ⟨30, 2, 31, 4⟩),
      (f3 0x5e9 0 0 0 13, 0, .sigV 13),
      (f3 0x609 0 0 0 13, 0, .awaitV 13)] = true := by
  decide +kernel

theorem test_decode_m :
    decodesTo [
      (f3 0x00c 0 0 0 0, 0, .nopM),
      (f3 0x02c 0 0 0 0, 0, .mlicAcq),
      (f3 0x02c 1 0 0 0, 0, .mlicRel),
      (f3 0x02c 2 0 0 0, 0, .mlicTry),
      (f2 0x04c 0x5b 0 37, 0, .tplld 37 5 11),
      (mxw 0x0105 12 41, 0, .mx 41 12 0x0105),
      (f2 0x06c 1 0 0, 0, .mzero 1),
      (f3 0x08d 2 0 0 3, 3 * 2 ^ 29 + 41 * 2 ^ 23 + 9 * 2 ^ 19 + 2 * 2 ^ 17 + 50 * 2 ^ 11 + 22 * 2 ^ 5 + 1 * 2 ^ 4 + 7, .mdrain ⟨2, 1, 1, 3, 41, 9, 2, 50, 22, 1, 7⟩),
      (wt 0x0ac 30 2 31 4, 0, .waitM ⟨30, 2, 31, 4⟩),
      (f3 0x0cc 0 0 0 13, 0, .sigM 13),
      (f3 0x0ec 0 0 0 13, 0, .awaitM 13)] = true := by
  decide +kernel

theorem test_decode_all_strands :
    decodesTo [
      (0x4800c03d, 4, .loop 4 1 0 2 12),
      (0x0000105c, 0, .stage 1),
      (fj 0x07c 0xfff3 0b1110, 0, .br 1 1 2 0xfff3),
      (fj 0x09c 0x0123 0, 0, .j 0x0123),
      (fj 0x0bc 0x0123 0, 0, .call 0x0123),
      (f3 0x0dc 0 0 0 0, 0, .ret),
      (f3 0x0fc 0 0 0 0, 0, .end_),
      (0x0001b11d, 0x80, .bar 3 3 0x80)] = true := by
  decide +kernel

/-! Terms that are no instruction of the text in their one form (WellFormed), one for each of its checks, and words that are none (R95). -/

theorem test_ill_formed_agent_step : WellFormed .dispatchDecision = false := by decide

theorem test_ill_formed_strand_step : WellFormed .loopIterationEnd = false := by decide

theorem test_ill_formed_timel : WellFormed (.rdsys 3 0x0B) = false ∧ WellFormed (.timelRead 3) = true := by decide

theorem test_ill_formed_own_rows :
    [0x06, 0x40, 0x42, 0x44, 0x49].all (fun i => WellFormed (.wrsys 3 i) == false) = true ∧ WellFormed (.wrsys 3 0x43) = true := by decide

theorem test_ill_formed_counter : WellFormed (.nevcntWrite 6 3) = false ∧ WellFormed (.nevcntWrite 5 3) = true := by decide

theorem test_ill_formed_trip :
    WellFormed (.loop 16 0 1 0 1) = false ∧ WellFormed (.loop 15 0 1 0 1) = true ∧ WellFormed (.loop 32 0 2 0 1) = false ∧
      WellFormed (.loop 31 0 2 0 1) = true := by decide

def causeOf (w p : Word) : Option IllCause :=
  match decodeHead w p with
  | .error c => some c
  | .ok _ => none

theorem test_reserved_bits :
    causeOf 0x00001000 0 = some .reservedField ∧ causeOf (f3 0x2c0 0 1 2 3) 0 = some .reservedField ∧
      causeOf (f3 0x341 0 0 2 3) (2 ^ 5) = some .reservedField ∧ causeOf (fe 0x405 0 0 0 3 2 1) 2 = some .reservedField ∧
      causeOf (0x80000000 + fv0 0x029 0 0 1) 0 = some .reservedField := by decide +kernel

theorem test_reserved_values :
    causeOf (f3 0x020 1 1 2 3) 0 = some .reservedValue ∧ causeOf (f3 0x02c 3 0 0 0) 0 = some .reservedValue ∧
      causeOf (f3 0x5a0 2 1 2 3) 0 = some .reservedValue ∧ causeOf (f3 0x561 2 0 1 1) 0 = some .reservedValue := by decide +kernel

theorem test_unassigned :
    causeOf (f3 (0x36 * 32) 0 0 0 0) 0 = some .unassigned ∧ causeOf (f3 (0x31 * 32 + 4) 0 0 0 0) 0 = some .unassigned ∧
      causeOf (f3 (0x31 * 32 + 9) 0 0 0 0) 0 = some .unassigned ∧ causeOf (f3 (8 * 32 + 12) 0 0 0 0) 0 = some .unassigned ∧
      causeOf (f3 28 0 0 0 0) 0 = some .unassigned := by decide +kernel

theorem test_wrong_length : causeOf (f3 0x3e0 0 0 0 3) 0 = some .selLength ∧ causeOf (f3 0x021 0 1 2 3) 0 = some .selLength := by decide +kernel

/-! Small states. -/

def live : StrandSt := { StrandSt.reset with phase := .prologue, fetched := some 0 }

def k0 : CoreSt :=
  { CoreSt.reset with
    resident := true, task := 1, gangSize := 1, demand := 16, lic := true, spad := 4, kernel := 64, epilogue := 128, x := live, a := live, v := live, m := live }

def t0 : Task := { Task.reset with id := 1, phase := .running, cores := [0] }

def issuer (t : Strand) : Cx := { Cx.reset with strand := t, next := 4, words := 1 }

/-- One core that runs task 1 alone, a strand of it about to issue a word of one word at address 0. -/
def st (t : Strand) (k : CoreSt) : State := { State.reset with cores := [(0, k)], tasks := [t0], cx := issuer t, bootState := 6 }

theorem ready (t : Strand) (k : CoreSt) : Ready (st t k) (st t k) := ⟨⟨rfl, rfl⟩, rfl⟩

/-- A result, or nothing. -/
def got {α : Type} : Try α → Option α
  | .ok v => some v
  | .error _ => none

/-- What an instruction leaves. -/
def after (i : Instr) (s : State) : State :=
  match exec i s with
  | .next t => t
  | _ => s

/-- What an instruction leaves on core 0. -/
def core (i : Instr) (s : State) : CoreSt := (after i s).core 0

def traps (s : State) : List (Nat × Nat) := s.tasks.flatMap (fun t => t.traps.map (fun r => (r.cls, r.cause)))

/-- X with 7 in g1, −2 in g2 and 5 at the head of ax0. -/
def kx : CoreSt :=
  { k0 with g := (k0.g.set 1 7).set 2 0xFFFFFFFE, ax := k0.ax.set 0 [some 5, some 6] }

def sx : State := st .x kx

/-! Encoding and steps. -/

theorem witness_DecodeAndEncodeAgree :
    WellFormed (.divz 5 3 4) = true ∧ decodeHead (f3 0x100 0 4 3 5) 0 = .ok (.divz 5 3 4) := ⟨by decide, rfl⟩

def kText : CoreSt := { kx with text := [f3 0x020 0 1 2 3, 0x00000802, f3 0x020 0 1 2 3, 0, 0x0000_0028, f3 0x020 1 1 2 3] }

def turnOf (c : Nat) (t : Strand) (k : CoreSt) : State := { st t k with turns := [.strand c t] }

def atPc (k : CoreSt) (t : Strand) (pc : BitVec 32) : CoreSt := k.setStrand t { k.strand t with pc := pc }

/-- ADD g3, g2, g1 alone at address 0; and behind an RS prefix with the saturate bit at address 4. -/
theorem witness_StepRunsTheInstructionAtThePc :
    (MayWalk (turnOf 0 .x kText) 0 .x ∧ kText.slot 0 = some (f3 0x020 0 1 2 3, .head false) ∧
      AtPlainWord (turnOf 0 .x kText) 0 .x (f3 0x020 0 1 2 3) ∧ ownsTag .x (tagOf (f3 0x020 0 1 2 3)) = true ∧
      decodeHead (f3 0x020 0 1 2 3) 0x802 = .ok (.add 3 2 1)) ∧
    (MayWalk (turnOf 0 .x (atPc kText .x 4)) 0 .x ∧
      (atPc kText .x 4).walk .x = .exec (.add 3 2 1) 4 8 2 { Mods.none with rs := some (0, true) }) := by
  unfold MayWalk AtWord HasBlock AtPlainWord
  decide +kernel

/-- Both cores of a pair at a VMOV of weir row w0, which is full, into t3[0]. -/
def weirs : State :=
  let k := { k0 with weir := true, text := [fv0 0x409 12 0 9, fv1 0 0 0 34] }
  { st .v k with cores := [(0, k), (128, k)], turns := [.strand 128 .v], tasks := [{ t0 with cores := [0, 128] }],
                 pairs := [(0, { Pair.reset with twFull := Vector.replicate 4 true })] }

/-- Whether V of a core would now take a row of the weir and wait for no token. -/
def empties (s : State) (c : Nat) : Bool :=
  match strandTurn { s with turns := [] } c .v with
  | .run i u => awaited i u.cx.mods == [] && (match exec i u with | .next v => v.pairs != s.pairs && !(v.pair 0).twFull.getD 0 true | _ => false)
  | .idle _ => false

theorem witness_StepRunsTheInstructionAtThePc_weir :
    MayWalk weirs 128 .v ∧ empties weirs 0 = true ∧ empties weirs 128 = true ∧ (weirs.pair (128 - 128)).twFull.getD 0 false = true := by
  unfold MayWalk AtWord HasBlock
  decide +kernel

/-- The z2 core waits its moment. -/
theorem test_weir_twin : (match step weirs with | .next t => decide (t = { weirs with turns := [] }) | _ => false) = true := by decide +kernel

/-- M of both cores of a pair at MLIC.ACQ, the licence free, it being the turn of the z2 core. -/
def twins : State :=
  let k := { k0 with text := [f3 0x02c 0 0 0 0] }
  { st .m k with cores := [(0, k), (128, k)], turns := [.strand 128 .m], tasks := [{ t0 with cores := [0, 128] }], pairs := [(0, Pair.reset)] }

theorem witness_StepRunsTheInstructionAtThePc_licence :
    MayWalk twins 128 .m ∧ (twins.pair (pairOf 128)).holder = none ∧ twinOf 128 = 0 ∧
      (match strandTurn twins 0 .m with
        | .run j w => j != .skippedWordsWalk && awaited j w.cx.mods == [] &&
            (match exec j w with | .next x => (x.pair (pairOf 128)).holder == some 0 | _ => false)
        | _ => false) = true := by
  unfold MayWalk AtWord HasBlock
  decide +kernel

/-- The z2 core does not take the licence, which its twin takes. -/
theorem test_licence_twin :
    (match step twins with | .next t => decide ((t.pair 0).holder = none ∧ t.cores = twins.cores) | _ => false) = true := by decide +kernel

/-- M at MLIC.ACQ behind a TK prefix that waits for token 5, whose one unit X awaits too; the licence has been asked for. -/
def tokenFirst : State :=
  { st .m { k0 with text := [f3 0x540 0 0 0 5, 0x0001502E, f3 0x02c 0 0 0 0], tk := k0.tk.set 5 1, m := { live with pc := 4 } } with
    pairs := [(0, { Pair.reset with pending := [0] })] }

/-- LDFE of line 2 of core 0's scratchpad: A of core 0 stands at the word, and the request of core 1 comes over the network in this cycle. -/
def localFirst : State :=
  let k := { k0 with text := [f2 0x364 0 1 4], ar := k0.ar.set 1 0x00FFF80000000100, full := [2] }
  { st .a k with
    cores := [(0, k), (1, { k0 with fe := some { id := 3, op := .load 8 false .discard, ea := 0x00FFF00100000100, sig := none, wait := none, pops := (0, 0),
                                                 next := 4, words := 1, order := 0, at_ := 0 }, loads := 1 })]
    tasks := [{ t0 with cores := [0, 1] }] }

def isStall (w : Walk) : Bool := match w with | .stall => true | _ => false

theorem witness_StepOfEveryOtherTurn :
    (MayWalk (turnOf 0 .x { kText with x := { live with walked := 256 } }) 0 .x ∧
      CoreSt.walk { kText with x := { live with walked := 256 } } .x = .stall) ∧
    (MayWalk (turnOf 0 .a kText) 0 .a ∧ kText.walk .a = .skip 1) ∧
    (MayWalk (turnOf 0 .x (atPc kText .x 20)) 0 .x ∧ (atPc kText .x 20).walk .x = .ill .reservedValue 20) ∧
    (((turnOf 0 .x kText).core 7).x.sigDue = [] ∧  ((turnOf 0 .x kText).core 7).instanceDone = false ∧ (turnOf 0 .x kText).strandStill 7 .x = true) ∧
    (AtWord (turnOf 0 .x { kText with x := { live with fetched := none } }) 0 .x ∧
      ¬HasBlock (turnOf 0 .x { kText with x := { live with fetched := none } }) 0 .x) ∧
    (isAgentStep .networkDrain = true ∧ isAgentStep .nopX = false ∧ WellFormed .nopX = true ∧ sx.turns = []) := by
  unfold MayWalk AtWord HasBlock
  decide +kernel

theorem witness_StepOfEveryOtherTurn_agents :
    tokenFirst.agentYields (.licenceGrant 0) = true ∧
      (match (localFirst.core 1).fe, strandTurn localFirst 0 .a with
        | some q, .run j w => decide (localFirst.feLines 1 q = some (0, [2]) ∧ q.at_ = localFirst.cycle ∧ (localFirst.core 0).fe = none ∧
            j ≠ .skippedWordsWalk ∧ awaited j w.cx.mods = []) && (match exec j w with | .next x => x.feOlder 1 q | _ => false)
        | _, _ => false) = true ∧
      localFirst.agentLate (.fullEmptyPerform 1) = true ∧ twins.agentLate (.sidePortCommand 128) = true ∧ ((turnOf 0 .x { kText with x := { live with sigDue := [4, 4] } }).core 0).x.sigDue = [4, 4] := by
  decide +kernel

/-! X. -/

/-- The forms that pop, peek and push at their limits: one entry and none, 15 entries of xa0 and 16, 7 of xv and 8. -/
theorem witness_XOperandForms :
    ((readX kx 32).map (·.1) = .ok 5 ∧ (readX kx 36).map (·.1) = .ok 5 ∧ k0.ax[0]? = some [] ∧ readX k0 32 = .error .stall) ∧
    (({ k0 with ax := k0.ax.set 0 [none] } : CoreSt).ax[0]? = some [none] ∧ k0.xa[0]? = some []) ∧
    (({ k0 with xv := List.replicate 7 0 } : CoreSt).xv.length < 8 ∧ ¬ ({ k0 with xv := List.replicate 8 0 } : CoreSt).xv.length < 8) ∧
    (({ k0 with vx := [9] } : CoreSt).vx = 9 :: [] ∧ k0.vx = []) ∧ xSrcOk 57 = false ∧ xDstOk 32 = false := by
  refine ⟨⟨rfl, rfl, rfl, rfl⟩, ⟨rfl, rfl⟩, ?_, ⟨rfl, rfl⟩, rfl, rfl⟩
  decide +kernel

/-- An instruction that pops ax0, reads g2 and pushes its result v into xa0; and one from g1 and g2 into g3. -/
def XBinaryReady (v : Word) : Prop :=
  Ready sx sx ∧
  (xDstOk 57 = true ∧ xSrcOk 32 = true ∧ xSrcOk 2 = true ∧
    ∃ va vb k1 k2 k3, readX sx.cxCore 32 = .ok (va, k1) ∧ readX k1 2 = .ok (vb, k2) ∧ writeX k2 57 v = .ok k3) ∧
  (xDstOk 3 = true ∧ xSrcOk 1 = true ∧
    ∃ va vb k1 k2 k3, readX sx.cxCore 1 = .ok (va, k1) ∧ readX k1 2 = .ok (vb, k2) ∧ writeX k2 3 v = .ok k3)

theorem witness_XArithmeticSaturatesOrWraps (v : Word) : XBinaryReady v :=
  ⟨ready _ _, ⟨rfl, rfl, rfl, _, _, _, _, _, rfl, rfl, rfl⟩, ⟨rfl, rfl, _, _, _, _, _, rfl, rfl, rfl⟩⟩

theorem witness_XDivisionNeverTraps (v : Word) : XBinaryReady v := witness_XArithmeticSaturatesOrWraps v

theorem witness_XShiftsDoNotWrapTheCount (v : Word) : XBinaryReady v := witness_XArithmeticSaturatesOrWraps v

/-- The fields of BFX and BFI at the edge: bit 31 is the last that they may reach. -/
theorem witness_XProductsBitsOrderAndFields :
    (31 : BitVec 5).toNat + (0 : BitVec 5).toNat < 32 ∧ 32 ≤ (31 : BitVec 5).toNat + (1 : BitVec 5).toNat ∧ rsFault sx = [] := by decide +kernel

theorem witness_XPairArithmetic :
    Ready sx sx ∧ xPairOk 2 = true ∧ xPairOk 30 = true ∧ xPairOk 56 = true ∧ xSrcOk 32 = true ∧ (∃ n k, readX sx.cxCore 32 = .ok (n, k)) ∧
      kx.x.rotating = none :=
  ⟨ready _ _, rfl, rfl, rfl, rfl, ⟨_, _, rfl⟩, rfl⟩

theorem witness_XComparesSelectsAndConstants :
    Ready sx sx ∧ (6 : BitVec 3) ≠ 7 ∧ 4 ≤ (4 : BitVec 3).toNat ∧ (3 : BitVec 3).toNat < 4 ∧
      ∃ va vb k1 k2 k3 k4, readX sx.cxCore 32 = .ok (va, k1) ∧ readX k1 2 = .ok (vb, k2) ∧
        writeX k2 57 (if k2.x.pAt (4 + (3 : BitVec 2).toNat) then va else vb) = .ok k3 ∧ writeX sx.cxCore 56 9 = .ok k4 :=
  ⟨ready _ _, by decide, by decide, by decide, _, _, _, _, _, _, rfl, rfl, rfl, rfl⟩

theorem witness_XFrame :
    sx.cx.strand = .x ∧ exec (.add 3 2 1) sx = .next (after (.add 3 2 1) sx) ∧ exec (.add64 4 2 0) sx = .next (after (.add64 4 2 0) sx) ∧
      exec (.cmp 0 2 5 1 2) sx = .next (after (.cmp 0 2 5 1 2) sx) ∧ exec .nopX sx = .next (after .nopX sx) := ⟨rfl, rfl, rfl, rfl, rfl⟩

/-! X on values. The results are those of the rules: wrap or clamp (R102), the corners of division (R103), counts of 31 and 32 (R104), a sign
(R105, R106). -/

def satX : State := { sx with cx := { sx.cx with mods := { Mods.none with rs := some (0, true) } } }

def xOut (i : Instr) (a b : Word) (sat : Bool := false) : Word :=
  (core i (let k := { k0 with g := (k0.g.set 1 a).set 2 b }
    { st .x k with cx := { issuer .x with mods := { Mods.none with rs := some (0, sat) } } })).gAt 3

theorem test_add : xOut (.add 3 1 2) 0x7FFFFFFF 1 = 0x80000000 ∧ xOut (.add 3 1 2) 0x7FFFFFFF 1 true = 0x7FFFFFFF := by decide +kernel

theorem test_sub : xOut (.sub 3 1 2) 0x80000000 1 = 0x7FFFFFFF ∧ xOut (.sub 3 1 2) 0x80000000 1 true = 0x80000000 := by decide +kernel

theorem test_mul : xOut (.mul 3 1 2) 0x10000 0x10000 = 0 ∧ xOut (.mul 3 1 2) 0x10000 0xFFFF0000 true = 0x80000000 := by decide +kernel

theorem test_mulh : xOut (.mulh 3 1 2) 0xFFFFFFFF 2 = 0xFFFFFFFF ∧ xOut (.mulhz 3 1 2) 0xFFFFFFFF 2 = 1 := by decide +kernel

theorem test_div : xOut (.div 3 1 2) 0xFFFFFFF9 2 = 0xFFFFFFFD ∧ xOut (.div 3 1 2) 0x80000000 0xFFFFFFFF = 0x80000000 ∧
    xOut (.div 3 1 2) 9 0 = 0xFFFFFFFF ∧ xOut (.divz 3 1 2) 0xFFFFFFF9 2 = 0x7FFFFFFC := by decide +kernel

theorem test_rem : xOut (.rem 3 1 2) 0xFFFFFFF9 2 = 0xFFFFFFFF ∧ xOut (.rem 3 1 2) 0x80000000 0xFFFFFFFF = 0 ∧
    xOut (.rem 3 1 2) 9 0 = 9 ∧ xOut (.remz 3 1 2) 0xFFFFFFF9 16 = 9 := by decide +kernel

theorem test_shifts : xOut (.shl 3 1 2) 1 32 = 0 ∧ xOut (.shl 3 1 2) 1 31 = 0x80000000 ∧ xOut (.shl 3 1 2) 1 31 true = 0x7FFFFFFF ∧
    xOut (.shr 3 1 2) 0x80000000 31 = 1 ∧ xOut (.sra 3 1 2) 0x80000000 0x10000 = 0xFFFFFFFF ∧ xOut (.shr 3 1 2) 1 0x100000000 = 1 := by
  decide +kernel

theorem test_min_max : xOut (.min 3 1 2) 0xFFFFFFFF 1 = 0xFFFFFFFF ∧ xOut (.max 3 1 2) 0xFFFFFFFF 1 = 1 ∧ xOut (.minz 3 1 2) 0xFFFFFFFF 1 = 1 ∧
    xOut (.maxz 3 1 2) 0xFFFFFFFF 1 = 0xFFFFFFFF := by decide +kernel

theorem test_fields : xOut (.bfx 1 3 1 4 3) 0x000000F0 0 = 0xFFFFFFFF ∧ xOut (.bfx 0 3 1 4 3) 0x000000F0 0 = 0xF ∧
    xOut (.bfi 3 1 2 8 7) 0x12345678 0xAB = 0x1234AB78 ∧ xOut (.extb 0 3 1) 0x80 0 = 0xFFFFFF80 ∧ xOut (.exth 1 3 1) 0xFFFF8000 0 = 0x8000 ∧
    xOut (.clz 3 1) 0 0 = 32 ∧ xOut (.clz 3 1) 0x00008000 0 = 16 ∧ xOut (.popc 3 1) 0xF00F0001 0 = 9 ∧ xOut (.andn 3 1 2) 0xFF 0x0F = 0xF0 := by
  decide +kernel

theorem test_field_past_the_word : traps (after (.bfx 0 3 1 31 1) sx) = [(0, 14)] := by decide +kernel

theorem test_cmp : (core (.cmp 0 2 5 2 1) sx).x.pAt 5 = true ∧ (core (.cmp 1 2 5 2 1) sx).x.pAt 5 = false ∧
    (core (.cmp 0 6 7 1 2) sx).x.pAt 7 = true ∧ traps (after (.cmp 0 0 3 1 2) sx) = [(0, 13)] ∧ traps (after (.cmp 0 7 4 1 2) sx) = [(0, 9)] := by
  decide +kernel

theorem test_pairs : (let k := core (.add64 4 2 2) sx
    (k.gAt 4, k.gAt 5)) = (0xFFFFFFFC, 1) ∧ (let k := core (.li64 30 0x80000000) sx
    (k.gAt 30, k.gAt 31)) = (0x80000000, 0xFFFFFFFF) ∧ traps (after (.add64 3 2 2) sx) = [(0, 10)] := by decide +kernel

theorem test_queue_moves : (core (.mov 3 32) sx).ax.toList.headD [] = [some 6] ∧ (core (.mov 3 36) sx).ax.toList.headD [] = [some 5, some 6] ∧
    (core (.mov 57 1) sx).xa.toList.headD [] = [7] ∧ after (.mov 3 33) sx = sx ∧ (core (.mov 56 1) sx).g = kx.g := by decide +kernel
/-! A. -/

/-- A with scratchpad addresses in a1 (offset 256) and a2 (0), three entries in xa0, and a load that has still to write a5. -/
def ka : CoreSt :=
  { k0 with
    ar := ((k0.ar.set 1 0x00FFF80000000100).set 2 0x00FFF80000000000).set 3 0xFFFFFFFFFFFFFFFF, xa := k0.xa.set 0 [1, 0x80000000, 3] }

def kaBusy : CoreSt :=
  { ka with aq := [{ id := 0, op := .load 1 false (.reg 5), ea := 0x00FFF80000000000, sig := none, done := 0, got := [] }], loads := 1 }

def sa : State := st .a ka

theorem witness_AOperandForms :
    ka.aBusy (physA ka.a 15) = false ∧ kaBusy.aBusy (physA kaBusy.a 5) = true ∧ ka.xa[0]? = some [1, 0x80000000, 3] ∧ ka.xa[1]? = some [] ∧
      ka.ax[3]? = some [] ∧ aSrcOk 35 = false := by decide +kernel

/-- AArithmeticWrapsOrClamps: an instruction that pops xa0 twice and pushes; one from a1 and a2 into a4; a shift at 63 and at 64. -/
theorem witness_AArithmeticWrapsOrClamps (v : Dword) :
    Ready sa sa ∧ sa.cxCore.chain = none ∧ (63 : BitVec 8).toNat < 64 ∧ 64 ≤ (64 : BitVec 8).toNat ∧ rsFault sa = [] ∧
    (aDstOk 38 = true ∧ aSrcOk 32 = true ∧
      ∃ va vb k1 k2 k3, readA sa.cxCore 32 = .ok (va, k1) ∧ readA k1 32 = .ok (vb, k2) ∧ writeA k2 38 v = .ok k3) ∧
    (aDstOk 4 = true ∧ aSrcOk 2 = true ∧
      ∃ va vb k1 k2 k3, readA sa.cxCore 1 = .ok (va, k1) ∧ readA k1 2 = .ok (vb, k2) ∧ writeA k2 4 v = .ok k3) :=
  ⟨ready _ _, rfl, by decide, by decide, rfl, ⟨rfl, rfl, _, _, _, _, _, rfl, rfl, rfl⟩, ⟨rfl, rfl, _, _, _, _, _, rfl, rfl, rfl⟩⟩

def kaFull : CoreSt := { ka with ax := ka.ax.set 0 (List.replicate 15 (some 0)) }

theorem witness_AMovesComparesAndAddresses (v : Dword) :
    Ready sa sa ∧ sa.cxCore.chain = none ∧ (∃ k, writeA sa.cxCore 4 v = .ok k) ∧
    (∃ w k1 k2, readA sa.cxCore 4 = .ok (w, k1) ∧ writeA k1 4 v = .ok k2) ∧
    (∃ va vb k1 k2, readA sa.cxCore 1 = .ok (va, k1) ∧ readA k1 32 = .ok (vb, k2)) ∧
    (sa.cxCore.xa[(32 : BitVec 6).toNat - 32]? = some (1 :: 0x80000000 :: [3]) ∧
      ∃ k2, writeA { sa.cxCore with xa := sa.cxCore.xa.setIfInBounds ((32 : BitVec 6).toNat - 32) [3] } 4 v = .ok k2) ∧
    (readA sa.cxCore 1 = .ok (0x00FFF80000000100, sa.cxCore) ∧ sa.cxCore.ax[(35 : BitVec 6).toNat - 35]? = some [] ∧
      (st .a kaFull).cxCore.ax[(35 : BitVec 6).toNat - 35]? = some (List.replicate 15 (some 0))) ∧
    (aRegOk 34 = true ∧ coreOfCoord 0x080 = some sa.cx.core ∧ ∃ w k1 k, readA sa.cxCore 34 = .ok (w, k1) ∧ writeA k1 4 v = .ok k) :=
  ⟨ready _ _, rfl, ⟨_, rfl⟩, ⟨_, _, _, rfl, rfl⟩, ⟨_, _, _, _, rfl, rfl⟩, ⟨rfl, _, rfl⟩, ⟨rfl, rfl, rfl⟩, rfl, rfl, _, _, _, rfl, rfl⟩

theorem witness_AFrame :
    sa.cx.strand = .a ∧ exec (.aadd 4 1 2) sa = .next (after (.aadd 4 1 2) sa) ∧ exec (.acmp 0 2 5 1 2) sa = .next (after (.acmp 0 2 5 1 2) sa) ∧
      exec .nopA sa = .next (after .nopA sa) := ⟨rfl, rfl, rfl, rfl⟩

def aOut (i : Instr) (a b : Dword) (sat : Bool := false) : Dword :=
  (core i (let k := { k0 with ar := (k0.ar.set 1 a).set 2 b }
    { st .a k with cx := { issuer .a with mods := { Mods.none with rs := some (0, sat) } } })).aAt 3

theorem test_a_arithmetic : aOut (.aadd 3 1 2) 0xFFFFFFFFFFFFFFFF 2 = 1 ∧ aOut (.asub 3 1 2) 1 2 true = 0 ∧
    aOut (.aadd 3 1 2) 0x00FFFFFFFFFFFFFF 1 true = 0x00FFFFFFFFFFFFFF ∧ aOut (.aaddi 3 1 0xFF) 1 0 = 0 ∧ aOut (.amuli 3 1 0x80) 2 0 = 0xFFFFFFFFFFFFFF00 ∧
    aOut (.ashl 3 1 63) 3 0 = 0x8000000000000000 ∧ aOut (.ashr 3 1 63) 0x8000000000000000 0 = 1 := by decide +kernel

theorem test_a_constants : (core (.ali 3 0x80000000) sa).aAt 3 = 0xFFFFFFFF80000000 ∧ (core (.alih 3 0x12345678) sa).aAt 3 = 0x12345678FFFFFFFF := by
  decide +kernel

theorem test_a_shift_of_64 : traps (after (.ashl 3 1 64) sa) = [(0, 9)] := by decide +kernel

theorem test_apop : (core (.apop 4 32) sa).aAt 4 = 0x8000000000000001 ∧ (core (.apop 4 32) sa).xa.toList.headD [] = [3] := by decide +kernel

theorem test_apush : (core (.apush 35 3) sa).ax.toList.headD [] = [some 0xFFFFFFFF, some 0xFFFFFFFF] ∧ after (.apush 35 3) (st .a kaFull) = st .a kaFull := by
  decide +kernel

theorem test_acoord : (core (.acoord 4 34 0x080) sa).aAt 4 = 0x00FFF00100000000 ∧ traps (after (.acoord 4 34 0x081) sa) = [(0, 14)] ∧
    traps (after (.acoord 4 34 0x180) sa) = [(0, 9)] := by decide +kernel

/-! Counters, tokens, traps, special registers. -/

def kc : CoreSt := { k0 with loads := 3, copies := 200, tk := (k0.tk.set 4 255).set 5 1 }

/-- V about to issue a word that is to signal token 4, which stands at 255. -/
def owing : State := { st .v kc with cx := { issuer .v with mods := { Mods.none with sig := some 4 } } }

theorem witness_WaitSigAndAwait :
    Ready (st .v kc) (st .v kc) ∧ kc.chain = none ∧ kc.loads.toNat ≤ (3 : BitVec 5).toNat ∧ (2 : BitVec 5).toNat < kc.loads.toNat ∧
      kc.copies.toNat > 31 ∧ kc.tk.get (4 : BitVec 4).toFin = 255 ∧ kc.tk.get (5 : BitVec 4).toFin ≠ 0 ∧ kc.tk.get (6 : BitVec 4).toFin = 0 ∧
      (rsFault owing = [] ∧ (takeWait owing >>= fun v => .ok v) = .ok owing ∧ owing.sigStuck = true ∧ owing.cx.mods.sig = some 4) := by
  refine ⟨ready _ _, rfl, ?_, ?_, ?_, ?_, ?_, ?_, rfl, rfl, rfl, rfl⟩ <;> decide +kernel

theorem test_wait : (core (.waitV ⟨31, 31, 0, 3⟩) (st .v kc)).v.walked = 1 ∧ after (.waitV ⟨31, 31, 0, 2⟩) (st .v kc) = st .v kc ∧
    (core (.waitM ⟨31, 31, 31, 31⟩) (st .m kc)).m.walked = 1 := by decide +kernel

theorem test_tokens : (core (.sigA 5) (st .a kc)).tk.get 5 = 2 ∧ after (.sigX 4) (st .x kc) = st .x kc ∧ (core (.awaitM 5) (st .m kc)).tk.get 5 = 0 ∧
    after (.awaitV 6) (st .v kc) = st .v kc := by decide +kernel

theorem witness_IllTrapAndBrkRaiseTheirClass :
    IllCause.otherUse ∈ [IllCause.otherUse, .operand] ∧ rsFault sx = [] ∧ sx.taskOf sx.cx.core = some t0 ∧ Ready sx sx ∧
      ({ sx with cx := { sx.cx with misplaced := true } } : State).cx.misplaced = true ∧ 13 < IllCause.otherUse.code := by
  refine ⟨by decide, rfl, by decide +kernel, ready _ _, rfl, by decide⟩

theorem test_trap : (after (.trap 0x123) sx).tasks.flatMap (fun t => t.traps.map (fun r => (r.cls, r.code, r.next))) = [(2, 0x123, 4)] ∧
    (after (.brk 0x3FFF) sx).tasks.flatMap (fun t => t.traps.map (fun r => (r.cls, r.code, r.next))) = [(3, 0x3FFF, 4)] ∧
    (core (.trap 5) sx).x.pc = 0 := by decide +kernel

/-- X about to issue a word that waits for a token. -/
def tokenAt (tk : BitVec 4) : State := { st .x kc with cx := { issuer .x with mods := { Mods.none with wait := some tk } } }

/-- A TRAP behind a TK prefix takes its token as it issues (R62); without the token it does not issue. -/
theorem test_trap_token :
    (core (.trap 5) (tokenAt 5)).tk.get 5 = 0 ∧ traps (after (.trap 5) (tokenAt 5)) = [(2, 0)] ∧ traps (after (.trap 5) (tokenAt 6)) = [] := by
  decide +kernel

theorem witness_CapabilityAndSystemRegisterReads (v : Word) :
    Ready sx sx ∧ xDstOk 3 = true ∧ (∃ k, writeX sx.cxCore 3 v = .ok k) ∧ (∃ k, writeX { sx.cxCore with timeh := v } 59 v = .ok k) ∧
      sx.cxCore.nev.cnt[5]? = some 0 ∧ sx.cxCore.nev.thr[5]? = some 0 := ⟨ready _ _, rfl, ⟨_, rfl⟩, ⟨_, rfl⟩, rfl, rfl⟩

/-- The four capability registers (R32): one core of the device, with 4 banks of 4 rows; SELF of core (1,0,0). -/
theorem test_rdcap : (core (.rdcap 3 0) sx).gAt 3 = 0x00960100 ∧ (core (.rdcap 3 1) sx).gAt 3 = 0x10F0 ∧ (core (.rdcap 3 3) sx).gAt 3 = 256 ∧
    traps (after (.rdcap 3 2) sx) = [(0, 9)] := by decide +kernel

theorem test_rdsys : (core (.rdsys 3 0x00) sx).gAt 3 = 0x80 ∧ (core (.rdsys 3 0x06) sx).gAt 3 = 256 ∧ (core (.rdsys 3 0x09) sx).gAt 3 = 1 ∧
    traps (after (.rdsys 3 0x11) sx) = [(0, 9)] := by decide +kernel

theorem test_timel : (core (.timelRead 3) { sx with cycle := 0x700000002 }).gAt 3 = 2 ∧
    (core (.timelRead 3) { sx with cycle := 0x700000002 }).timeh = 7 := by decide +kernel

def kv (v : Word) : CoreSt := { k0 with g := k0.g.set 1 v, nev := { Nev.reset with cnt := Vector.replicate 6 9, elapsed := 3, crossw := 5, stat := 63 } }

theorem witness_SystemRegisterWrites :
    Ready (st .x (kv 8)) (st .x (kv 8)) ∧ xSrcOk 1 = true ∧
    (∀ v, v ∈ [0, 7, 8, 4096, 4097, 63, 64, 65535, 65536, 0x555, 0xAAA] → readX (st .x (kv v)).cxCore 1 = .ok (v, (st .x (kv v)).cxCore)) ∧
    (8 ≤ (8 : Word).toNat ∧ (4096 : Word).toNat ≤ 4096 ∧ (7 : Word).toNat < 8 ∧ 4096 < (4097 : Word).toNat) ∧ (65535 : Word).toNat < 65536 ∧
    (63 : Word).toNat < 64 ∧ ((0xAAA : Word).toNat < 4096 ∧ ∀ c, c < 6 → (0xAAA : Word).toNat / 4 ^ c % 4 ≠ 3) ∧
    (4096 ≤ (4096 : Word).toNat ∧ ∃ c, c < 6 ∧ (0xC00 : Word).toNat / 4 ^ c % 4 = 3) := by
  refine ⟨ready _ _, rfl, fun v _ => rfl, ?_, ?_, ?_, ?_, by decide, 5, by decide, by decide⟩ <;> decide +kernel

theorem test_slipw : (core (.slipwWrite 1) (st .x (kv 8))).slipwDue = some 8 ∧ traps (after (.slipwWrite 1) (st .x (kv 7))) = [(0, 14)] := by decide +kernel

theorem test_nev : (core (.nevcfgWrite 1) (st .x (kv 2))).nev.elapsed = 0 ∧ (core (.nevcfgWrite 1) (st .x (kv 2))).nev.cnt = Vector.replicate 6 9 ∧
    (core (.nevstatClear 1) (st .x (kv 5))).nev.stat = 58 ∧ (core (.nevcntWrite 3 1) (st .x (kv 2))).nev.cnt.get 3 = 2 ∧
    traps (after (.nevstatClear 1) (st .x (kv 64))) = [(0, 14)] := by decide +kernel

theorem test_wrsys : (core (.wrsys 1 0x4F) (st .x (kv 77))).nev.thr.get 5 = 77 ∧ traps (after (.wrsys 1 0x00) (st .x (kv 0))) = [(0, 14)] ∧
    traps (after (.wrsys 1 0x11) (st .x (kv 0))) = [(0, 9)] := by decide +kernel

/-- A rail at level 3 of at most 5, and a partition whose floor is 2 in each domain; the core runs at divisor 4. -/
def clocked : State :=
  { st .x { k0 with div := Vector.replicate 4 4, g := k0.g.set 1 65535 } with
    rails := [(0, { Rail.reset with level := 3, maxLevel := 5 })], parts := [(0, { Part.reset with floors := Vector.replicate 4 2 })] }

theorem witness_ClockAndPacingRequests (v : Word) :
    Ready clocked clocked ∧ xDstOk 3 = true ∧ xSrcOk 1 = true ∧ (∃ k, writeX clocked.cxCore 3 v = .ok k) ∧
      readX clocked.cxCore 1 = .ok (65535, clocked.cxCore) ∧ readX (st .x (kv 65536)).cxCore 1 = .ok (65536, (st .x (kv 65536)).cxCore) ∧
      Ready (st .x (kv 65536)) (st .x (kv 65536)) :=
  ⟨⟨⟨rfl, rfl⟩, rfl⟩, rfl, rfl, ⟨_, rfl⟩, rfl, rfl, ready _ _⟩

/-- Divisor 1 lies below the floor, 4 is no rise, and 2 needs a rail above its level or at it. -/
theorem test_clkdiv : (core (.clkdiv 3 0 0) clocked).gAt 3 = 2 ∧ (core (.clkdiv 3 3 0) clocked).gAt 3 = 0 ∧
    (core (.clkdiv 3 3 0) clocked).x.pAt 4 = true ∧ (core (.clkdiv 3 0 0) clocked).divReq.get 0 = none := by decide +kernel

theorem test_pace : (core (.pace 1 2) clocked).pace.get 2 = 65535 ∧ (core (.pace 1 2) clocked).x.pAt 4 = false ∧
    traps (after (.pace 1 7) clocked) = [(0, 9)] ∧ traps (after (.pace 1 0) (st .x (kv 65536))) = [(0, 14)] := by decide +kernel

/-! Tasks and runnels as X sees them. -/

/-- Partition 0 with one page of 512 MiB at address 0, its tables at 2^16 and 2^17 (R296); stream 2 of it is enabled. -/
def paged (s : State) : State :=
  { s with
    mem := [(0x10000, 1), (0x10002, 2), (0x20000, 7)]
    parts := [(0, { Part.reset with ptbase := 0x10000 })]
    streams := [(2, { Stream.reset with en := true })] }

/-- Addresses 0x40000 in g2 and g3, stream 2 in g4. -/
def spawner : State := paged (st .x { k0 with g := (k0.g.set 2 0x40000).set 4 2 })

/-- The same with the request at the fountainhead. -/
def asking (lost : Bool) (s : State) : State :=
  { s with outstanding := [{ tag := 1, core := 0, what := .spawn, sent := true, sentAt := 0, retries := 0, lost := lost, marked := false, spoils := [], result := none }] }

def crowd : State := asking false { spawner with tasks := t0 :: List.replicate 32 { Task.reset with stream := 2, id := 9 } }

def pair2 : BitVec 6 := 2

theorem witness_SpawnAndTstat (v : Word) :
    Ready spawner spawner ∧ spawnFaults 5 2 4 = [] ∧ readX spawner.cxCore 4 = .ok (2, spawner.cxCore) ∧
    (spawnAddr spawner.cxCore 2).toNat % 128 = 0 ∧ (spawner.stream 2).en = true ∧ spawner.streamFull 2 = false ∧ crowd.streamFull 2 = true ∧
    ((spawner.setCore 0 spawner.cxCore).settle 0).spawnYields 0 2 = false ∧
    ((spawner.setCore 0 spawner.cxCore).settle 0).spawnFault 0 0 (spawnAddr spawner.cxCore 2).toNat = none ∧
    [2 ^ 56, 0x00FFF80000000000, 0x00FFF00000000000, 2 ^ 42].map (spawner.spawnFault 0 0) =
      [some (8, 2 ^ 56), some (14, 0x00FFF80000000000), some (6, 0x00FFF00000000000), some (14, 2 ^ 42)] ∧
    (∃ k, writeX spawner.cxCore 5 v = .ok k) ∧ spawner.cxCore.stores = 0 ∧ spawner.cxCore.copies = 0 ∧
    (spawnAddr { spawner.cxCore with g := spawner.cxCore.g.set 2 0x40040 } 2).toNat % 128 ≠ 0 ∧ (spawner.stream 3).en = false ∧
    (spawner.task? 0 1 = some t0 ∧ spawner.task? 0 7 = none) ∧
    (spawner.cxCore.spawned = none ∧ spawner.asked 0 .spawn = [] ∧ (asking false spawner).asked 0 .spawn ≠ [] ∧
      (asking false spawner).unanswered 0 .spawn = false ∧ (asking true spawner).unanswered 0 .spawn = true) := by
  refine ⟨⟨⟨rfl, rfl⟩, rfl⟩, by decide +kernel, rfl, ?_⟩
  iterate 7 refine ⟨by decide +kernel, ?_⟩
  refine ⟨⟨_, rfl⟩, rfl, rfl, ?_⟩
  iterate 4 refine ⟨by decide +kernel, ?_⟩
  decide +kernel

/-- X at a SPAWN that has reached the fountainhead: of the stream in g4 with the address in g2 and g3, behind the words before it, its id to go to `d`. -/
def atSpawn (before : List Word) (d : Nat) : State :=
  asking false (spawner.modCx (fun k => { k with
    text := before ++ [f3 0x5a0 0 4 2 d]
    xa := k.xa.set 0 (List.replicate 16 0) }))

/-- Whether X is held at its SPAWN by its token or for want of room for its id. -/
def spawnHeld (s : State) : Bool :=
  match strandTurn s 0 .x with
  | .run (.spawn d a b) w =>
    (match takeWait w with
     | .error .stall => true
     | .ok x =>
       (match x.spawnArgs a b with
        | .ok (_, _, q) => (match writeX q d 0 with | .error .stall => true | _ => false)
        | _ => false)
     | _ => false)
  | _ => false

theorem witness_SpawnAndTstat_held :
    (spawnHeld (atSpawn [] 5) = false ∧ (atSpawn [] 5).spawnReady 0 2 = true) ∧ (spawnHeld (atSpawn [] 57) = true ∧ (atSpawn [] 57).spawnReady 0 2 = false) ∧
    (spawnHeld (atSpawn [0x00015022] 5) = true ∧ (atSpawn [0x00015022] 5).spawnReady 0 2 = false) := by decide +kernel

/-- A record of zeros is accepted, gets the first id, and fails at check 3 of R277, for its TREGS of 0. -/
theorem test_spawn : (core (.spawn 5 2 4) (asking false spawner)).gAt 5 = 1 ∧ (core (.spawn 5 2 4) (asking false spawner)).x.pAt 4 = false ∧
    (after (.spawn 5 2 4) spawner).outstanding.map (fun o => (o.what, o.sent)) = [(.spawn, true)] ∧
    (after (.spawn 5 2 4) (asking false { spawner with tasks := [] })).tasks.map (fun t => (t.id, t.kind, t.detail)) = [(1, 11, 3)] ∧
    after (.spawn 5 2 4) crowd = crowd ∧ (core (.spawnNb 5 2 4) crowd).gAt 5 = 0 ∧ (core (.spawnNb 5 2 4) crowd).x.pAt 4 = true := by
  decide +kernel

def kl : CoreSt := { k0 with lo := (k0.lo.set 0 { rows := [7], peer := some (1, 3), flight := [8], used := 7 }).set 1 { rows := [], peer := none, flight := [], used := 0 } }

def sl : State := { st .x kl with cores := [(0, kl), (1, { k0 with li := k0.li.set 3 [9] })], tasks := [{ t0 with cores := [0, 1] }] }

/-- The row in flight as a packet, lost or not. -/
def sentRows (lost : Bool) : State :=
  { sl with outstanding := [{ tag := 1, core := 0, what := .row 0, sent := true, sentAt := 0, retries := 0, lost := lost, marked := true, spoils := [], result := none }] }

theorem witness_Runnels (v : Word) :
    Ready sl sl ∧ ((sl.cxCore.loAt 1).rows = [] ∧ (sl.cxCore.loAt 1).flight = [] ∧ coreOfCoord 0x081 = some 1 ∧ sl.inGang 0 1 = true ∧
      sl.boundFrom 0 1 2 = none ∧ (sl.cxCore.loAt 0).rows ≠ [] ∧ coordFaults 0x081 = []) ∧ (∃ k, writeX sl.cxCore 3 v = .ok k) ∧
    ((sl.core 0).loAt 0).peer = some (1, 3) ∧ ((sl.core 0).loAt 0).rows = 7 :: [] ∧ ((sl.core 0).loAt 0).used < 8 ∧
    ((sl.core 0).loAt 0).flight = 8 :: [] ∧ ((sl.core 0).loAt 0).flight.length + ((sl.core 1).liAt 3).length < ((sl.core 0).loAt 0).used ∧
    (sl.draining = none ∧ ({ sl with draining := some 0 } : State).draining.isSome = true) ∧ (8 ≤ ({ kl.loAt 0 with used := 8 } : Lo).used ∧ ({ kl.loAt 0 with used := 8 } : Lo).rows = 7 :: []) ∧
    (sl.rowsTo 0 1 = [] ∧ (sentRows false).rowsTo 0 1 = (sentRows false).outstanding ∧ (sentRows true).rowsTo 0 1 = (sentRows true).outstanding) := by
  refine ⟨⟨⟨rfl, rfl⟩, rfl⟩, ?_, ⟨_, rfl⟩, ?_⟩ <;> decide +kernel

/-- VMOV of a marked row of li1 into t3[0]. -/
def markedRow : State := st .v { k0 with li := k0.li.set 1 [9], liBad := k0.liBad.set 1 [true] }

def fMarked : FV := ⟨12, 0, 9, 0, 0, 0, 0b0000000110110⟩

theorem witness_Runnels_marked :
    Ready markedRow markedRow ∧ fMarked.ty ≠ 15 ∧ fMarked.min = 0 ∧ Legal1 fMarked markedRow ∧ resolveRow markedRow.cxCore false fMarked.src1 = .li 1 ∧
      (markedRow.cxCore.liBad.getD 1 []).headD false = true ∧
      (markedRow.vAccess 0 [.li 1] (some (resolveRow markedRow.cxCore true fMarked.dst))).isOk = true ∧ markedRow.srcReady 0 (.li 1) = true ∧
      markedRow.dstReady 0 (resolveRow markedRow.cxCore true fMarked.dst) = true ∧ markedRow.gapPast 0 0 1 markedRow.cxCore.vStart = true := by
  refine ⟨ready _ _, ?_⟩
  unfold Legal1
  decide +kernel

theorem test_runnel : ((after (.runnelRowSend 0 0) sl).core 0).loAt 0 = { rows := [], peer := some (1, 3), flight := [8, 7], used := 8 } ∧
    ((after (.runnelRowArrive 0 0) sl).core 1).liAt 3 = [9, 8] ∧
    ((after (.runnelRowArrive 0 0) (sentRows false)).core 1).liBad.getD 3 [] = [false, true] ∧ after (.runnelRowArrive 0 0) (sentRows true) = sentRows true ∧ ((after (.runnelCreditReturn 0 0) sl).core 0).loAt 0 = { kl.loAt 0 with used := 6 } := by
  decide +kernel

theorem test_qbind : ((core (.qbindBind 1 2 0x081) sl).loAt 1).peer = some (1, 2) ∧ after (.qbindUnbind 0) sl = sl ∧
    traps (after (.qbindBind 1 3 0x081) sl) = [(0, 14)] ∧ traps (after (.qbindBind 4 3 0x081) sl) = [(0, 9)] := by decide +kernel

theorem test_qdepth : (core (.qdepth 3 0) sl).gAt 3 = 2 ∧ (core (.qdepth 3 1) sl).gAt 3 = 0x80000000 ∧ traps (after (.qdepth 3 8) sl) = [(0, 9)] := by
  decide +kernel
/-! A: memory. -/

/-- a1 holds scratchpad address 256, a6 a global address of the page of `paged`, a7 an address at offset 3 of the scratchpad, k1 zero. -/
def km : CoreSt := { ka with ar := (ka.ar.set 6 0x40000).set 7 0x00FFF80000000003 }

def sm : State := paged (st .a km)

theorem place_ok {v : State} {op : AccessOp} {ea : Dword} (h1 : decide ((if op.writes then v.cxCore.stores else v.cxCore.loads) ≠ 255) = true)
    (h2 : v.scoreBusy v.cx.core ea.toNat op.size op.writes = false) (h3 : (v.keyOf v.cx.core ea.toNat op.writes).isOk = true) :
    MayPlace v op ea := by
  refine ⟨of_decide_eq_true h1, h2, ?_⟩
  cases h : v.keyOf v.cx.core ea.toNat op.writes with
  | ok k => exact ⟨k, rfl⟩
  | error e => rw [h] at h3; cases h3

/-- LD64 into two places of ax0, ST8 of a3; at offset −1 of a7, so at offset 2; and at a page of global memory. -/
theorem witness_LoadsAndStoresEnterTheOrder :
    Ready sm sm ∧ sm.cxCore.chain = none ∧ aSrcOk 7 = true ∧ readA sm.cxCore 7 = .ok (0x00FFF80000000003, sm.cxCore) ∧
    (aDstOk 35 = true ∧ ∃ dst k', reserveDst sm.cxCore 35 8 = .ok (dst, k') ∧
      MayPlace (sm.setCore sm.cx.core k') (.load 8 false dst) (BitVec.ofInt 64 ((0x00FFF80000000003 : Dword).toInt + simm sm.cx.mods 0xFF))) ∧
    (aSrcOk 3 = true ∧ ∃ data k', storeData sm.cxCore 3 1 = .ok (data, k') ∧
      MayPlace (sm.setCore sm.cx.core k') (.store 1 data) (BitVec.ofInt 64 ((0x40000 : Dword).toInt + simm sm.cx.mods 0x7F))) ∧
    -- addresses of kinds 8 and 6, at a page that is not mapped, and at one that is
    ([2 ^ 56, 0x00FFF80000010000, 0x00FFF00000000000, 2 ^ 29].map (fun ea => (sm.scoreBusy 0 ea 1 true, (sm.keyOf 0 ea true).toOption)) =
        List.replicate 4 (false, none) ∧
      sm.keyOf 0 (2 ^ 56) true = .error (.fatal 8 (2 ^ 56)) ∧ sm.spadOf 0 0x00FFF00000000000 = none ∧ (sm.coreLeaf 0 (2 ^ 29)).toOption = none ∧
      (sm.coreLeaf 0 0x40000).toOption.map (fun l => (l.w, l.sec, sm.secureAt (sm.forward (l.physOf 0x40000)))) = some (true, false, false) ∧
      (sm.core 0).tlb.length ≤ 256) :=
  ⟨⟨⟨rfl, rfl⟩, rfl⟩, rfl, rfl, rfl, ⟨rfl, _, _, rfl, place_ok rfl (by decide +kernel) (by decide +kernel)⟩,
    ⟨rfl, _, _, rfl, place_ok rfl (by decide +kernel) (by decide +kernel)⟩, by decide +kernel⟩

/-- The row t2[5], at scratchpad address 256 with index k1. -/
def rowOp : RowOp := ⟨17, 1, 5 * 64 + 2 * 4⟩

def smBusy : State := sm.modCx (fun k => k.setBusy (.tile 2 5) 9)

theorem witness_RowsAndFullEmptyEnterTheOrder :
    (Ready sm sm ∧ rowFaults sm rowOp = [] ∧ readA sm.cxCore rowOp.base = .ok (0x00FFF80000000100, sm.cxCore) ∧
      readA sm.cxCore rowOp.index = .ok (0, sm.cxCore) ∧ sm.cxCore.rowBusy (xferRow sm.cxCore rowOp.desc) = false ∧
      ((0x00FFF80000000100 + 0 : Dword).toNat % 256 = 0 ∧ (0x00FFF80000000003 + 0 : Dword).toNat % 256 ≠ 0) ∧
      smBusy.cxCore.rowBusy (xferRow smBusy.cxCore rowOp.desc) = true ∧
      MayPlace (sm.modCx (fun k => k.setBusy (xferRow sm.cxCore rowOp.desc) sm.cxCore.nextId)) (.loadRow (xferRow sm.cxCore rowOp.desc)) 0x00FFF80000000100 ∧
      MayPlace sm (.storeRow 0) 0x00FFF80000000100) ∧
    (takeWait sm = .ok sm ∧ sm.cxCore.chain = none ∧ readA sm.cxCore 1 = .ok (0x00FFF80000000100, sm.cxCore) ∧
      (∃ dst k', reserveDst sm.cxCore 4 8 = .ok (dst, k') ∧ MayAwait sm (.load 8 false dst) 0x00FFF80000000100) ∧
      (∃ data k', storeData sm.cxCore 32 8 = .ok (data, k') ∧ MayAwait sm (.store 8 data) 0x00FFF80000000100) ∧
      MayAwait sm (.loadRow (.tile 2 5)) 0x00FFF80000000100 ∧ MayAwait sm (.storeRow 0) 0x00FFF80000000100) := by
  refine ⟨⟨⟨⟨rfl, rfl⟩, rfl⟩, by decide +kernel, rfl, rfl, by decide +kernel, by decide +kernel, by decide +kernel,
    place_ok (by decide +kernel) (by decide +kernel) (by decide +kernel), place_ok rfl (by decide +kernel) (by decide +kernel)⟩,
    rfl, rfl, rfl, ⟨_, _, rfl, ?_⟩, ⟨_, _, rfl, ?_⟩, ?_, ?_⟩ <;>
  exact ⟨place_ok rfl (by decide +kernel) (by decide +kernel), by decide +kernel, by decide +kernel⟩

/-- A about to issue a word that waits for token 6, which has no unit. -/
def tokenless : State := { sm with cx := { sm.cx with mods := { Mods.none with wait := some 6 } } }

theorem witness_RowsAndFullEmptyEnterTheOrder_token :
    (match takeWait tokenless with | .error .stall => true | _ => false) = true ∧ tokenless.cx.misplaced = false ∧ tokenless.cxCore.chain = none ∧
      aFaults 4 [1] = [] ∧ aSrcOk 32 = true ∧ rowFaults tokenless rowOp = [] := by decide +kernel

/-- Without its token a full/empty operation does not come to its lines (R62). -/
theorem test_full_empty_token : after (.ldfe 4 1 0) tokenless = tokenless ∧ ((core (.ldfe 4 1 0) sm).fe.map (·.id)) = some sm.cxCore.nextId := by
  decide +kernel

/-- The bytes 80, 01, 02 ... at offset 256 of the scratchpad. -/
def filled (s : State) : State := { s with mem := mwrite s.mem (spadKey 0 256) [0x80, 1, 2, 3, 4, 5, 6, 7] }

/-- One access in A's order. -/
def acting (op : AccessOp) (ea : Dword) (done : Nat) : State :=
  let k := { k0 with aq := [{ id := 5, op := op, ea := ea, sig := none, done := done, got := List.replicate (128 * done) 7 }],
                     loads := if op.writes then 0 else 1, stores := if op.writes then 1 else 0, busy := [⟨.tile 2 5, 5⟩] }
  filled (st .a { k with nextId := 6 })

/-- A load into a place of ax0 behind an entry, with another place reserved behind it. -/
def queued : State := (acting (.load 4 false (.queue 0)) 0x00FFF80000000100 0).modCore 0 (fun k => { k with ax := k.ax.set 0 [some 1, none, none] })

/-- A load that is to signal token 4, which stands at 255. -/
def owes255 : State :=
  (acting (.load 1 false (.reg 4)) 0x00FFF80000000100 0).modCore 0 (fun k => { k with tk := k.tk.set 4 255, aq := k.aq.map (fun a => { a with sig := some 4 }) })

/-- A load of global line 8 that its home has performed; the line has come again, its data marked or not. -/
def cameAgain (marked : Bool) : State :=
  (acting (.load 1 true (.reg 4)) 0x400 1).modCore 0 (fun k =>
    { k with stash := [{ line := 8, waiting := false, tag := 4, dirty := false, marked := marked, recalled := false, owes := [] }] })

theorem witness_LoadsDeliver_performed :
    ∀ b, b ∈ [true, false] → ((cameAgain b).nextAccess 0).any (fun a => a.performed && !a.op.writes && (cameAgain b).cameMarked 0 a == b) = true := by
  decide +kernel

theorem witness_LoadsDeliver :
    (∀ s, s ∈ [acting (.load 1 true (.reg 4)) 0x00FFF80000000100 0, acting (.loadRow (.tile 2 5)) 0x00FFF80000000100 0,
        acting (.loadRow (.tile 2 5)) 0x00FFF80000000100 1] →
      (s.core 0).aq.length = 1 ∧ ∀ a ∈ (s.core 0).aq, (s.core 0).stashWaits (addrPlus a.ea (a.done * a.placeSize)) = false ∧ a.sig = none ∧
        s.keyOf 0 (addrPlus a.ea (a.done * a.placeSize)) false = .ok (spadKey 0 (256 + 128 * a.done)) ∧
        ((s.cacheLeaf 0 (addrPlus a.ea (a.done * a.placeSize))).touch (spadKey 0 (256 + 128 * a.done)) a.placeSize).badAt
          (spadKey 0 (256 + 128 * a.done)) a.placeSize = false ∧ s.nextAccess 0 = some a ∧ a.performed = false ∧
        s.unanswered 0 (.access a.id) = false ∧ s.replyMarked 0 (.access a.id) = false ∧ (s.core 0).stashMarked a.ea.toNat = false ∧
        (s.core 0).signalOpt? a.sig = some (s.core 0) ∧ (a.op.writes = false → a.done + 1 < a.places ∨ a.places ≤ a.done + 1)) ∧
    ((queued.core 0).ax.get (0 : BitVec 2).toFin = [some 1] ++ List.replicate 1 none ++ [none] ∧ ([some 1] : List (Option Word)).countP (·.isNone) = (queued.core 0).reservedBefore 5 0 ∧ ([] ++ queued.coreBytes 0 (spadKey 0 256) 4).length = 4) ∧
    (acting (.load 4 false .discard) 0x00FFF80000010000 0).keyOf 0 0x00FFF80000010000 false = .error (.fatal 6 0x00FFF80000010000) ∧
    ((acting (.load 1 true (.reg 4)) 0x00FFF80000000100 1).nextAccess 0).any (fun a => a.performed) = true ∧
    (owes255.nextAccess 0).map (·.sig) = some (some 4) ∧ (owes255.core 0).tk.get (4 : BitVec 4).toFin = 255 := by
  decide +kernel

/-- The signal of a load whose counter is full is owed; the load has delivered and no longer counts (R39, R62). -/
theorem test_load_owes : (let k := (after (.loadDelivery 0) owes255).core 0
    (k.aAt 4, k.loads, k.a.sigDue, k.tk.get 4)) = (0x80, 0, [4], 255) := by decide +kernel

theorem test_loads : (let k := (after (.loadDelivery 0) (acting (.load 1 true (.reg 4)) 0x00FFF80000000100 0)).core 0
    (k.aAt 4, k.loads, k.aq)) = (0xFFFFFFFFFFFFFF80, 0, []) ∧
    ((after (.loadDelivery 0) (acting (.load 4 false (.reg 4)) 0x00FFF80000000100 0)).core 0).aAt 4 = 0x03020180 ∧
    ((after (.loadDelivery 0) (acting (.load 8 false (.reg 4)) 0x00FFF80000000101 0)).core 0).aq.map (fun a => (a.done, a.got)) = [(1, [1])] := by
  decide +kernel

theorem test_row_load : ((after (.rowLoadLanded 0) (acting (.loadRow (.tile 2 5)) 0x00FFF80000000100 0)).core 0).busy = [⟨.tile 2 5, 5⟩] ∧
    ((after (.rowLoadLanded 0) (after (.rowLoadLanded 0) (acting (.loadRow (.tile 2 5)) 0x00FFF80000000100 0))).core 0).busy = [] ∧
    ((after (.rowLoadLanded 0) (after (.rowLoadLanded 0) (acting (.loadRow (.tile 2 5)) 0x00FFF80000000100 0))).core 0).row (.tile 2 5) =
      0x0706050403020180 := by decide +kernel

/-- A full/empty load of line 2 of the scratchpad, the line full. -/
def feState (op : AccessOp) (full : List Nat) : State :=
  filled (st .a { k0 with
    fe := some { id := 3, op := op, ea := 0x00FFF80000000100, sig := none, wait := none, pops := (0, 0), next := 4, words := 1, order := 0, at_ := 0 },
    full := full, loads := if op.writes then 0 else 1, stores := if op.writes then 1 else 0 })

def feReq (s : State) : FeReq := ((s.core 0).fe).getD { id := 0, op := .storeRow 0, ea := 0, sig := none, wait := none, pops := (0, 0), next := 0, words := 0, order := 0, at_ := 0 }

/-- A full/empty load that its home has performed, whose reply was lost and has come again, or not. -/
def answered (lost : Bool) : State :=
  { feState (.load 8 false (.reg 4)) [] with
    outstanding := [{ tag := 1, core := 0, what := .access 3, sent := true, sentAt := 0, retries := 1, lost := lost, marked := false, spoils := [],
                      result := some [1, 2, 3, 4, 5, 6, 7, 8] }] }

/-- A store of which the payload flit of its line has come marked. -/
def spoiltStore : State :=
  { acting (.store 4 0x55) 0x00FFF80000000100 0 with
    outstanding := [{ tag := 1, core := 0, what := .access 5, sent := true, sentAt := 0, retries := 0, lost := false, marked := false,
                      spoils := [0x00FFF80000000100 / 128], result := none }] }

theorem witness_StoresAndFullEmptyPerform :
    (∀ a ∈ ((acting (.store 4 0x55) 0x00FFF80000000100 0).core 0).aq, a.op.writes = true ∧
      ((acting (.store 4 0x55) 0x00FFF80000000100 0).core 0).stashWaits (addrPlus a.ea 0) = false ∧
      (acting (.store 4 0x55) 0x00FFF80000000100 0).keyOf 0 (addrPlus a.ea (a.done * a.placeSize)) true = .ok (spadKey 0 256) ∧ a.places ≤ a.done + 1 ∧
      a.sig = none ∧ (acting (.store 4 0x55) 0x00FFF80000000100 0).nextAccess 0 = some a ∧ a.performed = false ∧
      (acting (.store 4 0x55) 0x00FFF80000000100 0).unanswered 0 (.access a.id) = false) ∧
    (∀ a ∈ ((acting (.storeRow 5) 0x00FFF80000000100 0).core 0).aq, a.done + 1 < a.places ∧
      (acting (.storeRow 5) 0x00FFF80000000100 0).nextAccess 0 = some a ∧
      (acting (.storeRow 5) 0x00FFF80000000100 0).keyOf 0 (addrPlus a.ea (a.done * a.placeSize)) true = .ok (spadKey 0 256)) ∧
    (acting (.store 1 5) 0x00FFF80000010000 0).keyOf 0 0x00FFF80000010000 true = .error (.fatal 6 0x00FFF80000010000) ∧
    (∀ s, s ∈ [feState (.load 8 false (.reg 4)) [2], feState (.store 8 9) []] →
      (s.core 0).fe = some (feReq s) ∧ s.feLines 0 (feReq s) = some (0, [2]) ∧
      (s.core 0).allPerformed = true ∧ (s.core 0).full.contains 2 = !(feReq s).op.writes ∧ s.feOlder 0 (feReq s) = false ∧
      (s.taskOf 0).elim false Task.halted = false ∧ s.badAt (spadKey 0 (2 * 128)) (feReq s).op.size = false ∧
      s.feThere 0 (feReq s) = true ∧ s.replyMarked 0 (.access (feReq s).id) = false ∧ s.cx.late = false) ∧
    ((feState (.load 8 false (.reg 4)) []).feLines 0 (feReq (feState (.load 8 false (.reg 4)) [])) = some (0, [2]) ∧
      ((feState (.load 8 false (.reg 4)) []).core 0).full.contains 2 = false) ∧
    ((acting (.store 4 0x55) 0x00FFF80000000100 1).nextAccess 0).any (fun a => a.performed && a.op.writes) = true ∧
    ((answered false).recorded 0 (.access 3) = some [1, 2, 3, 4, 5, 6, 7, 8] ∧ (answered false).unanswered 0 (.access 3) = false ∧
      (answered true).unanswered 0 (.access 3) = true ∧ (answered false).replyMarked 0 (.access 3) = false ∧
      ({ answered false with outstanding := (answered false).outstanding.map (fun o => { o with marked := true }) } : State).replyMarked 0 (.access 3) =
        true) ∧
    ((spoiltStore.nextAccess 0).any (fun a => !a.performed && a.op.writes && spoiltStore.unanswered 0 (.access a.id) == false &&
        spoiltStore.outstanding.any (fun o => o.core == 0 && decide (o.what = .access a.id) && o.spoils.contains (a.ea.toNat / 128))) = true ∧
      (spoiltStore.keyOf 0 0x00FFF80000000100 true).toOption = some (spadKey 0 256) ∧ (spoiltStore.core 0).stash = []) := by
  decide +kernel

/-- A full/empty load that was performed and whose reply was lost delivers what it read then, not what its line holds now (R274). -/
theorem test_full_empty_again : ((after (.fullEmptyPerform 0) (answered false)).core 0).aAt 4 = 0x0807060504030201 ∧
    (after (.fullEmptyPerform 0) (answered false)).outstanding = [] ∧ after (.fullEmptyPerform 0) (answered true) = answered true := by decide +kernel

theorem test_spoilt_store : (after (.storePerformed 0) spoiltStore).poison = [spadKey 0 256 / 128] := by decide +kernel

theorem test_store : mread (after (.storePerformed 0) (acting (.store 4 0x55AA) 0x00FFF80000000100 0)).mem (spadKey 0 255) 6 = [0, 0xAA, 0x55, 0, 0, 4] := by
  decide +kernel

theorem test_full_empty : (let k := (after (.fullEmptyPerform 0) (feState (.load 8 false (.reg 4)) [2])).core 0
    (k.aAt 4, k.full, k.a.pc)) = (0x0706050403020180, [], 4) ∧
    after (.fullEmptyPerform 0) (feState (.load 8 false (.reg 4)) []) = feState (.load 8 false (.reg 4)) [] ∧
    ((after (.fullEmptyPerform 0) (feState (.store 8 9) [])).core 0).full = [2] := by decide +kernel

def stashed (recalled : Bool) : State :=
  { st .a { k0 with stash := [{ line := 8, waiting := true, tag := 4, dirty := false, marked := false, recalled := recalled, owes := [] }] } with
    outstanding := [{ tag := 4, core := 0, what := .line 8, sent := true, sentAt := 0, retries := 0, lost := false, marked := false, spoils := [], result := none }] }

/-- A core of the mapped page whose fault ring, of 64 records at 0x1000, is empty. -/
def ringed : State := { sm with parts := [(0, { sm.part 0 with frOn := true, frBase := 0x1000, frN := 6 })] }

/-- A probe of 0x40000 bytes at 0 of the mapped page, of no bytes, of an unmapped page; replies and recalls of line 8. -/
theorem witness_ProbesRepliesAndRecalls :
    (Ready sm sm ∧ sm.cxCore.chain = none ∧ sm.cxCore.probe = none ∧ aRegOk 6 = true ∧ aRegOk 34 = true ∧
      readA sm.cxCore 34 = .ok (0, sm.cxCore) ∧ readA sm.cxCore 6 = .ok (0x40000, sm.cxCore) ∧ sm.cxCore.loads = 0 ∧ sm.cxCore.stores = 0 ∧
      sm.cxCore.copies = 0 ∧ sm.badPages 0 0 (0 + 0x40000 - 1) true = [] ∧ sm.badPages 0 0x20000000 (0x20000000 + 2 - 1) true ≠ [] ∧
      (sm.part sm.cxCore.part).frOn = false ∧ readA sm.cxCore 1 = .ok (0x00FFF80000000100, sm.cxCore) ∧ 2 ^ 32 < (0x00FFF80000000100 : Dword).toNat) ∧
    (ringed.badPages 0 0x20000000 (0x20000000 + 2 - 1) true = [(0x20000000, 1)] ∧ (ringed.part 0).frOn = true ∧
      (ringed.part 0).frProd - (ringed.part 0).frCons < 2 ^ (ringed.part 0).frN) ∧
    ((stashed true).core 0).stash.find? (fun y => y.line == 8 && y.waiting) =
      some { line := 8, waiting := true, tag := 4, dirty := false, marked := false, recalled := true, owes := [] } ∧
    (stashed true).unanswered 0 (.line 8) = false ∧ ((stashed true).core 0).stash.find? (fun x => x.line == 9 && x.waiting) = none ∧
    (((stashed false).core 0).stash.any (fun x => x.line == 8 && x.tag == 4) = true ∧ (∀ x ∈ ((stashed false).core 0).stash, x.line = 8 → x.waiting = true) ∧
      ((stashed false).core 0).stash.any (fun x => x.line == 8 && x.tag == 3) = false) := by
  refine ⟨⟨⟨⟨rfl, rfl⟩, rfl⟩, rfl, rfl, rfl, rfl, rfl, rfl, rfl, rfl, rfl, ?_⟩, ?_⟩
  · refine ⟨?_, ?_, ?_, rfl, ?_⟩ <;> decide +kernel
  · decide +kernel

/-- Requests whose data is written at their homes: a store, and a copy to offset 256 of the scratchpad. -/
def sending : State :=
  let m : EngCmd :=
    { id := 7, op := .copy 0x00FFF80000000100 0x00FFF80000004000 4 false, scope := 0, rel := false, acq := false, sig := none, reads := [], writes := [],
      entry := false, awaits := 0, rowsDone := 0, presented := false, events := [] }
  let o : Outstanding :=
    { tag := 1, core := 0, what := .access 5, sent := true, sentAt := 0, retries := 0, lost := false, marked := false, spoils := [], result := none }
  { acting (.store 4 0x55) 0x00FFF80000000100 0 with outstanding := [o, { o with tag := 2, what := .engine .copy }] }.modCore 0 (fun k =>
    k.setEngine .copy { queue := [], active := [m], lastStart := 0 })

theorem witness_ProbesRepliesAndRecalls_spoilt :
    ((sending.outstanding.find? (fun p => p.core == 0 && p.tag == 1 && p.sent)).map (·.what) = some (.access 5) ∧
      (sending.outstanding.find? (fun p => p.core == 0 && p.tag == 2 && p.sent)).map (·.what) = some (.engine .copy)) ∧
    ((sending.core 0).engine .copy).active.map (·.writes) = [[]] ∧
      (sending.keyOf 0 (0x00FFF80000000100 / 128 * 128) true).toOption = some (spadKey 0 256) := by decide +kernel

theorem test_spoilt : (after (.dataReplyArrival 0 (.spoilt 1 3)) sending).outstanding.map (·.spoils) = [[3], []] ∧
    (after (.dataReplyArrival 0 (.spoilt 2 (0x00FFF80000000100 / 128))) sending).poison = [spadKey 0 256 / 128] := by decide +kernel

theorem test_probe : (core (.probe 1 34 6) sm).a.pc = 4 ∧ (core (.probe 0 34 34) sm).a.pc = 4 ∧ traps (after (.probe 0 34 1) sm) = [(0, 14)] := by decide +kernel

theorem test_reply_and_recall : ((after (.dataReplyArrival 0 (.line 8 false)) (stashed false)).core 0).stash.map (·.waiting) = [false] ∧
    ((after (.dataReplyArrival 0 (.line 8 false)) (stashed true)).core 0).stash = [] ∧
    ((after (.recallArrival 0 ⟨8, 4⟩) (stashed false)).core 0).stash.map (·.recalled) = [true] ∧
    ((after (.recallArrival 0 ⟨8, 3⟩) (stashed false)).core 0).stash.map (·.recalled) = [false] := by
  decide +kernel

/-! Engine commands. -/

/-- a1 at scratchpad 0, a2 at 0x4000, a3 256, a4 0, a5 the value of a COPYM's destination t3 row 60; a dictionary and a conversion set. -/
def ke : CoreSt :=
  { k0 with ar := (((((k0.ar.set 1 0x00FFF80000000000).set 2 0x00FFF80000004000).set 3 256).set 5 (60 * 16 + 3)).set 6 0x40000).set 7 0x00080008 }

def se : State :=
  let s := paged (st .a ke)
  { s with parts := [(0, { s.part 0 with
      dicts := [(1, { nnodes := 1, node := 0, edge := 0, nedges := 0 })], ccsets := [(3, { CcSet.reset with en := true })] })] }

/-- COPY of scope CORE with no flags; the word of MX template 5, FSEL 12, VAL 1. -/
def fe0 (as2 as1 ad : BitVec 5) : FE := ⟨0, 0, 0, as2, as1, ad⟩

theorem witness_EngineCommandsEnter :
    takeWait se = .ok se ∧ se.cxCore.chain = none ∧ scopeFaults (fe0 3 2 1) = [] ∧ scopeFaults ⟨5, 1, 1, 3, 2, 1⟩ = [] ∧
    readFE se.cxCore 1 = .ok 0x00FFF80000000000 ∧ readFE se.cxCore 2 = .ok 0x00FFF80000004000 ∧ readFE se.cxCore 3 = .ok 256 ∧
    readFE se.cxCore 0 = .ok 0 ∧ readFE se.cxCore 5 = .ok 963 ∧ readFE se.cxCore 6 = .ok 0x40000 ∧ readFE se.cxCore 7 = .ok 0x00080008 ∧
    ((se.cxCore.engine .copy).queue.length < 16 ∧ se.cxCore.copies ≠ 255 ∧ se.cxCore.entries < 16 ∧ se.cxCore.pinned + 2 * (31 + 1) ≤ 64) ∧
    -- COPYM
    (followFaults (mxw 1 12 5) = [] ∧ (963 : Dword).toNat < 1024 ∧ (256 : Dword).toNat % 256 = 0 ∧
      (963 : Dword).toNat / 16 % 64 + (256 : Dword).toNat / 256 ≤ 64 ∧ (963 : Dword).toNat % 16 < se.cxCore.demand) ∧
    -- MCAST to itself
    (coordFaults 0x080 = [] ∧ ∀ t ∈ rectangle 0x080 0 0, t = se.cx.core) ∧
    -- TFETCH, GATH, SCAT, SACC
    (inSpad 0x40000 = false ∧ saccOk 6 12 = true ∧ saccOk 0 7 = true ∧ (0x00FFF80000000000 : Nat) % typeWidth 12 = 0 ∧
      regionOf 0x00FFF80000000000 = .near 0) ∧
    -- GATHMC of one tile, CMASK, TLIST, TOKZ, CCVT at (8, 8)
    (0x00FFF80000000000 + 64 * ((3 : BitVec 6).toNat + 1) * (1 * 1) ≤ 0x00FFF80000004000 ∧ ((3 : BitVec 6).toNat + 1) % typeWidth 0 = 0 ∧
      (se.dictOf se.cx.core 1).nnodes ≠ 0 ∧ (se.ccsetOf se.cx.core 3).en = true ∧ (0x00080008 : Dword).toNat % 8 = 0 ∧
      (0x00080008 : Dword).toNat / 2 ^ 16 % 8 = 0) := by
  refine ⟨rfl, rfl, rfl, rfl, rfl, rfl, rfl, rfl, rfl, rfl, rfl, ?_, ?_, ?_, ?_, ?_⟩
  · decide +kernel
  · decide +kernel
  · decide +kernel
  · refine ⟨?_, ?_, ?_, ?_, rfl⟩ <;> decide +kernel
  · decide +kernel

def q (k : CoreSt) (e : Engine) : List EngOp := (k.engine e).queue.map (·.op)

theorem test_copy : q (core (.copy (fe0 3 2 1) 0) se) .copy = [.copy 0x00FFF80000000000 0x00FFF80000004000 256 false] ∧
    (core (.copy (fe0 3 2 1) 0) se).copies = 1 ∧ traps (after (.copy ⟨6, 1, 0, 3, 2, 1⟩ 0) se) = [(0, 9)] ∧
    traps (after (.copy ⟨2, 0, 0, 3, 2, 1⟩ 0) se) = [(0, 8)] := by decide +kernel

theorem test_copym : q (core (.copym (fe0 3 2 5) (mxw 1 12 5)) se) .copy = [.copym 3 60 0x00FFF80000004000 256 (mxw 1 12 5)] ∧
    (core (.copym (fe0 3 2 5) (mxw 1 12 5)) se).busy = [⟨.tile 3 60, 0⟩] ∧ traps (after (.copym (fe0 3 2 5) 0) se) = [(0, 14)] := by decide +kernel

theorem test_mcast : q (core (.mcast (fe0 3 2 0) 0x080 0 0) se) .copy = [.mcast 0 0x00FFF80000004000 256 [0]] ∧
    traps (after (.mcast (fe0 3 2 0) 0x080 0 1) se) = [(0, 14)] := by decide +kernel

theorem test_tfetch : q (core (.tfetch (fe0 3 6 0) 31) se) .sluice = [.tfetch 0x40000 256 32] ∧ traps (after (.tfetch (fe0 3 1 0) 0) se) = [(0, 14)] := by
  decide +kernel

theorem test_gathers : q (core (.gath (fe0 3 2 1) 3 7 11) se) .gather = [.gath 0x00FFF80000000000 0x00FFF80000004000 256 11 32 4] ∧
    q (core (.scat (fe0 3 2 1) 3 7 11) se) .gather = [.scat 0x00FFF80000000000 0x00FFF80000004000 256 11 32 4] ∧
    q (core (.gathmc (fe0 3 2 1) 1 1 3 0) se) .gather = [.gathmc 0x00FFF80000000000 0x00FFF80000004000 256 0 4 1 1] ∧
    traps (after (.gath (fe0 3 2 1) 3 7 13) se) = [(0, 9)] := by decide +kernel

theorem test_sacc : q (core (.sacc (fe0 2 3 1) 0 7 3 0) se) .confluence = [.sacc 0x00FFF80000000000 256 0x00FFF80000004000 0 7 4 1] ∧
    traps (after (.sacc (fe0 2 3 1) 3 7 3 0) se) = [(0, 9)] := by decide +kernel

theorem test_intake_commands : q (core (.cmask (fe0 3 2 1) 1) se) .copy = [.cmask 0x00FFF80000000000 0x00FFF80000004000 256 true] ∧
    q (core (.tlist (fe0 3 2 1)) se) .copy = [.tlist 0x00FFF80000000000 0x00FFF80000004000 256] ∧
    q (core (.tokz (fe0 3 2 1) 1 9) se) .copy = [.tokz 0x00FFF80000000000 0x00FFF80000004000 256 1 10] ∧
    q (core (.ccvt (fe0 7 2 1) 1 1 3 0) se) .copy = [.ccvt 0x00FFF80000000000 0x00FFF80000004000 0x00080008 1 1 3 0] ∧
    traps (after (.tokz (fe0 3 2 1) 0 9) se) = [(0, 14)] := by decide +kernel

def openChain (left : Nat) : OpenChain :=
  { pc := 0, walked := 0, wait := none, left := left, cmd :=
      { id := 0, op := .chain 0x00FFF80000000000 0x00FFF80000004000 0 0 0 0 false false 4 [], scope := 0, rel := false, acq := false, sig := none, reads := [],
        writes := [], entry := false, awaits := 0, rowsDone := 0, presented := false, events := [] } }

def chained (left : Nat) : State := st .a { ke with chain := some (openChain left) }

theorem witness_ChainsCloseAtTheirLastChop :
    (Ready se se ∧ se.cxCore.chain = none ∧ scopeFaults (fe0 0 2 1) = [] ∧ (4 : BitVec 3).toNat ≤ 4 ∧ (8 : BitVec 4).toNat ≤ 8) ∧
    (Ready (chained 2) (chained 2) ∧ (chained 2).cxCore.chain = some (openChain 2) ∧ chopFaults 0 (decide ((0 : BitVec 1) = 1)) 1 1 16 = [] ∧
      1 < (openChain 2).left ∧ (openChain 1).left ≤ 1) ∧
    ((chained 1).cxCore.chainE.queue.length < 16 ∧ (chained 1).cxCore.copies ≠ 255 ∧ (chained 1).cxCore.entries < 16) ∧ chopFaults 0 true 1 1 16 = [] := by
  refine ⟨⟨⟨⟨rfl, rfl⟩, rfl⟩, rfl, by decide +kernel, by decide, by decide⟩, ⟨ready _ _, rfl, by decide +kernel, by decide, by decide⟩, ?_, by decide +kernel⟩
  decide +kernel

theorem test_chain : (core (.chain (fe0 0 2 1) 0 0 0 0 0 1 3) se).chain.map (·.left) = some 2 ∧ (core (.chop 1 1 16) (chained 2)).chain.map (·.left) = some 1 ∧
    q (core (.chop 1 1 16) (chained 1)) .chain =
      [.chain 0x00FFF80000000000 0x00FFF80000004000 0 0 0 0 false false 4 [{ op := 1, x := 1, y := 16, kx := 0, ky := 0 }]] ∧
    traps (after (.chop 1 1 16) se) = [(0, 14)] ∧ traps (after .nopA (chained 1)) = [(0, 14)] := by decide +kernel

def cmdOf (op : EngOp) : EngCmd :=
  { id := 7, op := op, scope := 0, rel := false, acq := false, sig := none, reads := [], writes := [], entry := false, awaits := 0, rowsDone := 0,
    presented := false, events := [] }

def copyCmd : EngCmd := cmdOf (.copy 0x00FFF80000000102 0x00FFF80000000100 4 false)

def running (e : Engine) (queue active : List EngCmd) : State :=
  filled (st .a (k0.setEngine e { queue := queue, active := active, lastStart := 0 }))

theorem witness_EnginesRunAndComplete :
    (((running .copy [copyCmd] []).core 0).engine .copy).queue = copyCmd :: [] ∧ (running .copy [copyCmd] []).engineReady 0 .copy copyCmd = true ∧
    copyCmd.op = .copy (BitVec.ofNat 64 (0x00FFF80000000000 + 0x102)) (BitVec.ofNat 64 (0x00FFF80000000000 + 0x100)) (BitVec.ofNat 64 4) false ∧
    (∀ i, i < 4 → (running .copy [copyCmd] []).badAt (spadKey 0 (0x100 + i)) 1 = false) ∧
    (running .copy [copyCmd] [copyCmd]).engineReady 0 .copy copyCmd = false ∧
    ((running .copy [] [copyCmd]).core 0).commandDone copyCmd = true ∧ copyCmd.events = [] ∧
    ((running .copy [] [cmdOf (.copym 3 60 0 256 5)]).core 0).side = none ∧
    ((engRead 0 0x00FFF80000000100 256).run (running .sluice [] [cmdOf (.tfetch 0x00FFF80000000100 0 1)])).1.isOk = true := by
  refine ⟨rfl, by decide +kernel, rfl, by decide +kernel, by decide +kernel, by decide +kernel, rfl, rfl, by decide +kernel⟩

/-- An overlapping copy moves the bytes as they stood before; memory has them once they settle. -/
theorem test_copy_runs : (let s := after (.engineCommandStart 0 .copy) (running .copy [copyCmd] [])
    (s.coreBytes 0 (spadKey 0 0x100) 7, mread s.mem (spadKey 0 0x100) 7, mread (s.settle 0).mem (spadKey 0 0x100) 7)) =
    ([0x80, 1, 0x80, 1, 2, 3, 6], [0x80, 1, 2, 3, 4, 5, 6], [0x80, 1, 0x80, 1, 2, 3, 6]) := by decide +kernel

theorem test_copy_completes : (((after (.engineCommandComplete 0 .copy) (running .copy [] [copyCmd])).core 0).engine .copy).active = [] ∧
    ((after (.engineCommandComplete 0 .copy) (running .copy [] [cmdOf (.copym 3 60 0 256 0x0000_0000)])).core 0).mIll.isSome = true := by decide +kernel

/-! What engines do: witnesses. The addresses lie in the scratchpad of core 0. -/

def sees? (s : State) (c : Nat) (ea : Dword) (bs : List Byte) : Bool :=
  (List.range bs.length).all (fun i => match s.keyOf c (addrPlus ea i) false with
    | .ok key => paKind key != .view && !s.badAt key 1 && s.coreByte c key == bs.getD i 0
    | .error _ => false)

theorem sees {s : State} {c : Nat} {ea : Dword} {bs : List Byte} (h : sees? s c ea bs = true) : Sees s c ea bs := by
  intro i hi
  have h := List.all_eq_true.mp h i (List.mem_range.mpr hi)
  cases hk : s.keyOf c (addrPlus ea i) false with
  | error e => simp [hk] at h
  | ok key =>
    simp only [hk, Bool.and_eq_true, bne_iff_ne, Bool.not_eq_true', beq_iff_eq] at h
    exact ⟨key, rfl, h.1.1, h.1.2, h.2⟩

/-- The n bytes at an address lie at keys from `key` on. -/
def writes? (s : State) (c : Nat) (ea : Dword) (n key : Nat) : Bool :=
  (List.range n).all (fun i => decide (s.keyOf c (addrPlus ea i) true = .ok (key + i)))

theorem writes {s : State} {c : Nat} {ea : Dword} {n : Nat} (key : Nat) (h : writes? s c ea n key = true) : Writes s c ea n := by
  have h : ∀ i, i < n → s.keyOf c (addrPlus ea i) true = .ok (key + i) :=
    fun i hi => of_decide_eq_true (List.all_eq_true.mp h i (List.mem_range.mpr hi))
  refine ⟨fun i hi => ⟨_, h i hi⟩, fun i j hi hj e => ?_⟩
  rw [h i hi, h j hj] at e
  have := Except.ok.inj e
  omega

/-- The n bytes at an address lie at keys from `key` on, and the ranges read below it. -/
def apart? (s : State) (c : Nat) (ea : Dword) (n : Nat) (l : List (Dword × Nat)) (key : Nat) : Bool :=
  writes? s c ea n key && l.all (fun p => (List.range p.2).all (fun j => match s.keyOf c (addrPlus p.1 j) false with
    | .ok k => decide (k < key)
    | .error _ => true))

theorem apart {s : State} {c : Nat} {ea : Dword} {n : Nat} {l : List (Dword × Nat)} (key : Nat) (h : apart? s c ea n l key = true) : Apart s c ea n l := by
  obtain ⟨h1, h2⟩ := Bool.and_eq_true_iff.mp h
  intro i hi k hk p hp j hj e
  have h1 := of_decide_eq_true (List.all_eq_true.mp h1 i (List.mem_range.mpr hi))
  have h2 := List.all_eq_true.mp (List.all_eq_true.mp h2 p hp) j (List.mem_range.mpr hj)
  rw [hk] at h1
  simp only [e, decide_eq_true_eq] at h2
  have := Except.ok.inj h1
  omega

theorem calm {s : State} {c : Nat} (h1 : (s.core c).tlb = []) (h2 : (s.core c).stash = []) : Calm s c := by
  constructor
  · intro e he; rw [h1] at he; cases he
  · intro x hx; rw [h2] at hx; cases hx

theorem starts {s : State} {c : Nat} {e : Engine} {m : EngCmd} {r : List EngCmd} (h1 : ((s.core c).engine e).queue = m :: r)
    (h2 : s.engineReady c e m = true) (h3 : (s.core c).tlb = []) (h4 : (s.core c).stash = []) : Starts s c e m r m.op := ⟨h1, h2, rfl, calm h3 h4⟩

/-- An address of the scratchpad. -/
def pad (o : Nat) : Dword := BitVec.ofNat 64 (0x00FFF80000000000 + o)

/-- A command at the head of its engine's queue, and bytes in the scratchpad by offset. -/
def headed (e : Engine) (op : EngOp) (l : List (Nat × List Byte)) : State :=
  { st .a (k0.setEngine e { queue := [cmdOf op], active := [], lastStart := 0 }) with
    mem := l.foldl (fun m p => mwrite m (spadKey 0 p.1) p.2) []
    parts := [(0, { Part.reset with dicts := [(0, { nnodes := 1, node := 0x00FFF80000000200, edge := 0, nedges := 0 })] })] }

theorem headed_starts (e : Engine) (op : EngOp) (l : List (Nat × List Byte)) (h : (headed e op l).engineReady 0 e (cmdOf op) = true) :
    Starts (headed e op l) 0 e (cmdOf op) [] op := by
  cases e <;> exact starts rfl h rfl rfl

def sCopy : State := headed .copy (.copy (pad 0x102) (pad 0x100) 4 false) [(0x100, [1, 2, 3, 4])]
def sEdge : State := headed .copy (.copy (pad 0) (pad 0xFFFE) 4 false) [(0xFFFE, [1, 2])]
def sBack : State := headed .copy (.copy (pad 0xFFFE) (pad 0) 4 false) [(0, [1, 2, 3, 4])]
def sFill : State := headed .copy (.copy (pad 3) 0x0807060504030201 4 true) []

/-- Copies: one that overlaps itself, one whose source and one whose destination leave the scratchpad, a fill. -/
theorem witness_EnginesRunAndComplete_copies :
    (Starts sCopy 0 .copy (cmdOf (.copy (pad 0x102) (pad 0x100) 4 false)) [] (.copy (pad 0x102) (pad 0x100) 4 false) ∧
      Sees sCopy 0 (pad 0x100) [1, 2, 3, 4] ∧ Writes sCopy 0 (pad 0x102) 4) ∧
    (Starts sEdge 0 .copy (cmdOf (.copy (pad 0) (pad 0xFFFE) 4 false)) [] (.copy (pad 0) (pad 0xFFFE) 4 false) ∧ Sees sEdge 0 (pad 0xFFFE) [1, 2] ∧
      sEdge.keyOf 0 (addrPlus (pad 0xFFFE) 2) false = .error (.fatal 6 0x00FFF80000010000)) ∧
    (Starts sBack 0 .copy (cmdOf (.copy (pad 0xFFFE) (pad 0) 4 false)) [] (.copy (pad 0xFFFE) (pad 0) 4 false) ∧ Sees sBack 0 (pad 0) [1, 2, 3, 4] ∧
      Writes sBack 0 (pad 0xFFFE) 2 ∧ sBack.keyOf 0 (addrPlus (pad 0xFFFE) 2) true = .error (.fatal 6 0x00FFF80000010000)) ∧
    (Starts sFill 0 .copy (cmdOf (.copy (pad 3) 0x0807060504030201 4 true)) [] (.copy (pad 3) 0x0807060504030201 4 true) ∧ Writes sFill 0 (pad 3) 4) :=
  ⟨⟨headed_starts _ _ _ (by decide +kernel), sees (by decide +kernel), writes (spadKey 0 0x102) (by decide +kernel)⟩,
    ⟨headed_starts _ _ _ (by decide +kernel), sees (by decide +kernel), by decide +kernel⟩,
    ⟨headed_starts _ _ _ (by decide +kernel), sees (by decide +kernel), writes (spadKey 0 0xFFFE) (by decide +kernel), by decide +kernel⟩,
    ⟨headed_starts _ _ _ (by decide +kernel), writes (spadKey 0 3) (by decide +kernel)⟩⟩

def rowOp' : EngOp := .copym 3 60 (pad 0x100) 256 5
def castOp : EngOp := .mcast 0 (pad 0x100) 4 [0]
def padBytes : List Byte := [1, 2, 3, 4] ++ List.replicate 252 0

theorem witness_EnginesRunAndComplete_rows :
    (Starts (headed .copy rowOp' [(0x100, [1, 2, 3, 4])]) 0 .copy (cmdOf rowOp') [] rowOp' ∧ (256 : Dword).toNat = 256 * ((256 : Dword).toNat / 256) ∧
      60 + (256 : Dword).toNat / 256 ≤ 64 ∧ padBytes.length = (256 : Dword).toNat ∧ Sees (headed .copy rowOp' [(0x100, [1, 2, 3, 4])]) 0 (pad 0x100) padBytes) ∧
    (Starts (headed .copy castOp [(0x100, [1, 2, 3, 4])]) 0 .copy (cmdOf castOp) [] castOp ∧
      Sees (headed .copy castOp [(0x100, [1, 2, 3, 4])]) 0 (pad 0x100) [1, 2, 3, 4] ∧ (0 : Dword).toNat + (4 : Dword).toNat ≤ 2 ^ 19) ∧
    (((running .sluice [] [cmdOf (.tfetch 0x00FFF80000000100 0 1)]).core 0).fq.length < 4 ∧
      (running .sluice [] [cmdOf (.tfetch 0x00FFF80000000100 0 1)]).unanswered 0 (.engine .sluice) = false ∧
      Calm (running .sluice [] [cmdOf (.tfetch 0x00FFF80000000100 0 1)]) 0 ∧
      Sees (running .sluice [] [cmdOf (.tfetch 0x00FFF80000000100 0 1)]) 0 (pad 0x100) ([0x80, 1, 2, 3, 4, 5, 6, 7] ++ List.replicate 248 0)) :=
  ⟨⟨headed_starts _ _ _ (by decide +kernel), by decide, by decide, by decide +kernel, sees (by decide +kernel)⟩,
    ⟨headed_starts _ _ _ (by decide +kernel), sees (by decide +kernel), by decide⟩,
    by decide +kernel, by decide +kernel, calm rfl rfl, sees (by decide +kernel)⟩

/-- A gather of unit 1 and of an absent index; a scatter to unit 1; one motion-compensated tile of bytes that does not move. -/
def gathOp : EngOp := .gath (pad 0x800) (pad 0x100) (pad 0x40) 0 4 2
def scatOp : EngOp := .scat (pad 0x800) (pad 0x100) (pad 0x40) 0 4 1
def gathmcOp : EngOp := .gathmc (pad 0x800) (pad 0x100) (pad 0x40) 8 1 1 1
def idx : List (Nat × List Byte) := [(0x40, [1, 0, 0, 0, 0, 0, 0, 0x80]), (0x104, [9, 8, 7, 6])]

theorem witness_EnginesRunAndComplete_gathers :
    (Starts (headed .gather gathOp idx) 0 .gather (cmdOf gathOp) [] gathOp ∧ Sees (headed .gather gathOp idx) 0 (pad 0x40) [1, 0, 0, 0, 0, 0, 0, 0x80] ∧
      (∀ i, i < 2 → (([[9, 8, 7, 6], absentUnit 0 4] : List (List Byte)).getD i []).length = 4 ∧
        if numAt [1, 0, 0, 0, 0, 0, 0, 0x80] (4 * i) 4 = 2 ^ 31 then ([[9, 8, 7, 6], absentUnit 0 4] : List (List Byte)).getD i [] = absentUnit 0 4
        else Sees (headed .gather gathOp idx) 0 (plus (pad 0x100) (int32 (numAt [1, 0, 0, 0, 0, 0, 0, 0x80] (4 * i) 4) * 4))
          (([[9, 8, 7, 6], absentUnit 0 4] : List (List Byte)).getD i []) ∧
          Apart (headed .gather gathOp idx) 0 (pad 0x800) (4 * 2) [(plus (pad 0x100) (int32 (numAt [1, 0, 0, 0, 0, 0, 0, 0x80] (4 * i) 4) * 4), 4)]) ∧
      Writes (headed .gather gathOp idx) 0 (pad 0x800) (4 * 2) ∧ Apart (headed .gather gathOp idx) 0 (pad 0x800) (4 * 2) [(pad 0x40, 4 * 2)]) ∧
    (Starts (headed .gather scatOp idx) 0 .gather (cmdOf scatOp) [] scatOp ∧ Sees (headed .gather scatOp idx) 0 (pad 0x40) [1, 0, 0, 0] ∧
      Sees (headed .gather scatOp idx) 0 (pad 0x100) [0, 0, 0, 0] ∧
      (∀ i, i < 1 → numAt [1, 0, 0, 0] (4 * i) 4 ≠ 2 ^ 31 →
        Writes (headed .gather scatOp idx) 0 (plus (pad 0x800) (int32 (numAt [1, 0, 0, 0] (4 * i) 4) * 4)) 4 ∧
          Apart (headed .gather scatOp idx) 0 (plus (pad 0x800) (int32 (numAt [1, 0, 0, 0] (4 * i) 4) * 4)) 4 [(pad 0x40, 4 * 1), (pad 0x100, 4 * 1)] ∧
          ∀ j, j < 1 → numAt [1, 0, 0, 0] (4 * j) 4 ≠ 2 ^ 31 → j ≠ i → False)) ∧
    (Starts (headed .gather gathmcOp []) 0 .gather (cmdOf gathmcOp) [] gathmcOp ∧ Sees (headed .gather gathmcOp []) 0 (pad 0x40) (List.replicate 8 0) ∧
      Sees (headed .gather gathmcOp []) 0 (pad 0x100) (List.replicate 64 0) ∧ Writes (headed .gather gathmcOp []) 0 (pad 0x800) 64 ∧
      Apart (headed .gather gathmcOp []) 0 (pad 0x800) 64 [(pad 0x40, 8), (pad 0x100, 64)] ∧ numAt (List.replicate 8 0) 0 4 < 1 * 1) := by
  refine ⟨⟨headed_starts _ _ _ (by decide +kernel), sees (by decide +kernel), ?_, writes (spadKey 0 0x800) (by decide +kernel),
      apart (spadKey 0 0x800) (by decide +kernel)⟩,
    ⟨headed_starts _ _ _ (by decide +kernel), sees (by decide +kernel), sees (by decide +kernel), ?_⟩,
    ⟨headed_starts _ _ _ (by decide +kernel), sees (by decide +kernel), sees (by decide +kernel), writes (spadKey 0 0x800) (by decide +kernel), apart (spadKey 0 0x800) (by decide +kernel), by decide +kernel⟩⟩
  · intro i hi
    obtain rfl | rfl : i = 0 ∨ i = 1 := by omega
    · exact ⟨by decide +kernel, by rw [if_neg (by decide +kernel)]; exact ⟨sees (by decide +kernel), apart (spadKey 0 0x800) (by decide +kernel)⟩⟩
    · exact ⟨by decide +kernel, by rw [if_pos (by decide +kernel)]; rfl⟩
  · intro i hi _
    obtain rfl : i = 0 := by omega
    exact ⟨writes (spadKey 0 0x804) (by decide +kernel), apart (spadKey 0 0x804) (by decide +kernel), fun j hj _ h => h (by omega)⟩

/-- Scatter-accumulates of one entry of INT32 to target 1: a sum, an exchange, and a compare and swap. -/
def saccOp (opc : BitVec 3) : EngOp := .sacc (pad 0x800) (pad 0x40) (pad 0x100) opc 7 1 1
def sSacc (opc : BitVec 3) : State := headed .confluence (saccOp opc) [(0x40, [1, 0, 0, 0]), (0x100, [5, 0, 0, 0, 6, 0, 0, 0]), (0x804, [7, 0, 0, 0])]

theorem witness_EnginesRunAndComplete_updates :
    (∀ opc ∈ ([0, 5, 6] : List (BitVec 3)), (sSacc opc).engineReady 0 .confluence (cmdOf (saccOp opc)) = true ∧
      sees? (sSacc opc) 0 (pad 0x40) [1, 0, 0, 0] = true ∧ sees? (sSacc opc) 0 (pad 0x100) [5, 0, 0, 0, 6, 0, 0, 0] = true ∧
      (∀ i, i < typeWidth 7 → (sSacc opc).keyOf 0 (addrPlus (plus (pad 0x800) (int32 1 * typeWidth 7)) i) true = .ok (spadKey 0 0x804 + i) ∧
        (sSacc opc).badAt (spadKey 0 0x804 + i) 1 = false) ∧ paKind (spadKey 0 0x804) ≠ .view ∧ spadKey 0 0x804 % typeWidth 7 = 0 ∧
      (∀ k ∈ (sSacc opc).cores, k.2.ebuf = []) ∧ apart? (sSacc opc) 0 (plus (pad 0x800) (int32 1 * typeWidth 7)) 4 [(pad 0x40, 4), (pad 0x100, 8)] (spadKey 0 0x804) = true ∧
      writes? (sSacc opc) 0 (pad 0x100) 4 (spadKey 0 0x100) = true ∧ (∀ i, i < 4 → regionOf (addrPlus (pad 0x100) i) ≠ .global) ∧ regionOf (plus (pad 0x800) (int32 1 * typeWidth 7)).toNat = .near 0x804) ∧
    Starts (sSacc 0) 0 .confluence (cmdOf (saccOp 0)) [] (saccOp 0) := by
  refine ⟨by decide +kernel, headed_starts _ _ _ (by decide +kernel)⟩

def tlistOp : EngOp := .tlist (pad 0x800) (pad 0x100) (pad 0x900)
def stateRec : List Byte := List.replicate 16 0 ++ [1, 1] ++ List.replicate 14 0
def tokzOp : EngOp := .tokz (pad 0x800) (pad 0x100) 2 0 1
def chainOp : EngOp := .chain (pad 0x800) (pad 0x100) 0 0 0 0 false false 1 [{ op := 7, x := 1, y := 0, kx := 0, ky := 0 }]
def sTokz : State := headed .copy tokzOp [(0x100, [65, 66])]

theorem witness_EnginesRunAndComplete_lists :
    (Starts (headed .copy tlistOp [(0x100, stateRec)]) 0 .copy (cmdOf tlistOp) [] tlistOp ∧ Sees (headed .copy tlistOp [(0x100, stateRec)]) 0 (pad 0x100) stateRec ∧
      stateRec.length = 32 ∧ (numAt stateRec 0 8 / 2 ^ 32 % 2 == 1) = false ∧ numAt stateRec 16 8 % 2 ^ 8 * (numAt stateRec 16 8 / 2 ^ 8 % 2 ^ 8) = 1 ∧
      Writes (headed .copy tlistOp [(0x100, stateRec)]) 0 (pad 0x800) 4 ∧ Writes (headed .copy tlistOp [(0x100, stateRec)]) 0 (pad 0x900) 8 ∧
      Apart (headed .copy tlistOp [(0x100, stateRec)]) 0 (pad 0x800) 4 [(pad 0x100, 32)] ∧
      Apart (headed .copy tlistOp [(0x100, stateRec)]) 0 (pad 0x900) 8 [(pad 0x100, 32)] ∧
      ∀ i j, i < 4 → j < 8 → (headed .copy tlistOp [(0x100, stateRec)]).keyOf 0 (addrPlus (pad 0x800) i) true ≠
        (headed .copy tlistOp [(0x100, stateRec)]).keyOf 0 (addrPlus (pad 0x900) j) true) ∧
    (Starts sTokz 0 .copy (cmdOf tokzOp) [] tokzOp ∧ (sTokz.dictOf 0 0).nnodes = 1 ∧ (sTokz.dictOf 0 0).nedges = 0 ∧ Sees sTokz 0 (pad 0x100) [65, 66] ∧
      (∀ k, k < 1 → Sees sTokz 0 (BitVec.ofNat 64 ((sTokz.dictOf 0 0).node + 8 * k)) (bytesOfNat 8 0)) ∧ Writes sTokz 0 (pad 0x800) (8 + 4 * 1) ∧
      Apart sTokz 0 (pad 0x800) (8 + 4 * 1) ([(pad 0x100, 2)] ++ (List.range 1).map (fun k => (BitVec.ofNat 64 ((sTokz.dictOf 0 0).node + 8 * k), 8)))) ∧
    (Starts (headed .chain chainOp []) 0 .chain (cmdOf chainOp) [] chainOp ∧ Sees (headed .chain chainOp []) 0 (pad 0x100) (List.replicate 4 0) ∧
      Sees (headed .chain chainOp []) 0 0 [] ∧ Writes (headed .chain chainOp []) 0 (pad 0x800) 4) := by
  refine ⟨⟨headed_starts _ _ _ (by decide +kernel), sees (by decide +kernel), by decide +kernel, by decide +kernel, by decide +kernel, writes (spadKey 0 0x800) (by decide +kernel),
      writes (spadKey 0 0x900) (by decide +kernel), apart (spadKey 0 0x800) (by decide +kernel), apart (spadKey 0 0x900) (by decide +kernel), ?_⟩,
    ⟨headed_starts _ _ _ (by decide +kernel), by decide +kernel, by decide +kernel, sees (by decide +kernel), ?_, writes (spadKey 0 0x800) (by decide +kernel), apart (spadKey 0 0x800) (by decide +kernel)⟩,
    headed_starts _ _ _ (by decide +kernel), sees (by decide +kernel), sees (by decide +kernel), writes (spadKey 0 0x800) (by decide +kernel)⟩
  · have h : ∀ i < 4, ∀ j < 8, (headed .copy tlistOp [(0x100, stateRec)]).keyOf 0 (addrPlus (pad 0x800) i) true ≠
        (headed .copy tlistOp [(0x100, stateRec)]).keyOf 0 (addrPlus (pad 0x900) j) true := by decide +kernel
    exact fun i j hi hj => h i hi j hj
  · intro k hk
    obtain rfl : k = 0 := by omega
    exact sees (by decide +kernel)

/-- A frame record of one pixel at 8 bits a sample, its planes at 0x200 and 0x300 of the scratchpad. -/
def onePixel : List Byte :=
  List.replicate 16 0 ++ bytesOfNat 8 (8 * 2 ^ 32 + 2 ^ 16 + 1) ++ bytesOfNat 8 0x00FFF80000000200 ++ bytesOfNat 8 0x00FFF80000000300 ++ List.replicate 24 0
def ccvtOp : EngOp := .ccvt (pad 0x4000) (pad 0x100) 0 1 1 0 0
def sCcvt : State := headed .copy ccvtOp [(0x100, onePixel), (0x200, [9]), (0x300, [8, 7])]

theorem witness_EnginesRunAndComplete_pixels :
    Starts sCcvt 0 .copy (cmdOf ccvtOp) [] ccvtOp ∧ Sees sCcvt 0 (pad 0x100) onePixel ∧ onePixel.length = 64 ∧
    ((frameRec onePixel).width, (frameRec onePixel).height, (frameRec onePixel).bitDepth, (frameRec onePixel).yaddr, (frameRec onePixel).uvaddr) =
      (1, 1, 8, 0x00FFF80000000200, 0x00FFF80000000300) ∧
    Writes sCcvt 0 (pad 0x4000) (256 * typeWidth (ofmtType 0) * (1 * 1)) ∧
    Apart sCcvt 0 (pad 0x4000) (256 * typeWidth (ofmtType 0) * (1 * 1)) [(pad 0x100, 64), (pad 0x200, 1), (pad 0x300, 1), (pad 0x301, 1)] ∧
    Sees sCcvt 0 (pad 0x200) (bytesOfNat 1 9) ∧ Sees sCcvt 0 (pad 0x300) (bytesOfNat 1 8) ∧ Sees sCcvt 0 (pad 0x301) (bytesOfNat 1 7) := by
  refine ⟨headed_starts _ _ _ (by decide +kernel), sees (by decide +kernel), by decide +kernel, by decide +kernel, writes (spadKey 0 0x4000) (by decide +kernel), ?_,
    sees (by decide +kernel), sees (by decide +kernel), sees (by decide +kernel)⟩
  exact apart (spadKey 0 0x4000) (by decide +kernel)

/-- Writes that are to settle; a command whose reply has been lost; a COPYM at the side port, its patch legal and not. -/
def awaiting : State :=
  { running .copy [] [copyCmd] with
    outstanding := [{ tag := 1, core := 0, what := .engine .copy, sent := true, sentAt := 0, retries := 0, lost := true, marked := false, spoils := [], result := none }] }

theorem witness_EnginesRunAndComplete_ends :
    ((([(5, 1), (7, 2)] : Tbl Byte).map (·.1)).Nodup ∧ ((running .copy [] [copyCmd]).core 1).ebuf = []) ∧ awaiting.unanswered 0 (.engine .copy) = true ∧
    ((running .copy [] [copyCmd]).unanswered 0 (.engine .copy) = false ∧ (running .copy [] [copyCmd]).replyMarked 0 (.engine .copy) = false ∧
      ((running .copy [] [copyCmd]).core 0).signalOpt? copyCmd.sig = some ((running .copy [] [copyCmd]).core 0)) ∧
    (((running .copy [] [cmdOf (.copym 3 60 0 256 5)]).core 0).tileops ≠ 255 ∧
      ((running .copy [] [cmdOf (.copym 3 60 0 256 5)]).modCore 0 (fun k => { k with tileops := 255 })).core 0 = { k0 with
        tileops := 255
        copyE := { queue := [], active := [cmdOf (.copym 3 60 0 256 5)], lastStart := 0 } }) ∧
    patchFaults (bits (mxw 1 9 5) 11 5) (bits (mxw 1 9 5) 16 16) = [] ∧ patchFaults (bits (mxw 1 0 5) 11 5) (bits (mxw 1 0 5) 16 16) ≠ [] := by
  refine ⟨⟨by decide, rfl⟩, by decide +kernel, ⟨by decide +kernel, by decide +kernel, rfl⟩, by decide +kernel, by decide +kernel, by decide +kernel⟩

/-- A frame of one block at 8 bits, frame f of its stream, its vectors at 0x500 of the scratchpad and its residuals at 0x600. -/
def blockFrame (f : Nat) : List Byte :=
  bytesOfNat 8 f ++ List.replicate 8 0 ++ bytesOfNat 8 (8 * 2 ^ 32 + 2 ^ 16 + 1) ++ List.replicate 16 0 ++ bytesOfNat 8 0x00FFF80000000500 ++
    bytesOfNat 8 0x00FFF80000000600 ++ List.replicate 8 0

/-- A lattice of one tile of one block, with refresh period p; the state of one tile after frame 0, valid or not. -/
def lattice (p : Nat) : List Byte := bytesOfNat 8 257 ++ bytesOfNat 8 (p * 2 ^ 48) ++ List.replicate 16 0
def tileState (v : Nat) : List Byte := bytesOfNat 8 (v * 2 ^ 32) ++ List.replicate 24 0 ++ bytesOfNat 8 (3 * 2 ^ 56)
def cmaskOp : EngOp := .cmask (pad 0x4000) (pad 0x100) (pad 0x200) false
def sCmask (p v : Nat) : State := headed .copy cmaskOp [(0x100, blockFrame 1), (0x200, lattice p), (0x4000, tileState v)]

/-- A malformed descriptor, whose period is 0; and a frame after the one that the state was made for, and one whose state is not valid. -/
theorem witness_EnginesRunAndComplete_masks :
    (∀ p v, (p, v) ∈ [(0, 1), (9, 1), (9, 0)] → (sCmask p v).engineReady 0 .copy (cmdOf cmaskOp) = true ∧ sees? (sCmask p v) 0 (pad 0x100) (blockFrame 1) = true ∧
      sees? (sCmask p v) 0 (pad 0x200) (lattice p) = true ∧ sees? (sCmask p v) 0 (pad 0x4000) (tileState v) = true ∧
      apart? (sCmask p v) 0 (pad 0x4000) 40 [(pad 0x100, 64), (pad 0x200, 32), (pad 0x500, 4), (pad 0x600, 2)] (spadKey 0 0x4000) = true ∧
      sees? (sCmask p v) 0 (pad 0x500) (bytesOfNat 4 0) = true ∧ sees? (sCmask p v) 0 (pad 0x600) (bytesOfNat 2 0) = true) ∧
    ((blockFrame 1).length = 64 ∧ (lattice 9).length = 32 ∧ (tileState 1).length = 32 + 8 * (1 * 1) ∧ numAt (lattice 0) 8 8 / 2 ^ 48 % 256 = 0 ∧
      numAt (lattice 9) 8 8 / 2 ^ 48 % 256 = 9 ∧ numAt (lattice 9) 0 8 = 257 ∧ numAt (lattice 9) 16 16 = 0 ∧ numAt (blockFrame 1) 40 8 = 0x00FFF80000000500 ∧
      numAt (blockFrame 1) 48 8 = 0x00FFF80000000600 ∧ numAt (blockFrame 1) 16 8 % 2 ^ 32 = 2 ^ 16 + 1 ∧ numAt (tileState 0) 0 8 / 2 ^ 32 % 2 = 0 ∧
      numAt (tileState 1) 0 8 / 2 ^ 32 % 2 = 1 ∧ numAt (blockFrame 1) 0 8 = numAt (tileState 1) 0 8 % 2 ^ 32 + 1 ∧ numAt (tileState 1) 32 8 = 3 * 2 ^ 56) ∧
    Starts (sCmask 9 1) 0 .copy (cmdOf cmaskOp) [] cmaskOp := by
  refine ⟨?_, by decide +kernel, headed_starts _ _ _ (by decide +kernel)⟩
  intro p v h
  simp only [List.mem_cons, Prod.mk.injEq, List.not_mem_nil, or_false] at h
  obtain ⟨rfl, rfl⟩ | ⟨rfl, rfl⟩ | ⟨rfl, rfl⟩ := h <;> decide +kernel

/-- The tile did not move and scores 0: it is reused, its count one less (R323); without a valid state it is computed, its reason 1 and its period anew. -/
theorem test_cmask :
    (let m := fun (v : Nat) => ((after (.engineCommandStart 0 .copy) (sCmask 9 v)).settle 0).mem
    [natOfBytes (mread (m 1) (spadKey 0 0x4020) 8), natOfBytes (mread (m 0) (spadKey 0 0x4020) 8), natOfBytes (mread (m 1) (spadKey 0 0x4000) 8)]) =
      [2 * 2 ^ 56 + 2 ^ 31, 9 * 2 ^ 56 + 2 ^ 28, 2 ^ 32 + 1] := by decide +kernel
/-! V. -/

/-- Row i of tile register r as a descriptor (R76). -/
def tileRow (r i : Nat) : BitVec 13 := BitVec.ofNat 13 (i * 64 + r * 4)

def rowOf (w : Nat) (l : List Nat) : Row := putLanes 0 w 0 l

/-- t1[0], t2[0] and o3 as given, and t3[0] the row b. -/
def kV (a b m : Row) : CoreSt := { k0 with tile := [(64, a), (128, b), (192, b)], o := k0.o.set 3 m }

def sv (a b m : Row) : State := st .v (kV a b m)

/-- DST t3[0], SRC1 t1[0], SRC2 t2[0]. -/
def f2v (ty min : Nat) : FV := ⟨tileRow 3 0, BitVec.ofNat 2 min, BitVec.ofNat 4 ty, 0, 0, tileRow 2 0, tileRow 1 0⟩

/-- DST t3[0], SRC1 t1[0], SRC2 a field. -/
def f1v (ty min field : Nat) : FV := { f2v ty min with src2 := BitVec.ofNat 13 field }

def vOut (i : Instr) (w n : Nat) (a b : List Nat) (m : Row := 0) : List Nat :=
  lanesOf ((core i (sv (rowOf w a) (rowOf w b) m)).row (.tile 3 0)) w 0 n

/-- 1.5 and −1 as values; 1.5 rounds to its FP16 code. -/
theorem witness_ArithmeticIsExactBeforeOneRounding :
    (ratOf (.fin false 3 (-1) false)).isSome = true ∧ (ratOf (.fin true 1 0 false)).isSome = true ∧ Dyad.mul ≠ .sub ∧
      Val.fin false 3 (-1) false ≠ .absent ∧ (2 : BitVec 4).toNat ≤ 7 ∧ 0xFC00 < 2 ^ (8 * typeWidth 2) ∧ decodeVal (kindOfType 2) 0xFC00 ≠ .absent ∧
      decodeVal (kindOfType 2) 0xFC00 ≠ .nan ∧ decodeVal .pp8 0x21 ≠ .absent ∧ decodeVal .pp8 0x12 = decodeVal .pp8 0x21 := by
  refine ⟨rfl, rfl, ?_⟩
  decide +kernel

/-- 1.0625 in E4M3, between 1 and 1.125: under RNE and RDN it is 1, under RUP 1.125. -/
theorem witness_RoundingIsToTheNearest :
    (ratOf (.fin false 17 (-4) false)).isSome = true ∧ roundVal (.fin false 17 (-4) false) (kindOfType 3) 0 false = (0x38, []) ∧
      roundVal (.fin false 17 (-4) false) (kindOfType 3) 4 false = (0x39, []) ∧ roundVal (.fin false 17 (-4) false) (kindOfType 3) 2 false = (0x39, []) ∧
      roundVal (.fin false 17 (-4) false) (kindOfType 3) 3 false = (0x38, []) ∧ roundVal (.fin false 17 (-4) false) (kindOfType 3) 1 false = (0x38, []) ∧
      evOVF ∉ ([] : List Nat) ∧ evSAT ∉ ([] : List Nat) ∧ (ratOf (decodeVal (kindOfType 3) 0x38)).isSome = true ∧
      (ratOf (decodeVal (kindOfType 3) 0x39)).isSome = true := by
  refine ⟨rfl, ?_⟩
  iterate 8 refine ⟨by decide +kernel, ?_⟩
  decide +kernel

/-- 11 units of 2^-6 in PP8 (R145, R153), midway between 10 and 12, of two terms each: RNE takes 10, 0x35, and RNA 12, 0x34; 2^-49, half a unit of
FX128; and 1 + 2^-113, midway between two values of EF128. -/
theorem witness_RoundingIsToTheNearest_formats :
    roundVal (.fin false 11 (-6) false) (kindOfType 8) 0 false = (0x35, []) ∧ roundVal (.fin false 11 (-6) false) (kindOfType 8) 4 false = (0x34, []) ∧
      decodeVal (kindOfType 8) 0x35 = .fin false 10 (-6) false ∧ decodeVal (kindOfType 8) 0x34 = .fin false 12 (-6) false ∧
      (ratOf (.fin false 11 (-6) false)).isSome = true ∧
    roundVal (.fin false 1 (-49) false) (kindOfType 13) 0 false = (0, [evUNF]) ∧ roundVal (.fin false 1 (-49) false) (kindOfType 13) 2 false = (1, [evUNF]) ∧
      (ratOf (decodeVal (kindOfType 13) 1)).isSome = true ∧
    roundVal (.fin false (2 ^ 113 + 1) (-113) false) (kindOfType 14) 0 false = (0x3FFF * 2 ^ 112, []) ∧
      roundVal (.fin false (2 ^ 113 + 1) (-113) false) (kindOfType 14) 4 false = (0x3FFF * 2 ^ 112 + 1, []) ∧
      (ratOf (decodeVal (kindOfType 14) (0x3FFF * 2 ^ 112))).isSome = true := by decide +kernel

theorem witness_RoundingIsToTheNearest_formats_reals :
    IsReal (.fin false 11 (-6) false) (11 / 64) ∧ IsReal (.fin false 1 (-49) false) (1 / 2 ^ 49) := by
  constructor <;> norm_num [IsReal]

/-- The same value as a real number; and one that is no rational: of the digits of √2 some are left out. -/
theorem witness_RoundingIsToTheNearest_reals :
    IsReal (.fin false 17 (-4) false) (17 / 16) ∧ IsReal (.fin false (2 ^ 24) (-24) true) (1 + 1 / 2 ^ 25) := by
  constructor <;> norm_num [IsReal]

/-- 1, 0 and −1 in FP32. -/
theorem witness_RoundingIsToTheNearest_functions :
    ratOf (decodeVal (kindOfType 0) 0x3F800000) = some 1 ∧ ratOf (decodeVal (kindOfType 0) 0) = some 0 ∧
      ratOf (decodeVal (kindOfType 0) 0xBF800000) = some (-1) := by
  have h : decodeVal (kindOfType 0) 0x3F800000 = .fin false (2 ^ 23) (-23) false ∧ decodeVal (kindOfType 0) 0 = .fin false 0 (-149) false ∧
      decodeVal (kindOfType 0) 0xBF800000 = .fin true (2 ^ 23) (-23) false := by decide +kernel
  rw [h.1, h.2.1, h.2.2]
  norm_num [ratOf]

theorem vready (a b m : Row) (l : List (BitVec 13)) (mask : Option (BitVec 3)) (h : l ∈ [[tileRow 1 0, tileRow 2 0], [tileRow 1 0], []]) :
    VReady (sv a b m) l mask (some (tileRow 3 0)) := by
  simp only [List.mem_cons, List.not_mem_nil, or_false] at h
  rcases h with rfl | rfl | rfl <;> exact ⟨rfl, List.all_eq_true.mp rfl, rfl, fun d h => by injection h with h; subst h; rfl, nofun, fun i _ => rfl, rfl⟩

/-- The premises of VNumericInstructions, VMasksAndRawLanes, VMovesConstantsAndRearrangements and VReductionsScansAndMerges: rows of t1 and t2
into t3, of each class of TYPE, with and without a second source, a mask or a field; and into vx. -/
theorem witness_v_instructions :
    Ready (sv 0 0 0) (sv 0 0 0) ∧ VReady (sv 0 0 0) [tileRow 1 0, tileRow 2 0] (some 3) (some (tileRow 3 0)) ∧
    VReady (sv 0 0 0) [tileRow 1 0] none (some (tileRow 3 0)) ∧ VReady (sv 0 0 0) [] none (some (tileRow 3 0)) ∧
    VReady (sv 0 0 0) [tileRow 1 0] none none ∧
    (Legal2 (f2v 8 0) (sv 0 0 0) ∧ Legal2 (f2v 12 3) (sv 0 0 0) ∧ Legal1 (f1v 0 0 0) (sv 0 0 0) ∧ Legal1 (f1v 9 0 0) (sv 0 0 0)) ∧
    (¬(dLv (tileRow 3 0) = 2 ∧ 8 ≤ dReg (tileRow 3 0)) ∧ opndFaults 16 0 true (tileRow 3 0) = [] ∧ opndFaults 16 9 false (tileRow 1 0) = []) ∧
    (laneField (f1v 0 2 63) < laneCount 0 ∧ laneField (f1v 9 0 255) < laneCount 9 ∧ bits (f1v 9 0 255).src2 8 5 = 0) ∧
    (toVx (f1v 0 0 1) = true ∧ bits (f1v 0 0 1).src2 1 12 = 0 ∧ cvtParts 0 5 = 4 ∧ cvtType (f1v 0 3 5) = 5 ∧ bits (f1v 0 3 5).src2 4 9 = 0) := by
  refine ⟨ready _ _, vready _ _ _ _ _ (by simp), vready _ _ _ _ _ (by simp), vready _ _ _ _ _ (by simp), ?_, ?_, ?_, ?_, ?_⟩
  · exact ⟨rfl, by decide +kernel, rfl, nofun, fun _ => by decide +kernel, fun i _ => rfl, rfl⟩
  · unfold Legal1 Legal2
    decide +kernel
  all_goals decide +kernel

/-- An accumulator row as source and destination. -/
theorem witness_VNumericInstructions :
    Legal2 ⟨1, 0, 13, 0, 0, 1, 1⟩ (sv 0 0 0) ∧ isA 13 = true ∧ opndFaults 16 13 true 1 = [] := by
  unfold Legal2
  decide +kernel

theorem witness_ComparesWithAbsentOrNaN :
    decodeVal (kindOfType 0) 0x80000000 = .absent ∧ decodeVal (kindOfType 0) 0x7FC00000 = .nan ∧ decodeVal (kindOfType 0) 0 ≠ .absent ∧
      decodeVal (kindOfType 0) 0x7FC00000 ≠ .absent := by decide +kernel

theorem witness_VMasksAndRawLanes : (f2v 9 0).min = 0 ∧ isB 9 = true ∧ (9 : BitVec 4) ≠ 12 ∧ ({ f2v 0 0 with s3v := 1 } : FV).s3v = 1 ∧ 0xFF < 2 ^ (8 * typeWidth 9) ∧
      decodeVal (kindOfType 0) 0x3F800000 ∉ [.absent, .nan] ∧ decodeVal (kindOfType 0) 0xFF800000 ∉ [.absent, .nan] := by
  decide +kernel

/-- VSETI of 5 into row counter 1; of an immediate at the bottom of B8 lanes and of B16 lanes, and at the top. -/
def setRc : FV := ⟨0, 2, 0, 0, 0, 0, BitVec.ofNat 13 (5 * 4 + 1)⟩

theorem witness_VMovesConstantsAndRearrangements :
    bits (setiWord setRc) 16 14 = 0 ∧ bits (bits (setiWord setRc) 0 16) 8 8 = 0 ∧ typeWidth 10 ≠ 1 ∧ typeWidth 9 = 1 ∧
      opndFaults 16 10 true (tileRow 3 0) = [] ∧ (7 ∈ [0, 5, 6, 7, 9, 10, 11, 12]) ∧
    ((5 : BitVec 4) ∈ [5, 6, 7] ∧ 0x80 < 2 ^ (8 * typeWidth 5) ∧ 0x80 = 2 ^ (8 * typeWidth 5 - 1) ∧ 0xFE ≠ 2 ^ (8 * typeWidth 5 - 1)) ∧
    (decodeVal (kindOfType 0) 0x7F800001 = .nan ∧ (ratOf (decodeVal (kindOfType 0) 0x3F800000)).isSome = true) := by decide +kernel

/-- VIOTA's lanes (R156, R190): of INT8 from −2 on and past 127, from an absent base; of FP32 from 0.5 on; of B8 past 255. -/
theorem test_iota : iotaLane 5 0xFE 1 = (0xFF, []) ∧ iotaLane 5 0xFE 130 = (0x7F, [evOVF]) ∧ iotaLane 5 0x80 7 = (7, []) ∧
    iotaLane 0 0x3F000000 1 = (0x3FC00000, []) ∧ iotaLane 0 0x80000000 2 = (0x40000000, []) ∧ iotaLane 9 250 10 = (4, []) := by decide +kernel

theorem witness_VReductionsScansAndMerges :
    [0x3F800000].map (fun c => (ratOf (decodeVal (kindOfType 0) c)).isSome) = [true] ∧ ([((-1 : Int), 7), (4, 0)].Pairwise (fun p q => p.1 < q.1) ∧ [((4 : Int), 9)].Pairwise (fun p q => p.1 < q.1) ∧
        [((-1 : Int), 7), (4, 0)].length + [((4 : Int), 9)].length ≤ 64 ∧
        ∀ p ∈ [((-1 : Int), 7), (4, 0)], -(2 : Int) ^ 31 < p.1 ∧ p.1 < (2 : Int) ^ 31 ∧ p.2 < 2 ^ (8 * typeWidth 7)) ∧
      (Val.nan ∉ [Val.absent, .inf false, .inf true] ∧ Val.inf false ∈ [Val.absent, .inf false, .inf true] ∧ Val.inf true ∈ [Val.absent, .inf false, .inf true]) ∧
      (Val.inf true ∈ [Val.inf true, .absent] ∧ Val.inf (!true) ∉ [Val.inf true, .absent]) ∧
      ([Val.absent, .fin false 3 0 false].filter (· ≠ .absent)).map ratOf = [some 3] ∧
      (∃ v ∈ (Val.absent :: [Val.fin false 3 0 false]), v ≠ .absent) := by
  refine ⟨rfl, by decide +kernel, by decide, by decide, ?_, by decide⟩
  simp [ratOf]

theorem witness_VResultsLandInTheirRow :
    4 * (60 + [1, 2, 3, 4].length) ≤ 256 ∧ 4 * (63 + 1) ≤ 256 ∧ [1, 2][3 - 2]? = some 2 ∧ k0.lo[3]?.isSome = true ∧ (63 < 2 ∨ 2 + [1, 2].length ≤ 63) := by
  decide

/-! V on values. FP32: 1 is 3F800000, 2 is 40000000, absent 80000000, NaN 7FC00000 (R139, R141). -/

theorem test_vadd : vOut (.vadd (f2v 0 0)) 4 4 [0x3F800000, 0x80000000, 0x3F800000, 0x80000000] [0x40000000, 0x40000000, 0xBF800000, 0x80000000] =
    [0x40400000, 0x40000000, 0, 0x80000000] := by decide +kernel

theorem test_vsub : vOut (.vsub (f2v 7 0)) 4 3 [7, 0x80000000, 0] [9, 3, 0x80000000] = [0xFFFFFFFE, 0xFFFFFFFD, 0] := by decide +kernel

theorem test_vmul : vOut (.vmul (f2v 5 0)) 1 3 [7, 100, 0x80] [0xFE, 100, 5] = [0xF2, 0x7F, 5] := by decide +kernel

theorem test_vfma : vOut (.vfma (f2v 0 0)) 4 2 [0x40000000, 0x40000000] [0x40000000, 0x80000000] = [0x40C00000, 0x80000000] := by decide +kernel

theorem test_vmin_vmax : vOut (.vmin (f2v 1 0)) 2 2 [0x3F80, 0x8000] [0x4000, 0x4000] = [0x3F80, 0x4000] ∧
    vOut (.vmax (f2v 1 0)) 2 1 [0x3F80] [0x4000] = [0x4000] := by decide +kernel

theorem test_vabs_vneg : vOut (.vabs (f1v 0 0 0)) 4 2 [0xBF800000, 0x80000000] [] = [0x3F800000, 0x80000000] ∧
    vOut (.vneg (f1v 7 0 0)) 4 2 [5, 0x80000000] [] = [0xFFFFFFFB, 0x80000000] := by decide +kernel

/-- 1.00390625 in FP32 lies midway between two BF16 codes and goes to the even one. -/
theorem test_vcvt : lanesOf ((core (.vcvt (f1v 0 0 1)) (sv (rowOf 4 [0x3F808000, 0x80000000]) 0 0)).row (.tile 3 0)) 2 0 2 = [0x3F80, 0x8000] := by
  decide +kernel

theorem test_vcmp : vOut (.vcmp (f2v 0 2)) 4 4 [0x3F800000, 0x80000000, 0x7FC00000, 0] [0x40000000, 0x40000000, 0, 0] = [0xFFFFFFFF, 0, 0, 0] := by decide +kernel

theorem test_vsel : vOut (.vsel { f2v 0 0 with s3v := 1, s3i := 3 }) 4 2 [1, 2] [3, 4] (rowOf 4 [0, 9]) = [3, 2] := by decide +kernel

theorem test_vbits : vOut (.vand (f2v 9 0)) 1 1 [0xF0] [0x3C] = [0x30] ∧ vOut (.vor (f2v 9 0)) 1 1 [0xF0] [0x3C] = [0xFC] ∧
    vOut (.vxor (f2v 9 0)) 1 1 [0xF0] [0x3C] = [0xCC] ∧ vOut (.vnot (f1v 9 0 0)) 1 1 [0xF0] [] = [0x0F] := by decide +kernel

theorem test_vshifts : vOut (.vshl (f2v 9 0)) 1 2 [0x81, 0x81] [1, 8] = [2, 0] ∧ vOut (.vshr (f2v 10 0)) 2 2 [0x8000, 1] [15, 16] = [1, 0] ∧
    vOut (.vsra (f2v 9 0)) 1 2 [0x81, 0x81] [1, 200] = [0xC0, 0xFF] := by decide +kernel

theorem test_v64 : vOut (.vadd64 (f2v 12 0)) 8 1 [2 ^ 64 - 1] [2] = [1] ∧ vOut (.vsub64 (f2v 12 0)) 8 1 [1] [2] = [2 ^ 64 - 1] ∧
    vOut (.vcmp64 (f2v 12 2)) 8 2 [2 ^ 63, 1] [0, 2 ^ 63] = [2 ^ 64 - 1, 0] ∧ vOut (.vcmp64 (f2v 12 3)) 8 2 [2 ^ 63, 1] [0, 2 ^ 63] = [0, 2 ^ 64 - 1] ∧
    vOut (.vshl64 (f2v 12 0)) 8 2 [3, 1] [63, 64] = [2 ^ 63, 0] ∧ vOut (.vshr64 (f2v 12 1)) 8 1 [2 ^ 63] [63] = [2 ^ 64 - 1] := by decide +kernel

theorem test_vmov_vbcast : vOut (.vmov (f1v 9 0 0)) 1 2 [5, 6] [] = [5, 6] ∧ vOut (.vbcast (f1v 9 0 1)) 1 3 [5, 6] [] = [6, 6, 6] := by decide +kernel

theorem test_vred : vOut (.vred (f1v 7 0 0)) 4 2 [5, 0x80000000, 0xFFFFFFFE] [9, 9] = [3, 9] ∧
    (core (.vred { f1v 7 2 1 with dst := 0 }) (sv (rowOf 4 [5, 9]) 0 0)).vx = [9] := by decide +kernel

theorem test_vcnt : vOut (.vcnt (f1v 7 0 0)) 4 1 [5, 0x80000000] [] = [63] ∧ vOut (.vcnt (f1v 7 1 0)) 4 1 [5, 0x80000000] [] = [31] ∧
    vOut (.vcnt (f1v 7 2 0)) 4 1 [5, 0x80000000] [] = [32] := by decide +kernel

theorem test_vscan : vOut (.vscan (f2v 7 0)) 4 3 [1, 2, 3] [10] = [11, 13, 16] ∧ vOut (.vscan (f2v 7 1)) 4 3 [1, 2, 3] [10] = [10, 11, 13] ∧
    vOut (.vscan (f2v 7 2)) 4 3 [1, 20, 3] [10] = [10, 20, 20] ∧ vOut (.vscan (f2v 7 3)) 4 3 [1, 20, 3] [10] = [1, 1, 1] := by decide +kernel

theorem test_vmerge : (let k := core (.vmerge (f2v 7 0)) (sv (rowOf 4 ([1, 5] ++ List.replicate 30 0x80000000 ++ [10, 50]))
      (rowOf 4 ([3] ++ List.replicate 31 0x80000000 ++ [30])) 0)
    (lanesOf (k.row (.tile 3 0)) 4 0 4, lanesOf (k.row (.tile 3 0)) 4 32 3)) = ([1, 3, 5, 0x80000000], [10, 30, 50]) := by decide +kernel

theorem test_vcompact_vexpand : vOut (.vcompact (f1v 5 0 0)) 1 3 [0x80, 7, 0x80, 9] [] = [7, 9, 0] ∧
    vOut (.vexpand (f2v 5 0)) 1 4 [7, 9] [0x80, 1, 0x80, 1] = [0x80, 7, 0x80, 9] := by decide +kernel

theorem test_vperm_vrot : vOut (.vperm (f2v 9 0)) 1 3 [7, 8, 9] [2, 0, 255] = [9, 7, 0] ∧ vOut (.vrot (f1v 9 0 255)) 1 2 [7, 8] [] = [0, 7] ∧
    vOut (.vrot (f1v 9 1 1)) 1 2 [7, 8] [] = [8, 0] ∧ vOut (.vrot (f1v 5 2 1)) 1 2 [7, 8] [] = [0x80, 7] := by decide +kernel

theorem test_vabsence : vOut (.visab (f1v 5 0 0)) 1 2 [0x80, 7] [] = [0xFF, 0] ∧ vOut (.vmkab (f2v 5 0)) 1 2 [6, 7] [0, 1] = [6, 0x80] := by decide +kernel

theorem test_vseti_viota : vOut (.vseti { f2v 10 0 with src1 := 0x1FFF, src2 := 7 }) 2 1 [] [] = [0xFFFF] ∧
    vOut (.vseti { f2v 11 1 with src1 := 0x1F80, src2 := 1 }) 4 1 [] [] = [0x3F800000] ∧ (core (.vseti setRc) (sv 0 0 0)).rc.get 1 = 5 ∧
    vOut (.viota (f1v 9 0 0)) 1 3 [254] [] = [254, 255, 0] ∧ vOut (.viota (f1v 7 0 0)) 4 3 [5] [] = [5, 6, 7] := by decide +kernel

theorem test_vspecial : vOut (.vsqrt (f1v 0 0 0)) 4 1 [0x40800000] [] = [0x40000000] ∧ vOut (.vrcp (f1v 0 0 0)) 4 1 [0x40000000] [] = [0x3F000000] ∧
    traps (after (.vrcp (f1v 7 0 0)) (sv 0 0 0)) = [(0, 9)] := by decide +kernel

theorem test_v_stalls : after (.vmov { f1v 9 0 0 with src1 := 0b0000000110010 }) (sv 0 0 0) = sv 0 0 0 ∧
    traps (after (.vmov { f1v 9 0 0 with dst := 0b0000000110010 }) (sv 0 0 0)) = [(0, 14)] ∧
    traps (after (.vadd { f2v 9 0 with s3i := 1 }) (sv 0 0 0)) = [(0, 8)] := by decide +kernel
/-! The matrix unit. -/

/-- INT8, A from t1 of 2 rows, B from t2 of K 2, 2 columns, into c0, WMSTEP 1; and the same as MXPOSE of t1 into t2. -/
def tMma : BitVec 128 := BitVec.ofNat 128 (5 * 2 ^ 2 + 1 * 2 ^ 6 + 2 * 2 ^ 12 + 2 * 2 ^ 31 + 2 * 2 ^ 40 + 2 * 2 ^ 47 + 1 * 2 ^ 75)

def tXpose : BitVec 128 := BitVec.ofNat 128 (1 + 5 * 2 ^ 2 + 1 * 2 ^ 6 + 2 * 2 ^ 12 + 2 * 2 ^ 40 + 2 * 2 ^ 47)

def matCmd (op : MatOp) : MatCmd :=
  { id := 7, op := op, areg := 1, breg := 2, sig := none, started := false, scaleA := 0, scaleB := 0, gotA := [], gotB := [], rowsOut := 0, q := 0,
    executed := false, events := [] }

def kM (mq : List MatCmd) : CoreSt :=
  { k0 with
    tpl := [(5, tMma), (6, tXpose)], mq := mq, tileops := BitVec.ofNat 8 mq.length, o := k0.o.set 1 (rowOf 16 [1, 9])
    tile := [(64, rowOf 1 [1, 2]), (65, rowOf 1 [3, 4]), (128, rowOf 1 [5, 6]), (129, rowOf 1 [7, 8])] }

/-- Core 0 with a matrix queue; it holds its pair's licence or not. -/
def sM (mq : List MatCmd) (lic : Bool) : State := { st .m (kM mq) with pairs := if lic then [(0, { Pair.reset with holder := some 0 })] else [] }

/-- MDRAIN.raw of c0[0] into t3[0], 2 rows, INT32, CLR. -/
def drain2 : Drain := ⟨0, 1, 0, 0, 0, 3, 0, 1, 0, 0, 7⟩

/-- A core that is owed the licence. -/
def sOwed : State := (sM [] false).modCore 0 (fun k => { k with owed := true })

theorem witness_MatrixWordsOfM :
    Ready (sM [] true) (sM [] true) ∧ (sM [] true).cx.strand = .m ∧ (sM [] true).cxCore.rowBusy (.operand 1) = false ∧
    ((sM [] true).modCx (fun k => k.setBusy (.operand 1) 0)).cxCore.rowBusy (.operand 1) = true ∧
    mxFaults (sM [] true) 0 0 (mxForm (sM [] true).cxCore 5 0 0) = [] ∧ (sM [] true).holdsLic 0 = true ∧ (sM [] false).holdsLic 0 = false ∧
    (sM [] false).cxCore.owed = false ∧ (sM [] true).cxCore.mqRoom = true ∧ drainFaults (sM [] true).cxCore.demand drain2 = [] ∧
    (sM [] true).cxCore.lic = true ∧ (sM [] false).mayTakeLic 0 = true ∧
    mxFaults (sM [] true) 9 65 (mxForm (sM [] true).cxCore 5 9 65) ≠ [] ∧ ((kM []).lic = true ∧ { kM [] with lic := false }.lic = false) ∧
    ({ sM [] false with pairs := [(0, { Pair.reset with holder := some 128 })] } : State).mayTakeLic 0 = false ∧
    (sM [] true).licDue 0 = true ∧ (sM [] false).licDue 0 = false ∧ ((sOwed).holdsLic 0 = false ∧ sOwed.cxCore.owed = true ∧
      mxFaults sOwed 0 0 (mxForm sOwed.cxCore 5 0 0) = []) ∧ (sM [] true).cxCore.mq.any (fun m => m.op.isMx) = false := by
  refine ⟨⟨⟨rfl, rfl⟩, rfl⟩, rfl, ?_⟩
  decide +kernel

theorem witness_MatrixWordsOfM_owed : Ready sOwed sOwed ∧ sOwed.cx.strand = .m := ⟨⟨⟨rfl, rfl⟩, rfl⟩, rfl⟩

/-- M about to issue a word that waits for token 6, which has no unit, without the licence; and one that is to signal token 4, at 255. -/
def mHeld (m : Mods) : State := { (sM [] false).modCore 0 (fun k => { k with tk := k.tk.set 4 255 }) with cx := { (sM [] false).cx with mods := m } }

theorem witness_MatrixWordsOfM_held :
    ((match takeWait (mHeld { Mods.none with wait := some 6 }) with | .error .stall => true | _ => false) = true ∧
      rsFault (mHeld { Mods.none with wait := some 6 }) = [] ∧ (mHeld { Mods.none with wait := some 6 }).cxCore.lic = true ∧
      (mHeld { Mods.none with wait := some 6 }).cx.misplaced = false) ∧
    ((match takeWait (mHeld { Mods.none with sig := some 4 }) with | .ok u => u.sigStuck | .error _ => false) = true ∧
      rsFault (mHeld { Mods.none with sig := some 4 }) = [] ∧ (mHeld { Mods.none with sig := some 4 }).cxCore.lic = true) ∧
    ((sM [] true).modCore 0 (fun k => { k with mq := List.replicate 16 (matCmd (.zero 0)) })).cxCore.mqRoom = false ∧
    ({ sM [] false with cx := { (sM [] false).cx with late := true } } : State).mayTakeLic 0 = false := by decide +kernel

/-- An MX of a core without the licence is a fatal error though its token is not there (R208). -/
theorem test_mx_held : (after (.mx 5 0 0) (mHeld { Mods.none with wait := some 6 })).tasks.map (·.fatal) = [some (3, 0)] ∧
    after .mlicAcq (mHeld { Mods.none with wait := some 6 }) = mHeld { Mods.none with wait := some 6 } := by decide +kernel

theorem test_tplld : tget 0 (core (.tplld 9 1 1) (sM [] true)).tpl 9 = 9 ∧ traps (after (.mlicAcq) { sM [] true with cores := [(0, { kM [] with lic := false })] }) = [(0, 14)] := by
  decide +kernel

theorem test_mx : (core (.mx 5 0 0) (sM [] true)).mq.map (·.op) = [.tpl tMma false] ∧ (core (.mx 5 0 0) (sM [] true)).tileops = 1 ∧
    (after (.mx 5 0 0) (sM [] false)).tasks.map (·.fatal) = [some (3, 0)] ∧ traps (after (.mx 5 9 65) (sM [] true)) = [(0, 11)] ∧
    tM (mxForm (kM []) 5 9 64) = 64 := by decide +kernel

theorem test_mlic : ((after .mlicAcq (sM [] false)).pair 0).holder = some 0 ∧ ((after .mlicRel (sM [] true)).pair 0).holder = none ∧
    (core .mlicTry (sM [] false)).m.pAt 4 = true ∧ traps (after .mlicRel (sM [] false)) = [(0, 14)] := by decide +kernel

theorem test_mzero_mdrain : (core (.mzero 1) (sM [] true)).mq.map (·.op) = [.zero 1] ∧ (core (.mdrain drain2) (sM [] true)).busy = [⟨.tile 3 0, 0⟩, ⟨.tile 3 1, 0⟩] ∧
    traps (after (.mdrain { drain2 with fn := 3 }) (sM [] true)) = [(0, 9)] ∧ traps (after (.mdrain { drain2 with part := 1 }) (sM [] true)) = [(0, 11)] := by decide +kernel

/-- 3 · −2 + 1 · 1 of INT8; the NaN and an infinity of FP16; FP32 accumulates in EF128, whose code 0 is 0. -/
theorem witness_ElementsAccumulateTheirProducts :
    mmaUsesEf 5 = false ∧ [2, 3, 4, 5, 8].contains (5 : BitVec 4).toNat = true ∧
      (([(3, 0xFE), (1, 1)] : List (Nat × Nat)).all (fun p => (ratOf (decodeVal (kindOfType 5) p.1)).isSome && (ratOf (decodeVal (kindOfType 5) p.2)).isSome)) = true ∧
      (decodeVal (kindOfType 2) 0x7E00 = .nan ∧ decodeVal (kindOfType 2) 0xFC00 = .inf true ∧ [2, 3, 4, 5, 8].contains (2 : BitVec 4).toNat = true) ∧
      (mmaUsesEf 0 = true ∧ (ratOf (decodeVal (kindOfType 14) 0)).isSome = true ∧ (ratOf (decodeVal (kindOfType 0) 0x3F800000)).isSome = true ∧
        decodeVal (kindOfType 0) 0x80000000 = .absent ∧ decodeVal (kindOfType 0) 0x7FC00000 = .nan) ∧ tFmt tMma = 5 := by
  refine ⟨rfl, rfl, rfl, by decide +kernel, ⟨rfl, rfl, rfl, by decide +kernel⟩, by decide +kernel⟩

/-- No prefix of those products comes near the range of FX128. -/
theorem witness_ElementsAccumulateTheirProducts_range (q : Nat → ℚ) (h : q = fun c => (ratOf (decodeVal (kindOfType 5) c)).getD 0) :
    ∀ l : List (Nat × Nat), l <+: [(3, 0xFE), (1, 1)] → |(l.map (fun p => q p.1 * q p.2 * (2 : ℚ) ^ (0 : Int))).sum| ≤ ((2 : ℚ) ^ 127 - 1) / 2 ^ 48 := by
  have h3 : decodeVal (kindOfType 5) 3 = .fin false 3 0 false ∧ decodeVal (kindOfType 5) 0xFE = .fin true 2 0 false ∧
      decodeVal (kindOfType 5) 1 = .fin false 1 0 false := by decide +kernel
  have q3 : q 3 = 3 ∧ q 0xFE = -2 ∧ q 1 = 1 := by
    subst h
    simp only [h3.1, h3.2.1, h3.2.2]
    norm_num [ratOf]
  intro l hl
  have hl := (List.mem_inits _ _).mpr hl
  simp only [List.inits, List.map_cons, List.map_nil, List.mem_cons, List.not_mem_nil, or_false] at hl
  rcases hl with rfl | rfl | rfl <;> norm_num [q3.1, q3.2.1, q3.2.2, abs_le]

theorem test_fx_sum : mmaFx 5 false false 0 (some 0) [(3, 0xFE), (1, 1)] = (2 ^ 128 - 5 * 2 ^ 48, 2, [], false) := by decide +kernel

theorem witness_TheArrayExecutes :
    ((sM [matCmd (.tpl tMma false)] true).core 0).mq = [matCmd (.tpl tMma false)] ∧ (matCmd (.tpl tMma false)).executed = false ∧
    (tOpk tMma = 0 ∧ ((sM [matCmd (.tpl tMma false)] true).startTpl 0 (matCmd (.tpl tMma false)) tMma).isSome = true ∧
      (State.takeRows 0 0 1 1 0 2 2 [] (sM [matCmd (.tpl tMma false)] true)).1.length = tM tMma ∧
      (State.takeRows 0 0 2 2 0 2 2 [] (sM [matCmd (.tpl tMma false)] true)).1.length = tRowsB tMma ∧
      (State.takeRows 0 0 1 1 0 2 2 [] (sM [matCmd (.tpl tMma false)] true)).2.2 = none ∧ tM tMma ≤ 64 ∧ tN tMma ≤ 64 ∧ tScaleA tMma < 8 ∧ tScaleB tMma < 8) ∧
    (tOpk tXpose = 1 ∧ tM tXpose * typeWidth (tFmt tXpose) ≤ 256 ∧ tN tXpose ≤ 64) ∧
    (matCmd (.zero 1)).op = .zero 1 ∧ ((sM [matCmd (.zero 1)] true).arrayGap 0 = true ∧
      ({ sM [matCmd (.zero 1)] true with cores := [(0, { kM [matCmd (.zero 1)] with mStart := 1, pace := (kM []).pace.set 1 9 })] } : State).arrayGap 0 = false ∧
      ({ matCmd (.tpl tMma false) with started := true, q := 1 }).q ≠ 0 ∧
      ((sM [matCmd (.tpl tMma false)] true).startCmd 0 (matCmd (.tpl tMma false)) tMma).isSome = true ∧
      ((sM [matCmd (.tpl tXpose false)] true).startCmd 0 (matCmd (.tpl tXpose false)) tXpose).isSome = true) ∧ ((matCmd (.drain drain2 3 0 false)).op = .drain drain2 3 0 false ∧ drain2.dkind = 0 ∧ (matCmd (.drain drain2 3 0 false)).rowsOut = 0) := by
  refine ⟨rfl, rfl, ?_, ?_, rfl, ?_, rfl, rfl, rfl⟩ <;> decide +kernel

/-- The same of format 8, with the scales of A in o1 and of B in o0 (R212). -/
def tScaled : BitVec 128 := BitVec.ofNat 128 (tMma.toNat + 3 * 2 ^ 2 + 9 * 2 ^ 57 + 8 * 2 ^ 61)

theorem witness_TheArrayExecutes_scales : 8 ≤ tScaleA tScaled ∧ 8 ≤ tScaleB tScaled ∧ tFmt tScaled = 8 ∧
    ((sM [matCmd (.tpl tScaled false)] true).startCmd 0 (matCmd (.tpl tScaled false)) tScaled).map (fun r => (r.2.scaleA, r.2.scaleB)) =
      some (rowOf 16 [1, 9], 0) := by decide +kernel

/-- A drain of two rows into a queue, lo3, and into weir rows w3 and w0. -/
def drainTo (k : BitVec 2) : Drain := { drain2 with dkind := k }

/-- It at the head of a core's array: lo3 bound or not, with some rows; the core's upper twin in its gang. -/
def draining (k : BitVec 2) (peer : Option (Nat × Nat)) (rows : List Row) : State :=
  { sM [] true with
    cores := [(0, { kM [matCmd (.drain (drainTo k) 3 0 false)] with weir := true, lo := k0.lo.set 3 { rows := rows, peer := peer, flight := [], used := 0 } }), (128, { k0 with weir := true })]
    tasks := [{ t0 with cores := [0, 128] }] }

theorem witness_TheArrayExecutes_drains :
    (((draining 1 (some (0, 0)) []).core 0).loAt 3).peer.isSome = true ∧ (((draining 1 (some (0, 0)) []).core 0).loAt 3).rows.length + (drainTo 1).nrm1.toNat < 8 ∧
    8 ≤ (((draining 1 (some (0, 0)) (List.replicate 8 0)).core 0).loAt 3).rows.length ∧ (((draining 1 none []).core 0).loAt 3).peer = none ∧
    ((drainTo 1).dkind = 1 ∧ (drainTo 1).dreg.toNat < 4 ∧ (drainTo 2).dkind = 2 ∧ (drainTo 2).nrm1.toNat < 4 ∧ (draining 2 none []).arrayGap 0 = true) ∧
    ((draining 2 none []).weirOk 0 = true ∧ (∀ i, i < 4 → ((draining 2 none []).pair (pairOf 0)).twFull.getD i true = false) ∧
      ({ draining 2 none [] with tasks := [t0] } : State).weirOk 0 = false) ∧
    (let k : CoreSt := { k0 with li := k0.li.set 2 [7], liBad := k0.liBad.set 2 [true] }
     k.li.getD 2 [] = [7] ∧ k.liMarked 2 = true) := by decide +kernel

theorem test_drain_queue : (((after (.mdrainExecute 0) (draining 1 (some (0, 0)) [])).core 0).loAt 3).rows.length = 2 ∧
    (((after (.mdrainExecute 0) (draining 1 none [])).core 0).mIll = some .otherUse) ∧
    (after (.mdrainExecute 0) (draining 2 none [])).pairs.map (fun p => p.2.twFull.toList) = [[true, false, false, true]] := by decide +kernel

/-- [1 2; 3 4] times [5 6; 7 8] is [19 22; 43 50], with two contributors each. -/
theorem test_mma : (let k := (after (.mmaExecute 0) (sM [matCmd (.tpl tMma false)] true)).core 0
    ([0, 1].map (fun i => [0, 1, 2].map (fun j => ((k.accRow 0 i).val j / 2 ^ 48, (k.accRow 0 i).cnt j))), k.mq.map (·.q))) =
    ([[(19, 2), (22, 2), (0, 0)], [(43, 2), (50, 2), (0, 0)]], [1]) := by decide +kernel

theorem test_mxpose : (let k := (after (.mxposeExecute 0) (sM [matCmd (.tpl tXpose false)] true)).core 0
    ([0, 1].map (fun i => lanesOf (k.row (.tile 2 i)) 1 0 3), k.mq.map (·.executed))) = ([[1, 3, 0], [2, 4, 0]], [true]) := by decide +kernel

/-- c0[0] holds 5 in FX128 in element 0, of 2 contributors. -/
def drained (fn : BitVec 2) : CoreSt :=
  (after (.mdrainExecute 0) { sM [] true with cores := [(0, { kM [matCmd (.drain { drain2 with fn := fn } 3 0 false)] with
    acc := [(0, AccRow.ofLists [5 * 2 ^ 48] [2])] })] }).core 0

theorem test_mdrain : lanesOf ((drained 0).row (.tile 3 0)) 4 0 2 = [5, 0x80000000] ∧ lanesOf ((drained 1).row (.tile 3 0)) 4 0 1 = [2] ∧
    lanesOf ((drained 2).row (.tile 3 0)) 4 0 2 = [2, 0] ∧ (drained 0).accRow 0 0 = AccRow.reset := by decide +kernel

theorem test_mzero : (let k := (after (.mzeroExecute 0) { sM [] true with cores := [(0, { kM [matCmd (.zero 0)] with
      acc := [(0, AccRow.ofLists [5] [2]), (64, AccRow.ofLists [6] [3])] })] }).core 0
    (k.accRow 0 0, (k.accRow 1 0).val 0, k.mq.map (·.executed))) = (AccRow.reset, 6, [true]) := by decide +kernel

def doneCmd : MatCmd := { matCmd (.zero 0) with executed := true, sig := some 3 }

/-- A template at the side port, its licence judged or not, on a core that holds its licence or not. -/
def sSide (judged lic owed : Bool) : State :=
  { sM [] lic with cores := [(0, { kM [] with side := some { tpl := tMma, judged := judged }, owed := owed })] }

/-- M of both cores of a pair at MLIC.ACQ, the requests of both standing. -/
def sFree : State :=
  let k := { kM [] with text := [f3 0x02c 0 0 0 0] }
  { sM [] false with cores := [(0, k), (128, k)], tasks := [{ t0 with cores := [0, 128] }], pairs := [(0, { Pair.reset with pending := [128, 0] })] }

/-- The licence given to core 128. -/
def sGranted : State := (sFree.setPair 0 { sFree.pair 0 with holder := some 128, pending := [0] }).modCore 128 (fun k => { k with owed := false })

/-- The same with the gang halted by a fatal error, core 0 being owed the licence for the command at its side port, or not. -/
def sHalted (owed : Bool) : State :=
  { (sFree.modCore 0 (fun k => { k with owed := owed, side := some { tpl := tMma, judged := false } })) with
    tasks := [{ t0 with cores := [0, 128], fatal := some (3, 0) }] }

theorem witness_ArrayCompletionSidePortAndGrant_grant :
    (match strandTurn sGranted 128 .m with | .run .mlicAcq u => acqWaits u | _ => false) = true ∧ pairOf 128 = 0 ∧
    ((sHalted true).taskOf 0).any Task.halted = true ∧ (sHalted true).licAsked 0 = [0] ∧ (sHalted false).licAsked 0 = [] := by decide +kernel

theorem witness_ArrayCompletionSidePortAndGrant :
    ((sM [doneCmd] true).core 0).mq = [doneCmd] ∧ doneCmd.executed = true ∧ doneCmd.events = [] ∧ (((sM [doneCmd] true).core 0).signalAll? doneCmd.tokens).isSome = true ∧
    (({ kM [doneCmd] with tk := k0.tk.set 3 255 } : CoreSt).signalAll? doneCmd.tokens = none) ∧
    ((sSide false true false).holdsLic 0 = true ∧ ((sSide false true false).core 0).mq.length < 16 ∧ (sSide false true false).mGoesFirst 0 = false ∧
      16 ≤ ({ kM (List.replicate 16 doneCmd) with side := some { tpl := tMma, judged := true } } : CoreSt).mq.length ∧
      (sSide false false true).holdsLic 0 = false ∧ ((sSide false false false).core 0).owed = false ∧ ((sSide false false true).core 0).owed = true ∧
      (sSide false false true).mayTakeLic 0 = true ∧
      ({ sSide false false true with pairs := [(0, { Pair.reset with holder := some 128 })] } : State).mayTakeLic 0 = false) ∧ (sFree.pair 0).holder = none ∧ sFree.licAsked 0 = 128 :: [0] ∧ (sM [] false).licAsked 0 = [] := by
  decide +kernel

/-- M at an MZERO while a command stands at the side port: M's enters first (R209, R222). -/
def mzeroFirst : State := (sSide true true false).modCore 0 (fun k => { k with text := [f2 0x06c 1 0 0] })

theorem witness_ArrayCompletionSidePortAndGrant_first :
    mzeroFirst.mGoesFirst 0 = true ∧ (mzeroFirst.core 0).mqAt = 0 ∧
      (match strandTurn mzeroFirst 0 .m with
       | .run i u => decide (i = .mzero 1) && (match exec i u with | .next t => decide (((mzeroFirst.core 0).mq.length < (t.core 0).mq.length)) | _ => false)
       | .idle _ => false) = true ∧
      (match strandTurn ((sSide true true false).modCore 0 (fun k => { k with m := { live with holding := true } })) 0 .m with | .idle _ => true | .run .. => false) = true := by decide +kernel

theorem test_side_port_waits : after (.sidePortCommand 0) mzeroFirst = mzeroFirst := by decide +kernel

theorem test_array_complete : (let k := (after (.arrayCommandComplete 0) (sM [doneCmd] true)).core 0
    (k.mq, k.tileops, k.tk.get 3)) = ([], 0, 1) := by decide +kernel

theorem test_side_port : ((after (.sidePortCommand 0) (sSide false true false)).core 0).mq.map (·.op) = [.tpl tMma false] ∧
    (after (.sidePortCommand 0) (sSide false false false)).tasks.map (·.fatal) = [some (3, 0)] ∧ ((after (.licenceGrant 0) sFree).pair 0).holder = some 128 ∧
    ((after (.licenceGrant 0) sFree).core 128).m.pc = 4 := by decide +kernel

/-! Control. -/

/-- At 64 a LOOP of 3 words and 2 stages, in the kernel; STAGE 1 at 76; J at 92; BAR at 96. -/
def loopText : List Word :=
  List.replicate 16 0 ++ [0x4000303D + 0x04000000, 2, 0, 0x0000105C, 0, 0, 0, f3 (4 * 32 + 28) 0 0 0 0, 0x0001B11D, 0x80]

def sc (t : Strand) (pc : BitVec 32) (y : StrandSt) : State :=
  let k := { k0 with text := loopText }
  { st t (k.setStrand t { y with pc := pc }) with cx := { issuer t with pc := pc, head := pc, next := pc + 4 } }

def inKernel : StrandSt := { live with phase := .kernel }

/-- The level of that LOOP after iteration i, its trip count known, or popped as true. -/
def level (i : Nat) (tr : Trip) : Level :=
  { first := 72, last := 84, stages := 2, i := i, trip := tr, pushes := false, rot := true, gBase := 0, aBase := 0, tBase := 0, retDepth := 0, outermost := true,
    dead := false }

/-- X at the end of a body of TSRC 2, told of `n` iterations; with the queues of the other strands of some length. -/
def telling (i n len : Nat) : State :=
  let s := sc .x 84 { inKernel with loops := [{ level i (.known n) with pushes := true }], atEnd := true }
  s.modCore 0 (fun k => { k with m := { k.m with outq := List.replicate len true } })

def deadLoop : State := sc .v 84 { inKernel with loops := [{ level 0 (.known 0) with dead := true }], atEnd := true }

theorem witness_LoopsRunTheirIterations_outcomes :
    ((telling 0 2 0).cx.strand = .x ∧ (telling 0 2 0).cxStrand.atEnd = true ∧ (telling 0 2 0).cxStrand.loops = [{ level 0 (.known 2) with pushes := true }] ∧
      (telling 0 2 0).cxCore.hold = .none ∧ (telling 0 2 0).cxCore.badLanding 72 = false ∧ (∀ y, y ≠ .x → ((telling 0 2 0).cxCore.strand y).outq.length < 32) ∧
      0 + 2 < 2 + (level 0 (.known 2)).stages ∧ 2 + (level 2 (.known 2)).stages ≤ 2 + 2 ∧ 32 ≤ ((telling 0 2 32).cxCore.strand .m).outq.length) ∧
    (deadLoop.cxStrand.loops = [{ level 0 (.known 0) with dead := true }] ∧ deadLoop.cxStrand.atEnd = true ∧
      deadLoop.cxStrand.ret.length = (level 0 (.known 0)).retDepth ∧ (level 0 (.known 0)).holds 76 = true) := by
  refine ⟨⟨rfl, rfl, rfl, rfl, by decide +kernel, ?_, by decide, by decide, by decide +kernel⟩, by decide +kernel⟩
  intro y _
  cases y <;> decide +kernel

theorem test_outcomes : (let k := core .loopIterationEnd (telling 0 2 0)
    (k.a.outq, k.v.outq, k.m.outq, k.x.pc)) = ([true], [true], [true], 72) ∧
    (let k := core .loopIterationEnd (telling 1 2 0)
    (k.a.outq, k.x.loops.map (·.pushes))) = ([false], [false]) ∧ after .loopIterationEnd (telling 0 2 32) = telling 0 2 32 ∧
    (core .loopIterationEnd deadLoop).v.pc = 128 := by decide +kernel

def atEnd (i : Nat) (tr : Trip) (q : List Bool) : State := sc .v 84 { inKernel with loops := [level i tr], atEnd := true, outq := q }

theorem witness_LoopsRunTheirIterations :
    ((sc .x 64 inKernel).cx.mods = Mods.none ∧ loopFaults (sc .x 64 inKernel).cxCore (sc .x 64 inKernel).cxStrand 64 2 3 = [] ∧
      (∃ tr p k, (sc .x 64 inKernel).cxCore.enterTrip .x 5 2 = .ok (tr, p, k)) ∧
      (∃ tr p k, (sc .v 64 { inKernel with outq := [true] }).cxCore.enterTrip .v 5 2 = .ok (tr, p, k)) ∧
      (∃ tr p k, (sc .v 64 inKernel).cxCore.enterTrip .v 7 0 = .ok (tr, p, k)) ∧ (∃ tr p k, (sc .v 64 inKernel).cxCore.enterTrip .v 15 1 = .ok (tr, p, k))) ∧
    ((atEnd 0 (.known 2) []).cxStrand.atEnd = true ∧ (atEnd 0 (.known 2) []).cxStrand.loops = [level 0 (.known 2)] ∧ (level 0 (.known 2)).dead = false ∧
      0 + 2 < 2 + (level 0 (.known 2)).stages ∧ 2 + (level 2 (.known 2)).stages ≤ 2 + 2 ∧ (atEnd 0 (.known 2) []).cxCore.badLanding 72 = false ∧
      (atEnd 0 (.known 2) []).cxCore.hold = .none) ∧
    ((atEnd 0 (.popped [true]) []).cxStrand.outq = [] ∧ (atEnd 0 (.popped [true]) [true]).cxStrand.outq = true :: []) ∧
    ((sc .v 76 inKernel).cxCore.innermost ((sc .v 76 inKernel).cxCore.textIdx 76) = some (18, 21) ∧
      (sc .v 76 inKernel).cxCore.slot (18 - 2) = some (0x4400303D, .head false) ∧ (1 : BitVec 2).toNat ≤ (bits (0x4400303D : Word) 26 2).toNat ∧
      (bits (0x4400303D : Word) 26 2).toNat < (2 : BitVec 2).toNat ∧ (sc .v 92 inKernel).cxCore.innermost ((sc .v 92 inKernel).cxCore.textIdx 92) = none) := by
  refine ⟨⟨rfl, by decide +kernel, ?_⟩, ?_, ?_, ?_⟩
  · iterate 3 refine ⟨⟨_, _, _, rfl⟩, ?_⟩
    exact ⟨_, _, _, rfl⟩
  iterate 3 decide +kernel

/-- V at the end of a body whose first word is the second one of the LOOP, and X before a J to it. -/
def badEnd : State := sc .v 84 { inKernel with loops := [{ level 0 (.known 2) with first := 68 }], atEnd := true }

theorem witness_LoopsRunTheirIterations_landing : badEnd.cxCore.badLanding 68 = true ∧ badEnd.cxStrand.atEnd = true ∧ badEnd.cxCore.hold = .none ∧
    badEnd.cxStrand.loops = [{ level 0 (.known 2) with first := 68 }] ∧ 0 + 2 < 2 + (level 0 (.known 2)).stages ∧ 8 < badEnd.cxCore.demand := by
  decide +kernel

theorem test_landing : traps (after .loopIterationEnd badEnd) = [(0, 3)] ∧ traps (after (.j 0xFFFA) (sc .x 92 inKernel)) = [(0, 3)] := by decide +kernel

theorem test_loop : (let y := (core (.loop 2 1 0 1 3) (sc .v 64 inKernel)).v
    (y.loops.map (fun l => (l.first, l.last, l.stages)), y.pAt 0, y.pAt 1)) = ([(72, 84, 2)], true, false) ∧
    (core (.loop 5 1 2 1 3) (sc .x 64 inKernel)).v.outq = [false] ∧ traps (after (.loop 2 1 3 1 3) (sc .v 64 inKernel)) = [(0, 9)] ∧
    traps (after (.loop 2 1 0 1 0) (sc .v 64 inKernel)) = [(0, 13)] := by decide +kernel

theorem test_iteration_end : (let y := (core .loopIterationEnd (atEnd 0 (.known 2) [])).v
    (y.pc, y.pAt 0, y.pAt 1, y.loops.map (fun l => [l.i, l.gBase, l.aBase, l.tBase]))) = (72, true, true, [[1, 7, 3, 7]]) ∧
    (let y := (core .loopIterationEnd (atEnd 2 (.known 2) [])).v
     (y.pc, y.phase, y.loops.length)) = (128, .epilogue, 0) ∧ after .loopIterationEnd (atEnd 0 (.popped [true]) []) = atEnd 0 (.popped [true]) [] := by decide +kernel

theorem test_stage : (core (.stage 1) (sc .v 76 inKernel)).v.walked = 1 ∧ traps (after (.stage 2) (sc .v 76 inKernel)) = [(0, 13)] ∧
    traps (after (.stage 0) (sc .v 92 inKernel)) = [(0, 13)] := by decide +kernel

theorem witness_BranchesCallsAndReturns :
    (sc .x 92 inKernel).cx.mods = Mods.none ∧ 0 < (sc .x 92 inKernel).cx.words ∧
    (sc .x 92 inKernel).cxCore.branchOk false ((sc .x 92 inKernel).cxCore.textIdx 92) ((sc .x 92 inKernel).cxCore.textIdx (92 + 4 * (0xFFFF : BitVec 16).signExtend 32)) = true ∧
    (sc .x 92 inKernel).cxCore.badLanding (92 + 4 * (0xFFFF : BitVec 16).signExtend 32) = false ∧
    (sc .x 92 inKernel).cxCore.branchOk false ((sc .x 92 inKernel).cxCore.textIdx 92) ((sc .x 92 inKernel).cxCore.textIdx (92 + 4 * (0xFFFC : BitVec 16).signExtend 32)) = false ∧
    (sc .x 92 inKernel).cxCore.branchOk true ((sc .x 92 inKernel).cxCore.textIdx 92) ((sc .x 92 inKernel).cxCore.textIdx (92 + 4 * (0xFFFF : BitVec 16).signExtend 32)) = true ∧
    ((sc .v 92 inKernel).cxStrand.outq = [] ∧ (sc .v 92 { inKernel with outq := [true] }).cxStrand.outq = true :: []) ∧
    ((sc .x 92 inKernel).cxStrand.ret.length < 8 ∧ 8 ≤ (sc .x 92 { inKernel with ret := List.replicate 8 0 }).cxStrand.ret.length) ∧
    ((sc .x 92 inKernel).cxCore.branchOk false ((sc .x 92 inKernel).cxCore.textIdx 92) ((sc .x 92 inKernel).cxCore.textIdx 68) = true ∧
      92 + 4 * (0xFFFA : BitVec 16).signExtend 32 = 68 ∧ (sc .x 92 inKernel).cxCore.badLanding 68 = true ∧
      (sc .x 92 inKernel).cxCore.slot ((sc .x 92 inKernel).cxCore.textIdx 68) = some (2, .payload) ∧
      (sc .x 92 inKernel).cxCore.slot ((sc .x 92 inKernel).cxCore.textIdx 4096) = none ∧
      (sc .v 92 { inKernel with outq := [false] }).cxStrand.outq = false :: [] ∧
      32 ≤ (((sc .x 92 inKernel).modCore 0 (fun k => { k with m := { k.m with outq := List.replicate 32 true } })).cxCore.strand .m).outq.length) ∧
    ((sc .x 92 { inKernel with ret := [72] }).cxStrand.ret = 72 :: [] ∧ (sc .x 92 inKernel).cxCore.badLanding 72 = false) ∧
    ((sc .x 92 live).cxStrand.phase = .prologue ∧ (sc .x 92 { live with phase := .epilogue }).cxStrand.phase = .epilogue ∧ (sc .x 92 inKernel).cxStrand.phase = .kernel) := by
  decide +kernel

theorem test_branches : (core (.j 0xFFFF) (sc .x 92 inKernel)).x.pc = 88 ∧ traps (after (.j 0xFFFC) (sc .x 92 inKernel)) = [(0, 13)] ∧
    (let k := core (.br 0 1 0 0xFFFF) (sc .x 92 inKernel)
     (k.x.pc, k.a.outq, k.v.outq, k.m.outq)) = (88, [true], [true], [true]) ∧
    (core (.br 0 0 0 0xFFFF) (sc .v 92 { inKernel with outq := [false] })).v.pc = 96 ∧
    after (.br 0 0 0 0xFFFF) (sc .v 92 inKernel) = sc .v 92 inKernel := by decide +kernel

theorem test_calls : (let y := (core (.call 0xFFFF) (sc .x 92 inKernel)).x
    (y.pc, y.ret)) = (88, [96]) ∧ (core .ret (sc .x 92 { inKernel with ret := [72] })).x.pc = 72 ∧ traps (after .ret (sc .x 92 inKernel)) = [(0, 13)] ∧
    (core .end_ (sc .x 92 live)).x.pc = 64 ∧ (core .end_ (sc .x 92 { live with phase := .epilogue })).x.phase = .stopped ∧
    traps (after .end_ (sc .x 92 inKernel)) = [(0, 13)] := by decide +kernel

/-- All four strands at the BAR of 4 at address 96, with some arrivals at slot 3. -/
def atBar (n : Nat) : State :=
  let b : StrandSt := { inKernel with pc := 96, atBar := true }
  st .x { k0 with text := loopText, x := b, a := b, v := b, m := b, bars := k0.bars.set 3 { count := n, expect := 4, phase := false, ranks := (List.range n).map (· + 1) } }

def nevState : State :=
  st .v { k0 with nev := { Nev.reset with cfg := 10, elapsed := 10240, due := [(2, 0)], cnt := Vector.replicate 6 3 }, mIll := some .templateValue }

def stoppedCore : CoreSt :=
  let y : StrandSt := { StrandSt.reset with phase := .stopped }
  { k0 with x := y, a := y, v := y, m := y }

def finishing (cores : List Nat) : State :=
  { st .x stoppedCore with cores := cores.map (fun c => (c, if c = 0 then stoppedCore else k0)), tasks := [{ t0 with cores := cores }] }

theorem witness_BarriersAndBoundaries :
    ((sc .x 96 inKernel).cx.mods = Mods.none ∧ coreOfCoord 0x80 = some 0) ∧
    (strands.all (fun t => ((atBar 2).cxCore.strand t).atBar) = true ∧ (atBar 2).cxCore.slot ((atBar 2).cxCore.textIdx (atBar 2).cxCore.x.pc) = some (0x0001B11D, .head false) ∧
      ((atBar 2).cxCore.slot ((atBar 2).cxCore.textIdx (atBar 2).cxCore.x.pc + 1)).elim 0 (·.1) = 0x80 ∧
      decodeHead 0x0001B11D 0x80 = .ok (.bar 3 3 0x80) ∧ (atBar 2).cxCore.allPerformed = true ∧ (atBar 2).draining = none ∧
      (atBar 2).cxCore.rank ∈ ({ count := 1, expect := 4, phase := false, ranks := [0] } : BarSlot).ranks ∧
      (coreOfCoord 0x81 = some 1 ∧ (atBar 2).inGang 0 1 = false ∧ (finishing [0, 1]).inGang 0 1 = true ∧ coreOfCoord 0 = none) ∧
      strands.all (fun t => ((sc .x 96 inKernel).cxCore.strand t).atBar) = false ∧
      (atBar 2).cxCore.rank ∉ ((atBar 2).cxCore.bars.get (3 : BitVec 3).toFin).ranks ∧
      ((atBar 2).cxCore.bars.get (3 : BitVec 3).toFin).count < 3 ∧ ((atBar 3).cxCore.bars.get (3 : BitVec 3).toFin).count = 3 ∧
      ((atBar 2).cxCore.bars.get (3 : BitVec 3).toFin).expect = 3 + 1) ∧
    (nevState.cxCore.mIll = some .templateValue ∧ nevState.cxCore.nev.due.find? (fun d => nevStrand d.2 == nevState.cx.strand) = some (2, 0) ∧ nevState.taskOf 0 = some t0 ∧ (nevState.core 0).resident = true ∧
      (nevState.core 0).nev.window ≠ 0 ∧ (nevState.core 0).nev.window ≤ (nevState.core 0).nev.elapsed) ∧
    ((finishing [0, 1]).cxCore.instanceDone = true ∧ (finishing [0, 1]).taskOf 0 = some { t0 with cores := [0, 1] } ∧ ((finishing [0, 1]).core 1).finished = false ∧
      (finishing [0]).cxCore.instanceDone = true) := by
  decide +kernel

/-- The host of the slot is core 1 of the same gang: core 0 has asked it, and its request is on the way, lost, or answered. -/
def barAsked (l : List Outstanding) : State :=
  let s := atBar 0
  let k := s.core 0
  { s with
    cores := [(0, { k with gangSize := 2, text := k.text.take 25 ++ [0x81] ++ k.text.drop 26 }),
              (1, { k with gangSize := 2, rank := 1, bars := k0.bars.set 3 { count := 1, expect := 4, phase := false, ranks := [1] } })]
    tasks := [{ t0 with cores := [0, 1] }]
    outstanding := l }

def barReq (lost : Bool) (result : Option (List Byte)) : Outstanding :=
  { tag := 3, core := 0, what := .bar, sent := true, sentAt := 0, retries := 0, lost := lost, marked := false, spoils := [], result := result }

theorem witness_BarriersAndBoundaries_request :
    (barAsked []).cxCore.slot ((barAsked []).cxCore.textIdx (barAsked []).cxCore.x.pc) = some (0x0001B11D, .head false) ∧
      ((barAsked []).cxCore.slot ((barAsked []).cxCore.textIdx (barAsked []).cxCore.x.pc + 1)).elim 0 (·.1) = 0x81 ∧
      decodeHead 0x0001B11D 0x81 = .ok (.bar 3 3 0x81) ∧ coreOfCoord 0x81 = some 1 ∧ (barAsked []).inGang 0 1 = true ∧
      (barAsked []).asked 0 .bar = [] ∧ (barAsked [barReq false none]).asked 0 .bar ≠ [] ∧ (barAsked [barReq true none]).unanswered 0 .bar = true ∧
      (barAsked [barReq false none]).unanswered 0 .bar = false ∧ (barAsked [barReq false none]).recorded 0 .bar = none ∧
      ((barAsked [barReq false (some [])]).recorded 0 .bar).isSome = true ∧ (barAsked []).cxCore.rank ∉ ((barAsked []).core 1 |>.bars.get (3 : BitVec 3).toFin).ranks := by
  iterate 11 refine ⟨by decide +kernel, ?_⟩
  decide +kernel

/-- An arrival that is to be sent; one that is counted there, not yet, and lost on the way; one whose release had been lost and comes again. -/
theorem test_bar_request : (after .barArrival (barAsked [])).outstanding.map (fun o => (o.core, o.what)) = [(0, .bar)] ∧
    (((after .barArrival (barAsked [barReq false none])).core 1).bars.get 3).count = 2 ∧
    after .barArrival (barAsked [barReq true none]) = barAsked [barReq true none] ∧
    (let t := after .barArrival (barAsked [barReq false (some [])])
     (t.outstanding, (t.core 0).v.pc)) = ([], 104) := by decide +kernel

theorem test_bar : (core (.bar 3 3 0x80) (sc .x 96 inKernel)).x.atBar = true ∧ ((core .barArrival (atBar 2)).bars.get 3).count = 3 ∧
    (let k := core .barArrival (atBar 3)
     ((k.bars.get 3).phase, (k.bars.get 3).count, k.v.pc, k.v.atBar)) = (true, 0, 104, false) ∧
    traps (after .barArrival { atBar 2 with cores := [(0, { (atBar 2).core 0 with bars := k0.bars.set 3 { count := 1, expect := 5, phase := false, ranks := [1] } })] }) =
      [(0, 13)] := by decide +kernel

theorem test_boundaries : traps (after .illAtNextBoundary nevState) = [(0, 11)] ∧ traps (after .numTrap nevState) = [(1, 0)] ∧
    ((after (.nevWindowEnd 0) nevState).core 0).nev.cnt = Vector.replicate 6 0 ∧ ((after (.nevWindowEnd 0) nevState).core 0).nev.elapsed = 0 ∧
    traps (after .notAnInstruction { sx with cx := { sx.cx with cause := .landing } }) = [(0, 3)] ∧
    (core .skippedWordsWalk { sx with cores := [(0, kText)], cx := issuer .v }).v.walked = 4 := by decide +kernel

theorem test_instance_complete : (core .instanceComplete (finishing [0, 1])).finished = true ∧
    (after .instanceComplete (finishing [0])).tasks.map (fun t => (t.phase, t.kind)) = [(.complete, 0)] := by decide +kernel
/-! The fountainhead. -/

/-- Task 1 of partition 0 in stream 2 has one member at (1,0,0), and its words have been read. -/
def r1 : Rec := { Rec.reset with size := 1, shape := [0], tregs := 4, prio := 3, kernel := 64, epilogue := 128, kconst := 0x40000, ilimit := 2 }

def l1 : Loaded := { text := loopText, relocs := [], consts := [11, 12] }

def t1 : Task := { Task.reset with id := 1, stream := 2, recd := r1, eprio := 3, loaded := some l1, order := 4 }

/-- Quad 0 is granted to partition 0; stream 2 is enabled. -/
def sf (l : List Task) : State :=
  paged { State.reset with tasks := l, ptr := [(3, 2)], cycle := 5000000, bootState := 6, fresh := 7 }

def granted (s : State) : State := s.modPart 0 (fun p => { p with quads := 1, capUs := 2, saveSize := 2 ^ 30 })

def pooled : Task := { t1 with phase := .ready, inPool := true }

/-- 64 bounds every priority of one task of priority 3. -/
theorem witness_EffectivePrioritiesAreTheLeastSolution :
    ∀ (i : Nat) (x : Task), (sf [t1]).tasks[i]? = some x → x.ended = false → (sf [t1]).basePrio x ≤ 64 ∧
      ∀ (j : Nat) (y : Task), (sf [t1]).tasks[j]? = some y → Task.waitsOn y x = true → 64 ≤ 64 := by
  intro i x h _
  refine ⟨?_, fun _ _ _ _ => Nat.le_refl 64⟩
  have hx : x = t1 := List.mem_singleton.mp (List.mem_of_getElem? (l := [t1]) h)
  subst hx
  decide +kernel

/-- A task of priority 9 that names task 1 as its predecessor raises it; a failed one counts for 0. -/
theorem test_eprio :
    (after .eprioUpdate (sf [t1, { t1 with id := 2, order := 5, stream := 3, recd := { r1 with prio := 9, preds := [1] } },
      { t1 with id := 3, order := 6, stream := 4, phase := .failed }])).tasks.map (·.eprio) = [9, 9, 0] := by decide +kernel

theorem witness_TasksBecomeReadyAndAreDispatched :
    ((sf [t1]).taskKey? 1 = some t1 ∧ (sf [t1]).poolCount < 1024 ∧ t1.inPool = false ∧ (sf [t1]).canEnter t1 = true ∧ (sf [t1]).tasks.any Task.canReturn = false ∧
      Task.canReturn { t1 with phase := .saved } = true) ∧
    ((sf [t1]).spillIntact t1 = true ∧ (sf [{ t1 with spill := some (0, [1]) }]).spillIntact { t1 with spill := some (0, [1]) } = false ∧
      ((sf [t1]).tasks.map (fun x => (x.part, x.id))).Nodup) ∧
    ((sf [t1, { t1 with id := 2, order := 5 }]).taskKey? 2 = some { t1 with id := 2, order := 5 } ∧ t1.canReturn = false ∧
      (sf [t1, { t1 with id := 2, order := 5 }]).canEnter { t1 with id := 2, order := 5 } = false) ∧
    ((sf [pooled]).headOf 2 = some pooled ∧ (sf [{ pooled with poolSince := 4999999 }]).headOf 2 = some { pooled with poolSince := 4999999 } ∧
      ((sf [pooled]).stream 2).age ≠ 0 ∧ ¬ Nat.max 4999999 ((sf [pooled]).stream 2).lastDispatch + ((sf [pooled]).stream 2).age * 3200 < (sf [pooled]).cycle ∧
      Nat.max pooled.poolSince ((sf [pooled]).stream 2).lastDispatch + ((sf [pooled]).stream 2).age * 3200 < (sf [pooled]).cycle) ∧
    ((∀ x ∈ (sf []).tasks, (sf []).judgeCapacity x = x) ∧ ∀ i, (sf []).headOf i = none) ∧
    ((∀ x ∈ (granted (sf [pooled])).tasks, (granted (sf [pooled])).judgeCapacity x = x) ∧ pooled.eprio ≤ 15 ∧
      (∀ n, n ≤ 15 → (granted (sf [pooled])).levelStreams n = if n = pooled.eprio then [2] else []) ∧ tget 0 (granted (sf [pooled])).ptr pooled.eprio = 2 ∧
      tget false (granted (sf [pooled])).cred pooled.eprio = false ∧
      0 < ((granted (sf [pooled])).stream 2).weight ∧ pooled.recd.size ≤ 256 ∧
      (granted (sf [pooled])).place pooled [] = some [0] ∧ [0].Nodup ∧ pooled.images = none ∧
      pooled.loaded.or ((granted (sf [pooled])).loadTask pooled).2 = some l1 ∧
      (∀ x ∈ (granted (sf [pooled])).tasks, x.part = pooled.part ∧ x.id = pooled.id → x = pooled)) ∧
    (granted (sf [pooled])).noticeDue { pooled with phase := .noCapacity, capSince := some 1 } = true := by
  refine ⟨?_, ?_, ?_, ?_, ⟨?_, fun i => rfl⟩, ?_, ?_⟩ <;> decide +kernel

/-- Offset n of the scratchpad of core x of layer 1, row 0 (R14, R226). -/
def remoteAddr (x n : Nat) : Dword := BitVec.ofNat 64 (0x00FFF00000000000 + 2 ^ 32 + x * 2 ^ 24 + n)

/-- A saved gang of core 9, with its memory in canonical form; core 0 is the first that is free. -/
def restorable : Task :=
  { pooled with images := some [{ core := 9, st := { k0 with g := k0.g.set 1 77, ar := k0.ar.set 2 (remoteAddr 9 16) },
                                  spadBytes := [(3, 7)], spadMarks := [], tw := none }] }

theorem witness_TasksBecomeReadyAndAreDispatched_restore :
    (granted (sf [restorable])).place restorable [] = some [0] ∧ (granted (sf [restorable])).headOf 2 = some restorable ∧
      restorable.loaded.or ((granted (sf [restorable])).loadTask restorable).2 = some l1 ∧
      restorable.images.any (fun ims => ims.length == 1 && ims.all (fun im => decide ((im.spadBytes.map (·.1)).Nodup) &&
        im.spadBytes.all (fun e => decide (e.1 < 2 ^ 19)))) = true ∧ Mem.wf (granted (sf [restorable])).mem = true ∧
      (∀ x ∈ (granted (sf [restorable])).tasks, (granted (sf [restorable])).judgeCapacity x = x) := by decide +kernel

theorem test_restore : (let t := after .dispatchDecision (granted (sf [restorable]))
    ((t.core 0).g.get 1, (t.core 0).ar.get 2, mget t.mem (spadKey 0 3), t.tasks.map (·.cores))) =
      (77, remoteAddr 0 16, 7, [[0]]) := by decide +kernel

/-- The lower and upper bounds of a core's window: core 9 of the old gang, and core 10, that was none of it. -/
theorem witness_TasksBecomeReadyAndAreDispatched_rewrite :
    (∀ n ∈ [16, 2 ^ 16, 2 ^ 24 + 5], regionOf (remoteAddr 9 n).toNat = .remote (2 ^ 32 + 9 * 2 ^ 24 + n)) ∧
      rewriteAddr 4 [9] [0] (remoteAddr 9 16) = remoteAddr 0 16 ∧
      (∀ n ∈ [2 ^ 16, 2 ^ 24 + 5], rewriteAddr 4 [9] [0] (remoteAddr 9 n) = remoteAddr 9 n) ∧
      regionOf (0x40000 : Dword).toNat = .global := by decide +kernel

/-- Streams 2 and 3 of one priority: the head of stream 2 has no placement, or more members than credit; that of stream 3 is task 2. -/
def second : Task := { pooled with id := 2, stream := 3, order := 5 }

def several (first : Task) : State :=
  let s := granted (sf [first, second])
  { s with streams := s.streams ++ [(3, { Stream.reset with en := true })] }

def wide : Task := { pooled with recd := { r1 with size := 20, shape := List.replicate 20 0 } }

theorem witness_TasksBecomeReadyAndAreDispatched_heads :
    (∀ x ∈ (several wide).tasks, (several wide).judgeCapacity x = x) ∧ (∀ n, n ≤ 15 → 3 < n → (several wide).levelStreams n = []) ∧
      2 ∈ (several wide).levelStreams 3 ∧ 3 ∈ (several wide).levelStreams 3 ∧ nextStream ((several wide).levelStreams 3) 2 = 3 ∧
      tget 0 (several wide).ptr 3 = 2 ∧ tget false (several wide).cred 3 = false ∧ (several wide).headOf 2 = some wide ∧
      (several wide).headOf 3 = some second ∧ second.eprio = 3 ∧ second.loaded = some l1 ∧
      Nat.min (((several wide).stream 2).deficit + 16 * ((several wide).stream 2).weight) 4096 < wide.recd.size ∧
      second.recd.size ≤ Nat.min (((several wide).stream 3).deficit + 16 * ((several wide).stream 3).weight) 4096 ∧
      (several wide).place second [] = some [0] := by
  iterate 13 refine ⟨by decide +kernel, ?_⟩
  decide +kernel

theorem test_heads : (let t := after .dispatchDecision (several wide)
    (t.tasks.map (fun t => (t.phase, t.cores)), tget 0 t.ptr 3, (t.stream 2).deficit, (t.stream 3).deficit)) =
      ([(.ready, []), (.running, [0])], 3, 16, 15) := by decide +kernel

/-- Task 2 of priority 3 waits in stream 2 while tasks 3 and 4, of less, hold its quad; task 4 was dispatched last. -/
def holder (id core since : Nat) (k : CoreSt → CoreSt) : Task × (Nat × CoreSt) :=
  ({ t1 with id := id, eprio := 1, phase := .running, running := true, dispatched := true, cores := [core], startedAt := since, stream := 5 },
    (core, k { k0 with task := id }))

def pressed (t : Task) : State :=
  let s := granted (sf [t, (holder 3 0 10 id).1, (holder 4 1 20 id).1, (holder 5 16 5 id).1, (holder 6 17 5 id).1])
  { s with cores := [(0, (holder 3 0 10 id).2.2), (1, (holder 4 1 20 id).2.2), (16, (holder 5 16 5 id).2.2), (17, (holder 6 17 5 id).2.2)] }

def head : Task := { pooled with id := 2 }

theorem witness_TasksBecomeReadyAndAreDispatched_preemption :
    (∀ x ∈ (pressed head).tasks, (pressed head).judgeCapacity x = x) ∧
      (∀ n, n ≤ 15 → (pressed head).levelStreams n = if n = head.eprio then [2] else []) ∧ tget 0 (pressed head).ptr 3 = 2 ∧
      (pressed head).headOf 2 = some head ∧ (pressed head).place head [] = none ∧
      (∀ v ∈ (pressed head).tasks, v.preemptFor ≠ some head.key) ∧
      ((pressed head).chooseVictims head ((pressed head).candidates head) []).map (·.map (·.id)) = some [4] ∧
      ((pressed head).tasks.map (fun x => (x.part, x.id))).Nodup ∧
      (∀ v ∈ (pressed head).candidates head, ((pressed head).saveRoom v).isSome = true) ∧ ((pressed head).candidates head).map (·.id) = [4, 3, 5, 6] ∧
      (pressed { head with eprio := 1 }).chooseVictims { head with eprio := 1 } ((pressed { head with eprio := 1 }).candidates { head with eprio := 1 }) [] = none := by
  iterate 10 refine ⟨by decide +kernel, ?_⟩
  decide +kernel

theorem test_preemption : (let t := after .dispatchDecision (pressed head)
    (t.tasks.map (·.preemptAt), t.reserved.map (·.1), (t.core 1).hold)) = ([none, none, some 5000000, none, none], [1], .beforeFirst) := by decide +kernel

/-- A head that has stood longer than AGE raises its task by one (R284). -/
theorem test_ready_and_aged : (after (.taskReady 1) (sf [t1])).tasks.map (fun t => (t.phase, t.inPool)) = [(.ready, true)] ∧
    (after (.streamAged 2) (sf [pooled])).tasks.map (·.eprio) = [4] ∧
    (after (.streamAged 2) (sf [{ pooled with poolSince := 4999999 }])).tasks.map (·.eprio) = [3] := by decide +kernel

/-- Core 0 takes the task; without a quad it waits for capacity, and after 2 µs that is reported. -/
theorem test_dispatch : (let t := after .dispatchDecision (granted (sf [pooled]))
    (t.tasks.map (fun t => (t.phase, t.cores)), (t.core 0).resident, (t.core 0).kernel, (t.core 0).kAt 1, (t.stream 2).deficit)) =
      ([(.running, [0])], true, 64, 12, 15) ∧
    (after .dispatchDecision (sf [pooled])).tasks.map (fun t => (t.phase, t.capSince)) = [(.noCapacity, some 5000000)] ∧
    (after .capacityNotice (granted (sf [{ pooled with phase := .noCapacity, capSince := some 1 }]))).tasks.map (·.capNoted) = [true] := by decide +kernel

/-! Gangs that hold, save, trap and end. -/

def holdingStrand : StrandSt := { live with holding := true }

/-- Core 0 runs task 1 and its four strands hold; 7 at byte 3 of the scratchpad. -/
def kh : CoreSt :=
  { k0 with x := holdingStrand, a := holdingStrand, v := holdingStrand, m := holdingStrand, rank := 0, g := k0.g.set 1 77 }

def runTask : Task := { t1 with phase := .running, running := true, dispatched := true, cores := [0] }

def sg (k : CoreSt) (t : Task) : State :=
  { granted (sf [t]) with cores := [(0, k)], mem := (granted (sf [t])).mem ++ [(spadKey 0 3, 7)], pairs := [(0, { Pair.reset with holder := some 0 })] }

def asked : Task := { runTask with preemptAt := some 4000000 }

def image : Image := (after (.holdReached 1) (sg kh asked)).tasks.headD Task.reset |>.images.getD [] |>.headD ⟨0, CoreSt.reset, [], [], none⟩

/-- The array waits for a row of its first queue, and no member has one for it. -/
def starving : CoreSt := { kh with mq := [{ matCmd (.tpl (tMma + 2 ^ 10) false) with started := true, gotB := [0, 0] }] }

/-- The array waits for a row of an li queue to which no lo is bound. -/
def starvingLi : CoreSt := { kh with mq := [{ matCmd (.tpl (tMma + 2 ^ 11) false) with started := true, gotB := [0, 0] }] }

theorem witness_HoldsAndSaves :
    ((sg kh asked).taskKey? 1 = some asked ∧ asked.phase = .running ∧ asked.preemptAt = some 4000000 ∧ asked.halted = false ∧
      (sg kh asked).holdDone asked = true ∧ (∀ c ∈ asked.cores, ((sg kh asked).core c).quiet = true) ∧ asked.cores.Nodup) ∧
    ((sg kh { asked with saving := true }).taskKey? 1 = some { asked with saving := true } ∧ asked.fatal = none) ∧
    (4000000 + asked.recd.ilimit * 1024 ≤ (sg k0 asked).cycle ∧ (sg k0 asked).holdDone asked = false ∧
      ({ sg k0 asked with cycle := 4002047 } : State).cycle < 4000000 + asked.recd.ilimit * 1024) ∧
    (∃ c ∈ asked.cores, (sg starving asked).arrayStarves asked c = true) ∧ (∀ c ∈ asked.cores, (sg kh asked).arrayStarves asked c = false) ∧
    (asked.cores = [0] ∧ ((sg starving asked).headCmd 0).isSome = true ∧ (sg starving asked).arrayStopped 0 = true ∧ tAKind (tMma + 2 ^ 10) = 1 ∧
      0 < tM (tMma + 2 ^ 10) ∧ ((sg starving asked).core 0).fq = [] ∧ ((sg starving asked).core 0).sluiceE = .reset) ∧
    (tAKind (tMma + 2 ^ 11) = 2 ∧ (sg starvingLi asked).arrayStopped 0 = true ∧ (starvingLi.li.toList.getD (tAIdx (tMma + 2 ^ 11)) [] = []) ∧
      ∀ j, j < 4 → (starvingLi.loAt j).peer ≠ some (0, tAIdx (tMma + 2 ^ 11))) := by decide +kernel

theorem test_save : (image.core, image.st.g.get 1, image.st.owed, image.spadBytes) = (0, 77, true, [(3, 7)]) ∧
    ((after (.saveComplete 1) (after (.holdReached 1) (sg kh asked))).tasks.map (fun t => (t.phase, t.cores))) = [(.saved, [])] ∧
    ((after (.saveComplete 1) (after (.holdReached 1) (sg kh asked))).core 0).resident = false := by decide +kernel

theorem test_limit : (after (.iterationLimitExpiry 1) { sg k0 asked with cycle := 4002048 }).tasks.map (·.fatal) = [some (5, 0)] ∧
    (after (.iterationLimitExpiry 1) { sg k0 asked with cycle := 4002047 }).tasks.map (·.fatal) = [none] := by decide +kernel

/-- An ILL of cause 11 on V, a TRAP of code 0x123 on X before address 4, and a PROBE. -/
def illReq : TrapReq := { core := 0, strand := .v, cls := 0, cause := 11, code := 0, next := 0, words := 0, wait := none, sig := none, due := false }

def trapReq : TrapReq := { illReq with strand := .x, cls := 2, cause := 0, code := 0x123, next := 4, words := 1 }

def probeReq : TrapReq := { illReq with cls := probeClass }

def stopping (r : TrapReq) : Task := { runTask with traps := [r] }

/-- Task 5 is task 1's handler; its constants are at 0x50000. -/
def handler : Task := { Task.reset with id := 5, stream := 2, recd := { r1 with hdlr := true, kconst := 0x50000 }, order := 6 }

def handled (r : TrapReq) : Task := { stopping r with recd := { r1 with handler := 5 } }

def withHandler (r : TrapReq) : State := { sg kh (handled r) with tasks := [handled r, handler] }

/-- Task 1 is stopped and its handler has ended, with DISP at 0x5007C. -/
def disposed (disp : Byte) : State :=
  let t : Task := { t1 with phase := .saved, awaits := .handler 5 2 0 0x50000 }
  { granted (sf [t, { handler with phase := .complete }]) with mem := mset (granted (sf [])).mem 0x5007C disp }

def awaitingTask : Task := { t1 with phase := .saved, awaits := .handler 5 2 0 0x50000 }

/-- An engine command whose answer is out. -/
def unreplied (core : Nat) : State :=
  { sg { kh with copyE := { kh.copyE with active := [cmdOf ccvtOp] } } runTask with
    outstanding := [{ tag := 1, core := core, what := .engine .copy, sent := true, sentAt := 0, retries := 0, lost := true, marked := false, spoils := [], result := none }] }

theorem witness_TrapsHandlersAndFatalErrors :
    (∀ r ∈ [illReq, trapReq, probeReq], (sg kh (stopping r)).taskKey? 1 = some (stopping r) ∧ (stopping r).phase = .running ∧ (stopping r).traps = [r] ∧
      (stopping r).fatal = none ∧ (stopping r).saving = false ∧
      (∀ c ∈ (stopping r).cores, ((sg kh (stopping r)).core c).quiet = true ∧ ((sg kh (stopping r)).core c).chain = none) ∧
      (sg kh (stopping r)).saveRoom (stopping r) = some true ∧ r.core ∈ (stopping r).cores) ∧
    ((withHandler trapReq).taskKey? 1 = some (handled trapReq) ∧ (withHandler trapReq).task? (handled trapReq).part (handled trapReq).recd.handler = some handler ∧
      handler.recd.hdlr = true ∧ handler.released = false ∧ handler.ended = false ∧ handler.id ≠ (handled trapReq).id ∧
      ((handled trapReq).cores.foldl State.settle (withHandler trapReq)).partUnwritable 0 (handler.recd.kconst + 0x40) 64 = none ∧
      (∀ c ∈ (handled trapReq).cores, ∀ x ∈ ((withHandler trapReq).core c).stash, x.marked = false) ∧
      (((handled trapReq).cores.foldl State.settle { withHandler trapReq with mem := [] }).partUnwritable 0 (handler.recd.kconst + 0x40) 64).isSome = true) ∧
    ((sg kh runTask).gangAtRest runTask = true ∧
      (sg { kh with copyE := { kh.copyE with queue := [cmdOf ccvtOp] } } runTask).gangAtRest runTask = false ∧
      (∀ c ∈ runTask.cores, ((unreplied 0).core c).copyE.active = [cmdOf ccvtOp] ∧ (unreplied 0).unanswered c (.engine .copy) = true) ∧
      (∀ x ∈ [({ runTask with fatal := some (13, 0) } : Task), { runTask with fatal := some (13, 0), recd := { r1 with restart := true } },
          { runTask with fatal := some (13, 0), recd := { r1 with restart := true }, restarts := 3 }],
        (sg kh x).taskKey? 1 = some x ∧ (sg kh x).gangAtRest x = true)) ∧
    (({ disposed 1 with mem := [] } : State).partRead 0 (0x50000 + 0x7C) 4).toOption = none ∧
    (probeReq.cls = probeClass ∧ trapReq.cls ≠ probeClass ∧ (stopping trapReq).recd.handler = 0) ∧
    (awaitingTask.awaits = .handler ({ handler with phase := .complete } : Task).id 2 0 0x50000 ∧
      (∀ b ∈ [0, 1], (disposed b).taskKey? 1 = some awaitingTask ∧ (disposed b).task? 0 5 = some { handler with phase := .complete } ∧
        ((disposed b).partRead 0 (0x50000 + 0x7C) 4).toOption = some [b, 0, 0, 0]) ∧ natOfBytes [1, 0, 0, 0] = 1 ∧ natOfBytes [0, 0, 0, 0] ≠ 1) ∧
    ((sg kh { runTask with fatal := some (2, 2 ^ 60 + 5) }).taskKey? 1 = some { runTask with fatal := some (2, 2 ^ 60 + 5) }) ∧
    ((sg kh runTask).tasks.filter (fun x => x.phase == .running && x.cores.any [0].contains) = [runTask] ∧ runTask.recd.restart = false ∧
      ({ runTask with restarts := 3 } : Task).restarts = 3) := by
  decide +kernel

/-- A gang of two with a TRAP on each member, that of rank 1 having taken token 5; and the same with two traps on one member. -/
def bothTrap (l : List TrapReq) : Task := { handled trapReq with cores := [0, 1], traps := l }

def late : TrapReq := { trapReq with core := 1, wait := some 5 }

def both (l : List TrapReq) : State :=
  { withHandler trapReq with cores := [(0, kh), (1, { kh with rank := 1, tk := kh.tk.set 5 3 })], tasks := [bothTrap l, handler] }

theorem witness_TrapsHandlersAndFatalErrors_several :
    (∀ l ∈ [[trapReq, late], [late, trapReq]], (both l).taskKey? 1 = some (bothTrap l) ∧ trapReq ∈ (bothTrap l).traps ∧
      (∀ c ∈ (bothTrap l).cores, ((both l).core c).quiet = true ∧ ((both l).core c).chain = none) ∧
      (both l).saveRoom (bothTrap l) = some true ∧ ((both l).core 0).rank < ((both l).core 1).rank ∧ ((both l).core 1).tk.get (5 : BitVec 4).toFin ≠ 255 ∧
      (((both l).core 1).strand .x).atEnd = false ∧
      ((after (.gangTrapStop 1) (both l)).taskKey? 1).any (fun x => x.images.isSome) = true) ∧
    ((both [illReq, trapReq]).core 0).rank = ((both [illReq, trapReq]).core 0).rank ∧ strandNum trapReq.strand < strandNum illReq.strand := by decide +kernel

/-- Of an ILL in V and a TRAP in X of one core the record names X; the TRAP of the higher rank has its token back (R292). -/
theorem test_several_traps :
    (mget (after (.gangTrapStop 1) (both [illReq, trapReq])).mem 0x50040).toNat = 2 ∧
    (after (.gangTrapStop 1) (both [late, trapReq])).tasks.flatMap (fun t => (t.images.getD []).map (fun i => (i.core, i.st.tk.get 5))) = [(0, 0), (1, 4)] := by
  decide +kernel

theorem test_trap_stop :
    (after (.gangTrapStop 1) (sg kh (stopping probeReq))).tasks.map (fun t => (t.phase, t.awaits)) = [(.saved, .service)] ∧
    (after (.gangTrapStop 1) (sg kh (stopping illReq))).tasks.map (fun t => (t.phase, t.kind, t.detail)) = [(.failed, 9, 11 * 256)] := by decide +kernel

/-- The trap record (R293): TASK 1, STRAND 0, CAUSE 0, CLASS 2; ITERIDX and CODE; the PC that resumes X. -/
theorem test_trap_record : (let t := after (.gangTrapStop 1) (withHandler trapReq)
    (t.tasks.map (fun t => (t.phase, t.released)), [0, 4, 8, 9, 16].map (fun i => (mget t.mem (0x50040 + i)).toNat))) =
      ([(.saved, false), (.waiting, true)], [2, 1, 0x23, 1, 0]) := by decide +kernel

theorem test_disposition : (after (.handlerDisposition 1) (disposed 1)).tasks.map (fun t => (t.phase, t.awaits)) = [(.saved, .nothing), (.complete, .nothing)] ∧
    (after (.handlerDisposition 1) (disposed 0)).tasks.map (fun t => (t.kind, t.detail)) = [(10, 2), (0, 0)] := by decide +kernel

theorem test_fatal : (after (.fatalContextError 1) (sg kh { runTask with fatal := some (2, 2 ^ 60 + 5) })).tasks.map (fun t => (t.kind, t.addr)) = [(2, 5)] ∧
    (after (.coreBasinLinkFault (.core 0)) (sg kh runTask)).tasks.map (fun t => (t.fatal, t.phase)) = [(some (13, 0), .running)] ∧
    (after (.fatalContextError 1) (after (.coreBasinLinkFault (.core 0)) (sg kh runTask))).tasks.map (fun t => (t.kind, t.phase)) = [(13, .failed)] ∧
    (after (.fatalContextError 1) (sg kh { runTask with fatal := some (13, 0), recd := { r1 with restart := true } })).tasks.map
      (fun t => (t.phase, t.restarts)) = [(.saved, 1)] := by decide +kernel

/-! Completion records. -/

def ended : Task := { t1 with phase := .failed, kind := 11, detail := 3, recordDue := true }

def sr (t : Task) (prod : Word) : State :=
  { sf [t] with streams := [(2, { Stream.reset with en := true, crbase := 0x60000, prod := prod, seq := 9 })] }

theorem witness_CompletionRecordsAreWrittenInOrder :
    ((sr ended 0).nextRecord 2 = some ended ∧ ended.recordFault = none ∧
      0x60000 = ((sr ended 0).stream 2).crbase + 32 * (((sr ended 0).stream 2).prod.toNat % 2 ^ ((sr ended 0).stream 2).l2ent)) ∧
    ((sr ended 16).nextRecord 2 = some ended ∧ 2 ^ ((sr ended 16).stream 2).l2ent ≤ (((sr ended 16).stream 2).prod - ((sr ended 16).stream 2).cons).toNat) ∧
    ((sr ended 15).nextRecord 2 = some ended ∧ (((sr ended 15).stream 2).prod - ((sr ended 15).stream 2).cons).toNat < 2 ^ ((sr ended 15).stream 2).l2ent ∧
      (sr ended 15).partUnwritable ended.part (0x60000 + 32 * 15) 32 = none) ∧
    ((sr { ended with recordFault := some 4998976 } 0).nextRecord 2 = some { ended with recordFault := some 4998976 } ∧
      4998976 + 1024 ≤ (sr ended 0).cycle) ∧ (sr ended 0).task? 0 1 = some ended := by decide +kernel

/-- Event rings of 16 records at 0x70000: with room, and full. -/
def evRing (prod : Byte) : State :=
  { sf [ended] with parts := [(0, { (sf [ended]).part 0 with events := { on := true, base := 0x70000, n := 4 } })], mem := mset (sf [ended]).mem 0x70000 prod }

theorem witness_CompletionRecordsAreWrittenInOrder_events :
    ((sf []).part 0).events.on = false ∧ (sf []).devEvents.on = false ∧ ((evRing 15).part 0).events.on = true ∧
      (evRing 15).ringNat (some 0) 0x70000 8 - (evRing 15).ringNat (some 0) (0x70000 + 8) 8 < 2 ^ 4 ∧
      2 ^ 4 ≤ (evRing 16).ringNat (some 0) 0x70000 8 - (evRing 16).ringNat (some 0) (0x70000 + 8) 8 := by decide +kernel

/-- The sixteenth record of the ring, of kind 2 and the source's number 0 (R345, R346); the seventeenth is lost. -/
theorem test_event_record : (let t := (evRing 15).postEvent (some 0) 2 7 1 0
    ([0, 64 + 480, 64 + 482, 64 + 488].map (fun i => (mget t.mem (0x70000 + i)).toNat), t.outputs)) = ([16, 7, 2, 1], [.msix 0 1]) ∧
    ([0, 0x10, 0x18].map (fun i => (mget ((evRing 16).postEvent (some 0) 2 7 1 0).mem (0x70000 + i)).toNat)) = [16, 1, 1] := by decide +kernel

theorem test_completion_record : (let t := after (.completionRecordWrite 2) (sr ended 15)
    ((t.stream 2).prod, (t.stream 2).seq, t.outputs, [0, 4, 6, 7, 16].map (fun i => (mget t.mem (0x60000 + 480 + i)).toNat))) = (16, 10, [.msix 0 3], [1, 2, 7, 11, 3]) ∧
    after (.completionRecordWrite 2) (sr ended 16) = sr ended 16 := by decide +kernel
/-! A page of 512 MiB at address 0 of partition 0 takes what is written above its tables. -/

def tables : Mem := [(0x10000, 1), (0x10002, 2), (0x20000, 7)]

structure Paged (s : State) : Prop where
  root : (s.part 0).ptbase = 0x10000
  home : ∀ pa, s.forward pa = pa
  open_ : s.regions = []
  held : ∀ k, (0x10000 ≤ k ∧ k < 0x10008) ∨ (0x20000 ≤ k ∧ k < 0x20008) → mget s.mem k = mget tables k

theorem paged_pte {s : State} (h : Paged s) (t v : Nat) (ht : t = 0x10000 ∨ t = 0x20000)
    (hv : natOfBytes ((List.range 8).map (fun i => mget tables (t + i))) = v) : s.pte t 0 = v := by
  subst hv
  unfold State.pte State.readPa
  congr 1
  refine List.map_congr_left fun i hi => ?_
  have hi8 : i < 8 := List.mem_range.mp hi
  rw [h.home, State.byteAt, if_neg, Nat.mul_zero, Nat.add_zero, h.held _ (by omega)]
  rintro ⟨_, hk⟩
  unfold paKind at hk
  rw [if_pos (by omega)] at hk
  cases hk

theorem paged_addr {s : State} (h : Paged s) (va : Nat) (hv : va < 2 ^ 29) : s.partAddr 0 va true = .ok va := by
  have e1 : s.pte 0x10000 0 = 0x20001 := paged_pte h _ _ (.inl rfl) (by decide +kernel)
  have e2 : s.pte 0x20000 0 = 7 := paged_pte h _ _ (.inr rfl) (by decide +kernel)
  have z1 : va / 2 ^ 42 % 2 ^ 14 = 0 := by omega
  have z2 : va / 2 ^ 29 % 2 ^ 13 = 0 := by omega
  have z3 : va / 2 ^ 29 = 0 := by omega
  have hw : s.walkPages 0 va = .ok (leafOf 7 0 (2 ^ 13)) := by
    unfold State.walkPages
    rw [h.root, z1, e1]
    have hp : s.pageOk 0 (leafOf 7 0 (2 ^ 13)).pa (leafOf 7 0 (2 ^ 13)).units = true := rfl
    have ht : 0x20001 / 2 ^ 16 % 2 ^ 36 * 2 ^ 16 = 0x20000 := by decide
    simp only [ht, z3, Nat.zero_mod, e2, Nat.zero_mul]
    rw [if_neg (by decide), if_neg (by decide), if_neg (by decide), if_neg (by decide), if_pos (by decide), if_pos ⟨by decide, hp⟩]
  unfold State.partAddr
  rw [if_neg (by omega), hw]
  show s.useLeaf 0 va true (leafOf 7 0 (2 ^ 13)) = _
  have hphys : (leafOf 7 0 (2 ^ 13)).physOf va = va := by
    show 7 / 2 ^ 16 % 2 ^ 36 * 2 ^ 16 + (va - 0 * 2 ^ 16) = va
    omega
  unfold State.useLeaf
  rw [hphys, h.home]
  have hs : s.secureAt va = false := by unfold State.secureAt; rw [h.open_]; rfl
  simp [hs, leafOf]

theorem paged_takes {s : State} (h : Paged s) (hc : ∀ e ∈ s.cores, e.2.ebuf = []) (va n : Nat) (h1 : 0x20008 ≤ va) (h2 : va + n ≤ 2 ^ 29) :
    Takes s 0 va n := by
  refine ⟨fun i hi => ⟨va + i, paged_addr h _ (by omega), ?_, fun e he p hp => ?_⟩, fun i j hi hj he => ?_, fun m hm i hi => ?_⟩
  · unfold paKind
    rw [if_pos (by omega)]
    decide
  · rw [hc e he] at hp
    cases hp
  · rw [paged_addr h _ (by omega), paged_addr h _ (by omega)] at he
    injection he with he
    omega
  · have hp : Paged { s with mem := m } := ⟨h.root, h.home, h.open_, fun k hk => by
      show mget m k = _
      rw [hm k (fun i hi he => ?_), h.held k hk]
      rw [paged_addr h _ (by omega)] at he
      injection he with he
      omega⟩
    rw [paged_addr h _ (by omega), paged_addr hp _ (by omega)]
/-! The network, the host, the wellhead and the intake. -/

/-- A request with tag 3 of core 0, sent at cycle 0 and again n times. -/
def req (n : Nat) : Outstanding := { tag := 3, core := 0, what := .line 1, sent := true, sentAt := 0, retries := n, lost := false, marked := false, spoils := [], result := none }

def net (n : Nat) : State :=
  { sg kh runTask with outstanding := [req n], links := [(5 * 8 + 2, { Link.reset with errors := 2 })], cycle := 65536 }

theorem witness_TheNetworkRepairsAndCounts :
    (net 0).draining = none ∧ ({ net 0 with draining := some 64 } : State).draining = some 64 ∧ 64 + 192 ≤ (net 0).cycle + 1 ∧ (net 0).lastDrain + 65536 ≤ (net 0).cycle ∧ 2 ≤ 5 ∧ ((net 0).link 5 2).corrected < 2 ^ 32 - 1 ∧
    ((net 0).link 5 2).errors < 2 ^ 32 - 1 ∧ ((net 0).link 5 1).errors < 2 ^ 32 - 1 ∧ (net 2).outstanding.find? (fun p => p.tag == 3) = some (req 2) ∧ (req 2).sent = true ∧
    ({ req 2 with sent := false } : Outstanding).sent = false ∧ ({ net 2 with cycle := 8191 } : State).cycle < (req 2).sentAt + 8192 ∧ (net 1).cycle < (net 1).lastDrain + 65537 ∧
    (req 2).sentAt + 8192 ≤ (net 2).cycle ∧ (req 2).retries < 3 ∧ 3 ≤ (req 3).retries ∧ (net 3).taskOf (req 3).core = some runTask ∧
    runTask.phase = .running ∧ (net 2).heldThere (req 2) = false := by decide +kernel

/-- A request of a line waits at basin 1, over the link of direction 5 of its core's router (R300). -/
theorem witness_TrapsHandlersAndFatalErrors_links :
    req 0 ∈ (net 0).outstanding ∧ thas (net 0).cores (req 0).core = true ∧ (∃ y ∈ (net 0).requestTrips (req 0), y.2 = basinRouter 1) ∧
      (∃ y ∈ (net 0).requestTrips (req 0), (128, 5) ∈ (net 0).route y.1 y.2 ∨ (128, 5) ∈ (net 0).route y.2 y.1) ∧ (net 0).taskKey? 1 = some runTask ∧
      (∀ f ∈ [HwFault.basin 1, .link 128 5], (net 0).tasks.filter (fun x => x.phase == .running && x.cores.any ((net 0).struck f).contains) = [runTask]) := by
  decide +kernel

theorem test_basin_fault : (let t := after (.coreBasinLinkFault (.basin 1)) (net 0)
    (t.tasks.map (·.fatal), t.outstanding)) = ([some (13, 0)], []) := by decide +kernel

/-- The same request asks for something else. -/
def asks (w : Req) : Outstanding := { req 0 with what := w }

/-- Core 0 asks its neighbour, core 1, which is of its gang. -/
def far (w : Req) (k : CoreSt) : State :=
  { sg k { runTask with cores := [0, 1] } with
    cores := [(0, k), (1, { k0 with rank := 1, full := [2] })], outstanding := [asks w], mem := mwrite (granted (sf [])).mem (spadKey 1 256) [7], cycle := 65536 }

/-- A remote address: offset 256 of core 1's scratchpad. -/
def farAddr : Dword := remoteAddr 1 256

/-- A waits at an LDFE of byte 256 there, to g4. -/
def farFe : FeReq :=
  { id := 5, op := .load 1 false (.reg 4), ea := farAddr, wait := none, sig := none, pops := (0, 0), next := 8, words := 2, at_ := 0, order := 0 }

def feAsks : State := far (.access 5) { k0 with fe := some farFe }

/-- A load of the same byte in A's order. -/
def farLoad : Access := { id := 5, op := .load 1 false (.reg 4), ea := farAddr, sig := none, done := 0, got := [] }

def loadAsks : State := far (.access 5) { k0 with aq := [farLoad], loads := 1 }

/-- A load of a byte of line 2048, which it has asked for, of the mapped page. -/
def lineAsks : State :=
  let k : CoreSt := { k0 with
    aq := [{ id := 5, op := .load 1 false (.reg 4), ea := 0x40000, sig := none, done := 0, got := [] }]
    loads := 1
    stash := [{ line := 2048, waiting := true, tag := 3, dirty := false, marked := false, recalled := false, owes := [] }] }
  { sg k runTask with outstanding := [asks (.line 2048)], mem := mset (granted (sf [])).mem 0x40000 9, cycle := 65536 }

theorem witness_TheNetworkRepairsAndCounts_lines :
    (lineAsks.core 0).aq.map (fun a => (a.done + 1 == a.places, addrPlus a.ea (a.done * a.placeSize) / 128)) = [(true, 2048)] ∧
    (∃ o ∈ lineAsks.outstanding, o.what = .line 2048 ∧ o.sent = true ∧ o.lost = false) := by decide +kernel

theorem witness_TheNetworkRepairsAndCounts_replies :
    (∀ w ∈ [Req.line 1, .engine .copy, .row 2, .bar, .spawn, .access 5], (asks w).sent = true ∧ (asks w).lost = false ∧
      ({ net 0 with outstanding := [asks w] } : State).outstanding.find? (fun p => p.tag == 3) = some (asks w)) ∧
    ({ asks .bar with lost := true } : Outstanding).lost = true ∧
    (∃ o ∈ ({ net 0 with outstanding := [asks (.row 2)] } : State).outstanding, o.sent = true ∧ o.lost = false ∧ o.what = .row 2) ∧
    (∀ o ∈ (net 0).outstanding, o.what = .line 1) ∧
    ((feAsks.core 0).fe = some farFe ∧ (got (feAsks.feAct 0 farFe)).map (·.1) = some [7] ∧
      (got ((feAsks.modCore 1 (fun k => { k with full := [] })).feAct 0 farFe)).isNone = true ∧ feAsks.heldThere (asks (.access 5)) = true) ∧
    ((loadAsks.core 0).fe = none ∧ ((loadAsks.core 0).aq.map (·.id)).Nodup ∧ (loadAsks.core 0).aq.find? (fun b => !b.performed) = some farLoad ∧
      farLoad.done + 1 = farLoad.places ∧ (loadAsks.nextPlace 0 farLoad).any (fun u => (u.core 0).aq.any (fun b => b.id == 5 && b.performed)) = true) := by
  refine ⟨?_, ?_, ?_, ?_, ?_, ?_⟩ <;> decide +kernel

/-- What its home has read is kept when the reply is lost: the load ends with it although the byte has changed since (R274). -/
theorem test_lost_replies :
    (let t := after (.headerUncorrectable 5 2 (.reply 3)) feAsks
     (t.outstanding.map (fun o => (o.lost, o.result)), (t.core 0).fe.isSome)) = ([(true, some [7])], true) ∧
    (let t := after (.headerUncorrectable 5 2 (.reply 3)) lineAsks
     (t.outstanding.map (·.lost), (t.core 0).aq.map (fun a => (a.done, a.got)), (t.core 0).stash.map (·.waiting))) = ([true], [(1, [9])], [true]) ∧
    (let t := after (.headerUncorrectable 5 2 (.reply 3)) loadAsks
     (t.outstanding.map (·.lost), (t.core 0).aq.map (·.performed), (t.core 0).loads)) = ([true], [true], 1) ∧
    (after (.headerUncorrectable 5 2 (.reply 3)) { net 0 with outstanding := [asks (.row 2)] }).outstanding = [asks (.row 2)] := by decide +kernel

theorem test_network : (after .networkDrain (net 0)).draining = some 65536 ∧
    ((after (.headerUncorrectable 5 2 (.reply 3)) (net 0)).link 5 2).marked = true ∧
    (after (.headerUncorrectable 5 2 (.reply 3)) (net 0)).outstanding.map (·.lost) = [true] ∧
    (after (.requestRetransmit 3) (net 2)).outstanding.map (·.retries) = [3] ∧
    (after (.requestRetransmit 3) (net 3)).tasks.map (·.fatal) = [some (13, 0)] ∧ (after (.requestRetransmit 3) { net 2 with cycle := 8191 }).outstanding = [req 2] := by
  decide +kernel

/-- Partition 0 has joined aperture 3; bytes 1, 2, 3, 255 at BAR2 offset 64; 64 KiB from 2^20 on are secure. -/
def host : State :=
  { State.reset with
    bootState := 6
    mem := [(64, 1), (65, 2), (66, 3), (67, 255)]
    bar2 := 39
    parts := [(0, { Part.reset with joined := [(3, 1)] })]
    peerJoins := [(3, 1, 0)]
    peerDone := [(3, 8, [7])]
    streams := [(7, { Stream.reset with part := 2 })]
    regions := [{ base := 2 ^ 20, limit := 2 ^ 20 + 2 ^ 16, secure := true }] }

/-- Partition 0 moves a page of 64 KiB from HBM at 2^17 to host memory. -/
def moving : State :=
  { host with parts := [(0, { Part.reset with migration := some { vpage := 0, src := 2 ^ 17, dst := 2 ^ 51, copied := 1, lines := 512, fn := 0 } })],
              mem := [(2 ^ 17 + 128, 9)] }

/-- A function has posted a command: OP in bits [15:0] of word 0, a tag in bits [63:32]. -/
def posted (fn op : Nat) (s : State) : State :=
  { s with mailboxes := [(fn, { Mailbox.reset with busy := true, cmd := [(0, BitVec.ofNat 64 (0x1234 * 2 ^ 32 + op))] })], goOrder := [fn] }

theorem witness_HostAndPeerAccesses :
    (∀ p, host.forward p = p) ∧ host.bar2Ok 64 4 = true ∧ host.bar2Ok (2 ^ 39 - 4) 4 = true ∧ host.bar2Ok (2 ^ 39 - 4) 5 = false ∧
    host.bar2Ok (2 ^ 20 - 1) 2 = false ∧ host.parts.any (fun e => host.isJoined e.1 3) = true ∧ host.parts.any (fun e => host.isJoined e.1 4) = false ∧
    ((0 : BitVec 3) ≠ 7 ∧ host.bar2Ok 64 (typeWidth 7) = true ∧ 64 % typeWidth 7 = 0 ∧ host.peerDone.find? (fun d => d.1 == 3 && d.2.1 == 8) = some (3, 8, [7]) ∧
      host.peerDone.find? (fun d => d.1 == 3 && d.2.1 == 9) = none ∧ (∀ e ∈ host.cores, ∀ p ∈ e.2.ebuf, sameUnits 64 4 p.1 = false)) ∧
    (16 ≤ 16 ∧ (3 : BitVec 64).getLsbD 0 = true ∧ (3 : BitVec 64).getLsbD 1 = true ∧ (host.mailbox 16).busy = false ∧ ((posted 2 1 host).mailbox 2).busy = true ∧
      31 < 32 ∧ 4095 < 4096 ∧ thas host.streams 7 = true ∧ (host.stream 7).part = 2) ∧
    ((moving.part 0).migration = some { vpage := 0, src := 2 ^ 17, dst := 2 ^ 51, copied := 1, lines := 512, fn := 0 } ∧
      ∀ j, j < 128 → paKind (2 ^ 17 + 128 * 1 + j) ≠ .view) := by
  refine ⟨fun p => rfl, ?_⟩
  decide +kernel

theorem test_bar2 : (after (.hostBar2Access 1 (.read 64 4)) host).outputs = [.data 1 [1, 2, 3, 255]] ∧
    (after (.hostBar2Access 1 (.read (2 ^ 20 - 1) 2)) host).outputs = [.unsupported 1] ∧
    (after (.hostBar2Access 1 (.write 65 [0, 7])) host).mem = [(64, 1), (66, 7), (67, 255)] ∧
    (after (.peerMessage 3 (.update 9 64 0 7 0x01000000 0)) host).mem = [(64, 1), (65, 2), (66, 3)] ∧
    (after (.peerMessage 3 (.update 8 64 0 7 0x01000000 0)) host).outputs = [.data 35 [7]] ∧ (after (.peerMessage 4 (.write 9 64 [0])) host).mem = host.mem ∧
    (after (.peerMessage 3 (.write 9 65 [0])) host).mem = [(64, 1), (66, 3), (67, 255)] ∧ (after (.peerMessage 3 (.write 8 65 [0])) host).mem = host.mem ∧
    (after (.peerMessage 3 (.read 8 64 1)) host).outputs = [.data 35 [7]] ∧ (after (.peerMessage 3 (.read 9 64 1)) host).peerDone = [(3, 8, [7]), (3, 9, [1])] := by
  decide +kernel

/-- Each form of a register write that sets nothing. -/
theorem witness_HostAndPeerAccesses_nothing : (2 : BitVec 64).getLsbD 0 = false ∧ (1 : BitVec 64).getLsbD 1 = false ∧ 16 < 17 ∧
    ((3 : Nat) ≠ 16 ∧ (host.stream 7).part ≠ 3 ∧ thas host.streams 8 = false) ∧
    (0x1004 ≠ 0x1000 ∧ 0x1004 ≠ 0x1008 ∧ (∀ i, i < 32 → 0x1004 ≠ 0x1100 + 8 * i) ∧ ∀ i, i < 4096 → 0x1004 ≠ 0x20000 + 32 * i + 0x10) := by
  refine ⟨by decide, by decide, by decide, by decide +kernel, by decide, by decide, by decide, fun i _ => by omega⟩

theorem test_registers : (after (.registerWrite 2 0x1000 1) host).goOrder = [2] ∧ (after (.registerWrite 16 0x1000 1) (after (.registerWrite 2 0x1000 1) host)).goOrder = [16, 2] ∧ (after (.registerWrite 2 0x1000 0) host).goOrder = [] ∧
    ((after (.registerWrite 2 (0x20000 + 32 * 7 + 0x10) (5 * 2 ^ 32)) host).stream 7).cons = 5 ∧
    ((after (.registerWrite 3 (0x20000 + 32 * 7 + 0x10) (5 * 2 ^ 32)) host).stream 7).cons = 0 ∧
    mget (after (.migrationLineCopied 0) moving).mem (2 ^ 51 + 128) = 9 := by decide +kernel

/-- The reset values of R280, R306 and R339, and CSCTL of the example of 22_temporal_notes.md (INST 5, CODEC 1, EN 1). -/
theorem test_bar0 : State.reset.bar0 16 0x008 = 1 ∧ State.reset.bar0 0 0x040 = 7 ∧ State.reset.bar0 0 0x20000 = 0x03E80100 ∧
    State.reset.bar0 16 0x20038 = 4 ∧ State.reset.bar0 16 0x40048 = 0x04380780 ∧ State.reset.bar0 3 0x20000 = 0 ∧
    ({ State.reset with cameras := [(9, { Camera.reset with inst := 5, codec := 1, en := true })] } : State).bar0 0 0x40240 = 0x0000210400202803 := by
  decide +kernel

/-- Rail 0 at offset 5 raises to level 7; core 0 asks for divisor 1 in domain 2 at once, and in domain 3 once the rail is raised. -/
def power (begun : Bool) (up : Option Nat) (level : Nat) : State :=
  { host with
    cycle := 32000
    rails := [(railOf 0, { Rail.reset with level := level, offset := 5, raiseTo := up })]
    cores := [(0, { k0 with
      div := Vector.replicate 4 4
      divReq := ((Vector.replicate 4 none).set 2 (some { d := 1, deferred := false, keep := false, begun := false })).set 3
        (some { d := 1, deferred := true, keep := false, begun := begun }) })]
    parts := [(0, { Part.reset with counters := { on := true, base := 0, n := 6 }, ptbase := 0x10000 })]
    mem := [(0x10000, 1), (0x10002, 2), (0x20000, 7)] }

def counts7 : List EngineCounts := List.replicate 7 ⟨8000, 0, 0, 0⟩

theorem witness_PowerAndClocks :
    ((power true (some 7) 3).rail (railOf 0)).raiseTo = some 7 ∧
    ((power false none 7).core 0).divReq.get (2 : BitVec 2).toFin = some { d := 1, deferred := false, keep := false, begun := false } ∧
    (((power true none 7).core 0).divReq.get (3 : BitVec 2).toFin = some { d := 1, deferred := true, keep := false, begun := true } ∧
      ((power true none 7).rail (railOf 0)).raiseTo = none ∧ levelOf 1 ≤ ((power true none 7).rail (railOf 0)).level) ∧
    ((power false none 7).core 0).divReq.get (3 : BitVec 2).toFin = some { d := 1, deferred := true, keep := false, begun := false } ∧
    (railOf 0 < 16 ∧ ((power true none 7).rail (railOf 0)).offset ≠ 0) ∧
    ((power true none 7).core 0).resident = true ∧ ((power true none 7).part ((power true none 7).core 0).part).counters.on = true ∧ ((power true none 7).core 0).countsOk counts7 (power true none 7).cycle = true ∧
    ((power true none 7).core 0).countsOk (List.replicate 7 ⟨8001, 0, 0, 0⟩) (power true none 7).cycle = false ∧
    (((power true none 7).core 0).atBoundary 2 = true ∧ ({ (power true none 7).core 0 with mq := [{ matCmd (.zero 1) with started := true }] } : CoreSt).atBoundary 2 = false ∧
      ((power true none 7).core 0).sampledAt + 32000 ≤ (power true none 7).cycle ∧ ((power true none 7).core 0).divPast = [] ∧
      (power true none 7).ringNat (some 0) 0 8 - (power true none 7).ringNat (some 0) 8 8 < 2 ^ 6) := by decide +kernel

/-- Rail 0, undervolted at offset 5 of 9 with a clean run; without requests, at the level that divisor 4 needs or above it. -/
def steady (level : Nat) : State :=
  let s := power false none level
  { s with rails := [(0, { Rail.reset with level := level, offset := 5, margin := 9, undervolt := true, goodRun := 99, cleanRun := 99999 })],
           cores := [(0, { s.core 0 with divReq := Vector.replicate 4 none })] }

/-- Each kind of request that an interval finds, at a rail that is throttled and at one that is not. -/
theorem witness_PowerAndClocks_interval :
    (∀ c, c < 256 → ((steady 7).core c).divReq = Vector.replicate 4 none) ∧ ((steady 7).rail 0).raiseTo = none ∧ ((power true (some 7) 3).rail 0).raiseTo = some 7 ∧
    (∀ b ∈ [true, false], ((power b none 7).core 0).divReq.get (3 : Fin 4) = some { d := 1, deferred := true, keep := false, begun := b } ∧
      thas (power b none 7).cores 0 = true) ∧
    ((steady 7).rail 0).undervolt = true ∧ ((steady 7).rail 0).celim < 2 ^ 20 ∧ 0 ≤ ((steady 7).rail 0).celim ∧ 100 ≤ ((steady 7).rail 0).goodRun + 1 ∧
      ((steady 7).rail 0).offset < 10 ∧ ((steady 7).rail 0).holdoff = 0 ∧ ((steady 7).rail 1).undervolt = false := by
  refine ⟨?_, ?_⟩
  · decide +kernel
  · decide +kernel

def quiet (canary : List Nat) : Instr := .controlInterval { thermal := 0, current := [], canary := canary }

/-- Divisor 4 needs level 3 (R347): the rail falls to what its cores need, and its OFFSET goes (R352). Where it stays, a good run raises the OFFSET,
and canary errors above CELIM lower it. -/
theorem test_interval_levels : (let t := after (quiet []) (steady 7); ((t.rail 0).level, (t.rail 0).offset, (t.rail 0).margin)) = (3, 0, 10) ∧
    (let t := after (quiet []) (steady 3); ((t.rail 0).level, (t.rail 0).offset, (t.rail 0).goodRun)) = (3, 6, 0) ∧
    (let t := after (quiet [2 ^ 20]) (steady 3); ((t.rail 0).offset, (t.rail 0).goodRun)) = (4, 0) ∧
    (let t := after (quiet []) (power false none 7); ((t.core 0).divReq.get (3 : Fin 4)).map (·.begun)) = some true := by decide +kernel

theorem test_power : ((after (.railRaiseComplete (railOf 0)) (power true (some 7) 3)).rail (railOf 0)).level = 7 ∧
    ((after (.divisorChange 0 2) (power true (some 7) 3)).core 0).div.toList = [4, 4, 1, 4] ∧
    ((after (.divisorChange 0 3) (power true (some 7) 3)).core 0).div.toList = [4, 4, 4, 4] ∧
    ((after (.divisorChange 0 3) (power true none 7)).core 0).div.toList = [4, 4, 4, 1] ∧
    ((after (.undervoltReflex (railOf 0) (some 9)) (power true none 7)).rail (railOf 0)).margin = 3 ∧
    (after (.undervoltReflex (railOf 0) (some 9)) (power true none 7)).poison = [9] := by decide +kernel

/-- Current level 1 on rail 0 throttles it and raises the floor of the sluice there to 2 (R351). -/
theorem witness_PowerAndClocks_records :
    (after (.controlInterval { thermal := 0, current := [], canary := [] }) (power true none 7)).thermal = (power true none 7).thermal ∧
    (∀ r, r < 16 → ((after (.controlInterval { thermal := 0, current := [], canary := [] }) (power true none 7)).rail r).cur = ((power true none 7).rail r).cur) ∧
    (after (.controlInterval { thermal := 2, current := [], canary := [] }) (power true none 7)).thermal ≠ (power true none 7).thermal ∧
    ((after (.controlInterval { thermal := 0, current := [1], canary := [] }) (power true none 7)).rail 0).cur ≠ ((power true none 7).rail 0).cur := by
  decide +kernel

theorem test_control_interval : (let t := after (.controlInterval { thermal := 9, current := [1], canary := [] }) (power true none 7)
    (t.thermal, (t.rail 0).cur, (t.rail 1).throttled, (t.core 0).floorUp.toList)) = (5, 1, true, [1, 2, 1, 1, 1, 1, 1]) := by decide +kernel

/-- Camera 4 of partition 0 on instance 1 has a unit of 100 bytes to decode; 3 of 9 µs remain to it. -/
def cam0 : Camera :=
  { Camera.reset with en := true, state := 1, inst := 1, credit := 3, units := [⟨100, 77, 0⟩], fbase := 0x40000, slotSize := 8, nslot := 2, disc := true,
                      maxw := 16, maxh := 16, auto := true, tstream := 2, kbase := 0x50000, ingress := 2 ^ 16 }

def intake (c : Camera) (d : Decoder) : State :=
  { paged { State.reset with cycle := 800000, bootState := 6, decodePeriods := 0 } with cameras := [(4, c)], decoders := [(1, d)] }

def serving : Decoder := { Decoder.reset with serving := some 4 }

def shown : Camera := { cam0 with units := [], decoded := [⟨100, 77, 0⟩, ⟨90, 70, 0⟩] }

def frame16 : FrameData := ⟨16, 16, 8, true, false, [0x11, 0x12], [0x21, 0x22], [{ resid := .intra, vec := none }]⟩

/-- The slot of the next frame is held: HELD is bit 48 of its first word. -/
def held (c : Camera) : State := { intake c serving with mem := mset (intake c serving).mem 0x40006 1 }

def due : Camera := { cam0 with toSubmit := [(1, 5, 0x41000)] }

theorem witness_IntakeTurnsAndFrames :
    (((intake cam0 Decoder.reset).decoder 1).serving = none ∧ (intake cam0 Decoder.reset).nextCamera 1 = some 4) ∧
    (((intake cam0 serving).decoder 1).serving = some 4 ∧ ((intake cam0 serving).decoder 1).since + 250 * 3200 ≤ (intake cam0 serving).cycle ∧
      ({ intake cam0 serving with cycle := 799999 } : State).cycle < ((intake cam0 serving).decoder 1).since + 250 * 3200) ∧
    (-(2 : Int) ^ 31 ≤ ((intake cam0 serving).camera 4).credit - (12 : Nat) ∧ cam0.running = true ∧ cam0.units = ⟨100, 77, 0⟩ :: []) ∧
    (shown.running = true ∧ shown.nextShown = some ⟨90, 70, 0⟩ ∧ frame16.blocks.all blockOk = true ∧ ({ cam0 with maxh := 15 } : Camera).frameOk frame16 = false ∧
      ({ shown with skipToKey := true } : Camera).skipToKey = true ∧ ({ frame16 with key := false }).key = false ∧ shown.frameOk frame16 = true ∧ shown.skipToKey = false ∧
      (held shown).slotHeld 4 = true ∧ (intake shown serving).slotHeld 4 = false) ∧
    (({ cam0 with blocked := true } : Camera).blocked = true ∧ (intake { cam0 with blocked := true } serving).slotHeld 4 = false) ∧
    (due.toSubmit = (1, 5, 0x41000) :: [] ∧ ((intake due serving).stream due.tstream).part = due.part ∧ ((intake due serving).stream due.tstream).en = true ∧
      (intake due serving).streamFull due.tstream = false ∧
      ({ intake due serving with tasks := List.replicate 32 { Task.reset with stream := 2 } } : State).streamFull due.tstream = true) := by decide +kernel

/-- After a recovery the stream skips to its next key frame; and a decoder whose unit has been discarded while it served it. -/
def skipping : Camera := { cam0 with skipToKey := true, skipped := 60 }

theorem witness_IntakeTurnsAndFrames_skips :
    ((intake skipping Decoder.reset).decoder 1).serving = none ∧ (intake skipping Decoder.reset).nextCamera 1 = some 4 ∧ skipping.skipToKey = true ∧
      skipping.units = ⟨100, 77, 0⟩ :: [] ∧ cam0.skipToKey = false ∧ ((intake skipping serving).part 0).refSize = 0 ∧ 0 < skipping.skipped ∧
      ((intake cam0 { serving with void := true }).decoder 1).void = true ∧ serving.void = false ∧ thas (intake cam0 serving).decoders 1 = true ∧
      ({ x := 3, y := -4, away := true } : MotionVec).away = true ∧ ({ frame16 with key := true } : FrameData).key = true := by decide +kernel

/-- A unit before the key frame is discarded without a turn, an unsupported one too; as the key frame comes, a record of kind 4 has its bytes (R310). -/
theorem test_skips :
    (∀ h ∈ [SliceHead.ok false, .unsupported 0 false], (let t := after (.decodeTurnStart 1 h) (intake skipping Decoder.reset)
      ((t.camera 4).units, (t.camera 4).skipped, (t.camera 4).state, (t.decoder 1).serving)) = ([], 160, 1, none)) ∧
    (let t := after (.decodeTurnStart 1 (.ok true)) (intake skipping Decoder.reset)
     ((t.camera 4).skipToKey, (t.camera 4).skipped, (t.decoder 1).serving)) = (false, 0, some 4) ∧
    (let t := after (.decodeTurnEnd 1 9 .accessUnit) (intake cam0 { serving with void := true })
     ((t.camera 4).credit, (t.camera 4).units.length, (t.camera 4).decoded.length)) = (-6, 1, 0) := by decide +kernel

/-- The slot of that frame takes its 6,912 bytes; the second period is not due before 8 ms. -/
theorem witness_IntakeTurnsAndFrames_slot :
    Takes (intake shown serving) 0 (0x40000 + 4096 * 8 * (0 % 2)) 6912 ∧ ({ intake shown serving with decodePeriods := 1 } : State).cycle < 1 * (8 * 3200000) ∧
      (0 : Nat) * (8 * 3200000) ≤ (intake shown serving).cycle ∧ 0 < frame16.width ∧ 0 < frame16.height ∧
      (intake due serving).heldBy due.tstream < 32 ∧ ({ x := 3, y := -4, away := false } : MotionVec).away = false :=
  ⟨paged_takes ⟨rfl, fun _ => rfl, rfl, fun _ _ => rfl⟩ (by decide +kernel) _ _ (by decide) (by decide), by decide +kernel, by decide +kernel, by decide, by decide,
    by decide +kernel, rfl⟩

/-- A reference area of 128 KiB at 0x80000, which the decoder may write; without one it writes nothing. -/
theorem witness_IntakeTurnsAndFrames_references : ((intake cam0 serving).part 0).refSize = 0 ∧
    Takes ({ intake cam0 serving with parts := [(0, { Part.reset with ptbase := 0x10000, refBase := 0x80000, refSize := 2 })] } : State) 0 0x80000 (2 ^ 16 * 2) :=
  ⟨rfl, paged_takes ⟨rfl, fun _ => rfl, rfl, fun _ _ => rfl⟩ (by decide +kernel) _ _ (by decide) (by decide)⟩

theorem test_turns : ((after .decodePeriod (intake { cam0 with credit := -5 } serving)).camera 4).credit = 245 ∧
    ((after (.decodeTurnStart 1 (.ok false)) (intake cam0 Decoder.reset)).decoder 1).serving = some 4 ∧
    ((after (.decodeTurnStart 1 (.unsupported 0 false)) (intake cam0 Decoder.reset)).camera 4).state = 2 ∧
    ((after (.decodeQuantumExpiry 1) (intake cam0 serving)).decoder 1).expired = true ∧
    (let c := (after (.decodeTurnEnd 1 9 .accessUnit) (intake cam0 serving)).camera 4
     (c.credit, c.units.length, c.decoded.length)) = (-6, 0, 1) := by decide +kernel

/-- A frame of 16 by 16: luma at offset 0x100 of its slot, chroma 16 rows of 256 bytes after it; DISC, KEY and HELD in the upper bits of word 0, the camera in [39:32] (R311). -/
theorem test_frame : (let t := after (.framePublish 4 frame16) (intake shown serving)
    ((t.camera 4).frame, (t.camera 4).toSubmit, [4, 6, 0x100, 0x101, 0x102, 0x1100, 0x1101].map (fun i => (mget t.mem (0x40000 + i)).toNat))) =
      (1, [(0, 0, 0x40000)], [4, 0x19, 0x11, 0x12, 0, 0x21, 0x22]) ∧
    ((after (.framePublish 4 frame16) (held shown)).camera 4).blocked = true ∧
    ((after (.intakeSlotFreed 4) (intake { cam0 with blocked := true } serving)).camera 4).blocked = false := by decide +kernel

theorem test_auto_submit : (let t := after (.autoSubmit 4) (intake due serving)
    ((t.camera 4).toSubmit, t.tasks.length, [0x70, 0x79].map (fun i => (mget t.mem (0x50080 + i)).toNat))) = ([], 1, [5, 0x10]) := by decide +kernel
/-! The firmware, resets, and what every step keeps. -/

/-- Partition 0 has page tables (an identity page of 512 MiB), two units for references, 4 spare stream entries; the device is ready. -/
def fw : State :=
  { paged { State.reset with bootState := 6, cycle := 99 } with
    parts := [(0, { Part.reset with ptbase := 0x10000, spillSize := 4, refSize := 2 })]
    cameras := [(4, { cam0 with inst := 0 })]
    links := [(5 * 8 + 2, { corrected := 6, errors := 3, marked := true })] }

def pp : PartParams := ⟨0, 0xFF, 0x20000, 1024, 0, 0, 0, 0x30000, 6, 0x40000, 4, 0x50000, 2⟩

/-- The tables that pp names, at 0x20000: an identity page. -/
def fw2 : State := { fw with mem := [(0x20000, 1), (0x20002, 4), (0x40000, 7)] }

/-- LAT 1, NSLOT 2, BUDGET 1, EN; 16 by 16 of partition 0; a slot of 64 KiB. -/
def cp : CameraParams := ⟨BitVec.ofNat 64 (2 ^ 40 + 2 * 2 ^ 32 + 2 ^ 16 + 1), 0x100010, 0x60000, 0x10000, 0, 0, 0, 2 ^ 16⟩

def win : Window := { Window.reset with en := true, form := 0, cfmt := 1, vbase := 2 ^ 44, vlim := 2 ^ 44 + 2 ^ 16, data := 64, aux := 16 }

def clk : ClkParams := ⟨0, [1, 2, 3, 16], [4, 4, 4, 4], [0, 0, 0, 0, 0, 0, 65535], List.replicate 16 7⟩


theorem witness_ConfigurationCommands :
    (pp.part = 0 ∧ Posted (posted 16 0x02 fw2) 16 0x02 false ∧ partParamsOk pp = true ∧ (posted 16 0x02 fw2).hasParts = true ∧
      (posted 16 0x02 fw2).spillSum 0 4096 ≤ pp.spillSize ∧ (posted 16 0x02 fw2).refSum 0 256 ≤ pp.refSize ∧
      (∀ v, v = (posted 16 0x02 fw2).modPart 0 (fun p => p.configured pp) →
        (pp.spillSize = 0 ∨ v.pagesWritable 0 pp.spillBase.toNat (128 * pp.spillSize) = true) ∧
        (pp.refSize = 0 ∨ v.pagesWritable 0 pp.refBase.toNat (2 ^ 16 * pp.refSize) = true))) ∧
    (Posted (posted 15 0x02 fw) 15 0x02 false ∧ Posted (posted 15 0x0D fw) 15 0x0D false ∧ 14 ≠ 15) ∧
    (((posted 2 0x04 { fw with bootState := 5 }).mailbox 2).busy = true ∧ ((posted 2 0x04 { fw with bootState := 5 }).mailbox 2).op = 0x04 ∧
      (posted 2 0x04 { fw with bootState := 5 }).goOrder.head? = some 2 ∧ (posted 2 0x04 { fw with bootState := 5 }).bootState ≠ 6) ∧
    (Posted (posted 0 0x03 fw) 0 0x03 false ∧ (posted 0 0x03 fw).streamDenied 0 4095 = false ∧
      streamArgsOk 4095 (4 * 2 ^ 32 + 2 ^ 8 + 1) 0x60000 16 = true ∧
      (posted 0 0x03 fw).spillSum (actsFor 0 ((posted 0 0x03 fw).stream 4095).part) 4095 + nfield (4 * 2 ^ 32 + 2 ^ 8 + 1) 32 16 ≤
        ((posted 0 0x03 fw).part (actsFor 0 ((posted 0 0x03 fw).stream 4095).part)).spillSize ∧ ∀ t ∈ (posted 0 0x03 fw).tasks, t.recordFault = none) ∧
    (Posted (posted 16 0x09 fw) 16 0x09 false ∧ (let ctl : BitVec 64 := BitVec.ofNat 64 (2 ^ 63 + 2 ^ 24)
      nfield ctl.toNat 32 31 = 0 ∧ nfield ctl.toNat 0 24 = 0 ∧
      win = { en := ctl.getLsbD 63, form := ctl.toNat / 2 ^ 28 % 16, cfmt := ctl.extractLsb' 24 4, vbase := 2 ^ 44, vlim := 2 ^ 44 + 2 ^ 16, data := 64, aux := 16,
              satcnt := (0 : BitVec 64).toNat }) ∧ win.form < 5 ∧ (posted 16 0x09 fw).windowOk 15 win = true ∧
      (2 ^ 44 + 2 ^ 16) % 2 ^ 16 = 0 ∧ 64 % 64 = 0 ∧ 16 % 16 = 0) ∧
    (Posted (posted 0 0x0A fw) 0 0x0A false ∧ (((posted 0 0x0A fw).camera 255).withRegs cp).part = 0 ∧ ((posted 0 0x0A fw).camera 255).state = 0 ∧
      cameraReservedOk cp = true ∧ (((posted 0 0x0A fw).camera 255).withRegs cp).limitsOk = true ∧
      (posted 0 0x0A fw).cameraFits 255 (((posted 0 0x0A fw).camera 255).withRegs cp) = true ∧ (((posted 0 0x0A fw).camera 255).withRegs cp).en = true ∧
      (posted 0 0x0A fw).refSum 0 255 + (((posted 0 0x0A fw).camera 255).withRegs cp).refUnits ≤ ((posted 0 0x0A fw).part 0).refSize) := by
  refine ⟨⟨rfl, by unfold Posted; decide +kernel, by decide +kernel, by decide +kernel, by decide +kernel, by decide +kernel, ?_⟩, ?_⟩
  · rintro v rfl
    decide +kernel
  · unfold Posted
    decide +kernel

/-- A device that is not ready; commands of the physical function, of another partition, stream or camera; the pages that rings start with. -/
theorem witness_ConfigurationCommands_3 :
    ((posted 15 0x0D { fw with bootState := 7 }).mailbox 15).busy = true ∧ (posted 15 0x0D { fw with bootState := 7 }).bootState ≠ 6 ∧
    (posted 15 0x01 { fw with bootState := 5 }).bootState ≠ 7 ∧ (3 : Nat) ≠ 16 ∧ Posted (posted 3 0x12 fw) 3 0x12 false ∧
    (Posted (posted 3 0x08 fw) 3 0x08 false ∧ ((posted 3 0x08 fw).part 0).migration = none ∧ (0 : Nat) ≠ 3) ∧
    (Posted (posted 3 0x03 fw) 3 0x03 false ∧ (posted 3 0x03 { fw with streams := [(9, { Stream.reset with part := 2, en := true })] }).streamDenied 3 9 = true) ∧
    (Posted (posted 3 0x04 fw) 3 0x04 false ∧ ((posted 3 0x04 fw).stream 9).part ≠ 3) ∧
    (Posted (posted 3 0x0A fw) 3 0x0A false ∧ (((posted 3 0x0A fw).camera 255).withRegs cp).part ≠ 3) ∧
    (Posted (posted 3 0x0B fw) 3 0x0B false ∧ ((posted 3 0x0B fw).camera 4).part ≠ 3) ∧
    Takes ((posted 16 0x0E fw).modPart 0 (fun p => { p with events := { on := true, base := 0x60000, n := 6 } })) 0 0x60000 64 ∧
    (posted 0 0x03 fw).spillSum 0 9 + nfield (5 * 2 ^ 32) 32 16 > ((posted 0 0x03 fw).part 0).spillSize ∧
    (posted 0 0x0A { fw with parts := [(0, Part.reset)] }).refSum 0 255 + (((posted 0 0x0A fw).camera 255).withRegs cp).refUnits > Part.reset.refSize := by
  unfold Posted
  iterate 10 refine ⟨by decide +kernel, ?_⟩
  exact ⟨paged_takes ⟨rfl, fun _ => rfl, rfl, fun _ _ => rfl⟩ (by decide +kernel) _ _ (by decide) (by decide), by decide +kernel, by decide +kernel⟩

theorem witness_ConfigurationCommands_2 :
    (Posted (posted 3 0x0C fw) 3 0x0C false ∧ 15 < 16 ∧
      (ccParams (.values 1 (List.replicate 9 0x3F800000) [0, 0, 0] [0, 0, 0] [0x3F800000, 0, 0])).isSome = true ∧
      (ccParams (.values 2 (List.replicate 9 0) [0, 0, 0] [0, 0, 0] [0, 0, 0])).isSome = false) ∧
    (Posted (posted 3 0x0D fw) 3 0x0D false ∧ (262144 : BitVec 64).toNat ≤ 262144 ∧ (8 : BitVec 64).toNat % 8 = 0 ∧ (4 : BitVec 64).toNat % 4 = 0 ∧
      (0x7FFFFF : BitVec 64).toNat < 2 ^ 23) ∧
    (Posted (posted 16 0x0E fw) 16 0x0E false ∧ Posted (posted 0 0x0F fw) 0 0x0F false ∧ 6 ≤ 6 ∧ 16 ≤ 16 ∧ (0xFFFFFFFFFFFFC0 : BitVec 64).toNat < 2 ^ 56) ∧
    Posted (posted 16 0x10 fw) 16 0x10 false ∧ (Posted (posted 16 0x11 fw) 16 0x11 false ∧ (posted 16 0x11 fw).clkOk clk = true) ∧
    (Posted (posted 16 0x12 fw) 16 0x12 false ∧ 65535 < 2 ^ 16) := by
  unfold Posted
  decide +kernel

/-- Camera 4 on, in error, and on to be turned off. -/
def camIn (n : Nat) : State := posted 0 0x0A { fw with cameras := [(4, { cam0 with inst := 0, state := n, skipped := 20 })] }

def cpOff : CameraParams := { cp with ctl := BitVec.ofNat 64 (2 ^ 40 + 2 * 2 ^ 32 + 2 ^ 16) }

theorem witness_ConfigurationCommands_cameras :
    (∀ n ∈ [1, 2], Posted (camIn n) 0 0x0A false ∧ ((camIn n).camera 4).state = n ∧ ((camIn n).camera 4).part = 0 ∧
      (((camIn n).camera 4).withRegs cp).part = 0 ∧ (((camIn n).camera 4).withRegs cp).limitsOk = true ∧
      (camIn n).cameraFits 4 (((camIn n).camera 4).withRegs cp) = true ∧ (((camIn n).camera 4).withRegs cp).en = true ∧
      (camIn n).refSum 0 4 + (((camIn n).camera 4).withRegs cp).refUnits ≤ ((camIn n).part 0).refSize ∧
      cameraReservedOk cpOff = true ∧ (((camIn n).camera 4).withRegs cpOff).limitsOk = true ∧
      (camIn n).cameraFits 4 (((camIn n).camera 4).withRegs cpOff) = true ∧ (((camIn n).camera 4).withRegs cpOff).en = false ∧
      ((camIn n).camera 4).held + ((camIn n).camera 4).skipped ≠ 0) ∧
    ((fw.camera 9).held + (fw.camera 9).skipped = 0) ∧ (((posted 16 0x12 fw).rail 15).undervolt ≠ true ∧ ((posted 16 0x12 fw).rail 15).undervolt = false) := by
  unfold Posted
  decide +kernel

/-- CAMERA_CFG of a stream in error restarts it, which skips to its next key frame; with EN 0 it turns it off. The 120 bytes that it held are
reported where the partition has an event ring (R310); the credit is answered (R330). -/
theorem test_camera_states : (let t := after (.cameraCfg 0 4 cp) (camIn 2)
    ((t.camera 4).state, (t.camera 4).skipToKey, (t.camera 4).units, (tget 0 (t.mailbox 0).rsp 1).toNat)) = (1, true, [], 0) ∧
    (let t := after (.cameraCfg 0 4 cpOff) (camIn 1)
    ((t.camera 4).state, (t.camera 4).units, (tget 0 (t.mailbox 0).rsp 1).toNat)) = (0, [], 3) := by decide +kernel

/-- What a command answers: STATUS, and the TAG. -/
def answer (fn : Nat) (s : State) : Nat × Nat := let w := (tget 0 (s.mailbox fn).rsp 0).toNat; (w % 2 ^ 32, w / 2 ^ 32)

theorem test_part_cfg : (let t := after (.partCfg 16 pp) (posted 16 0x02 fw2)
    (answer 16 t, (t.part 0).lease, (t.part 0).quads, (t.part 0).frOn)) = ((0, 0x1234), 1024, 0xFF, true) ∧
    answer 15 (after (.partCfg 15 pp) (posted 15 0x02 fw2)) = (3, 0x1234) ∧
    answer 16 (after (.partCfg 16 { pp with lease := 15 }) (posted 16 0x02 fw2)) = (2, 0x1234) := by decide +kernel

theorem test_stream_cfg : (let t := after (.streamCfg 0 9 (BitVec.ofNat 64 (4 * 2 ^ 32 + 7 * 2 ^ 16 + 3 * 2 ^ 8 + 1)) 0x60000 5) (posted 0 0x03 fw)
    (answer 0 t, (t.stream 9).en, (t.stream 9).weight, (t.stream 9).age, (t.stream 9).l2ent)) = ((0, 0x1234), true, 3, 7, 5) ∧
    answer 0 (after (.streamCfg 0 9 (BitVec.ofNat 64 (5 * 2 ^ 32 + 3 * 2 ^ 8 + 1)) 0x60000 5) (posted 0 0x03 fw)) = (5, 0x1234) := by decide +kernel

theorem test_fmtwin : (after (.fmtwin 16 15 ⟨BitVec.ofNat 64 (2 ^ 63 + 2 ^ 24), 7⟩ (BitVec.ofNat 64 (2 ^ 44)) (BitVec.ofNat 64 (2 ^ 44 + 2 ^ 16)) 64 16)
    (posted 16 0x09 fw)).window 15 = { win with satcnt := 7 } := by decide +kernel

theorem test_camera_cfg : (let t := after (.cameraCfg 0 255 cp) (posted 0 0x0A fw)
    (answer 0 t, (t.camera 255).state, (t.camera 255).disc, (t.camera 255).maxw)) = ((0, 0x1234), 1, true, 16) := by decide +kernel

theorem test_rings : ((after (.eventRing 16 0 0x60000 6) (posted 16 0x0E fw)).part 0).events = { on := true, base := 0x60000, n := 6 } ∧
    answer 0 (after (.counterRing 0 0 0x60000 5) (posted 0 0x0F fw)) = (2, 0x1234) ∧
    ((after (.peerJoin 16 0 3 2) (posted 16 0x10 fw)).part 0).joined = [(3, 2)] := by decide +kernel

theorem test_tables : (tget CcSet.reset ((after (.ccset 3 3 15 (.values 1 (List.replicate 9 0x3F800000) [0, 0, 0] [0, 0, 0] [0, 0, 0])) (posted 3 0x0C fw)).part 3).ccsets 15).en = true ∧
    tget Dict.reset ((after (.dict 3 3 0 5 8 4 6) (posted 3 0x0D fw)).part 3).dicts 0 = { nnodes := 5, node := 8, edge := 4, nedges := 6 } ∧
    answer 3 (after (.dict 3 2 0 5 8 4 6) (posted 3 0x0D fw)) = (3, 0x1234) := by decide +kernel

theorem test_clocks : ((after (.clkCfg 16 clk) (posted 16 0x11 fw)).part 0).floors.toList = [1, 2, 3, 16] ∧
    ((after (.powerCfg 16 15 true 5) (posted 16 0x12 fw)).rail 15).undervolt = true := by decide +kernel

/-- Partition 0 with a task of stream 2, on core 0; its TLB holds a page of 512 KiB from page 2 on, and one of 64 KiB. -/
def tasked (t : Task) : State :=
  { fw with
    tasks := [t]
    cores := [(0, { kh with tlb := [{ vpage := 2, units := 8, pa := 0, w := true, stash := false, sec := false },
                                    { vpage := 10, units := 1, pa := 0, w := true, stash := false, sec := false }] })]
    streams := [(2, { Stream.reset with en := true })] }

def waits : Task := { t1 with phase := .saved, awaits := .service }

/-- QUERY in STATE 6 and STATE 7, LINK_QUERY at its limits, the unassigned codes at the ends of their ranges, SUBMIT with room and without. -/
theorem witness_ServiceCommands :
    (Posted (posted 3 0x01 fw) 3 0x01 true ∧ Posted (posted 16 0x01 { fw with bootState := 7 }) 16 0x01 true) ∧
    (Posted (posted 16 0x16 fw) 16 0x16 false ∧ (383 : BitVec 9).toNat < 384) ∧
    (Posted (posted 1 (0 : BitVec 16).toNat fw) 1 (0 : BitVec 16).toNat false ∧ 0x17 ≤ (0x17 : BitVec 16).toNat ∧
      Posted (posted 1 (0x17 : BitVec 16).toNat fw) 1 (0x17 : BitVec 16).toNat false) ∧
    (Posted (posted 0 0x04 (tasked runTask)) 0 0x04 false ∧ ((posted 0 0x04 (tasked runTask)).stream 2).part = 0 ∧
      ((posted 0 0x04 (tasked runTask)).stream 2).en = true ∧ (posted 0 0x04 (tasked runTask)).streamFull 2 = false ∧
      (posted 0 0x04 { tasked runTask with tasks := List.replicate 32 t1 }).streamFull 2 = true) := by
  unfold Posted
  decide +kernel

/-- TASK_END of a task that runs, that has ended, and of none; FAULT_SERVICE; SHOOTDOWN; MIGRATE of the page to host memory. -/
theorem witness_ServiceCommands_2 :
    (Posted (posted 0 0x05 (tasked runTask)) 0 0x05 false ∧ (posted 0 0x05 (tasked runTask)).task? 0 1 = some runTask ∧ runTask.ended = false ∧
      (posted 0 0x05 (tasked runTask)).tstat 0 1 ≠ 0 ∧ runTask.phase = .running ∧ (waits.phase ≠ .running ∧ waits.ended = false ∧
      (posted 0 0x05 (tasked waits)).task? 0 1 = some waits ∧ (posted 0 0x05 (tasked waits)).tstat 0 1 ≠ 0) ∧ taskName 0 1 = (0, 1) ∧
      (posted 0 0x05 (tasked runTask)).tstat 0 9 = 0 ∧ ended.ended = true ∧ (posted 0 0x05 (tasked ended)).task? 0 1 = some ended ∧
      (posted 0 0x05 (tasked ended)).tstat 0 1 ≠ 0 ∧ (posted 0 0x05 (tasked runTask)).task? 0 (2 ^ 32 - 1) = none) ∧
    (Posted (posted 0 0x06 (tasked waits)) 0 0x06 false ∧ (posted 0 0x06 (tasked waits)).task? 0 1 = some waits) ∧
    (Posted (posted 0 0x07 (tasked runTask)) 0 0x07 false ∧ ((posted 0 0x07 (tasked runTask)).core 0).resident = true ∧
      ((posted 0 0x07 (tasked runTask)).core 0).part = 0) ∧
    (Posted (posted 0 0x08 fw) 0 0x08 false ∧ ((posted 0 0x08 fw).part 0).migration = none ∧
      ∃ l a, (posted 0 0x08 fw).leafEntry 0 0 = some (l, a) ∧ 2 ^ 51 % (l.units * 2 ^ 16) = 0 ∧ (posted 0 0x08 fw).pageOk 0 (2 ^ 51) l.units = true ∧
        migrationWay l.pa (2 ^ 51) = true ∧ (posted 0 0x08 fw).inWindow l.pa (l.units * 2 ^ 16) = false ∧
        (posted 0 0x08 fw).inWindow (2 ^ 51) (l.units * 2 ^ 16) = false) := by
  unfold Posted
  refine ⟨?_, ?_, ?_, ?_, ?_, _, _, rfl, ?_⟩ <;> decide +kernel

/-- CAMERA_AU that fills the buffer to its last byte, and by one too many; PATCH_LOAD, CONFIG_WRITE and ATTEST. Whether a signature verifies, and what
an image or a record says, are free: each of the values that a clause asks for is a case, and one of them holds. -/
theorem witness_ServiceCommands_3 :
    (Posted (posted 0 0x0B fw) 0 0x0B false ∧ ((posted 0 0x0B fw).camera 4).part = 0 ∧ ((posted 0 0x0B fw).camera 4).running = true ∧
      ((posted 0 0x0B fw).camera 4).held + 65436 ≤ ((posted 0 0x0B fw).camera 4).ingress ∧
      ((posted 0 0x0B fw).camera 4).ingress < ((posted 0 0x0B fw).camera 4).held + 65437) ∧
    Posted (posted 16 0x13 fw) 16 0x13 false ∧ Posted (posted 16 0x14 fw) 16 0x14 false ∧ Posted (posted 5 0x15 { fw with bootState := 7 }) 5 0x15 true ∧
    (2 ^ 50 - 1 : BitVec 64).toNat < 2 ^ 50 ∧
    (∀ bs, (Config.signatureOk [] bs = true ∧ (posted 16 0x13 fw).config.minpatch ≤ imageVersion bs) ∨ Config.signatureOk [] bs = false) ∧
    (∀ bs, Config.configCounter bs = (posted 16 0x14 fw).config.counter + 1 ∨ Config.configCounter bs ≠ (posted 16 0x14 fw).config.counter + 1) := by
  refine ⟨?_, ?_, ?_, ?_, by decide, fun bs => ?_, fun bs => Decidable.em _⟩
  · unfold Posted
    decide +kernel
  · unfold Posted
    decide +kernel
  · unfold Posted
    decide +kernel
  · unfold Posted
    decide +kernel
  · cases Config.signatureOk [] bs
    · exact .inr rfl
    · exact .inl ⟨rfl, Nat.zero_le _⟩

theorem test_queries : (let t := after (.linkQuery 16 5 2) (posted 16 0x16 fw)
    (answer 16 t, (tget 0 (t.mailbox 16).rsp 1).toNat, (tget 0 (t.mailbox 16).rsp 2).toNat)) = ((0, 0x1234), 3 * 2 ^ 32 + 6, 1) ∧
    (let t := after (.query 3) (posted 3 0x01 { fw with patchver := 9, bootState := 7, cores := [(65, { CoreSt.reset with withdrawn := true })] })
     [2, 3, 6].map (fun i => (tget 0 (t.mailbox 3).rsp i).toNat)) = [0, 2, 7] ∧
    answer 1 (after (.unsupportedCommand 1 0x17) (posted 1 0x17 fw)) = (4, 0x1234) := by decide +kernel

theorem test_submit : (let t := after (.submit 0 2 0x80) (posted 0 0x04 (tasked runTask))
    (answer 0 t, (tget 0 (t.mailbox 0).rsp 1).toNat, t.tasks.map (fun x => (x.id, x.kind)))) = ((0, 0x1234), 1, [(1, 11)]) ∧
    answer 0 (after (.submit 0 2 0x80) (posted 0 0x04 { tasked runTask with tasks := List.replicate 32 t1 })) = (5, 0x1234) := by decide +kernel

theorem test_task_commands : (after (.taskEnd 0 1) (posted 0 0x05 (tasked runTask))).tasks.map (fun t => (t.phase, t.fatal)) = [(.running, some (12, 0))] ∧
    (after (.taskEnd 0 1) (posted 0 0x05 (tasked waits))).tasks.map (fun t => (t.phase, t.kind)) = [(.failed, 12)] ∧
    answer 0 (after (.taskEnd 0 2) (posted 0 0x05 (tasked runTask))) = (2, 0x1234) ∧
    (after (.faultService 0 1) (posted 0 0x06 (tasked waits))).tasks.map (·.awaits) = [.nothing] := by decide +kernel

/-- Bytes 0x90000 to 0xA0000 lie in the first page, from 0x20000 to 0xA0000. -/
theorem test_shootdown : ((after (.shootdown 0 0 (some (0x90000, 0xA0000))) (posted 0 0x07 (tasked runTask))).core 0).tlb.map (·.vpage) = [10] ∧
    ((after (.shootdown 0 0 none) (posted 0 0x07 (tasked runTask))).core 0).tlb = [] := by decide +kernel

theorem test_migrate : (let t := after (.migrate 0 0 0 (BitVec.ofNat 64 (2 ^ 51))) (posted 0 0x08 fw)
    ((t.part 0).migration.map (fun m => (m.src, m.dst, m.lines)), (t.mailbox 0).busy)) = (some (0, 2 ^ 51, 2 ^ 22), true) ∧
    answer 0 (after (.migrate 0 0 0 (BitVec.ofNat 64 (2 ^ 51 + 2 ^ 16))) (posted 0 0x08 fw)) = (2, 0x1234) := by decide +kernel

theorem test_camera_au : ((after (.cameraAu 0 4 0 65436 7) (posted 0 0x0B fw)).camera 4).units.map (·.len) = [100, 65436] ∧
    answer 0 (after (.cameraAu 0 4 0 65437 7) (posted 0 0x0B fw)) = (1, 0x1234) ∧ answer 0 (after (.attest 0 0 (BitVec.ofNat 64 (2 ^ 50))) (posted 0 0x15 fw)) = (2, 0x1234) := by
  decide +kernel

theorem test_pf_only : answer 3 (after (.patchLoad 3 0) (posted 3 0x13 fw)) = (3, 0x1234) ∧ answer 3 (after (.configWrite 3 0) (posted 3 0x14 fw)) = (3, 0x1234) := by
  decide +kernel

/-- The first record of a device without one changes nothing before the next reset: PART_CFG is still taken (R357, R361). -/
theorem test_parts_before_reset : (posted 16 0x02 fw).hasParts = true ∧
    (posted 16 0x02 { fw with config := { fw.config with bytes := [1] } }).hasParts = true ∧ State.reset.hasParts = true := by decide +kernel

/-- The example of FIPS 180-4: SHA-384 of "abc". -/
theorem test_sha384 : bigEndian (sha384 [0x61, 0x62, 0x63]) =
    0xcb00753f45a35e8bb5a03d699ac65007272c32ab0eded1631a8b605a43ff5bed8086072ba1e7cc2358baeca134c825a7 := by decide +kernel

def good : BootReport := { romOk := true, flashOk := true, hbmOk := true, bar2 := 36, withdrawn := [], bankmap := [] }

def booting (n : Nat) : State := { State.reset with bootState := n }

/-- Each STATE of the bring-up; what a report, a record or an image says is a case each; partition 0 with a task that runs, that waits, a camera and a
migration. -/
theorem witness_ResetsAndBringUp :
    State.reset.bootState = 0 ∧ (booting 1).bootState = 1 ∧ { good with flashOk := false }.flashOk = false ∧
    ((booting 2).bootState = 2 ∧ good.flashOk = true ∧ (booting 2).config.bytes = [] ∧ ({ State.reset.config with bytes := [1] }).bytes ≠ [] ∧
      (booting 2).windowStorage = []) ∧
    ((booting 3).bootState = 3 ∧ (booting 3).flashPatch = none ∧ ({ booting 3 with flashPatch := some [1] } : State).flashPatch = some [1]) ∧
    (booting 4).bootState = 4 ∧ { good with withdrawn := [(65, 2)] }.withdrawn = [(65, 2)] ∧ good.bankmap = [] ∧ (booting 5).bootState = 5 ∧ 6 ≤ (booting 7).bootState ∧
    (0 < 16 ∧ runTask ∈ (tasked runTask).tasks ∧ runTask.part = 0 ∧ runTask.ended = false ∧ runTask.phase = .running ∧ ((tasked runTask).camera 4).part = 0 ∧
      ((tasked runTask).camera 4).state ≠ 0 ∧ (moving.part 0).migration.isSome = true) := by decide +kernel

theorem witness_ResetsAndBringUp_images (bs img : List Byte) (n : Nat) :
    ((Config.signatureOk bs bs = false ∨ regionsOk (regionsOf bs) = false) ∨ Config.signatureOk bs bs = true ∧ regionsOk (regionsOf bs) = true) ∧
    (Config.signatureOk [] img = true ∧ n ≤ imageVersion img ∨ Config.signatureOk [] img = false ∨ imageVersion img < n) := by
  constructor
  · cases Config.signatureOk bs bs <;> cases regionsOk (regionsOf bs) <;> simp
  · cases Config.signatureOk [] img
    · simp
    · rcases Nat.lt_or_ge (imageVersion img) n with h | h
      · exact .inr (.inr h)
      · exact .inl ⟨rfl, h⟩

/-- From STATE 0 to STATE 6 in six phases; BAR2 gets the size that the host gives it. -/
theorem test_bring_up : (let t := (List.range 6).foldl (fun s _ => after (.resetRelease good) s) State.reset
    (t.bootState, t.bar2, t.failcode)) = (6, 36, 0) ∧ (after (.resetRelease { good with hbmOk := false }) (booting 5)).failcode = 4 ∧
    ((after (.resetRelease { good with withdrawn := [(65, 2)] }) (booting 4)).core 65).withdrawn = true := by decide +kernel

theorem test_function_reset : (let t := after (.functionLevelReset 0) (tasked runTask)
    (t.tasks.map (·.kind), (t.camera 4).state, (t.core 0).resident)) = ([12], 0, false) := by decide +kernel

theorem test_perst : (let t := after .perstAssertion { host with mem := host.mem ++ [(2 ^ 51, 4)], flashPatch := some [3, 128] }
    (t.mem, t.flashPatch, t.bootState)) = ([(2 ^ 51, 4)], some [3, 128], 0) := by decide +kernel

def isNext (o : Res) : Bool := match o with | .next _ => true | _ => false

/-- A strand's step and a tick of a state whose memory is in its form. -/
theorem witness_EveryStepKeepsMemoryCanonical :
    (turnOf 0 .x kText).memWf ∧ isNext (step (turnOf 0 .x kText)) = true ∧ { host with turns := [.tick] }.memWf ∧ isNext (step { host with turns := [.tick] }) = true := by
  unfold State.memWf
  decide +kernel

end Sys2Proof.Tests
end

section
/-! PROOFS. What reset leaves: its tables are empty, so every core, pair, stream and other entry reads as its reset entry. -/

namespace Sys2Proof.Machine

theorem CoreSt.reset_strand (t : Strand) : CoreSt.reset.strand t = StrandSt.reset := by cases t <;> rfl

theorem CoreSt.reset_engine (e : Engine) : CoreSt.reset.engine e = EngineSt.reset := by cases e <;> rfl

theorem CoreSt.reset_row (r : RowName) : CoreSt.reset.row r = 0 := by
  cases r with
  | tile r i => rfl
  | operand i => simp [CoreSt.row, CoreSt.reset]

/-- Every outbound queue is empty, and so is the default that stands for one of no number. -/
theorem CoreSt.reset_lo_rows (i : Nat) :
    (CoreSt.reset.lo.toList.getD i { rows := [], peer := none, flight := [], used := 0 }).rows = [] := by
  have h : CoreSt.reset.lo.toList = List.replicate 4 { rows := [], peer := none, flight := [], used := 0 } := rfl
  rw [h, List.getD_eq_getElem?_getD, List.getElem?_getD_replicate_default_eq]

/-- Settles O60: each core reads as `CoreSt.reset`, whose parts are taken one by one; every other entry is its table's default. -/
theorem whatResetLeaves : Obligations.WhatResetLeaves := by
  refine ⟨rfl, rfl, rfl, rfl, rfl, rfl, rfl, rfl, rfl, rfl, rfl, ?core, fun _ => ⟨rfl, rfl, rfl, rfl⟩, fun _ => ⟨rfl, rfl, rfl, rfl⟩,
    fun _ => ⟨rfl, rfl, rfl, rfl, rfl, rfl⟩, fun _ => rfl, fun _ => rfl, fun _ => ⟨rfl, rfl, rfl, rfl, rfl⟩, fun _ => ⟨rfl, rfl⟩⟩
  case core =>
    rintro c k (rfl : k = CoreSt.reset)
    refine ⟨rfl, rfl, rfl, rfl, rfl, fun t => ?strand, CoreSt.reset_row, rfl, rfl, rfl, rfl, rfl, rfl, CoreSt.reset_lo_rows,
      rfl, rfl, rfl, rfl, rfl, rfl, rfl, rfl, rfl, rfl, rfl, rfl, rfl, rfl, fun e => ?engine,
      rfl, rfl, rfl, rfl, rfl, rfl, rfl, rfl, rfl, rfl, rfl, rfl, fun _ _ _ _ => rfl⟩
    case strand => rw [CoreSt.reset_strand]; exact ⟨rfl, rfl, rfl, rfl, rfl, rfl, rfl⟩
    case engine => rw [CoreSt.reset_engine]; exact ⟨rfl, rfl⟩

end Sys2Proof.Machine
end

section
/-! PROOFS. What the steps around a load's place leave as they were: the leaf cached, view lines filled, a request answered, recalls acted on. -/

namespace Sys2Proof.Machine

/-- Two states agree in what a fatal context error of core c is recorded against: memory, and the task whose context the core holds. -/
def SameTask (s t : State) (c : Nat) : Prop := t.mem = s.mem ∧ t.taskOf c = s.taskOf c

theorem SameTask.of_core {s t : State} {c : Nat} (hm : t.mem = s.mem) (ht : t.tasks = s.tasks)
    (hr : (t.core c).resident = (s.core c).resident) (hp : (t.core c).part = (s.core c).part) (hk : (t.core c).task = (s.core c).task) :
    SameTask s t c :=
  ⟨hm, by simp only [State.taskOf, State.task?, hr, hp, hk, ht]⟩

/-- Whether the gang of a core has failed depends on memory and on the task of that core alone. -/
theorem Failed.congr {s s' t t' : State} {c kd ad : Nat} (h : Failed s' t' c kd ad) (hs : SameTask s s' c) (ht : SameTask t' t c) :
    Failed s t c kd ad := by
  obtain ⟨hm, hg⟩ := h
  refine ⟨ht.1.trans (hm.trans hs.1), fun g hg0 hf => ?_⟩
  rw [ht.2]
  exact hg g (hs.2.trans hg0) hf

/-! Filling lines of views. -/

theorem State.fillLine_only (s : State) (line : Nat) :
    s.fillLine line = { s with viewLines := (s.fillLine line).viewLines, windows := (s.fillLine line).windows } := by
  unfold State.fillLine
  split
  · rfl
  · split <;> rfl

/-- Filling the lines of views changes those lines and the counts of their windows alone (R169). -/
theorem State.touch_only (s : State) (key n : Nat) :
    s.touch key n = { s with viewLines := (s.touch key n).viewLines, windows := (s.touch key n).windows } := by
  unfold State.touch
  split
  · rfl
  · refine List.foldlRecOn (motive := fun t : State => t = { s with viewLines := t.viewLines, windows := t.windows }) _ _ rfl ?_
    intro t ht i _
    rw [State.fillLine_only, ht]

@[simp] theorem State.touch_core (s : State) (key n c : Nat) : (s.touch key n).core c = s.core c := by
  rw [State.touch_only]; rfl

@[simp] theorem State.touch_mem (s : State) (key n : Nat) : (s.touch key n).mem = s.mem := by rw [State.touch_only]

@[simp] theorem State.touch_tasks (s : State) (key n : Nat) : (s.touch key n).tasks = s.tasks := by rw [State.touch_only]

@[simp] theorem State.touch_times (s : State) (key n : Nat) : (s.touch key n).times = s.times := by rw [State.touch_only]

@[simp] theorem State.touch_outstanding (s : State) (key n : Nat) : (s.touch key n).outstanding = s.outstanding := by rw [State.touch_only]

/-! Caching the leaf of an address. -/

/-- Caching a leaf changes the TLB of its core, and nothing else (R297). -/
theorem State.cacheLeaf_cases (s : State) (c va : Nat) :
    s.cacheLeaf c va = s ∨ ∃ l, s.cacheLeaf c va = s.setCore c { s.core c with tlb := l } := by
  unfold State.cacheLeaf
  split
  · exact .inl rfl
  · split
    · exact .inr ⟨_, rfl⟩
    · exact .inl rfl

theorem State.cacheLeaf_core (s : State) (c va : Nat) : ∃ l, (s.cacheLeaf c va).core c = { s.core c with tlb := l } := by
  rcases s.cacheLeaf_cases c va with h | ⟨l, h⟩
  · exact ⟨(s.core c).tlb, by rw [h]⟩
  · exact ⟨l, by rw [h, State.core_setCore_self]⟩

@[simp] theorem State.cacheLeaf_mem (s : State) (c va : Nat) : (s.cacheLeaf c va).mem = s.mem := by
  rcases s.cacheLeaf_cases c va with h | ⟨l, h⟩ <;> rw [h]; rfl

@[simp] theorem State.cacheLeaf_tasks (s : State) (c va : Nat) : (s.cacheLeaf c va).tasks = s.tasks := by
  rcases s.cacheLeaf_cases c va with h | ⟨l, h⟩ <;> rw [h]; rfl

@[simp] theorem State.cacheLeaf_times (s : State) (c va : Nat) : (s.cacheLeaf c va).times = s.times := by
  rcases s.cacheLeaf_cases c va with h | ⟨l, h⟩ <;> rw [h]; rfl

@[simp] theorem State.cacheLeaf_outstanding (s : State) (c va : Nat) : (s.cacheLeaf c va).outstanding = s.outstanding := by
  rcases s.cacheLeaf_cases c va with h | ⟨l, h⟩ <;> rw [h]; rfl

/-! Recalls that take effect. -/

theorem State.leaveMark_cases (s : State) (c : Nat) (x : StashLine) : ∃ l, s.leaveMark c x = { s with poison := l } := by
  unfold State.leaveMark
  split
  · split <;> exact ⟨_, rfl⟩
  · exact ⟨_, rfl⟩

/-- A line that a core gives up changes its stash and the marks of memory alone (R232). -/
theorem State.dropLine_cases (s : State) (c : Nat) (x : StashLine) :
    ∃ p l, s.dropLine c x = ({ s with poison := p } : State).setCore c { s.core c with stash := l } := by
  obtain ⟨p, h⟩ := s.leaveMark_cases c x
  exact ⟨p, _, by rw [State.dropLine, h]; rfl⟩

/-- Recalls that take effect change the stash of their core and the marks of memory alone (R232, R275). -/
theorem State.actRecalls_frame (s : State) (c : Nat) :
    (s.actRecalls c).mem = s.mem ∧ (s.actRecalls c).tasks = s.tasks ∧ (s.actRecalls c).times = s.times ∧
      ∃ l, (s.actRecalls c).core c = { s.core c with stash := l } := by
  unfold State.actRecalls
  refine List.foldlRecOn (motive := fun t : State => t.mem = s.mem ∧ t.tasks = s.tasks ∧ t.times = s.times ∧
    ∃ l, t.core c = { s.core c with stash := l }) _ _ ⟨rfl, rfl, rfl, _, rfl⟩ ?_
  rintro t ⟨hm, ht, hl, _, hk⟩ x _
  obtain ⟨p, l, hx⟩ := t.dropLine_cases c x
  rw [hx]
  exact ⟨hm, ht, hl, l, by rw [State.core_setCore_self, hk]⟩

@[simp] theorem State.actRecalls_mem (s : State) (c : Nat) : (s.actRecalls c).mem = s.mem := (s.actRecalls_frame c).1

@[simp] theorem State.actRecalls_tasks (s : State) (c : Nat) : (s.actRecalls c).tasks = s.tasks := (s.actRecalls_frame c).2.1

@[simp] theorem State.actRecalls_times (s : State) (c : Nat) : (s.actRecalls c).times = s.times := (s.actRecalls_frame c).2.2.1

theorem State.actRecalls_core (s : State) (c : Nat) : ∃ l, (s.actRecalls c).core c = { s.core c with stash := l } :=
  (s.actRecalls_frame c).2.2.2

theorem SameTask.actRecalls (s : State) (c : Nat) : SameTask s (s.actRecalls c) c := by
  obtain ⟨l, h⟩ := s.actRecalls_core c
  exact .of_core (s.actRecalls_mem c) (s.actRecalls_tasks c) (by rw [h]) (by rw [h]) (by rw [h])

/-- Caching a leaf and filling lines of views touch no task and no memory. -/
theorem SameTask.touch_cacheLeaf (s : State) (c va key n : Nat) : SameTask s ((s.cacheLeaf c va).touch key n) c := by
  obtain ⟨l, h⟩ := s.cacheLeaf_core c va
  exact .of_core (by simp) (by simp) (by simp [h]) (by simp [h]) (by simp [h])

/-! A request answered, and a fatal context error. -/

@[simp] theorem State.core_answer (s : State) (c d : Nat) (w : Req) : (s.answer c w).core d = s.core d := rfl

/-- Changing the task of a partition and an id, in a way that keeps both, changes what is found under them. -/
theorem State.task?_modTask (s : State) (p i : Nat) (f : Task → Task) (hf : ∀ g, (f g).part = g.part ∧ (f g).id = g.id) :
    (s.modTask p i f).task? p i = (s.task? p i).map f := by
  have hp : ((fun t : Task => t.part == p && t.id == i) ∘ fun t => if (t.part == p && t.id == i) = true then f t else t) =
      fun t => t.part == p && t.id == i := by
    funext t
    simp only [Function.comp_apply]
    split
    · rw [(hf t).1, (hf t).2]
    · rfl
  simp only [State.modTask, State.task?, List.find?_map, hp]
  exact Option.map_congr fun g hg => if_pos (List.find?_some (p := fun t : Task => t.part == p && t.id == i) hg)

theorem State.taskOf_modTaskOf (s : State) (c : Nat) (f : Task → Task) (hf : ∀ g, (f g).part = g.part ∧ (f g).id = g.id) :
    (s.modTaskOf c f).taskOf c = (s.taskOf c).map f := by
  unfold State.modTaskOf State.taskOf
  by_cases hr : (s.core c).resident = true
  · rw [if_pos hr, if_pos hr, State.core_modTask, if_pos hr, State.task?_modTask _ _ _ _ hf]
  · rw [if_neg hr, if_neg hr, Option.map_none]

/-- A fatal context error is recorded with its kind and address where it is the gang's first (R294). -/
theorem raiseFatal_failed (s : State) (c kd ad : Nat) : Failed s (raiseFatal s c kd ad) c kd ad := by
  refine ⟨State.modTaskOf_mem _ _ _, fun g hg hf => ⟨{ g with fatal := some (kd, ad) }, ?_, rfl⟩⟩
  rw [raiseFatal, State.taskOf_modTaskOf, hg]
  · simp [hf]
  · intro g
    split <;> exact ⟨rfl, rfl⟩

/-- An access that fails has left its core's order; its core is else as it was. -/
theorem State.failAccess_core (s : State) (c : Nat) (a : Access) (kd ad : Nat) :
    (s.failAccess c a kd ad).core c = { s.core c with aq := (s.core c).aq.filter (fun b => b.id != a.id) } := by
  rw [State.failAccess, State.core_answer, State.core_modCore_self, raiseFatal, State.core_modTaskOf]

theorem State.failAccess_failed (s : State) (c : Nat) (a : Access) (kd ad : Nat) : Failed s (s.failAccess c a kd ad) c kd ad := by
  have h : (raiseFatal s c kd ad).core c = s.core c := State.core_modTaskOf _ _ _ _
  refine (raiseFatal_failed s c kd ad).congr ⟨rfl, rfl⟩ (.of_core rfl rfl ?_ ?_ ?_) <;> rw [State.failAccess_core, h]

end Sys2Proof.Machine
end

section
/-! PROOFS. The completion of a load: what it delivers, and what of its core it leaves as it was (R75, R97, R121, R126). -/

namespace Sys2Proof.Machine

/-! The bytes delivered. -/

/-- The sign of a number of n bytes is its highest bit, whichever way that is asked. -/
theorem two_pow_pred_le_natOfBytes_iff (n : Nat) (bs : List Byte) (h : bs.length = n) :
    2 ^ (8 * n - 1) ≤ natOfBytes bs ↔ 2 ^ (8 * n) ≤ 2 * natOfBytes bs := by
  cases n with
  | zero => simp [List.length_eq_zero_iff.mp h, natOfBytes]
  | succ n =>
    have : 2 ^ (8 * (n + 1)) = 2 * 2 ^ (8 * (n + 1) - 1) := by rw [← Nat.pow_succ']; rfl
    omega

/-- A load into a register writes its bytes, extended by sign or zero. -/
theorem CoreSt.deliver_reg (k : CoreSt) (id b : Nat) (sg : Bool) (j : BitVec 4) (bs : List Byte) (h : bs.length = b) :
    k.deliver id b sg (.reg j) bs = k.setA j.toNat (extended sg bs) := by
  simp [CoreSt.deliver, extended, h, two_pow_pred_le_natOfBytes_iff b bs h]

/-- A load into a queue fills entries that it has reserved with its bytes, extended by sign or zero, the low half of two first. -/
theorem CoreSt.deliver_queue (k : CoreSt) (id b : Nat) (sg : Bool) (q : BitVec 2) (bs : List Byte) (h : bs.length = b) :
    k.deliver id b sg (.queue q) bs = { k with ax := k.ax.set q.toNat (fillReserved (k.reservedBefore id q) (k.ax.get q.toFin)
      (if b = 8 then [(extended sg bs).setWidth 32, (extended sg bs).extractLsb' 32 32] else [(extended sg bs).setWidth 32])) q.isLt } := by
  simp [CoreSt.deliver, extended, h, two_pow_pred_le_natOfBytes_iff b bs h]

/-- Delivery writes A's registers and queues alone. -/
theorem CoreSt.deliver_cases (k : CoreSt) (id b : Nat) (sg : Bool) (d : LoadDst) (bs : List Byte) :
    ∃ r q, k.deliver id b sg d bs = { k with ar := r, ax := q } := by
  cases d with
  | reg j =>
    simp only [CoreSt.deliver, CoreSt.setA]
    split <;> exact ⟨_, _, rfl⟩
  | discard => exact ⟨_, _, rfl⟩
  | queue q => exact ⟨_, _, rfl⟩

/-- A register reads as it was written. -/
theorem CoreSt.aAt_setA (k : CoreSt) (j : BitVec 4) (x : Dword) : (k.setA j.toNat x).aAt j.toNat = x := by
  have hj : j.toNat < 16 := j.isLt
  simp [CoreSt.aAt, CoreSt.setA, hj]

/-- A write of a register leaves every other alone. -/
theorem CoreSt.aAt_setA_ne (k : CoreSt) (j n : Nat) (x : Dword) (h : n ≠ j) : (k.setA j x).aAt n = k.aAt n := by
  unfold CoreSt.setA
  split
  · simp [CoreSt.aAt, h.symm]
  · rfl

/-! Reserved entries of a queue. -/

theorem fillReserved_done (l : List (Option Word)) : fillReserved 0 l [] = l := by
  induction l with
  | nil => rfl
  | cons e r ih =>
    cases e with
    | none => rfl
    | some x => simp [fillReserved, ih]

theorem fillReserved_front (ws : List Word) (r : List (Option Word)) :
    fillReserved 0 (List.replicate ws.length none ++ r) ws = ws.map some ++ r := by
  induction ws with
  | nil => exact fillReserved_done r
  | cons w ws ih => simp [List.replicate_succ, fillReserved, ih]

/-- Entries that older loads have reserved stay reserved; the first ones behind them take their values (R75). -/
theorem fillReserved_behind (l r : List (Option Word)) (ws : List Word) :
    fillReserved (l.countP (·.isNone)) (l ++ List.replicate ws.length none ++ r) ws = l ++ ws.map some ++ r := by
  induction l with
  | nil => exact fillReserved_front ws r
  | cons e l ih =>
    cases e with
    | none => simpa [fillReserved] using ih
    | some x =>
      rw [List.countP_cons_of_neg (by simp)]
      simp only [List.cons_append, fillReserved, ih]

/-! Rows. -/

theorem CoreSt.setRow_cases (k : CoreSt) (n : RowName) (v : Row) : ∃ t o, k.setRow n v = { k with tile := t, o := o } := by
  cases n with
  | tile r i => exact ⟨_, _, rfl⟩
  | operand i =>
    simp only [CoreSt.setRow]
    split <;> exact ⟨_, _, rfl⟩

/-- A row of the core reads as it was written. -/
theorem CoreSt.row_setRow (k : CoreSt) (n : RowName) (v : Row) (h : ∀ p, n = .operand p → p < 8) : (k.setRow n v).row n = v := by
  cases n with
  | tile r i => exact tget_tset_self _ _ _ _
  | operand i => simp [CoreSt.row, CoreSt.setRow, h i rfl]

/-- A write of a row leaves every tile row of another name alone. -/
theorem CoreSt.tileRow_setRow_ne (k : CoreSt) (n : RowName) (v : Row) (p q : Nat) (hn : ∀ p q, n = .tile p q → q < 64) (hq : q < 64)
    (h : n ≠ .tile p q) : (k.setRow n v).row (.tile p q) = k.row (.tile p q) := by
  cases n with
  | tile r i =>
    have hi := hn r i rfl
    refine tget_tset_ne _ _ _ _ _ fun e => h ?_
    have : r = p ∧ i = q := by omega
    rw [this.1, this.2]
  | operand i =>
    simp only [CoreSt.setRow]
    split <;> rfl

/-- A write of a row leaves every operand row of another name alone. -/
theorem CoreSt.operandRow_setRow_ne (k : CoreSt) (n : RowName) (v : Row) (p : Nat) (h : n ≠ .operand p) :
    (k.setRow n v).row (.operand p) = k.row (.operand p) := by
  cases n with
  | tile r i => rfl
  | operand i =>
    have hi : i ≠ p := fun e => h (by rw [e])
    simp only [CoreSt.setRow]
    split
    · simp only [CoreSt.row, Vector.getElem_set, if_neg hi]
    · rfl

/-! The signal. -/

theorem CoreSt.signalOwe_cases (k : CoreSt) (l : List (BitVec 4)) : ∃ t st, k.signalOwe .a l = { k with tk := t, a := st } := by
  induction l generalizing k with
  | nil => exact ⟨_, _, rfl⟩
  | cons w l ih =>
    obtain ⟨t, st, h⟩ := ih ((k.signal? w).getD (k.setStrand .a { k.strand .a with sigDue := (k.strand .a).sigDue ++ [w] }))
    rw [CoreSt.signalOwe, h]
    unfold CoreSt.signal?
    split <;> exact ⟨_, _, rfl⟩

@[simp] theorem CoreSt.signalOwe_ar (k : CoreSt) (l : List (BitVec 4)) : (k.signalOwe .a l).ar = k.ar := by
  obtain ⟨_, _, h⟩ := k.signalOwe_cases l; rw [h]

@[simp] theorem CoreSt.signalOwe_ax (k : CoreSt) (l : List (BitVec 4)) : (k.signalOwe .a l).ax = k.ax := by
  obtain ⟨_, _, h⟩ := k.signalOwe_cases l; rw [h]

@[simp] theorem CoreSt.signalOwe_tile (k : CoreSt) (l : List (BitVec 4)) : (k.signalOwe .a l).tile = k.tile := by
  obtain ⟨_, _, h⟩ := k.signalOwe_cases l; rw [h]

@[simp] theorem CoreSt.signalOwe_o (k : CoreSt) (l : List (BitVec 4)) : (k.signalOwe .a l).o = k.o := by
  obtain ⟨_, _, h⟩ := k.signalOwe_cases l; rw [h]

@[simp] theorem CoreSt.signalOwe_loads (k : CoreSt) (l : List (BitVec 4)) : (k.signalOwe .a l).loads = k.loads := by
  obtain ⟨_, _, h⟩ := k.signalOwe_cases l; rw [h]

@[simp] theorem CoreSt.signalOwe_busy (k : CoreSt) (l : List (BitVec 4)) : (k.signalOwe .a l).busy = k.busy := by
  obtain ⟨_, _, h⟩ := k.signalOwe_cases l; rw [h]

@[simp] theorem CoreSt.signalOwe_aq (k : CoreSt) (l : List (BitVec 4)) : (k.signalOwe .a l).aq = k.aq := by
  obtain ⟨_, _, h⟩ := k.signalOwe_cases l; rw [h]

@[simp] theorem CoreSt.signalOwe_ptime (k : CoreSt) (l : List (BitVec 4)) : (k.signalOwe .a l).ptime = k.ptime := by
  obtain ⟨_, _, h⟩ := k.signalOwe_cases l; rw [h]

theorem CoreSt.signal?_full {k : CoreSt} {w : BitVec 4} (h : k.tk.get w.toFin = 255) : k.signal? w = none := if_pos h

theorem CoreSt.signal?_room {k : CoreSt} {w : BitVec 4} (h : ¬ k.tk.get w.toFin = 255) :
    k.signal? w = some { k with tk := k.tk.set w.toNat (k.tk.get w.toFin + 1) w.isLt } := if_neg h

/-- A signal that a core can make, every core with the same token counters makes (R39). -/
theorem CoreSt.signalOwe_made {k k0 k1 : CoreSt} {w : Option (BitVec 4)} (ht : k.tk = k0.tk) (h : k0.signalOpt? w = some k1) :
    (k.signalOwe .a w.toList).tk = k1.tk ∧ (k.signalOwe .a w.toList).a = k.a := by
  cases w with
  | none =>
    obtain rfl : k0 = k1 := by simpa [CoreSt.signalOpt?] using h
    exact ⟨ht, rfl⟩
  | some w =>
    by_cases hw : k0.tk.get w.toFin = 255
    · simp [CoreSt.signalOpt?, CoreSt.signal?_full hw] at h
    · rw [CoreSt.signalOpt?, CoreSt.signal?_room hw] at h
      cases h
      simp only [Option.toList, CoreSt.signalOwe, CoreSt.signal?_room (ht ▸ hw), Option.getD_some, ht, and_self]

/-- A signal whose counter is full is owed, and moves no counter (R39, R62). -/
theorem CoreSt.signalOwe_owed {k : CoreSt} {w : BitVec 4} (h : k.tk.get w.toFin = 255) :
    (k.signalOwe .a (some w).toList).tk = k.tk ∧ (k.signalOwe .a (some w).toList).a = { k.a with sigDue := k.a.sigDue ++ [w] } := by
  simp only [Option.toList, CoreSt.signalOwe, CoreSt.signal?_full h, Option.getD_none]
  exact ⟨rfl, rfl⟩

/-! The completion. -/

/-- A load is done on its core before it signals: it has left A's order, its counter has fallen, and no token has moved. -/
theorem CoreSt.finishAccess_load (k : CoreSt) (a : Access) (h : a.op.writes = false) :
    ∃ p : CoreSt, k.finishAccess a = p.signalOwe .a a.sig.toList ∧ p.aq = k.aq.filter (fun b => b.id != a.id) ∧ p.loads = k.loads - 1 ∧
      p.tk = k.tk ∧ p.a = k.a ∧ p.ptime = k.ptime := by
  refine ⟨_, rfl, ?_⟩
  cases hop : a.op with
  | load b sg d =>
    obtain ⟨r, q, hd⟩ := k.deliver_cases a.id b sg d a.got
    simp [hd]
  | loadRow row =>
    obtain ⟨t, o, hr⟩ := k.setRow_cases row (rowOfBytes a.got)
    simp [hr, CoreSt.clearBusy]
  | store b d => simp [hop, AccessOp.writes] at h
  | storeRow r => simp [hop, AccessOp.writes] at h

section
variable {k : CoreSt} {a : Access}

theorem CoreSt.finishAccess_aq (h : a.op.writes = false) : (k.finishAccess a).aq = k.aq.filter (fun b => b.id != a.id) := by
  obtain ⟨p, hp, haq, -⟩ := k.finishAccess_load a h
  rw [hp, CoreSt.signalOwe_aq, haq]

theorem CoreSt.finishAccess_loads (h : a.op.writes = false) : (k.finishAccess a).loads = k.loads - 1 := by
  obtain ⟨p, hp, -, hl, -⟩ := k.finishAccess_load a h
  rw [hp, CoreSt.signalOwe_loads, hl]

theorem CoreSt.finishAccess_ptime (h : a.op.writes = false) : (k.finishAccess a).ptime = k.ptime := by
  obtain ⟨p, hp, -, -, -, -, ht⟩ := k.finishAccess_load a h
  rw [hp, CoreSt.signalOwe_ptime, ht]

theorem CoreSt.finishAccess_signals {k0 k1 : CoreSt} (h : a.op.writes = false) (ht : k.tk = k0.tk) (hs : k0.signalOpt? a.sig = some k1) :
    (k.finishAccess a).tk = k1.tk ∧ (k.finishAccess a).a = k.a := by
  obtain ⟨p, hp, -, -, hpt, hpa, -⟩ := k.finishAccess_load a h
  rw [hp, ← hpa]
  exact CoreSt.signalOwe_made (hpt.trans ht) hs

theorem CoreSt.finishAccess_owes {w : BitVec 4} (h : a.op.writes = false) (hs : a.sig = some w) (hw : k.tk.get w.toFin = 255) :
    (k.finishAccess a).tk = k.tk ∧ (k.finishAccess a).a = { k.a with sigDue := k.a.sigDue ++ [w] } := by
  obtain ⟨p, hp, -, -, hpt, hpa, -⟩ := k.finishAccess_load a h
  rw [hp, hs, ← hpa, ← hpt]
  exact CoreSt.signalOwe_owed (by rw [hpt]; exact hw)

/-- What a load delivers and leaves: A's registers and queues are as delivery makes them, no row changes. -/
theorem CoreSt.finishAccess_delivers {b : Nat} {sg : Bool} {d : LoadDst} (h : a.op = .load b sg d) :
    (k.finishAccess a).ar = (k.deliver a.id b sg d a.got).ar ∧ (k.finishAccess a).ax = (k.deliver a.id b sg d a.got).ax ∧
      (k.finishAccess a).tile = k.tile ∧ (k.finishAccess a).o = k.o := by
  obtain ⟨r, q, hd⟩ := k.deliver_cases a.id b sg d a.got
  simp [CoreSt.finishAccess, h, hd]

/-- What a row load delivers and leaves: its row is written and no longer busy with it; A's registers and queues do not change. -/
theorem CoreSt.finishAccess_rowLanded {row : RowName} (h : a.op = .loadRow row) :
    (k.finishAccess a).tile = (k.setRow row (rowOfBytes a.got)).tile ∧ (k.finishAccess a).o = (k.setRow row (rowOfBytes a.got)).o ∧
      (k.finishAccess a).busy = k.busy.filter (fun b => !(b.row == row && b.owner == a.id)) ∧ (k.finishAccess a).ar = k.ar ∧
      (k.finishAccess a).ax = k.ax := by
  obtain ⟨t, o, hr⟩ := k.setRow_cases row (rowOfBytes a.got)
  simp only [CoreSt.finishAccess, h, hr, CoreSt.clearBusy, CoreSt.signalOwe_tile, CoreSt.signalOwe_o, CoreSt.signalOwe_busy,
    CoreSt.signalOwe_ar, CoreSt.signalOwe_ax, and_self]

theorem CoreSt.aAt_congr {k k' : CoreSt} (h : k.ar = k'.ar) (n : Nat) : k.aAt n = k'.aAt n := by simp [CoreSt.aAt, h]

theorem CoreSt.row_congr {k k' : CoreSt} (ht : k.tile = k'.tile) (ho : k.o = k'.o) (n : RowName) : k.row n = k'.row n := by
  cases n with
  | tile r i => simp only [CoreSt.row, ht]
  | operand i => simp only [CoreSt.row, ho]

/-- A load into a register writes it and no other, and no queue (R97, R121). -/
theorem CoreSt.finishAccess_reg {b : Nat} {sg : Bool} {j : BitVec 4} (h : a.op = .load b sg (.reg j)) (hb : a.got.length = b) :
    (k.finishAccess a).aAt j.toNat = extended sg a.got ∧ (∀ n, n ≠ j.toNat → (k.finishAccess a).aAt n = k.aAt n) ∧
      (k.finishAccess a).ax = k.ax := by
  obtain ⟨har, hax, -, -⟩ := CoreSt.finishAccess_delivers (k := k) h
  rw [CoreSt.deliver_reg _ _ _ _ _ _ hb] at har hax
  refine ⟨?_, fun n hn => ?_, hax.trans ?_⟩
  · rw [CoreSt.aAt_congr har, CoreSt.aAt_setA]
  · rw [CoreSt.aAt_congr har, CoreSt.aAt_setA_ne _ _ _ _ hn]
  · unfold CoreSt.setA; split <;> rfl

/-- A load into a queue fills the entries that it has reserved, and changes no other queue and no register (R75). -/
theorem CoreSt.finishAccess_queue {b : Nat} {sg : Bool} {q : BitVec 2} {x : Dword} {ws : List Word} {l r : List (Option Word)}
    (h : a.op = .load b sg (.queue q)) (hb : a.got.length = b) (hx : x = extended sg a.got)
    (hws : ws = if b = 8 then [x.setWidth 32, x.extractLsb' 32 32] else [x.setWidth 32])
    (hq : k.ax.get q.toFin = l ++ List.replicate ws.length none ++ r) (hl : l.countP (·.isNone) = k.reservedBefore a.id q) :
    (k.finishAccess a).ax.get q.toFin = l ++ ws.map some ++ r ∧
      (∀ q' : BitVec 2, q' ≠ q → (k.finishAccess a).ax.get q'.toFin = k.ax.get q'.toFin) ∧ (k.finishAccess a).ar = k.ar := by
  obtain ⟨har, hax, -, -⟩ := CoreSt.finishAccess_delivers (k := k) h
  rw [CoreSt.deliver_queue _ _ _ _ _ _ hb, ← hx, ← hws, ← hl, hq, fillReserved_behind] at har hax
  refine ⟨?_, fun q' hne => ?_, har⟩
  · rw [hax]
    exact Vector.getElem_set_self q.isLt
  · rw [hax]
    exact Vector.getElem_set_ne q.isLt q'.isLt fun e => hne (BitVec.eq_of_toNat_eq e.symm)

/-- A load that discards its bytes changes no register and no queue. -/
theorem CoreSt.finishAccess_discard {b : Nat} {sg : Bool} (h : a.op = .load b sg .discard) :
    (k.finishAccess a).ar = k.ar ∧ (k.finishAccess a).ax = k.ax := by
  obtain ⟨har, hax, -, -⟩ := CoreSt.finishAccess_delivers (k := k) h
  exact ⟨har, hax⟩

/-- A row load writes its row and no other, and frees it (R126). -/
theorem CoreSt.finishAccess_row {row : RowName} (h : a.op = .loadRow row) (ht : ∀ p q, row = .tile p q → q < 64)
    (ho : ∀ p, row = .operand p → p < 8) :
    (k.finishAccess a).row row = rowOfBytes a.got ∧ (∀ b ∈ (k.finishAccess a).busy, ¬(b.row = row ∧ b.owner = a.id)) ∧
      (∀ p q, q < 64 → row ≠ .tile p q → (k.finishAccess a).row (.tile p q) = k.row (.tile p q)) ∧
      (∀ p, row ≠ .operand p → (k.finishAccess a).row (.operand p) = k.row (.operand p)) ∧ (k.finishAccess a).ar = k.ar ∧
      (k.finishAccess a).ax = k.ax := by
  obtain ⟨htile, hop, hbusy, har, hax⟩ := CoreSt.finishAccess_rowLanded (k := k) h
  have hrow := CoreSt.row_congr htile hop
  refine ⟨?_, ?_, fun p q hq hne => ?_, fun p hne => ?_, har, hax⟩
  · rw [hrow, CoreSt.row_setRow _ _ _ ho]
  · rw [hbusy]
    rintro b hb ⟨hr, ho⟩
    have hkept := (List.mem_filter.mp hb).2
    simp [hr, ho] at hkept
  · rw [hrow, CoreSt.tileRow_setRow_ne _ _ _ _ _ ht hq hne]
  · rw [hrow, CoreSt.operandRow_setRow_ne _ _ _ _ hne]

end

end Sys2Proof.Machine
end

section
/-! PROOFS. A place of a load: which of its outcomes it has, and what the core holds after it (R122, R256 to R258, R274). -/

namespace Sys2Proof.Machine

/-! The entry of an access in A's order. -/

theorem find?_replaced {l : List Access} {a a' : Access} (hid : a'.id = a.id) (h : a ∈ l) :
    (l.map (fun b => if b.id = a.id then a' else b)).find? (fun b => b.id == a.id) = some a' := by
  induction l with
  | nil => cases h
  | cons b l ih =>
    by_cases hb : b.id = a.id
    · simp [hb, hid]
    · have : a ∈ l := (List.mem_cons.mp h).resolve_left fun e => hb (by rw [e])
      simp [hb, ih this]

theorem filter_replaced (l : List Access) {a a' : Access} (hid : a'.id = a.id) :
    (l.map (fun b => if b.id = a.id then a' else b)).filter (fun b => b.id != a.id) = l.filter (fun b => b.id != a.id) := by
  induction l with
  | nil => rfl
  | cons b l ih => by_cases hb : b.id = a.id <;> simp [hb, hid, ih]

theorem takeWhile_replaced (l : List Access) {a a' : Access} (hid : a'.id = a.id) :
    (l.map (fun b => if b.id = a.id then a' else b)).takeWhile (fun b => b.id != a.id) = l.takeWhile (fun b => b.id != a.id) := by
  induction l with
  | nil => rfl
  | cons b l ih => by_cases hb : b.id = a.id <;> simp [hb, hid, ih]

theorem mem_of_nextAccess {s : State} {c : Nat} {a : Access} (h : s.nextAccess c = some a) : a ∈ (s.core c).aq := by
  rcases Option.or_eq_some_iff.mp h with h | ⟨-, h⟩ <;> exact List.mem_of_find?_eq_some h

/-- An access that has read the bytes of its next place. -/
def Access.afterRead (a : Access) (bs : List Byte) : Access := { a with done := a.done + 1, got := a.got ++ bs }

@[simp] theorem Access.afterRead_id (a : Access) (bs : List Byte) : (a.afterRead bs).id = a.id := rfl

theorem Access.afterRead_performed (a : Access) (bs : List Byte) : (a.afterRead bs).performed = decide (a.places ≤ a.done + 1) := rfl

/-- A core whose access `a` has just taken a place at a logical time; its TLB may hold one leaf more. -/
def CoreSt.tookPlace (k : CoreSt) (a : Access) (time : Nat) (tlb : List TlbEntry) : CoreSt :=
  { k with tlb := tlb, ptime := time, aq := k.aq.map (fun b => if b.id = a.id then a else b) }

section
variable {k : CoreSt} {a : Access} {bs : List Byte} {time : Nat} {tlb : List TlbEntry}

/-- The access that has taken a place stands in the order in its stead. -/
theorem CoreSt.find?_tookPlace (h : a ∈ k.aq) :
    (k.tookPlace (a.afterRead bs) time tlb).aq.find? (fun b => b.id == a.id) = some (a.afterRead bs) := find?_replaced rfl h

theorem CoreSt.filter_tookPlace :
    (k.tookPlace (a.afterRead bs) time tlb).aq.filter (fun b => b.id != a.id) = k.aq.filter (fun b => b.id != a.id) := filter_replaced _ rfl

theorem CoreSt.takeWhile_tookPlace :
    (k.tookPlace (a.afterRead bs) time tlb).aq.takeWhile (fun b => b.id != a.id) = k.aq.takeWhile (fun b => b.id != a.id) :=
  takeWhile_replaced _ rfl

/-- Taking a place moves no reservation of an older load (R75). -/
theorem CoreSt.reservedBefore_tookPlace (q : BitVec 2) :
    (k.tookPlace (a.afterRead bs) time tlb).reservedBefore (a.afterRead bs).id q = k.reservedBefore a.id q := by
  simp only [CoreSt.reservedBefore, Access.afterRead_id, CoreSt.takeWhile_tookPlace]

end

/-! The logical time of a load. -/

/-- The least logical time that a load of a core may take at a key (R258). -/
def State.placeTime (s : State) (c key : Nat) : Nat := max (s.core c).ptime (s.timeOf key).write

theorem State.loadTime_core (s : State) (c key : Nat) :
    (s.loadTime c key).core c = { s.core c with ptime := s.placeTime c key } := State.core_modCore_self _ _ _

@[simp] theorem State.loadTime_mem (s : State) (c key : Nat) : (s.loadTime c key).mem = s.mem := rfl

/-- The lease of the line reaches the time of the load (R258). -/
theorem State.placeTime_le_lease (s : State) (c key : Nat) : s.placeTime c key ≤ ((s.loadTime c key).timeOf key).lease := by
  have h : (s.loadTime c key).timeOf key = { s.timeOf key with
      lease := (if s.placeTime c key ≤ (s.timeOf key).lease then (s.timeOf key).lease
        else s.placeTime c key + (s.part (s.core c).part).lease) } := tget_tset_self _ _ _ _
  rw [h]
  dsimp only
  split <;> omega

theorem State.timeOf_congr {s t : State} (h : t.times = s.times) (key : Nat) : t.timeOf key = s.timeOf key := by
  simp only [State.timeOf, h]

/-! The outcomes of a place. -/

section
variable {s v : State} {c key n ea kd ad : Nat} {a : Access}

/-- A place whose address fails a check ends the access (R122). -/
theorem State.nextPlace_refused (hea : ea = addrPlus a.ea (a.done * a.placeSize)) (hw : (s.core c).stashWaits ea = false)
    (hu : s.unanswered c (.access a.id) = false) (hk : s.keyOf c ea a.op.writes = .error (.fatal kd ad)) :
    s.nextPlace c a = some (s.failAccess c a kd ad) := by
  subst hea
  simp [State.nextPlace, hw, hu, hk]

/-- Caching the leaf and filling view lines change nothing of what marks a reply. -/
theorem State.marks_touch_cacheLeaf (s : State) (c ea key n : Nat) (w : Req) :
    ((s.cacheLeaf c ea).touch key n).replyMarked c w = s.replyMarked c w ∧
      (((s.cacheLeaf c ea).touch key n).core c).stashMarked ea = (s.core c).stashMarked ea := by
  obtain ⟨l, h⟩ := s.cacheLeaf_core c ea
  simp [State.replyMarked, State.asked, CoreSt.stashMarked, h]

/-- A place of a load whose data are marked uncorrectable ends the access (R122). -/
theorem State.nextPlace_marked (ha : a.op.writes = false) (hn : n = a.placeSize) (hea : ea = addrPlus a.ea (a.done * n))
    (hw : (s.core c).stashWaits ea = false) (hu : s.unanswered c (.access a.id) = false) (hv : v = (s.cacheLeaf c ea).touch key n)
    (hk : s.keyOf c ea false = .ok key)
    (hbad : v.badAt key n = true ∨ s.replyMarked c (.access a.id) = true ∨ (s.core c).stashMarked ea = true) :
    s.nextPlace c a = some (v.failAccess c a kPoison ea) := by
  obtain ⟨hr, hs⟩ := s.marks_touch_cacheLeaf c ea key n (.access a.id)
  subst hv hea hn
  rw [← hr, ← hs] at hbad
  simp only [State.nextPlace, hw, hu, ha, hk, Bool.or_false, Bool.false_eq_true, if_false]
  rw [if_pos (by simpa [or_assoc] using hbad)]

/-- A place of a load that is not marked is taken. -/
theorem State.nextPlace_taken (ha : a.op.writes = false) (hn : n = a.placeSize) (hea : ea = addrPlus a.ea (a.done * n))
    (hw : (s.core c).stashWaits ea = false) (hu : s.unanswered c (.access a.id) = false) (hv : v = (s.cacheLeaf c ea).touch key n)
    (hk : s.keyOf c ea false = .ok key) (hb : v.badAt key n = false) (hr : s.replyMarked c (.access a.id) = false)
    (hs : (s.core c).stashMarked ea = false) : s.nextPlace c a = some (v.takePlace c a key) := by
  obtain ⟨hr', hs'⟩ := s.marks_touch_cacheLeaf c ea key n (.access a.id)
  subst hv hea hn
  rw [hr] at hr'
  rw [hs] at hs'
  simp only [State.nextPlace, hw, hu, ha, hk, hb, hr', hs', Bool.or_false, Bool.and_false, Bool.false_eq_true, if_false]

/-- Caching the leaf and filling view lines leave the logical time that a load takes. -/
theorem State.placeTime_touch_cacheLeaf (s : State) (c ea key n : Nat) :
    ((s.cacheLeaf c ea).touch key n).placeTime c key = s.placeTime c key := by
  obtain ⟨l, h⟩ := s.cacheLeaf_core c ea
  simp [State.placeTime, State.timeOf, h]

/-- What the core holds once a load has taken a place: the bytes read, with the logical time. -/
theorem State.takePlace_core (ha : a.op.writes = false) (hn : n = a.placeSize) (hv : v = (s.cacheLeaf c ea).touch key n) :
    ∃ tlb, (v.takePlace c a key).core c = (s.core c).tookPlace (a.afterRead (v.coreBytes c key n)) (s.placeTime c key) tlb := by
  obtain ⟨tlb, h⟩ := s.cacheLeaf_core c ea
  have hk : v.core c = { s.core c with tlb := tlb } := by rw [hv, State.touch_core, h]
  have ht : v.placeTime c key = s.placeTime c key := hv ▸ s.placeTime_touch_cacheLeaf c ea key n
  refine ⟨tlb, ?_⟩
  subst hn
  simp only [State.takePlace, ha, Bool.false_eq_true, if_false, State.core_modCore_self, State.loadTime_core, ht, hk]
  rfl

theorem State.takePlace_times (ha : a.op.writes = false) : (v.takePlace c a key).times = (v.loadTime c key).times := by
  simp only [State.takePlace, ha, Bool.false_eq_true, if_false, State.modCore_times]

theorem State.takePlace_mem (ha : a.op.writes = false) : (v.takePlace c a key).mem = v.mem := by
  simp only [State.takePlace, ha, Bool.false_eq_true, if_false, State.modCore_mem, State.loadTime_mem]

end

/-! A load's step: it fails, takes a place, or ends. -/

/-- The step of A's order that a load's instruction is (R121, R126). -/
theorem exec_load {i : Instr} {c : Nat} {a : Access} (s : State)
    (h : i = .loadDelivery c ∧ (∃ b sg d, a.op = .load b sg d) ∨ i = .rowLoadLanded c ∧ (∃ d, a.op = .loadRow d)) :
    a.op.writes = false ∧ ∃ kind : AccessOp → Bool, kind a.op = true ∧ exec i s = performHead c kind s := by
  rcases h with ⟨rfl, b, sg, d, ho⟩ | ⟨rfl, d, ho⟩
  · exact ⟨by rw [ho]; rfl, fun | .load _ _ _ => true | _ => false, by rw [ho], rfl⟩
  · exact ⟨by rw [ho]; rfl, fun | .loadRow _ => true | _ => false, by rw [ho], rfl⟩

section
variable {s u : State} {c kd ad : Nat} {a : Access} {kind : AccessOp → Bool}

/-- An access that its home has performed ends with its reply (R274). -/
theorem performHead_ends (hn : s.nextAccess c = some a) (hk : kind a.op = true) (hp : a.performed = true) :
    performHead c kind s = .next (s.endAccess c a) := by
  simp [performHead, hn, hk, hp]

theorem performHead_place (hn : s.nextAccess c = some a) (hk : kind a.op = true) (hp : a.performed = false) :
    performHead c kind s = .next (((s.performPlace c a).getD s).actRecalls c) := by
  simp [performHead, hn, hk, hp]

/-- A place that fails leaves the gang failed, as the place found it (R122, R294). -/
theorem performHead_fails (hn : s.nextAccess c = some a) (hk : kind a.op = true) (hp : a.performed = false) (hu : SameTask s u c)
    (hf : s.nextPlace c a = some (u.failAccess c a kd ad)) : ∃ t, performHead c kind s = .next t ∧ Failed s t c kd ad := by
  refine ⟨_, performHead_place hn hk hp, ?_⟩
  have hgone : ((u.failAccess c a kd ad).core c).aq.find? (fun b => b.id == a.id) = none := by
    rw [State.failAccess_core]
    simp
  rw [State.performPlace, hf, Option.map_some, hgone]
  exact (u.failAccess_failed c a kd ad).congr hu (.actRecalls _ c)

/-- A place that is taken leaves the access in the order, unless it is the last, with which the access completes (R257). -/
theorem performHead_takes {bs : List Byte} {time : Nat} {tlb : List TlbEntry} (hn : s.nextAccess c = some a) (hk : kind a.op = true)
    (hp : a.performed = false) (ht : s.nextPlace c a = some u) (hu : u.core c = (s.core c).tookPlace (a.afterRead bs) time tlb) :
    performHead c kind s =
      .next ((if a.places ≤ a.done + 1 then u.completeAccess c (a.afterRead bs) else u).actRecalls c) := by
  rw [performHead_place hn hk hp, State.performPlace, ht, Option.map_some, hu, CoreSt.find?_tookPlace (mem_of_nextAccess hn),
    Option.filter_some, Access.afterRead_performed]
  by_cases hl : a.places ≤ a.done + 1 <;> simp [hl]

theorem State.completeAccess_core (s : State) (c : Nat) (a : Access) : (s.completeAccess c a).core c = (s.core c).finishAccess a := by
  rw [State.completeAccess, State.core_answer, State.core_modCore_self]

end

end Sys2Proof.Machine
end

section
/-! PROOFS. A load delivers its bytes to its destination and no other, and one whose address fails ends the gang (R121 to R126). -/

namespace Sys2Proof.Machine

theorem State.cameMarked_iff {s : State} {c : Nat} {a : Access} :
    s.cameMarked c a = true ↔ a.op.writes = false ∧ (s.replyMarked c (.access a.id) = true ∨
      ∃ x ∈ (s.core c).stash, x.marked = true ∧ a.ea.toNat / 128 ≤ x.line ∧ x.line ≤ (a.ea.toNat + a.op.size - 1) / 128) := by
  simp [State.cameMarked, StashLine.of]

section
variable {s v : State} {c key n ea : Nat} {a : Access} {kind : AccessOp → Bool}

/-- What the device is after the last place of a load: its core has completed the access, and memory is as it was. -/
theorem performHead_completes (ha : a.op.writes = false) (hn : s.nextAccess c = some a) (hk : kind a.op = true) (hp : a.performed = false)
    (hsz : n = a.placeSize) (hv : v = (s.cacheLeaf c ea).touch key n) (ht : s.nextPlace c a = some (v.takePlace c a key))
    (hl : a.places ≤ a.done + 1) :
    ∃ t, performHead c kind s = .next t ∧ t.mem = s.mem ∧ s.placeTime c key ≤ (t.timeOf key).lease ∧
      ∃ tlb st, t.core c = { ((s.core c).tookPlace (a.afterRead (v.coreBytes c key n)) (s.placeTime c key) tlb).finishAccess
        (a.afterRead (v.coreBytes c key n)) with stash := st } := by
  obtain ⟨tlb, hu⟩ := State.takePlace_core (key := key) ha hsz hv
  refine ⟨_, (performHead_takes hn hk hp ht hu).trans (by rw [if_pos hl]), ?_, ?_, tlb, ?_⟩
  · rw [State.actRecalls_mem]
    show (v.takePlace c a key).mem = s.mem
    rw [State.takePlace_mem ha, hv, State.touch_mem, State.cacheLeaf_mem]
  · have htimes : ((v.takePlace c a key).completeAccess c (a.afterRead (v.coreBytes c key n))).times = (v.loadTime c key).times :=
      State.takePlace_times ha
    rw [State.timeOf_congr ((State.actRecalls_times _ _).trans htimes), ← State.placeTime_touch_cacheLeaf s c ea key n, ← hv]
    exact v.placeTime_le_lease c key
  · obtain ⟨st, h⟩ := ((v.takePlace c a key).completeAccess c (a.afterRead (v.coreBytes c key n))).actRecalls_core c
    exact ⟨st, by rw [h, State.completeAccess_core, hu]⟩

/-- What the device is after a place of a load that is not its last: the bytes of that place are recorded, and nothing has been delivered. -/
theorem performHead_proceeds (ha : a.op.writes = false) (hn : s.nextAccess c = some a) (hk : kind a.op = true) (hp : a.performed = false)
    (hsz : n = a.placeSize) (hv : v = (s.cacheLeaf c ea).touch key n) (ht : s.nextPlace c a = some (v.takePlace c a key))
    (hm : a.done + 1 < a.places) :
    ∃ t, performHead c kind s = .next t ∧ t.mem = s.mem ∧
      ∃ tlb st, t.core c = { (s.core c).tookPlace (a.afterRead (v.coreBytes c key n)) (s.placeTime c key) tlb with stash := st } := by
  obtain ⟨tlb, hu⟩ := State.takePlace_core (key := key) ha hsz hv
  refine ⟨_, (performHead_takes hn hk hp ht hu).trans (by rw [if_neg (by omega)]), ?_, tlb, ?_⟩
  · rw [State.actRecalls_mem, State.takePlace_mem ha, hv, State.touch_mem, State.cacheLeaf_mem]
  · obtain ⟨st, h⟩ := (v.takePlace c a key).actRecalls_core c
    exact ⟨st, by rw [h, hu]⟩

end

/-- Settles O26: each clause is one outcome of the step of A's order; what the last place delivers is what completing the access does. -/
theorem loadsDeliver : Obligations.LoadsDeliver := by
  intro s v c key a n ea i hn hi
  obtain ⟨ha, kind, hk, he⟩ := exec_load s hi
  simp only [he]
  refine ⟨fun hp hm => ?marked, State.cameMarked_iff, fun hp hm => ?ended, fun hp hsz hea hw hu hv => ⟨fun kd ad hkey => ?refused,
    fun hkey hbad => ?poisoned, fun hkey hbad hr hs => ⟨fun hm => ?more, fun hl => ?last⟩⟩⟩
  case marked =>
    refine ⟨_, performHead_ends hn hk hp, ?_⟩
    rw [State.endAccess, if_pos hm]
    exact s.failAccess_failed c a 7 a.ea.toNat
  case ended =>
    refine ⟨s.completeAccess c a, ?_, ?_⟩
    · rw [performHead_ends hn hk hp, State.endAccess, if_neg (by simp [hm])]
    · rw [State.completeAccess_core]
      exact ⟨CoreSt.finishAccess_aq ha, CoreSt.finishAccess_loads ha, rfl, fun b sg j ho hb => (CoreSt.finishAccess_reg ho hb).1,
        fun row ho htile hop => (CoreSt.finishAccess_row ho htile hop).1⟩
  case refused => exact performHead_fails hn hk hp ⟨rfl, rfl⟩ (State.nextPlace_refused (hsz ▸ hea) hw hu (ha ▸ hkey))
  case poisoned =>
    exact performHead_fails hn hk hp (hv ▸ .touch_cacheLeaf s c ea key n) (State.nextPlace_marked ha hsz hea hw hu hv hkey hbad)
  case more =>
    have ht := State.nextPlace_taken ha hsz hea hw hu hv hkey hbad hr hs
    obtain ⟨t, hstep, hmem, tlb, st, hcore⟩ := performHead_proceeds ha hn hk hp hsz hv ht hm
    refine ⟨t, hstep, ?_⟩
    rw [hcore]
    exact ⟨rfl, rfl, rfl, rfl, rfl, rfl, hmem, le_max_left _ _⟩
  case last =>
    have ht := State.nextPlace_taken ha hsz hea hw hu hv hkey hbad hr hs
    obtain ⟨t, hstep, hmem, hlease, tlb, st, hcore⟩ := performHead_completes ha hn hk hp hsz hv ht hl
    have htime : (t.core c).ptime = s.placeTime c key := by rw [hcore]; exact CoreSt.finishAccess_ptime ha
    refine ⟨t, hstep, ?_⟩
    generalize v.coreBytes c key n = bs at hcore ⊢
    rw [htime, hcore]
    refine ⟨(CoreSt.finishAccess_aq (a := a.afterRead bs) ha).trans (CoreSt.filter_tookPlace (a := a)),
      CoreSt.finishAccess_loads (a := a.afterRead bs) ha,
      fun k hsig => CoreSt.finishAccess_signals (k0 := s.core c) (a := a.afterRead bs) ha rfl hsig,
      fun w hsig hfull => CoreSt.finishAccess_owes (a := a.afterRead bs) ha hsig hfull, hmem, le_max_left _ _, le_max_right _ _, hlease,
      fun b sg j ho hb => ?reg, fun b sg q x ws l r ho hb hx hws hq hcount => ?queue,
      fun b sg ho => CoreSt.finishAccess_discard (a := a.afterRead bs) ho, fun ho => ?noRow,
      fun row ho htile hop => CoreSt.finishAccess_row (a := a.afterRead bs) ho htile hop⟩
    case reg =>
      obtain ⟨hreg, hother, hax⟩ := CoreSt.finishAccess_reg (a := a.afterRead bs) ho hb
      exact ⟨hreg, fun j' _ hne => hother j' hne, hax⟩
    case queue =>
      exact CoreSt.finishAccess_queue (a := a.afterRead bs) ho hb hx hws hq
        (hcount.trans (CoreSt.reservedBefore_tookPlace (a := a) q).symm)
    case noRow =>
      rcases hi with ⟨-, b, sg, d, hop⟩ | ⟨-, row, hop⟩
      · obtain ⟨-, -, htile, hrows⟩ := CoreSt.finishAccess_delivers (a := a.afterRead bs) hop
        exact ⟨htile, hrows⟩
      · exact absurd hop (ho row)

end Sys2Proof.Machine
end

section
/-! PROOFS. WAIT, SIG and AWAIT of every strand, and what becomes of an instruction whose signal finds its counter full (R39, R60 to R62, R137). -/

namespace Sys2Proof.Machine

/-! Issue, by whether the signal of the instruction has room after its effect. -/

theorem State.sigStuck_setCore (u : State) (k : CoreSt) :
    (u.setCore u.cx.core k).sigStuck = u.cx.mods.sig.elim false (fun t => k.tk.get t.toFin == 255) := by
  simp only [State.sigStuck, State.cxCore_setCore, State.setCore_cx]

/-- An instruction whose effect leaves no room for its signal waits, with none of its effect (R39, R137). -/
theorem issue_sigStuck {s v : State} {faults : List IllCause} {body : State → Try State} (hf : faults = []) (hr : rsFault s = [])
    (hb : (takeWait s >>= body) = .ok v) (hv : v.sigStuck = true) : issue s faults body = .next s := by
  rw [issue, hf, hr, List.append_nil, worst_nil]
  simp [hb, conclude, hv]

section
variable {s u : State} {k : CoreSt} {faults : List IllCause} {body : CoreSt → Try CoreSt}

/-- An effect on the core alone, after which the signal has room: the instruction takes it and retires. -/
theorem issueCore_passes (hf : faults = []) (ha : Admits s u) (hb : body u.cxCore = .ok k)
    (hs : (u.setCore u.cx.core k).sigStuck = false) : issueCore s faults body = .next (After u k) :=
  issue_ok hf ha (by simp [hb, Except.map, takeWait_cx ha.2]) hs

/-- An effect on the core alone, after which the signal has no room: the instruction waits. -/
theorem issueCore_sigStuck (hf : faults = []) (ha : Admits s u) (hb : body u.cxCore = .ok k)
    (hs : (u.setCore u.cx.core k).sigStuck = true) : issueCore s faults body = .next s := by
  refine issue_sigStuck hf ha.1 (v := u.setCore u.cx.core k) ?_ hs
  rw [ha.2]
  simp [bind, Except.bind, hb, Except.map, takeWait_cx ha.2]

end

/-! Token counters. -/

theorem tokens_get_set_self (tk : Vector (BitVec 8) 16) (t : BitVec 4) (v : BitVec 8) : (tk.set t.toNat v t.isLt).get t.toFin = v :=
  Vector.getElem_set_self t.isLt

theorem tokens_get_set_ne (tk : Vector (BitVec 8) 16) {t w : BitVec 4} (v : BitVec 8) (h : w ≠ t) :
    (tk.set t.toNat v t.isLt).get w.toFin = tk.get w.toFin :=
  Vector.getElem_set_ne t.isLt w.isLt fun e => h (BitVec.eq_of_toNat_eq e.symm)

/-- Whether a signal is stuck after one counter is set: on that counter its new value decides, on every other nothing has changed. -/
theorem State.sigStuck_setToken (u : State) (t : BitVec 4) (v : BitVec 8) :
    (u.setCore u.cx.core { u.cxCore with tk := u.cxCore.tk.set t.toNat v t.isLt }).sigStuck =
      if u.cx.mods.sig = some t then v == 255 else u.sigStuck := by
  rw [State.sigStuck_setCore, State.sigStuck]
  cases hw : u.cx.mods.sig with
  | none => rfl
  | some w =>
    by_cases h : w = t
    · subst h
      simp [tokens_get_set_self]
    · simp [h, tokens_get_set_ne _ _ h]

theorem CoreSt.signal?_eq_some {k : CoreSt} {t : BitVec 4} (h : k.tk.get t.toFin ≠ 255) :
    k.signal? t = some { k with tk := k.tk.set t.toNat (k.tk.get t.toFin + 1) t.isLt } := if_neg h

theorem CoreSt.signal?_eq_none {k : CoreSt} {t : BitVec 4} (h : k.tk.get t.toFin = 255) : k.signal? t = none := if_pos h

theorem CoreSt.take?_eq_some {k : CoreSt} {t : BitVec 4} (h : k.tk.get t.toFin ≠ 0) :
    k.take? t = some { k with tk := k.tk.set t.toNat (k.tk.get t.toFin - 1) t.isLt } := if_neg h

theorem CoreSt.take?_eq_none {k : CoreSt} {t : BitVec 4} (h : k.tk.get t.toFin = 0) : k.take? t = none := if_pos h

/-! WAIT, SIG and AWAIT, whatever else their strand finds wrong with the word. -/

section
variable {s u : State} {extra : List IllCause} {tk : BitVec 4} {f : WaitF}

theorem waitHolds_iff (limit : BitVec 5) (count : BitVec 8) : waitHolds limit count = true ↔ (limit ≠ 31 → count.toNat ≤ limit.toNat) := by
  simp only [waitHolds, Bool.or_eq_true, decide_eq_true_eq]
  tauto

theorem waitHolds_eq_false_iff (limit : BitVec 5) (count : BitVec 8) :
    waitHolds limit count = false ↔ limit ≠ 31 ∧ limit.toNat < count.toNat := by
  rw [← Bool.not_eq_true, waitHolds_iff, Classical.not_imp, Nat.not_le]

theorem waitCounters_passes (he : extra = []) (hr : Ready s u) (hl : waitHolds f.l u.cxCore.loads = true)
    (hs : waitHolds f.s u.cxCore.stores = true) (hc : waitHolds f.c u.cxCore.copies = true) (ht : waitHolds f.t u.cxCore.tileops = true) :
    waitCounters extra f s = .next (After u u.cxCore) :=
  issueCore_ok he hr (by simp [hl, hs, hc, ht, bind, Except.bind]) rfl

theorem waitCounters_waits (he : extra = []) (ha : Admits s u)
    (h : waitHolds f.l u.cxCore.loads = false ∨ waitHolds f.s u.cxCore.stores = false ∨ waitHolds f.c u.cxCore.copies = false ∨
      waitHolds f.t u.cxCore.tileops = false) : waitCounters extra f s = .next s := by
  refine issueCore_stall he ha ?_
  have hb : (waitHolds f.l u.cxCore.loads && waitHolds f.s u.cxCore.stores && waitHolds f.c u.cxCore.copies &&
      waitHolds f.t u.cxCore.tileops) = false := by
    rcases h with h | h | h | h <;> simp [h]
  rw [hb]
  rfl

theorem signalToken_passes (he : extra = []) (ha : Admits s u) (hu : u.sigStuck = false) (hn : u.cxCore.tk.get tk.toFin ≠ 255)
    (hs : s.cx.mods.sig ≠ some tk ∨ u.cxCore.tk.get tk.toFin ≠ 254) : signalToken extra tk s =
      .next (After u { u.cxCore with tk := u.cxCore.tk.set tk.toNat (u.cxCore.tk.get tk.toFin + 1) tk.isLt }) := by
  refine issueCore_passes he ha (by rw [CoreSt.signal?_eq_some hn]) ?_
  rw [State.sigStuck_setToken, takeWait_cx ha.2]
  split
  · next hsig =>
    have : u.cxCore.tk.get tk.toFin ≠ 254 := hs.resolve_left fun h => h hsig
    rw [beq_eq_false_iff_ne]
    bv_omega
  · exact hu

theorem signalToken_waits (he : extra = []) (ha : Admits s u)
    (h : u.cxCore.tk.get tk.toFin = 255 ∨ s.cx.mods.sig = some tk ∧ u.cxCore.tk.get tk.toFin = 254) : signalToken extra tk s = .next s := by
  rcases h with h | ⟨hsig, h⟩
  · exact issueCore_stall he ha (by rw [CoreSt.signal?_eq_none h])
  · refine issueCore_sigStuck he ha (by rw [CoreSt.signal?_eq_some (by rw [h]; decide)]) ?_
    rw [State.sigStuck_setToken, takeWait_cx ha.2, if_pos hsig, h]
    rfl

theorem awaitToken_passes (he : extra = []) (ha : Admits s u) (hu : u.sigStuck = false ∨ s.cx.mods.sig = some tk)
    (hn : u.cxCore.tk.get tk.toFin ≠ 0) : awaitToken extra tk s =
      .next (After u { u.cxCore with tk := u.cxCore.tk.set tk.toNat (u.cxCore.tk.get tk.toFin - 1) tk.isLt }) := by
  refine issueCore_passes he ha (by rw [CoreSt.take?_eq_some hn]) ?_
  rw [State.sigStuck_setToken, takeWait_cx ha.2]
  split
  · rw [beq_eq_false_iff_ne]
    bv_omega
  · next hsig => exact hu.resolve_right hsig

theorem awaitToken_waits (he : extra = []) (ha : Admits s u) (h : u.cxCore.tk.get tk.toFin = 0) : awaitToken extra tk s = .next s :=
  issueCore_stall he ha (by rw [CoreSt.take?_eq_none h])

end

/-! Each strand's instruction is the shared form, A's with the fault of a word inside a chain. -/

theorem exec_wait {s : State} {f : WaitF} {i : Instr}
    (h : i = .waitX f ∨ i = .waitV f ∨ i = .waitM f ∨ i = .waitA f ∧ s.cxCore.chain = none) : exec i s = waitCounters [] f s := by
  rcases h with rfl | rfl | rfl | ⟨rfl, hc⟩
  · rfl
  · rfl
  · rfl
  · show waitCounters (chainFaults s) f s = _
    rw [chainFaults_nil hc]

theorem exec_sig {s : State} {tk : BitVec 4} {i : Instr}
    (h : i = .sigX tk ∨ i = .sigV tk ∨ i = .sigM tk ∨ i = .sigA tk ∧ s.cxCore.chain = none) : exec i s = signalToken [] tk s := by
  rcases h with rfl | rfl | rfl | ⟨rfl, hc⟩
  · rfl
  · rfl
  · rfl
  · show signalToken (chainFaults s) tk s = _
    rw [chainFaults_nil hc]

theorem exec_await {s : State} {tk : BitVec 4} {i : Instr}
    (h : i = .awaitX tk ∨ i = .awaitV tk ∨ i = .awaitM tk ∨ i = .awaitA tk ∧ s.cxCore.chain = none) : exec i s = awaitToken [] tk s := by
  rcases h with rfl | rfl | rfl | ⟨rfl, hc⟩
  · rfl
  · rfl
  · rfl
  · show awaitToken (chainFaults s) tk s = _
    rw [chainFaults_nil hc]

/-- Settles O17: every strand's WAIT, SIG or AWAIT is the shared form, which passes or waits by the counters. -/
theorem waitSigAndAwait : Obligations.WaitSigAndAwait := by
  refine ⟨fun f tk s u ha => ⟨fun i hi => ?wait, fun i hi => ?sig, fun i hi => ?await⟩, fun s v faults body hf hr hb hv => issue_sigStuck hf hr hb hv⟩
  case wait =>
    rw [exec_wait hi]
    refine fun hu => ⟨fun ⟨hl, hs, hc, ht⟩ => waitCounters_passes rfl ⟨ha, hu⟩ ((waitHolds_iff _ _).2 hl) ((waitHolds_iff _ _).2 hs)
      ((waitHolds_iff _ _).2 hc) ((waitHolds_iff _ _).2 ht), fun h => waitCounters_waits rfl ha ?_⟩
    simpa only [waitHolds_eq_false_iff] using h
  case sig =>
    rw [exec_sig hi]
    exact ⟨fun hu hn hs => signalToken_passes rfl ha hu hn hs, fun h => signalToken_waits rfl ha h⟩
  case await =>
    rw [exec_await hi]
    exact ⟨fun hu hn => awaitToken_passes rfl ha hu hn, fun h => awaitToken_waits rfl ha h⟩

end Sys2Proof.Machine
end

section
/-! PROOFS. What RDCAP, RDSYS and TIMEL read (R32 to R37, R113). -/

namespace Sys2Proof.Machine

/-- Taking the token changes no register that RDCAP reads. -/
theorem capReg_takeWait {s u : State} (h : takeWait s = .ok u) (idx : BitVec 8) : u.cxCore.capReg idx = s.cxCore.capReg idx := by
  obtain ⟨n, rfl | rfl⟩ := takeWait_core h
  · rfl
  · rw [State.cxCore_setCore]; rfl

section
variable {s u : State} {d : BitVec 6} {idx : BitVec 8} {v : Word} {k : CoreSt}

/-- RDCAP of an index that is assigned reads its register. -/
theorem execRdcap_reads (hr : Ready s u) (hd : xDstOk d = true) (hv : s.cxCore.capReg idx = some v) (hk : writeX u.cxCore d v = .ok k) :
    exec (.rdcap d idx) s = .next (After u k) := by
  show execRdcap d idx s = _
  refine issueCore_ok ?_ hr ?_ (writeX_tk hk)
  · rw [xFaults_nil hd (List.forall_mem_nil _), hv]
    rfl
  · rw [capReg_takeWait hr.1.2, hv]
    exact hk

/-- RDCAP of an index that is not assigned raises ILL (R32). -/
theorem execRdcap_ill (hr : Ready s u) (hd : xDstOk d = true) (hv : s.cxCore.capReg idx = none) :
    exec (.rdcap d idx) s = .next (raiseIll s .reservedValue) := by
  show execRdcap d idx s = _
  refine issue_ill ?_
  rw [xFaults_nil hd (List.forall_mem_nil _), hv, hr.1.1]
  rfl

/-- RDSYS of an index that is assigned, but for TIMEL, reads its register as it stands. -/
theorem execRdsys_reads (hr : Ready s u) (hd : xDstOk d = true) (hi : idx ≠ 0x0B) (hv : s.sysReg s.cx.core idx = some v)
    (hk : writeX u.cxCore d v = .ok k) : exec (.rdsys d idx) s = .next (After u k) := by
  show execRdsys d idx s = _
  rw [execRdsys, if_neg hi]
  refine issueCore_ok ?_ hr ?_ (writeX_tk hk)
  · rw [xFaults_nil hd (List.forall_mem_nil _), hv]
    rfl
  · rw [hv]
    exact hk

/-- RDSYS of an index that is not assigned raises ILL (R33). -/
theorem execRdsys_ill (hr : Ready s u) (hd : xDstOk d = true) (hi : idx ≠ 0x0B) (hv : s.sysReg s.cx.core idx = none) :
    exec (.rdsys d idx) s = .next (raiseIll s .reservedValue) := by
  show execRdsys d idx s = _
  rw [execRdsys, if_neg hi]
  refine issue_ill ?_
  rw [xFaults_nil hd (List.forall_mem_nil _), hv, hr.1.1]
  rfl

end

/-- The capability registers are those of R32. -/
theorem capReg_eq_none {idx : BitVec 8} (h : idx = 2 ∨ 5 ≤ idx.toNat) (k : CoreSt) : k.capReg idx = none := by
  have h0 : idx.toNat ≠ 0 ∧ idx.toNat ≠ 1 ∧ idx.toNat ≠ 3 ∧ idx.toNat ≠ 4 := by
    rcases h with rfl | h
    · decide
    · omega
  unfold CoreSt.capReg
  split <;> simp_all

/-- Numbers of tile registers and of banks, as R32 packs them. -/
theorem capReg_one (k : CoreSt) : k.capReg 1 = some (BitVec.ofNat 32 (4 * (List.range 4).countP (fun b => k.bankmap.getLsbD b) * 256 +
    k.bankmap.toNat * 16)) := by
  simp only [CoreSt.capReg, CoreSt.tregCount, List.countP_eq_length_filter]
  rfl

section
variable (s : State) (c : Nat)

/-- The counts and the thresholds of the event classes (R163). -/
theorem sysReg_cnt {n : Nat} {v : Word} (hn : n < 6) (hv : (s.core c).nev.cnt[n]? = some v) :
    s.sysReg c (BitVec.ofNat 8 (0x44 + n)) = some v := by
  have hi : (BitVec.ofNat 8 (0x44 + n)).toNat = 0x44 + n := by simp; omega
  rw [Vector.getElem?_eq_getElem hn] at hv
  simp only [State.sysReg, hi]
  rw [dif_pos (by omega)]
  simpa using hv

theorem sysReg_thr {n : Nat} {v : Word} (hn : n < 6) (hv : (s.core c).nev.thr[n]? = some v) :
    s.sysReg c (BitVec.ofNat 8 (0x4A + n)) = some v := by
  have hi : (BitVec.ofNat 8 (0x4A + n)).toNat = 0x4A + n := by simp; omega
  rw [Vector.getElem?_eq_getElem hn] at hv
  simp only [State.sysReg, hi]
  rw [dif_neg (by omega), dif_pos (by omega)]
  simpa using hv

/-- Between the two groups of system registers and above the second, no index is assigned (R33). -/
theorem sysReg_eq_none {idx : BitVec 8} (h : 0x11 ≤ idx.toNat ∧ idx.toNat < 0x40 ∨ 0x50 ≤ idx.toNat) : s.sysReg c idx = none := by
  simp only [State.sysReg]
  rw [dif_neg (by omega), dif_neg (by omega)]
  split <;> first | omega | rfl

end

/-- Settles O19: the index picks the register of the table, which is read as it stands before the instruction. -/
theorem capabilityAndSystemRegisterReads : Obligations.CapabilityAndSystemRegisterReads := by
  intro d s u k hr hd
  refine ⟨fun idx v hm hk => ?cap, fun idx h => execRdcap_ill hr hd (capReg_eq_none h _), fun idx v hm hk => ?sys,
    fun n v w hn hv hw => ⟨fun hk => ?cnt, fun hk => ?thr⟩, fun idx h => ?none, fun hk => ?timel, rfl⟩
  case cap =>
    refine execRdcap_reads hr hd ?_ hk
    simp only [List.mem_cons, Prod.mk.injEq, List.not_mem_nil, or_false] at hm
    rcases hm with ⟨rfl, rfl⟩ | ⟨rfl, rfl⟩ | ⟨rfl, rfl⟩ | ⟨rfl, rfl⟩
    · rfl
    · exact capReg_one _
    · rfl
    · rfl
  case sys =>
    have hi : idx ≠ 0x0B ∧ s.sysReg s.cx.core idx = some v := by
      simp only [List.mem_cons, Prod.mk.injEq, List.not_mem_nil, or_false] at hm
      rcases hm with ⟨rfl, rfl⟩ | ⟨rfl, rfl⟩ | ⟨rfl, rfl⟩ | ⟨rfl, rfl⟩ | ⟨rfl, rfl⟩ | ⟨rfl, rfl⟩ | ⟨rfl, rfl⟩ | ⟨rfl, rfl⟩ |
        ⟨rfl, rfl⟩ | ⟨rfl, rfl⟩ | ⟨rfl, rfl⟩ | ⟨rfl, rfl⟩ | ⟨rfl, rfl⟩ | ⟨rfl, rfl⟩ | ⟨rfl, rfl⟩ | ⟨rfl, rfl⟩ | ⟨rfl, rfl⟩ |
        ⟨rfl, rfl⟩ | ⟨rfl, rfl⟩ | ⟨rfl, rfl⟩ <;> exact ⟨by decide, rfl⟩
    exact execRdsys_reads hr hd hi.1 hi.2 hk
  case cnt =>
    refine execRdsys_reads hr hd (fun h => ?_) (sysReg_cnt s _ hn hv) hk
    have := congrArg BitVec.toNat h
    simp at this
    omega
  case thr =>
    refine execRdsys_reads hr hd (fun h => ?_) (sysReg_thr s _ hn hw) hk
    have := congrArg BitVec.toNat h
    simp at this
    omega
  case none =>
    refine execRdsys_ill hr hd ?_ (sysReg_eq_none s _ h)
    rintro rfl
    revert h
    decide
  case timel =>
    show execTimelRead d s = _
    exact issueCore_ok (xFaults_nil hd (List.forall_mem_nil _)) hr hk (by rw [writeX_tk hk])

end Sys2Proof.Machine
end

section
/-! PROOFS. What writes of memory and records of events leave as they were: everything but memory, the pending engine writes of cores, and the
numbers of the sources (R256, R263, R301, R345, R346). -/

namespace Sys2Proof.Machine

/-- Two states differ in memory and in the engine writes that are pending at cores alone. -/
def MemOnly (s t : State) : Prop := t = { s with cores := t.cores, mem := t.mem } ∧ ∀ c, ∃ b, t.core c = { s.core c with ebuf := b }

/-- Two states differ in memory, in the engine writes that are pending at cores, in the numbers of the sources of records, and in what the host has been sent
alone. -/
def RecordOnly (s t : State) : Prop :=
  t = { s with cores := t.cores, mem := t.mem, sources := t.sources, outputs := t.outputs } ∧
    ∀ c, ∃ b q, t.core c = { s.core c with ebuf := b, seq := q }

section
variable {s t u : State}

theorem MemOnly.refl (s : State) : MemOnly s s := ⟨rfl, fun c => ⟨(s.core c).ebuf, rfl⟩⟩

theorem MemOnly.trans (h : MemOnly s t) (g : MemOnly t u) : MemOnly s u := by
  obtain ⟨h1, h2⟩ := h
  obtain ⟨g1, g2⟩ := g
  refine ⟨g1.trans (by rw [h1]), fun c => ?_⟩
  obtain ⟨b, hb⟩ := h2 c
  obtain ⟨d, hd⟩ := g2 c
  exact ⟨d, by rw [hd, hb]⟩

theorem MemOnly.of_mem (h : t = { s with mem := t.mem }) : MemOnly s t :=
  ⟨by rw [h], fun c => ⟨(s.core c).ebuf, by rw [h]; rfl⟩⟩

theorem MemOnly.foldl {α : Type} (l : List α) (f : State → α → State) (h : ∀ v a, MemOnly v (f v a)) (s : State) :
    MemOnly s (l.foldl f s) := by
  induction l generalizing s with
  | nil => exact .refl s
  | cons a r ih => exact (h s a).trans (ih _)

/-- A core whose pending engine writes are replaced. -/
theorem MemOnly.setBuf (s : State) (c : Nat) (f : Tbl Byte → Tbl Byte) : MemOnly s (s.modCore c (fun k => { k with ebuf := f k.ebuf })) := by
  refine ⟨rfl, fun d => ?_⟩
  by_cases hd : d = c
  · subst hd
    exact ⟨_, State.core_modCore_self _ _ _⟩
  · exact ⟨_, State.core_modCore_ne _ _ _ _ hd⟩

theorem MemOnly.flush (s : State) (key n : Nat) : MemOnly s (s.flush key n) := by
  refine MemOnly.foldl _ _ (fun v c => ?_) s
  dsimp only
  split
  · exact .refl v
  · exact (MemOnly.of_mem rfl).trans (MemOnly.setBuf _ c (fun l => l.filter (fun p => !sameUnits key n p.1)))

theorem MemOnly.write (s : State) (key : Nat) (bs : List Byte) : MemOnly s (s.write key bs) :=
  (MemOnly.flush s key bs.length).trans (.of_mem rfl)

theorem MemOnly.writePa (s : State) (pa : Nat) (bs : List Byte) : MemOnly s (s.writePa pa bs) :=
  MemOnly.foldl _ _ (fun v _ => MemOnly.write v _ _) s

theorem MemOnly.settle (s : State) (c : Nat) : MemOnly s (s.settle c) :=
  (MemOnly.setBuf s c (fun _ => [])).trans (MemOnly.foldl _ _ (fun v _ => MemOnly.write v _ _) _)

theorem MemOnly.partWrite (s : State) (part va : Nat) (bs : List Byte) : MemOnly s (s.partWrite part va bs) := by
  unfold State.partWrite
  split
  · exact .refl s
  · refine MemOnly.foldl _ _ (fun v i => ?_) s
    split
    · exact MemOnly.write v _ _
    · exact .refl v

theorem MemOnly.ringWrite (s : State) (part : Option Nat) (addr : Nat) (bs : List Byte) : MemOnly s (s.ringWrite part addr bs) := by
  cases part with
  | none => exact MemOnly.writePa s _ _
  | some p => exact MemOnly.partWrite s _ _ _

theorem MemOnly.ringPut (s : State) (part : Option Nat) (r : Ring) (rec : List Byte) : MemOnly s (s.ringPut part r rec).2 := by
  unfold State.ringPut
  dsimp only
  split
  · exact .refl s
  · split <;> exact (MemOnly.ringWrite s _ _ _).trans (MemOnly.ringWrite _ _ _ _)

theorem MemOnly.poison (h : MemOnly s t) : t.poison = s.poison := by rw [h.1]
theorem MemOnly.times (h : MemOnly s t) : t.times = s.times := by rw [h.1]
theorem MemOnly.tasks (h : MemOnly s t) : t.tasks = s.tasks := by rw [h.1]
theorem MemOnly.outstanding (h : MemOnly s t) : t.outstanding = s.outstanding := by rw [h.1]

theorem RecordOnly.of_memOnly (h : MemOnly s t) : RecordOnly s t := by
  obtain ⟨h1, h2⟩ := h
  refine ⟨by rw [h1], fun c => ?_⟩
  obtain ⟨b, hb⟩ := h2 c
  exact ⟨b, (s.core c).seq, hb⟩

theorem RecordOnly.refl (s : State) : RecordOnly s s := .of_memOnly (.refl s)

theorem RecordOnly.trans (h : RecordOnly s t) (g : RecordOnly t u) : RecordOnly s u := by
  obtain ⟨h1, h2⟩ := h
  obtain ⟨g1, g2⟩ := g
  refine ⟨g1.trans (by rw [h1]), fun c => ?_⟩
  obtain ⟨b, q, hb⟩ := h2 c
  obtain ⟨d, p, hd⟩ := g2 c
  exact ⟨d, p, by rw [hd, hb]⟩

theorem RecordOnly.foldl {α : Type} (l : List α) (f : State → α → State) (h : ∀ v a, RecordOnly v (f v a)) (s : State) :
    RecordOnly s (l.foldl f s) := by
  induction l generalizing s with
  | nil => exact .refl s
  | cons a r ih => exact (h s a).trans (ih _)

theorem RecordOnly.sourceNext (s : State) (key : Nat) (ok : Bool) : RecordOnly s (s.sourceNext key ok) := by
  have hsrc : ∀ l, RecordOnly s { s with sources := l } := fun _ => ⟨rfl, fun c => ⟨(s.core c).ebuf, (s.core c).seq, rfl⟩⟩
  unfold State.sourceNext
  dsimp only
  split
  · split
    · refine (hsrc _).trans ⟨rfl, fun d => ?_⟩
      by_cases hd : d = key % 2 ^ 16
      · subst hd
        exact ⟨_, _, State.core_modCore_self _ _ _⟩
      · exact ⟨_, _, State.core_modCore_ne _ _ _ _ hd⟩
    · exact hsrc _
  · exact hsrc _

theorem RecordOnly.msix (s : State) (fn vector : Nat) : RecordOnly s (s.msix fn vector) :=
  ⟨rfl, fun c => ⟨(s.core c).ebuf, (s.core c).seq, rfl⟩⟩

/-- An event record changes nothing else. -/
theorem RecordOnly.postEvent (s : State) (part : Option Nat) (kind source d0 d1 : Nat) : RecordOnly s (s.postEvent part kind source d0 d1) := by
  unfold State.postEvent
  dsimp only
  have h := fun r rec key ok => (RecordOnly.of_memOnly (MemOnly.ringPut s part r rec)).trans (RecordOnly.sourceNext (s.ringPut part r rec).2 key ok)
  split
  · exact (h _ _ _ _).trans (.msix _ _ _)
  · exact h _ _ _ _

end

end Sys2Proof.Machine
end

section
/-! PROOFS. Numeric events counted on a core (R161, R162, R164). -/

namespace Sys2Proof.Machine

/-- A count after some events, which stops at its width (R164). -/
def countAfter (w : Word) (n : Nat) : Nat := min (w.toNat + n) (2 ^ 32 - 1)

theorem countAfter_zero (w : Word) : countAfter w 0 = w.toNat := by
  have := w.isLt
  unfold countAfter
  omega

/-- Counting a class sets its count and no other. -/
theorem Nev.count_cnt (n : Nev) (j inc : Nat) (hj : j < 6) :
    (n.count j inc).1.cnt = n.cnt.set j (BitVec.ofNat 32 (countAfter n.cnt[j] inc)) hj := by
  unfold Nev.count
  rw [dif_pos hj]
  dsimp only
  split <;> rfl

/-- The counts after one is set, as numbers. -/
theorem counts_set (v : Vector Word 6) (j inc : Nat) (hj : j < 6) (i : Nat) (h : i < 6) :
    ((v.set j (BitVec.ofNat 32 (countAfter v[j] inc)) hj)[i]).toNat = if i = j then countAfter v[i] inc else v[i].toNat := by
  by_cases hi : i = j
  · subst hi
    have : countAfter v[i] inc < 2 ^ 32 := by unfold countAfter; omega
    rw [if_pos rfl, Vector.getElem_set_self, BitVec.toNat_ofNat, Nat.mod_eq_of_lt this]
  · rw [if_neg hi, Vector.getElem_set_ne _ _ (Ne.symm hi)]

section
variable (s : State) (c src : Nat) (evs : List Nat)

/-- Counting a class changes the event registers of its core, its pending engine writes and its sequence number alone; of the counts, that of the class. -/
theorem State.countClass_core (j : Nat) (hj : j < 6) : ∃ n b q,
    (s.countClass c src evs j).core c = { s.core c with nev := n, ebuf := b, seq := q } ∧
      ∀ i (h : i < 6), n.cnt[i].toNat = if i = j then countAfter (s.core c).nev.cnt[i] (evs.count j) else (s.core c).nev.cnt[i].toNat := by
  rw [List.count_eq_length_filter]
  unfold State.countClass
  extract_lets k inc
  by_cases hz : inc = 0
  · rw [if_pos hz]
    refine ⟨_, _, _, rfl, fun i h => ?_⟩
    split
    · exact ((congrArg (countAfter _) hz).trans (countAfter_zero _)).symm
    · rfl
  rw [if_neg hz]
  split
  next n crossed hn =>
  extract_lets n1 n2 t
  have hcnt : n2.named.cnt = k.nev.cnt.set j (BitVec.ofNat 32 (countAfter k.nev.cnt[j] inc)) hj := by
    have h2 : n2.named.cnt = n1.cnt := by
      show n2.cnt = _
      simp only [n2]
      split <;> rfl
    exact (h2.trans (congrArg (fun r => r.1.cnt) hn).symm).trans (Nev.count_cnt _ _ _ hj)
  have ht : t.core c = { k with nev := n2.named } := State.core_setCore_self _ _ _
  refine ⟨n2.named, ?_⟩
  have hnums : ∀ i (h : i < 6), n2.named.cnt[i].toNat = if i = j then countAfter k.nev.cnt[i] inc else k.nev.cnt[i].toNat := by
    simp only [hcnt]
    exact counts_set k.nev.cnt j inc hj
  split
  · obtain ⟨b, q, hk⟩ := (RecordOnly.postEvent t (some k.part) 1 c j k.task).2 c
    exact ⟨b, q, by rw [hk, ht], hnums⟩
  · exact ⟨_, _, ht, hnums⟩

/-- Counting several classes sets the count of each. -/
theorem State.foldl_countClass_core (l : List Nat) (hl : ∀ j ∈ l, j < 6) (hd : l.Nodup) : ∃ n b q,
    (l.foldl (fun s j => s.countClass c src evs j) s).core c = { s.core c with nev := n, ebuf := b, seq := q } ∧
      ∀ i (h : i < 6), n.cnt[i].toNat = if i ∈ l then countAfter (s.core c).nev.cnt[i] (evs.count i) else (s.core c).nev.cnt[i].toNat := by
  induction l generalizing s with
  | nil => exact ⟨(s.core c).nev, _, _, rfl, fun i h => (if_neg List.not_mem_nil).symm⟩
  | cons j l ih =>
    obtain ⟨n, b, q, hk, hn⟩ := s.countClass_core c src evs j (hl j List.mem_cons_self)
    obtain ⟨n', b', q', hk', hn'⟩ := ih (s.countClass c src evs j) (fun i hi => hl i (List.mem_cons_of_mem _ hi)) hd.of_cons
    refine ⟨n', b', q', by rw [List.foldl_cons, hk', hk], fun i h => ?_⟩
    have hnj := hn i h
    rw [hn' i h]
    simp only [hk]
    by_cases hi : i = j
    · subst hi
      rw [if_pos rfl] at hnj
      rw [if_neg (List.nodup_cons.mp hd).1, if_pos List.mem_cons_self, hnj]
    · rw [if_neg hi] at hnj
      simp only [List.mem_cons, hi, false_or, countAfter, hnj]

/-- Counting events changes the event registers of the core, its pending engine writes and its sequence number alone, and adds to each count its events
(R162, R164). -/
theorem State.countEvents_core : ∃ n b q, (s.countEvents c src evs).core c = { s.core c with nev := n, ebuf := b, seq := q } ∧
    ∀ i (h : i < 6), n.cnt[i].toNat = countAfter (s.core c).nev.cnt[i] (evs.count i) := by
  unfold State.countEvents
  split
  · next he =>
    rw [List.isEmpty_iff.mp he]
    exact ⟨_, _, _, rfl, fun i h => (countAfter_zero _).symm⟩
  · obtain ⟨n, b, q, hk, hn⟩ := s.foldl_countClass_core c src evs [0, 1, 2, 3, 4, 5] (by decide) (by decide)
    exact ⟨n, b, q, hk, fun i h => (hn i h).trans (if_pos (by simp; omega))⟩

@[simp] theorem State.countEvents_nil : s.countEvents c src [] = s := rfl

end

end Sys2Proof.Machine
end

section
/-! PROOFS. The completion of a matrix command, the command at the side port, and the grant of a licence (R137, R201, R203, R208 to R210). -/

namespace Sys2Proof.Machine

/-! What the turn of a strand leaves as it was. -/

/-- Two states agree in what a licence is decided by: the pairs, what each core is owed, and memory. -/
def SameLicence (s t : State) : Prop := t.pairs = s.pairs ∧ t.mem = s.mem ∧ ∀ c, (t.core c).owed = (s.core c).owed

theorem SameLicence.refl (s : State) : SameLicence s s := ⟨rfl, rfl, fun _ => rfl⟩

theorem SameLicence.trans {s t u : State} (h : SameLicence s t) (g : SameLicence t u) : SameLicence s u :=
  ⟨g.1.trans h.1, g.2.1.trans h.2.1, fun c => (g.2.2 c).trans (h.2.2 c)⟩

theorem SameLicence.setCore {s : State} {c : Nat} {k : CoreSt} (h : k.owed = (s.core c).owed) : SameLicence s (s.setCore c k) := by
  refine ⟨rfl, rfl, fun d => ?_⟩
  by_cases hd : d = c
  · subst hd; rw [State.core_setCore_self]; exact h
  · rw [State.core_setCore_ne _ _ _ _ hd]

theorem CoreSt.applySlip_owed (k : CoreSt) (t : Strand) : (k.applySlip t).owed = k.owed := by
  unfold CoreSt.applySlip
  split <;> rfl

theorem skipSome_owed (fuel left blk : Nat) (k : CoreSt) (t : Strand) : (skipSome fuel left blk k t).owed = k.owed := by
  induction fuel generalizing left k with
  | zero => rfl
  | succ fuel ih =>
    unfold skipSome
    dsimp only
    split
    · rfl
    · split
      · split
        · rw [ih, CoreSt.setStrand_owed]
        · rfl
      · rfl

/-- What holds whichever branch a conditional takes. -/
theorem ite_elim {α : Type} {p P : Prop} [Decidable p] {a b v : α} (h : (if p then a else b) = v) (ha : a = v → P) (hb : b = v → P) : P := by
  rcases ite_eq_iff.mp h with ⟨-, h⟩ | ⟨-, h⟩
  · exact ha h
  · exact hb h

/-- What a turn that comes to a step has done by then: it has filled the issue register, and before an instruction it has applied a pending SLIPW. -/
theorem strandTurn_run_cases {s u : State} {c : Nat} {t : Strand} {i : Instr} (h : strandTurn s c t = .run i u) :
    ∃ x : Cx, x.core = c ∧ x.strand = t ∧ (u = { s with cx := x } ∨ u = ({ s with cx := x } : State).setCore c ((s.core c).applySlip t)) := by
  have hidle : ∀ {v : State} {P : Prop}, Move.idle v = .run i u → P := fun e => nomatch e
  have here : ∀ {j : Instr} {pc : BitVec 32} {e : IllCause}, Move.run j { s with cx := turnCx c t pc e } = .run i u →
      ∃ x : Cx, x.core = c ∧ x.strand = t ∧ (u = { s with cx := x } ∨ u = ({ s with cx := x } : State).setCore c ((s.core c).applySlip t)) :=
    fun e => ⟨_, rfl, rfl, .inl (Move.run.inj e).2.symm⟩
  unfold strandTurn at h
  refine ite_elim h hidle fun h => ite_elim h here fun h => ite_elim h hidle fun h => ite_elim h here fun h => ite_elim h here fun h =>
    ite_elim h here fun h => ite_elim h here fun h => ite_elim h hidle fun h => ite_elim h hidle fun h => ite_elim h hidle fun h =>
    ite_elim h hidle fun h => ?_
  cases hw : ((s.core c).applySlip t).walk t with
  | stall => simp only [hw] at h; exact hidle h
  | skip n => simp only [hw] at h; exact here h
  | ill e pc => simp only [hw] at h; exact here h
  | exec j runPc head words mods => simp only [hw] at h; exact ⟨_, rfl, rfl, .inr (Move.run.inj h).2.symm⟩

/-- The turn of a strand that comes to a step issues it on that core and strand, and has changed no licence. -/
theorem strandTurn_run {s u : State} {c : Nat} {t : Strand} {i : Instr} (h : strandTurn s c t = .run i u) :
    u.cx.core = c ∧ u.cx.strand = t ∧ SameLicence s u := by
  obtain ⟨x, hc, hs, rfl | rfl⟩ := strandTurn_run_cases h
  · exact ⟨hc, hs, rfl, rfl, fun _ => rfl⟩
  · exact ⟨hc, hs, .trans (t := { s with cx := x }) ⟨rfl, rfl, fun _ => rfl⟩ (.setCore (CoreSt.applySlip_owed _ _))⟩

/-- The same of a strand that first passes words that it skips. -/
theorem strandSoon_run {s u : State} {c : Nat} {t : Strand} {i : Instr} (h : strandSoon s c t = .run i u) :
    u.cx.core = c ∧ u.cx.strand = t ∧ SameLicence s u := by
  unfold strandSoon at h
  split at h
  · next v hv =>
    obtain ⟨hc, hs, hl⟩ := strandTurn_run hv
    split at h
    · next w hw =>
      have hvw : SameLicence v w := by
        unfold execSkippedWordsWalk at hw
        cases hw
        exact .setCore (by rw [skipSome_owed, CoreSt.applySlip_owed]; rfl)
      split at h
      · cases h
      · obtain ⟨hc', hs', hl'⟩ := strandTurn_run h
        exact ⟨hc', hs', hl.trans (hvw.trans hl')⟩
    · cases h
  · exact strandTurn_run h

/-! Retirement. -/

/-- A signal changes the token counters alone (R39). -/
theorem CoreSt.signal?_cases {k k' : CoreSt} {t : BitVec 4} (h : k.signal? t = some k') : ∃ n, k' = { k with tk := n } := by
  unfold CoreSt.signal? at h
  split at h
  · cases h
  · exact ⟨_, (Option.some.inj h).symm⟩

/-- Retirement takes the strand that issues to the next word, and then may raise a token counter of its core (R41, R62). -/
theorem retire_cases (s : State) : ∃ u, u = s.modCxStrand (fun t => t.advance s.cx.next s.cx.words) ∧
    (retire s = u ∨ ∃ n, retire s = u.setCore u.cx.core { u.cxCore with tk := n }) := by
  refine ⟨_, rfl, ?_⟩
  unfold retire
  dsimp only
  split
  · exact .inl rfl
  · next t _ =>
    cases hk : (s.modCxStrand (fun t => t.advance s.cx.next s.cx.words)).cxCore.signal? t with
    | none => exact .inl rfl
    | some k =>
      obtain ⟨n, rfl⟩ := CoreSt.signal?_cases hk
      exact .inr ⟨n, rfl⟩

theorem SameLicence.retire (s : State) : SameLicence s (retire s) := by
  obtain ⟨u, hu, h⟩ := retire_cases s
  have hsu : SameLicence s u := hu ▸ .setCore (CoreSt.setStrand_owed _ _ _)
  rcases h with h | ⟨n, h⟩ <;> rw [h]
  · exact hsu
  · exact hsu.trans (.setCore rfl)

/-- The strand that issues has retired to the next word. -/
theorem retire_pc (s : State) : (((retire s).core s.cx.core).strand s.cx.strand).pc = s.cx.next := by
  obtain ⟨u, hu, h⟩ := retire_cases s
  have hcx : u.cx = s.cx := hu ▸ rfl
  have hpc : ((u.core s.cx.core).strand s.cx.strand).pc = s.cx.next := by
    rw [hu, State.modCxStrand, State.modCx, State.core_modCore_self, CoreSt.strand_setStrand]
    rfl
  rcases h with h | ⟨n, h⟩ <;> rw [h]
  · exact hpc
  · rw [hcx, State.core_setCore_self]
    refine Eq.trans ?_ hpc
    rw [State.cxCore, hcx]
    cases s.cx.strand <;> rfl

/-! The grant of a licence. -/

theorem takeLic_pairs {s t : State} (h : t.pairs = s.pairs) (c p : Nat) : (t.takeLic c).pair p = (s.takeLic c).pair p := by
  simp only [State.takeLic, State.pair, State.setPair, State.modCore_pairs, h]

theorem State.takeLic_owed (s : State) (c d : Nat) (h : d = c ∨ (s.core d).owed = false) : ((s.takeLic c).core d).owed = false := by
  by_cases hd : d = c
  · subst hd
    rw [State.takeLic, State.core_modCore_self]
  · rw [State.takeLic, State.core_modCore_ne _ _ _ _ hd]
    exact h.resolve_left hd

/-- An MLIC.ACQ that may take the licence takes it and retires (R200, R201). -/
theorem execMlicAcq_takes {s : State} (hw : acqWaits s = true) (hm : s.mayTakeLic s.cx.core = true) :
    ∃ u, takeWait s = .ok u ∧ execMlicAcq s = .next (retire (u.takeLic u.cx.core)) := by
  obtain ⟨hf, hw⟩ := Bool.and_eq_true_iff.mp hw
  obtain ⟨hl, hr⟩ := List.append_eq_nil_iff.mp (List.isEmpty_iff.mp hf)
  cases ht : takeWait s with
  | error e => simp [ht] at hw
  | ok u =>
    simp only [ht, Bool.not_eq_true'] at hw
    refine ⟨u, rfl, ?_⟩
    rw [execMlicAcq]
    simp only [hm, Bool.not_true, Bool.and_false, Bool.false_eq_true, if_false]
    have hk : (u.takeLic u.cx.core).cxCore = { u.cxCore with owed := false } := State.core_modCore_self _ _ _
    exact issue_ok hl ⟨hr, ht⟩ (by rw [takeWait_cx ht]) ((sigStuck_congr (u := u) (v := u.takeLic u.cx.core) rfl (by rw [hk])).trans hw)

/-- Taking the token that a word waits for changes no licence. -/
theorem SameLicence.takeWait {s u : State} (h : takeWait s = .ok u) : SameLicence s u := by
  rcases takeWait_core h with ⟨n, rfl | rfl⟩
  · exact .refl _
  · exact .setCore rfl

/-- A core of which licences say that it holds its pair's, takes it again: nothing of them changes. -/
theorem State.takeLic_held {s : State} {d p : Nat} (hc : pairOf d = p → (s.pair p).holder = some d ∧ d ∉ (s.pair p).pending) :
    (s.takeLic d).pair p = s.pair p := by
  by_cases hp : pairOf d = p
  · subst hp
    obtain ⟨hh, hn⟩ := hc rfl
    have hf : (s.pair (pairOf d)).pending.filter (· != d) = (s.pair (pairOf d)).pending :=
      List.filter_eq_self.mpr fun x hx => bne_iff_ne.mpr fun e => hn (e ▸ hx)
    refine (s.pair_setPair_self _ _).trans ?_
    rw [hf, ← hh]
  · exact s.pair_setPair_ne _ _ _ (Ne.symm hp)

/-- The state in which a free licence of a pair has gone to a core (R201). -/
def State.granted (s : State) (p d : Nat) : State :=
  (s.setPair p { s.pair p with holder := some d, pending := (s.pair p).pending.filter (· != d) }).modCore d (fun k => { k with owed := false })

theorem State.granted_pair (s : State) (p d : Nat) :
    (s.granted p d).pair p = { s.pair p with holder := some d, pending := (s.pair p).pending.filter (· != d) } := s.pair_setPair_self _ _

theorem State.granted_owed (s : State) (p d : Nat) : ((s.granted p d).core d).owed = false := by
  rw [State.granted, State.core_modCore_self]

/-- A strand that would issue at once issues what it does soon. -/
theorem strandSoon_of_turn {s u : State} {c : Nat} {t : Strand} {i : Instr} (h : strandTurn s c t = .run i u) (hi : i ≠ .skippedWordsWalk) :
    strandSoon s c t = .run i u := by
  unfold strandSoon
  rw [h]
  split
  · next e => exact absurd (Move.run.inj e).1 hi
  · rfl

theorem strandSoon_of_idle {s u : State} {c : Nat} {t : Strand} (h : strandTurn s c t = .idle u) : strandSoon s c t = .idle u := by
  unfold strandSoon
  rw [h]

/-- The step of a grant: the free licence goes to the first of those who ask for it, with the MLIC.ACQ that it meets (R201). -/
theorem execLicenceGrant_eq {s : State} {p d : Nat} {r : List Nat} (hh : (s.pair p).holder = none) (hl : s.licAsked p = d :: r) :
    exec (.licenceGrant p) s = (match strandSoon (s.granted p d) d .m with
     | .run .mlicAcq u => if acqWaits u then execMlicAcq u else .next (s.granted p d)
     | _ => .next (s.granted p d)) := by
  show execLicenceGrant p s = _
  rw [execLicenceGrant]
  simp only [hh, hl]
  rfl

/-- The MLIC.ACQ of a core that a grant has just served leaves the licences as the grant did, and takes M on where the pair is the core's own. -/
theorem execMlicAcq_after_grant {s v : State} {p d : Nat} (hv : strandSoon (s.granted p d) d .m = .run .mlicAcq v) (hw : acqWaits v = true) :
    ∃ t, execMlicAcq v = .next t ∧ t.pair p = (s.granted p d).pair p ∧ (t.core d).owed = false ∧ t.mem = s.mem ∧
      (pairOf d = p → (t.core d).m.pc = v.cx.next) := by
  obtain ⟨hc, hs, hpairs, hmem, howed⟩ := strandSoon_run hv
  have hp : v.pair p = (s.granted p d).pair p := by simp only [State.pair, hpairs]
  have hd : (v.core d).owed = false := (howed d).trans (s.granted_owed p d)
  cases hm : v.mayTakeLic v.cx.core with
  | true =>
    obtain ⟨u, hu, ht⟩ := execMlicAcq_takes hw hm
    obtain ⟨hupairs, humem, huowed⟩ := SameLicence.takeWait hu
    obtain ⟨hrpairs, hrmem, hrowed⟩ := SameLicence.retire (u.takeLic u.cx.core)
    have hcx : u.cx = v.cx := takeWait_cx hu
    have hup : u.pair p = (s.granted p d).pair p := by simp only [State.pair, hupairs, hpairs]
    refine ⟨_, ht, ?_, ?_, hrmem.trans (humem.trans hmem), fun _ => ?_⟩
    · rw [State.pair, hrpairs, hcx, hc, ← hup]
      refine State.takeLic_held fun _ => ?_
      rw [hup, State.granted_pair]
      exact ⟨rfl, fun h => by simpa using (List.mem_filter.mp h).2⟩
    · rw [hrowed, hcx, hc]
      exact u.takeLic_owed d d (.inl rfl)
    · have hpc := retire_pc (u.takeLic u.cx.core)
      have hcx' : (u.takeLic u.cx.core).cx = v.cx := hcx
      rw [hcx', hc, hs] at hpc
      exact hpc
  | false =>
    have hne : pairOf d ≠ p := fun e => by
      subst e
      rw [State.granted_pair] at hp
      simp [State.mayTakeLic, hc, hp] at hm
    rw [hc] at hm
    refine ⟨v.waitLic d, by simp [execMlicAcq, hw, hm, hc], ?_, ?_, ?_, fun e => absurd e hne⟩
    · rw [← hp, State.waitLic]
      split
      · rfl
      · exact State.pair_setPair_ne _ _ _ _ (Ne.symm hne)
    · rw [State.waitLic]
      split <;> exact hd
    · rw [State.waitLic]
      split <;> exact hmem

/-- What the grant of a licence leaves of the licences is what the granting itself leaves, also where it executes the MLIC.ACQ that it meets (R137, R201). -/
theorem execLicenceGrant_grants {s : State} {p d : Nat} {r : List Nat} (hh : (s.pair p).holder = none) (hl : s.licAsked p = d :: r) :
    ∃ t, exec (.licenceGrant p) s = .next t ∧ t.pair p = (s.granted p d).pair p ∧ (t.core d).owed = false ∧ t.mem = s.mem ∧
      ∀ u, pairOf d = p → strandTurn (s.granted p d) d .m = .run .mlicAcq u → acqWaits u = true → (t.core d).m.pc = u.cx.next := by
  rw [execLicenceGrant_eq hh hl]
  by_cases h : ∃ v, strandSoon (s.granted p d) d .m = .run .mlicAcq v ∧ acqWaits v = true
  · obtain ⟨v, hv, hw⟩ := h
    obtain ⟨t, ht, hpair, howed, hmem, hpc⟩ := execMlicAcq_after_grant hv hw
    simp only [hv, hw, if_true]
    refine ⟨t, ht, hpair, howed, hmem, fun u hd hu _ => ?_⟩
    have huv : Move.run .mlicAcq v = .run .mlicAcq u := hv.symm.trans (strandSoon_of_turn hu (by decide))
    rw [hpc hd, (Move.run.inj huv).2]
  · refine ⟨s.granted p d, ?_, rfl, s.granted_owed p d, rfl, fun u _ hu hw => absurd ⟨u, strandSoon_of_turn hu (by decide), hw⟩ h⟩
    split
    · next v hv => rw [if_neg fun hw => h ⟨v, hv, hw⟩]
    · rfl

/-! Who asks for a licence. -/

theorem takesLic_iff (i : Instr) (u : State) : takesLic i u = true ↔ (i = .mlicAcq ∧ acqWaits u = true) ∨
    ∃ tpl fsel val, i = .mx tpl fsel val ∧ u.cxCore.owed = true ∧
      mxFaults u fsel val (mxForm u.cxCore tpl fsel val) ++ placeFaults u = [] := by
  constructor
  · intro h
    unfold takesLic at h
    split at h
    · exact .inl ⟨rfl, h⟩
    · next tpl fsel val =>
      obtain ⟨ho, hf⟩ := Bool.and_eq_true_iff.mp h
      exact .inr ⟨tpl, fsel, val, rfl, ho, List.isEmpty_iff.mp hf⟩
    · cases h
  · rintro (⟨rfl, h⟩ | ⟨tpl, fsel, val, rfl, ho, hf⟩)
    · exact h
    · exact Bool.and_eq_true_iff.mpr ⟨ho, List.isEmpty_iff.mpr hf⟩

theorem State.mem_licAsked (s : State) (p d : Nat) : d ∈ s.licAsked p ↔ d ∈ (s.pair p).pending ∧
    ((∃ i u, strandSoon s d .m = .run i u ∧ takesLic i u = true) ∨
      (s.core d).owed = true ∧ ∃ w, (s.core d).side = some w ∧ w.judged = false) := by
  rw [State.licAsked, List.mem_filter, State.asksLic, Bool.or_eq_true]
  refine and_congr_right fun _ => or_congr ?_ ?_
  · split
    · next i u h => exact ⟨fun ht => ⟨i, u, h, ht⟩, fun ⟨j, v, hv, ht⟩ => by cases h.symm.trans hv; exact ht⟩
    · next u h => exact ⟨nofun, fun ⟨j, v, hv, _⟩ => nomatch h.symm.trans hv⟩
  · cases hs : (s.core d).side <;> simp

/-- A strand whose gang has halted does nothing (R137). -/
theorem strandTurn_halted {s : State} {c : Nat} {t : Strand} {g : Task} (hg : s.taskOf c = some g) (hh : g.halted = true) :
    ∃ u, strandTurn s c t = .idle u := by
  unfold strandTurn
  extract_lets k st here
  have hstill : s.strandStill c t = true := by simp [State.strandStill, hg, hh]
  by_cases h : (!st.sigDue.isEmpty) = true
  · rw [if_pos h]
    exact ⟨_, rfl⟩
  · rw [if_neg h, if_neg (by simp [hg, hh]), if_pos hstill]
    exact ⟨_, rfl⟩

/-! The side port. -/

theorem State.takeLic_core (s : State) (c : Nat) : (s.takeLic c).core c = { s.core c with owed := false } := State.core_modCore_self _ _ _

theorem State.holdsLic_takeLic (s : State) (c : Nat) : (s.takeLic c).holdsLic c = true := by
  have h : (s.takeLic c).pair (pairOf c) = { s.pair (pairOf c) with holder := some c, pending := (s.pair (pairOf c)).pending.filter (· != c) } :=
    s.pair_setPair_self _ _
  simp [State.holdsLic, h]

/-- Marking rows busy changes the list of busy rows alone. -/
theorem CoreSt.foldl_setBusy (l : List RowName) (id : Nat) (k : CoreSt) :
    ∃ b, l.foldl (fun k r => k.setBusy r id) k = { k with busy := b } := by
  induction l generalizing k with
  | nil => exact ⟨k.busy, rfl⟩
  | cons r l ih =>
    obtain ⟨b, hb⟩ := ih (k.setBusy r id)
    exact ⟨b, hb⟩

/-- A command enters the queue behind the others (R208). -/
theorem CoreSt.enterMat_mq (k : CoreSt) (op : MatOp) (areg breg : Nat) (sig : Option (BitVec 4)) :
    ∃ m : MatCmd, (k.enterMat op areg breg sig).mq = k.mq ++ [m] ∧ m.op = op ∧ m.sig = sig ∧ m.executed = false := by
  unfold CoreSt.enterMat
  extract_lets m k'
  obtain ⟨b, hb⟩ := CoreSt.foldl_setBusy m.destRows m.id k'
  exact ⟨m, by rw [hb], rfl, rfl, rfl⟩

section
variable {s : State} {c : Nat} {w : SideCmd}

/-- A follow-on command whose licence is there enters like an MX while there is room (R209, R210). -/
theorem execSidePortCommand_enters (hs : (s.core c).side = some w) (hj : w.judged = true ∨ s.holdsLic c = true)
    (hm : (s.core c).mq.length < 16) (hf : s.mGoesFirst c = false) : exec (.sidePortCommand c) s =
      .next (s.modCore c (fun k => { k.enterTpl w.tpl false none with side := none, tileops := k.tileops })) := by
  show execSidePortCommand c s = _
  have hno : (!w.judged && !s.holdsLic c) = false := by rcases hj with h | h <;> simp [h]
  simp [execSidePortCommand, hs, hno, hf, Nat.not_le.mpr hm]

/-- One that finds no room, or comes second, waits with its licence judged (R209). -/
theorem execSidePortCommand_waits (hs : (s.core c).side = some w) (hj : w.judged = true ∨ s.holdsLic c = true)
    (hf : 16 ≤ (s.core c).mq.length ∨ s.mGoesFirst c = true) : exec (.sidePortCommand c) s =
      .next (s.setCore c { s.core c with side := some { w with judged := true } }) := by
  show execSidePortCommand c s = _
  have hno : (!w.judged && !s.holdsLic c) = false := by rcases hj with h | h <;> simp [h]
  simp only [execSidePortCommand, hs, hno, Bool.false_and, Bool.false_eq_true, if_false]
  exact if_pos (by simpa using hf)

/-- One with no licence, held or owed, is a fatal context error (R203). -/
theorem execSidePortCommand_refused (hs : (s.core c).side = some w) (hj : w.judged = false) (hl : s.holdsLic c = false)
    (ho : (s.core c).owed = false) : exec (.sidePortCommand c) s = .next (raiseFatal s c 3 0) := by
  show execSidePortCommand c s = _
  simp [execSidePortCommand, hs, hj, hl, ho, kNoLicence]

/-- One that is owed the licence acquires it, or waits for it (R203). -/
theorem execSidePortCommand_acquires (hs : (s.core c).side = some w) (hj : w.judged = false) (hl : s.holdsLic c = false)
    (ho : (s.core c).owed = true) : exec (.sidePortCommand c) s = .next (if s.mayTakeLic c = true then
      (s.takeLic c).modCore c (fun k => { k with side := some { w with judged := true } }) else s.waitLic c) := by
  show execSidePortCommand c s = _
  simp [execSidePortCommand, hs, hj, hl, ho]

end

/-! The completion of a matrix command. -/

theorem CoreSt.signalAll?_cases {k k' : CoreSt} {l : List (BitVec 4)} (h : k.signalAll? l = some k') : ∃ n, k' = { k with tk := n } := by
  induction l generalizing k with
  | nil => exact ⟨k.tk, (Option.some.inj h).symm⟩
  | cons t r ih =>
    obtain ⟨k1, hk, h⟩ := Option.bind_eq_some_iff.mp h
    obtain ⟨n, rfl⟩ := CoreSt.signal?_cases hk
    obtain ⟨n', rfl⟩ := ih h
    exact ⟨n', rfl⟩

section
variable {s : State} {c : Nat} {m : MatCmd} {r : List MatCmd}

/-- An executed command whose tokens have room leaves the queue (R39, R209). -/
theorem execArrayCommandComplete_leaves {k : CoreSt} (hq : (s.core c).mq = m :: r) (he : m.executed = true)
    (hk : (s.core c).signalAll? m.tokens = some k) : exec (.arrayCommandComplete c) s =
      .next ((s.setCore c { k with mq := k.mq.drop 1, tileops := k.tileops - 1 }).countEvents c 1 m.events) := by
  show execArrayCommandComplete c s = _
  simp [execArrayCommandComplete, State.headCmd, hq, he, hk]

theorem execArrayCommandComplete_waits (hq : (s.core c).mq = m :: r)
    (h : m.executed = false ∨ (s.core c).signalAll? m.tokens = none) : exec (.arrayCommandComplete c) s = .next s := by
  show execArrayCommandComplete c s = _
  cases he : m.executed with
  | false => simp [execArrayCommandComplete, State.headCmd, hq, he]
  | true => simp [execArrayCommandComplete, State.headCmd, hq, he, h.resolve_left (by simp [he])]

end

/-- Settles O43: each clause is one branch of the completion, of the side port's step or of the grant. -/
theorem arrayCompletionSidePortAndGrant : Obligations.ArrayCompletionSidePortAndGrant := by
  intro s c
  refine ⟨fun m r k hq he hk => ?leaves, fun m r hq h => execArrayCommandComplete_waits hq h, fun h => ?empty,
    fun w hs => ⟨fun hj hm hf => ?enters, fun hj hf => execSidePortCommand_waits hs hj hf,
      fun hj hl ho => execSidePortCommand_refused hs hj hl ho, fun hj hl ho ht => ?takes, fun hj hl ho ht => ?owes⟩,
    fun f u t hq ht he hlt => ?first, fun u hu => ?idle, fun d r hh hl => ?grant, fun h => ?none, State.mem_licAsked s c,
    fun d g hg hh => ?halted, takesLic_iff⟩
  case leaves =>
    refine ⟨_, execArrayCommandComplete_leaves hq he hk, ?_⟩
    obtain ⟨n, rfl⟩ := CoreSt.signalAll?_cases hk
    obtain ⟨nev, b, q, hcore, hcnt⟩ := State.countEvents_core
      (s.setCore c { s.core c with tk := n, mq := (s.core c).mq.drop 1, tileops := (s.core c).tileops - 1 }) c 1 m.events
    rw [State.core_setCore_self] at hcore hcnt
    rw [hcore]
    refine ⟨by rw [hq]; rfl, rfl, rfl, hcnt, fun hev => ?_⟩
    rw [hev, State.countEvents_nil]
    exact ⟨rfl, fun d hd => State.core_setCore_ne _ _ _ _ hd⟩
  case empty =>
    show execSidePortCommand c s = _
    simp [execSidePortCommand, h]
  case enters =>
    obtain ⟨m, hmq, hop, hsig, hex⟩ := (s.core c).enterMat_mq (.tpl w.tpl false) (physT (s.core c).m (s.core c).demand (tAIdx w.tpl))
      (physT (s.core c).m (s.core c).demand (tBIdx w.tpl)) none
    refine ⟨_, m, execSidePortCommand_enters hs hj hm hf, ?_⟩
    rw [State.core_modCore_self]
    exact ⟨rfl, hmq, hop, hsig, hex, rfl, rfl⟩
  case takes =>
    refine ⟨_, (execSidePortCommand_acquires hs hj hl ho).trans (congrArg _ (if_pos ht)), s.holdsLic_takeLic c, ?_⟩
    rw [State.core_modCore_self, State.takeLic_core]
    exact ⟨rfl, rfl, rfl, rfl⟩
  case owes => rw [execSidePortCommand_acquires hs hj hl ho, if_neg (by simp [ht])]
  case first =>
    rw [State.mGoesFirst, strandSoon_of_turn ht (by simp)]
    have he' : execEnter (.mzero f) u = .next t := he
    simp [hq, he', hlt]
  case idle => simp [State.mGoesFirst, strandSoon_of_idle hu]
  case grant =>
    obtain ⟨t, ht, hpair, howed, hmem, hpc⟩ := execLicenceGrant_grants hh hl
    rw [State.granted_pair] at hpair
    exact ⟨t, ht, by rw [hpair], by rw [hpair], howed, hmem, fun v u hv hd hu hw => by subst hv; exact hpc u hd hu hw⟩
  case none =>
    show execLicenceGrant c s = _
    rw [execLicenceGrant]
    split
    · next hl => exact absurd (h.symm.trans hl) (by simp)
    · rfl
  case halted =>
    obtain ⟨u, hu⟩ := strandTurn_halted (t := .m) hg hh
    rw [State.mem_licAsked, strandSoon_of_idle hu]
    simp

end Sys2Proof.Machine
end

section
/-! PROOFS. A write of memory: the bytes that it writes, and those that it leaves (R256, R258, R263). -/

namespace Sys2Proof.Machine

/-- The entry of a table under a key is listed there, or is the default. -/
theorem tget_eq_or_mem {α : Type} (d : α) (t : Tbl α) (k : Nat) : tget d t k = d ∨ (k, tget d t k) ∈ t := by
  induction t with
  | nil => exact .inl rfl
  | cons e r ih =>
    obtain ⟨k', v⟩ := e
    by_cases h : k' = k
    · subst h
      exact .inr (by simp [tget])
    · simp only [tget, if_neg h]
      exact ih.imp_right (List.mem_cons_of_mem _)

/-- Every engine write that is pending at a core is pending at a core that is listed. -/
theorem State.ebuf_listed {s : State} {c : Nat} {p : Nat × Byte} (h : p ∈ (s.core c).ebuf) : ∃ e ∈ s.cores, p ∈ e.2.ebuf := by
  rcases tget_eq_or_mem CoreSt.reset s.cores c with hr | hm
  · rw [State.core, hr] at h
    cases h
  · exact ⟨_, hm, h⟩

theorem mget_foldl_mset_ne (l : List (Nat × Byte)) (m : Mem) (j : Nat) (h : ∀ p ∈ l, p.1 ≠ j) :
    mget (l.foldl (fun m p => mset m p.1 p.2) m) j = mget m j := by
  induction l generalizing m with
  | nil => rfl
  | cons p l ih =>
    rw [List.foldl_cons, ih _ fun q hq => h q (List.mem_cons_of_mem _ hq), mget_mset_ne _ _ _ _ (h p List.mem_cons_self).symm]

/-- A byte at which no engine write of the units is pending stays as it was when those enter the memory order (R263). -/
theorem State.flush_mget (s : State) (key n j : Nat) (h : ∀ c, ∀ p ∈ (s.core c).ebuf, p.1 = j → sameUnits key n j = false) :
    mget (s.flush key n).mem j = mget s.mem j := by
  unfold State.flush
  refine (List.foldlRecOn (motive := fun u : State => mget u.mem j = mget s.mem j ∧ ∀ c, ∀ p ∈ (u.core c).ebuf, p ∈ (s.core c).ebuf) _ _
    ⟨rfl, fun _ _ hp => hp⟩ ?_).1
  rintro u ⟨hm, hb⟩ d _
  dsimp only
  split
  · exact ⟨hm, hb⟩
  · refine ⟨(mget_foldl_mset_ne _ _ _ fun p hp e => ?_).trans hm, fun c p hp => ?_⟩
    · obtain ⟨hpu, hpk⟩ := List.mem_filter.mp hp
      have := h d p (hb d p hpu) e
      rw [← e, hpk] at this
      cases this
    · by_cases hc : c = d
      · subst hc
        rw [State.core_modCore_self] at hp
        exact hb c p (List.mem_filter.mp hp).1
      · rw [State.core_modCore_ne _ _ _ _ hc] at hp
        exact hb c p hp

/-- A write writes its bytes. -/
theorem State.write_mget (s : State) (key : Nat) (bs : List Byte) (j : Nat) (h : j < bs.length) :
    mget (s.write key bs).mem (key + j) = bs.getD j 0 := by
  rw [State.write, List.getD_eq_getElem _ _ h]
  exact mget_mwrite_in _ _ _ _ h

/-- A write leaves every byte outside its own alone, but for engine writes that are pending in the units of 8 bytes that it touches. -/
theorem OnlyAt.write {s u : State} (key : Nat) (bs : List Byte) (hb : ∀ c, (u.core c).ebuf = (s.core c).ebuf) (hm : u.mem = s.mem) :
    OnlyAt s (u.write key bs) key bs.length := by
  intro j hj hp
  rw [State.write, ← hm]
  refine (mget_mwrite_out _ _ _ _ hj).trans (u.flush_mget key bs.length j fun c p hpc e => ?_)
  obtain ⟨x, hx, hpx⟩ := State.ebuf_listed (hb c ▸ hpc)
  exact hp x hx p hpx e

/-- What a write leaves is left too by what follows and leaves memory. -/
theorem OnlyAt.of_mem {s t u : State} {key n : Nat} (h : OnlyAt s t key n) (hm : u.mem = t.mem) : OnlyAt s u key n := by
  intro j hj hp
  rw [hm]
  exact h j hj hp

end Sys2Proof.Machine
end

section
/-! PROOFS. A place of a store: what it writes, and what of its core it leaves as it was (R39, R62, R121 to R123, R257, R258, R335). -/

namespace Sys2Proof.Machine

/-! The bytes of a place. -/

theorem Access.placeSize_dvd_size (a : Access) : a.placeSize ∣ a.op.size := by
  unfold Access.placeSize
  split
  · next h => rw [h]; exact ⟨2, rfl⟩
  · next h => rw [h]; exact ⟨2, rfl⟩
  · split
    · exact dvd_refl _
    · exact one_dvd _

theorem AccessOp.bytes_length {o : AccessOp} (h : o.writes = true) : o.bytes.length = o.size := by
  cases o with
  | load b sg d => cases h
  | loadRow r => cases h
  | store b d => exact bytesOfNat_length _ _
  | storeRow r => exact bytesOfNat_length _ _

/-- A store's places are its bytes. -/
theorem Access.places_mul_placeSize {a : Access} (h : a.op.writes = true) : a.places * a.placeSize = a.op.bytes.length :=
  (Nat.div_mul_cancel a.placeSize_dvd_size).trans (AccessOp.bytes_length h).symm

/-- The bytes that a store writes with the place that it takes next. -/
def Access.placeBytes (a : Access) : List Byte := (a.op.bytes.drop (a.done * a.placeSize)).take a.placeSize

theorem Access.placeBytes_length {a : Access} (h : a.op.writes = true) (hp : a.performed = false) : a.placeBytes.length = a.placeSize := by
  have hlt : a.done < a.places := by simpa [Access.performed] using hp
  have : (a.done + 1) * a.placeSize ≤ a.op.bytes.length := Access.places_mul_placeSize h ▸ Nat.mul_le_mul_right _ hlt
  rw [Nat.succ_mul] at this
  rw [Access.placeBytes, List.length_take, List.length_drop]
  omega

theorem Access.placeBytes_getD {a : Access} {j : Nat} (h : j < a.placeSize) :
    a.placeBytes.getD j 0 = (a.op.bytes.drop (a.done * a.placeSize)).getD j 0 := by
  simp [Access.placeBytes, List.getD_eq_getElem?_getD, h]

/-! The state after a place. -/

/-- A store that has written the bytes of its next place. -/
def Access.afterWrite (a : Access) : Access := { a with done := a.done + 1, got := [] }

/-- The least logical time that a store of a core may take at a key (R258). -/
def State.storeMoment (s : State) (c key : Nat) : Nat := max (s.core c).ptime (max (s.timeOf key).write (s.timeOf key).lease + 1)

/-- A core whose store has just taken a place at a logical time; its TLB and its pending engine writes may have changed, and its stash line is dirty. -/
def CoreSt.tookStore (k : CoreSt) (a : Access) (ea time : Nat) (tlb : List TlbEntry) (ebuf : Tbl Byte) : CoreSt :=
  { k with
    tlb := tlb
    ptime := time
    ebuf := ebuf
    stash := (k.stashDirty ea).stash
    aq := k.aq.map (fun b => if b.id = a.id then a.afterWrite else b) }

theorem State.storeTime_ebuf (s : State) (c key d : Nat) : ((s.storeTime c key).core d).ebuf = (s.core d).ebuf := by
  by_cases hd : d = c
  · subst hd
    rw [State.storeTime, State.core_modCore_self]
    rfl
  · rw [State.storeTime, State.core_modCore_ne _ _ _ _ hd]
    rfl

theorem OnlyAt.storeAt {s u : State} (c key ea : Nat) (bs : List Byte) (hb : ∀ d, (u.core d).ebuf = (s.core d).ebuf) (hm : u.mem = s.mem) :
    OnlyAt s (u.storeAt c key bs ea) key bs.length :=
  (OnlyAt.write (u := u.storeTime c key) key bs (fun d => (u.storeTime_ebuf c key d).trans (hb d)) hm).of_mem rfl

/-- What a store at a key does: its logical time, its bytes, and its stash line (R231, R256, R258). -/
theorem State.storeAt_frame (s : State) (c key ea : Nat) (bs : List Byte) :
    (∀ j, j < bs.length → mget (s.storeAt c key bs ea).mem (key + j) = bs.getD j 0) ∧
      (s.storeAt c key bs ea).poison = s.poison ∧
      (s.storeAt c key bs ea).timeOf key = { write := s.storeMoment c key, lease := s.storeMoment c key } ∧
      ∃ b, (s.storeAt c key bs ea).core c = { s.core c with ptime := s.storeMoment c key, ebuf := b, stash := ((s.core c).stashDirty ea).stash } := by
  have hw := MemOnly.write (s.storeTime c key) key bs
  refine ⟨fun j hj => State.write_mget _ _ _ _ hj, ?_, ?_, ?_⟩
  · exact hw.poison
  · have ht : (s.storeAt c key bs ea).times = (s.storeTime c key).times := hw.times
    rw [State.timeOf_congr ht]
    exact tget_tset_self _ _ _ _
  · obtain ⟨b, hb⟩ := hw.2 c
    refine ⟨b, ?_⟩
    rw [State.storeAt, State.core_modCore_self, hb, State.storeTime, State.core_modCore_self]
    rfl

section
variable {s v : State} {c key n ea kd ad : Nat} {a : Access}

/-- A store whose address passes its checks takes its place. -/
theorem State.nextPlace_stored (ha : a.op.writes = true) (hn : n = a.placeSize) (hea : ea = addrPlus a.ea (a.done * n))
    (hw : (s.core c).stashWaits ea = false) (hu : s.unanswered c (.access a.id) = false) (hv : v = (s.cacheLeaf c ea).touch key n)
    (hk : s.keyOf c ea true = .ok key) : s.nextPlace c a = some (v.takePlace c a key) := by
  subst hv hea hn
  simp only [State.nextPlace, hw, hu, ha, hk, Bool.or_false, Bool.not_true, Bool.false_and, Bool.false_eq_true, if_false]

/-- What a store leaves with a place. -/
structure Stored (s u : State) (c key ea : Nat) (a : Access) : Prop where
  only : OnlyAt s u key a.placeSize
  bytes : ∀ j, j < a.placeSize → mget u.mem (key + j) = (a.op.bytes.drop (a.done * a.placeSize)).getD j 0
  mark : (s.spoilsOf c (.access a.id)).contains (ea / 128) = true → key / 128 ∈ u.poison
  unmarked : (s.spoilsOf c (.access a.id)).contains (ea / 128) = false → u.poison = s.poison
  time : u.timeOf key = { write := s.storeMoment c key, lease := s.storeMoment c key }
  core : ∃ tlb b, u.core c = (s.core c).tookStore a ea (s.storeMoment c key) tlb b

/-- What caching a leaf and filling view lines leave: everything of the core but its TLB, and all that a store finds (R169, R297). -/
theorem State.cacheLeaf_touch_frame (s : State) (c ea key n : Nat) :
    ((s.cacheLeaf c ea).touch key n).mem = s.mem ∧ ((s.cacheLeaf c ea).touch key n).poison = s.poison ∧
      ((s.cacheLeaf c ea).touch key n).times = s.times ∧ ((s.cacheLeaf c ea).touch key n).outstanding = s.outstanding ∧
      (∀ d, (((s.cacheLeaf c ea).touch key n).core d).ebuf = (s.core d).ebuf) := by
  have hp : ((s.cacheLeaf c ea).touch key n).poison = (s.cacheLeaf c ea).poison := by rw [State.touch_only]
  refine ⟨by simp, hp.trans ?_, by simp, by simp, fun d => ?_⟩
  · rcases s.cacheLeaf_cases c ea with h | ⟨l, h⟩ <;> rw [h]
    rfl
  · rw [State.touch_core]
    rcases s.cacheLeaf_cases c ea with h | ⟨l, h⟩ <;> rw [h]
    by_cases hd : d = c
    · subst hd
      rw [State.core_setCore_self]
    · rw [State.core_setCore_ne _ _ _ _ hd]

/-- The place that a store takes (R256 to R258, R335). -/
theorem State.takePlace_stored (ha : a.op.writes = true) (hp : a.performed = false) (hea : ea = addrPlus a.ea (a.done * a.placeSize))
    (hv : v = (s.cacheLeaf c ea).touch key a.placeSize) : Stored s (v.takePlace c a key) c key ea a := by
  obtain ⟨hmem, hpoison, htimes, hout, hebuf⟩ := s.cacheLeaf_touch_frame c ea key a.placeSize
  rw [← hv] at hmem hpoison htimes hout hebuf
  obtain ⟨tlb, htlb⟩ := s.cacheLeaf_core c ea
  have hcore : v.core c = { s.core c with tlb := tlb } := by rw [hv, State.touch_core, htlb]
  have hspoils : v.spoilsOf c (.access a.id) = s.spoilsOf c (.access a.id) := by simp only [State.spoilsOf, State.asked, hout]
  have hlen := Access.placeBytes_length ha hp
  set spoilt := (s.spoilsOf c (.access a.id)).contains (ea / 128) with hsp
  set w := if spoilt = true then v.markLine key else v with hw
  have hwv : w.mem = v.mem ∧ w.times = v.times ∧ w.cores = v.cores := by rw [hw]; split <;> exact ⟨rfl, rfl, rfl⟩
  have hwcore : ∀ d, w.core d = v.core d := State.core_of_cores hwv.2.2
  have hwtime : w.timeOf key = s.timeOf key := State.timeOf_congr (hwv.2.1.trans htimes) key
  have hmoment : w.storeMoment c key = s.storeMoment c key := by
    rw [State.storeMoment, hwcore, hwtime, hcore]
    rfl
  have htake : v.takePlace c a key = (w.storeAt c key a.placeBytes ea).modCore c (fun k =>
      { k with aq := k.aq.map (fun b => if b.id = a.id then a.afterWrite else b) }) := by
    simp only [State.takePlace, ha, if_true, ← hea, hspoils, ← hsp]
    rfl
  obtain ⟨hbytes, hpois, htime, b, hk⟩ := w.storeAt_frame c key ea a.placeBytes
  rw [htake]
  refine ⟨?_, fun j hj => ?_, fun h => ?_, fun h => ?_, ?_, tlb, b, ?_⟩
  · exact hlen ▸ OnlyAt.storeAt c key ea a.placeBytes (fun d => by rw [hwcore, hebuf]) (hwv.1.trans hmem)
  · exact (hbytes j (hlen ▸ hj)).trans (Access.placeBytes_getD hj)
  · rw [State.modCore_poison, hpois, hw, if_pos h]
    exact List.mem_append_right _ List.mem_cons_self
  · rw [State.modCore_poison, hpois, hw, if_neg (Bool.eq_false_iff.mp h)]
    exact hpoison
  · rw [← hmoment]
    exact htime
  · rw [State.core_modCore_self, hk, hmoment, hwcore, hcore]
    rfl

end

end Sys2Proof.Machine
end

section
/-! PROOFS. The step of A's order that a store takes: it fails, takes a place, or ends (R39, R62, R121 to R123, R274). -/

namespace Sys2Proof.Machine

/-! The completion of a store. -/

@[simp] theorem CoreSt.signalOwe_stores (k : CoreSt) (l : List (BitVec 4)) : (k.signalOwe .a l).stores = k.stores := by
  obtain ⟨_, _, h⟩ := k.signalOwe_cases l; rw [h]

@[simp] theorem CoreSt.signalOwe_stash (k : CoreSt) (l : List (BitVec 4)) : (k.signalOwe .a l).stash = k.stash := by
  obtain ⟨_, _, h⟩ := k.signalOwe_cases l; rw [h]

@[simp] theorem CoreSt.signalOwe_fe (k : CoreSt) (l : List (BitVec 4)) : (k.signalOwe .a l).fe = k.fe := by
  obtain ⟨_, _, h⟩ := k.signalOwe_cases l; rw [h]

@[simp] theorem CoreSt.signalOwe_full (k : CoreSt) (l : List (BitVec 4)) : (k.signalOwe .a l).full = k.full := by
  obtain ⟨_, _, h⟩ := k.signalOwe_cases l; rw [h]

/-- A store is done on its core before it signals: it has left A's order and is no longer counted. -/
def CoreSt.storeDone (k : CoreSt) (a : Access) : CoreSt := { k with stores := k.stores - 1, aq := k.aq.filter (fun b => b.id != a.id) }

theorem CoreSt.finishAccess_store (k : CoreSt) {a : Access} (h : a.op.writes = true) :
    k.finishAccess a = (k.storeDone a).signalOwe .a a.sig.toList := by
  unfold CoreSt.finishAccess
  cases hop : a.op with
  | load b sg d => simp [hop, AccessOp.writes] at h
  | loadRow r => simp [hop, AccessOp.writes] at h
  | store b d => rfl
  | storeRow r => rfl

/-! Recalls that act only mark more lines of memory, and none where no line of the stash is recalled. -/

theorem State.markLine_poison (s : State) (key : Nat) {l : Nat} (h : l ∈ s.poison) : l ∈ (s.markLine key).poison := by
  by_cases hl : l = key / 128
  · exact List.mem_append_right _ (List.mem_singleton.mpr hl)
  · exact List.mem_append_left _ (List.mem_filter.mpr ⟨h, by simpa using hl⟩)

theorem State.dropLine_poison (s : State) (c : Nat) (x : StashLine) {l : Nat} (h : l ∈ s.poison) : l ∈ (s.dropLine c x).poison := by
  show l ∈ (s.leaveMark c x).poison
  unfold State.leaveMark
  split
  · split
    · exact s.markLine_poison _ h
    · exact h
  · exact h

theorem State.actRecalls_poison_mem (s : State) (c : Nat) {l : Nat} (h : l ∈ s.poison) : l ∈ (s.actRecalls c).poison :=
  List.foldlRecOn (motive := fun u : State => l ∈ u.poison) _ _ h fun u hu x _ => u.dropLine_poison c x hu

theorem State.actRecalls_none {s : State} {c : Nat} (h : ∀ x ∈ (s.core c).stash, x.recalled = false) : s.actRecalls c = s := by
  have : (s.core c).stash.filter (fun x => x.recalled && !x.waiting && !(s.core c).aq.any (fun a => x.owes.contains a.id && !a.performed)) = [] :=
    List.filter_eq_nil_iff.mpr fun x hx => by simp [h x hx]
  rw [State.actRecalls, this, List.foldl_nil]

theorem CoreSt.stashDirty_recalled {k : CoreSt} {ea : Nat} (h : ∀ x ∈ k.stash, x.recalled = false) :
    ∀ x ∈ (k.stashDirty ea).stash, x.recalled = false := by
  intro x hx
  obtain ⟨y, hy, rfl⟩ := List.mem_map.mp hx
  split <;> exact h y hy

/-! The step. -/

section
variable {s u : State} {c key ea : Nat} {a : Access}

/-- A store's place is taken; with the last one the store completes (R257). -/
theorem performHead_stores (hn : s.nextAccess c = some a) (ha : a.op.writes = true) (hp : a.performed = false)
    (ht : s.nextPlace c a = some u) (hu : Stored s u c key ea a) :
    performHead c AccessOp.writes s =
      .next ((if a.places ≤ a.done + 1 then u.completeAccess c a.afterWrite else u).actRecalls c) := by
  obtain ⟨tlb, b, hcore⟩ := hu.core
  have hfind : (u.core c).aq.find? (fun b => b.id == a.id) = some a.afterWrite := by
    rw [hcore]
    exact find?_replaced rfl (mem_of_nextAccess hn)
  rw [performHead_place hn ha hp, State.performPlace, ht, Option.map_some, hfind, Option.filter_some]
  have : a.afterWrite.performed = decide (a.places ≤ a.done + 1) := rfl
  rw [this]
  by_cases hl : a.places ≤ a.done + 1 <;> simp [hl]

/-- What the core holds after the last place of a store, before the store signals. -/
def CoreSt.wroteLast (k : CoreSt) (a : Access) (ea time : Nat) (tlb : List TlbEntry) (b : Tbl Byte) : CoreSt :=
  (k.tookStore a ea time tlb b).storeDone a

theorem Stored.completed_core (hu : Stored s u c key ea a) (ha : a.op.writes = true) :
    ∃ tlb b, (u.completeAccess c a.afterWrite).core c =
      ((s.core c).wroteLast a ea (s.storeMoment c key) tlb b).signalOwe .a a.sig.toList := by
  obtain ⟨tlb, b, hcore⟩ := hu.core
  exact ⟨tlb, b, by rw [State.completeAccess_core, hcore]; exact CoreSt.finishAccess_store _ ha⟩

/-- Whether or not a store completes with its place, what it has written and marked stays, and so does its core's stash. -/
theorem Stored.done_frame (hu : Stored s u c key ea a) (ha : a.op.writes = true) {t : State}
    (ht : t = if a.places ≤ a.done + 1 then u.completeAccess c a.afterWrite else u) :
    t.mem = u.mem ∧ t.times = u.times ∧ t.poison = u.poison ∧ (t.core c).stash = ((s.core c).stashDirty ea).stash := by
  subst ht
  split
  · obtain ⟨tlb, b, hcore⟩ := hu.completed_core ha
    refine ⟨rfl, rfl, rfl, ?_⟩
    rw [hcore, CoreSt.signalOwe_stash]
    rfl
  · obtain ⟨tlb, b, hcore⟩ := hu.core
    exact ⟨rfl, rfl, rfl, by rw [hcore]; rfl⟩

end

/-- An access that its home has performed is the next of its core only once its reply, and those of its stash lines, have come (R274). -/
theorem State.replied_of_nextAccess {s : State} {c : Nat} {a : Access} (hn : s.nextAccess c = some a) (hp : a.performed = true) :
    s.replied c a = true := by
  rcases Option.or_eq_some_iff.mp hn with h | ⟨-, h⟩
  · have := List.find?_some h
    simp only [Bool.and_eq_true] at this
    exact this.2
  · have := List.find?_some h
    simp [hp] at this

theorem State.replied_iff {s : State} {c : Nat} {a : Access} : s.replied c a = true ↔ s.unanswered c (.access a.id) = false ∧
    ∀ x ∈ (s.core c).stash, x.waiting = true → x.line < a.ea.toNat / 128 ∨ (a.ea.toNat + a.op.size - 1) / 128 < x.line := by
  simp only [State.replied, StashLine.of, Bool.and_eq_true, Bool.not_eq_true', List.any_eq_false, decide_eq_true_eq, not_and, not_le]
  refine and_congr_right fun _ => forall₂_congr fun x _ => forall_congr' fun _ => ⟨fun h => ?_, fun h => ?_⟩ <;> omega

theorem State.spoilsOf_contains_iff {s : State} {c l : Nat} {w : Req} :
    (s.spoilsOf c w).contains l = true ↔ ∃ o ∈ s.outstanding, o.core = c ∧ o.what = w ∧ l ∈ o.spoils := by
  simp [State.spoilsOf, State.asked, and_assoc]

end Sys2Proof.Machine
end

section
/-! PROOFS. A store writes exactly its bytes, with its logical time; one that fails ends the gang (R39, R62, R121 to R123, R257, R258, R335). -/

namespace Sys2Proof.Machine

/-- One whose home has performed it writes nothing again, and is no longer counted (R274). -/
theorem storePerformed_ends {s : State} {c : Nat} {a : Access} (hn : s.nextAccess c = some a) (hp : a.performed = true)
    (ha : a.op.writes = true) : ∃ t, exec (.storePerformed c) s = .next t ∧ t.mem = s.mem ∧
      (t.core c).aq = (s.core c).aq.filter (fun b => b.id != a.id) ∧ (t.core c).stores = (s.core c).stores - 1 := by
  have hm : s.cameMarked c a = false := by rw [State.cameMarked, ha]; rfl
  refine ⟨s.completeAccess c a, ?_, rfl, ?_⟩
  · exact (performHead_ends hn ha hp).trans (by rw [State.endAccess, hm]; rfl)
  · rw [State.completeAccess_core, CoreSt.finishAccess_store _ ha, CoreSt.signalOwe_aq, CoreSt.signalOwe_stores]
    exact ⟨rfl, rfl⟩

section
variable {s : State} {c n ea key : Nat} {a : Access}

/-- The step of a store whose address passes its checks, and what it leaves: `u` is the state after its place. -/
theorem storePerformed_places (hn : s.nextAccess c = some a) (hp : a.performed = false) (ha : a.op.writes = true) (hsz : n = a.placeSize)
    (hea : ea = addrPlus a.ea (a.done * n)) (hw : (s.core c).stashWaits ea = false) (hu : s.unanswered c (.access a.id) = false)
    (hkey : s.keyOf c ea true = .ok key) :
    ∃ u, Stored s u c key ea a ∧ exec (.storePerformed c) s =
      .next ((if a.places ≤ a.done + 1 then u.completeAccess c a.afterWrite else u).actRecalls c) := by
  have hst := State.takePlace_stored (s := s) (c := c) (key := key) ha hp (hsz ▸ hea) rfl
  exact ⟨_, hst, performHead_stores hn ha hp (State.nextPlace_stored ha rfl (hsz ▸ hea) hw hu rfl hkey) hst⟩

end

section
variable {s u : State} {c key ea : Nat} {a : Access}

/-- The bytes of a store's place, and no others, are what the step has written. -/
theorem Stored.writes (hu : Stored s u c key ea a) (ha : a.op.writes = true) {t : State}
    (ht : t = (if a.places ≤ a.done + 1 then u.completeAccess c a.afterWrite else u).actRecalls c) :
    (∀ j, j < a.placeSize → mget t.mem (key + j) = (a.op.bytes.drop (a.done * a.placeSize)).getD j 0) ∧ OnlyAt s t key a.placeSize := by
  obtain ⟨hm, -, -, -⟩ := hu.done_frame ha rfl
  have hmem : t.mem = u.mem := by rw [ht, State.actRecalls_mem, hm]
  exact ⟨fun j hj => hmem ▸ hu.bytes j hj, hu.only.of_mem hmem⟩

/-- With its last place a store is no longer counted, its token is signalled or owed, and its logical time lies beyond the lease (R39, R62, R258). -/
theorem Stored.last (hu : Stored s u c key ea a) (ha : a.op.writes = true) {t : State}
    (ht : t = (u.completeAccess c a.afterWrite).actRecalls c) :
    (t.core c).aq = (s.core c).aq.filter (fun b => b.id != a.id) ∧ (t.core c).stores = (s.core c).stores - 1 ∧
      (∀ k, (s.core c).signalOpt? a.sig = some k → (t.core c).tk = k.tk ∧ (t.core c).a = (s.core c).a) ∧
      (∀ w, a.sig = some w → (s.core c).tk.get w.toFin = 255 → (t.core c).tk = (s.core c).tk ∧
        (t.core c).a = { (s.core c).a with sigDue := (s.core c).a.sigDue ++ [w] }) ∧
      (s.timeOf key).lease < (t.core c).ptime ∧ (t.timeOf key).write = (t.core c).ptime ∧ (t.core c).ar = (s.core c).ar := by
  obtain ⟨tlb, b, hcomp⟩ := hu.completed_core ha
  obtain ⟨st, hrec⟩ := (u.completeAccess c a.afterWrite).actRecalls_core c
  have hcore : t.core c = { ((s.core c).wroteLast a ea (s.storeMoment c key) tlb b).signalOwe .a a.sig.toList with stash := st } := by
    rw [ht, hrec, hcomp]
  have htime : t.timeOf key = { write := s.storeMoment c key, lease := s.storeMoment c key } := by
    rw [← hu.time]
    exact State.timeOf_congr (ht ▸ State.actRecalls_times _ _) key
  rw [hcore, htime]
  dsimp only
  refine ⟨?_, ?_, fun k hk => CoreSt.signalOwe_made (k0 := s.core c) rfl hk, fun w hw hfull => ?_, ?_, ?_, ?_⟩
  · rw [CoreSt.signalOwe_aq]
    exact filter_replaced _ rfl
  · exact CoreSt.signalOwe_stores _ _
  · rw [hw]
    exact CoreSt.signalOwe_owed hfull
  · rw [CoreSt.signalOwe_ptime]
    show _ < s.storeMoment c key
    unfold State.storeMoment
    omega
  · exact (CoreSt.signalOwe_ptime ((s.core c).wroteLast a ea _ tlb b) _).symm
  · exact CoreSt.signalOwe_ar _ _

/-- A place that is not the last signals nothing and leaves the store counted. -/
theorem Stored.more (hu : Stored s u c key ea a) {t : State} (ht : t = u.actRecalls c) :
    (t.core c).stores = (s.core c).stores ∧ (t.core c).tk = (s.core c).tk := by
  obtain ⟨tlb, b, hcore⟩ := hu.core
  obtain ⟨st, hrec⟩ := u.actRecalls_core c
  rw [ht, hrec, hcore]
  exact ⟨rfl, rfl⟩

/-- A store whose data came in a marked flit marks its line (R335). -/
theorem Stored.marks (hu : Stored s u c key ea a) (ha : a.op.writes = true) {t : State}
    (ht : t = (if a.places ≤ a.done + 1 then u.completeAccess c a.afterWrite else u).actRecalls c)
    (ho : ∃ o ∈ s.outstanding, o.core = c ∧ o.what = .access a.id ∧ ea / 128 ∈ o.spoils) : key / 128 ∈ t.poison := by
  obtain ⟨-, -, hp, -⟩ := hu.done_frame ha rfl
  rw [ht]
  apply State.actRecalls_poison_mem
  rw [hp]
  exact hu.mark (State.spoilsOf_contains_iff.mpr ho)

/-- Any other marks none, where no recall is held. -/
theorem Stored.marksNone (hu : Stored s u c key ea a) (ha : a.op.writes = true) {t : State}
    (ht : t = (if a.places ≤ a.done + 1 then u.completeAccess c a.afterWrite else u).actRecalls c)
    (ho : ∀ o ∈ s.outstanding, o.core = c → o.what = .access a.id → ea / 128 ∉ o.spoils)
    (hr : ∀ x ∈ (s.core c).stash, x.recalled = false) : t.poison = s.poison := by
  obtain ⟨-, -, hp, hst⟩ := hu.done_frame ha rfl
  rw [ht, State.actRecalls_none (by rw [hst]; exact CoreSt.stashDirty_recalled hr), hp]
  refine hu.unmarked (Bool.eq_false_iff.mpr fun h => ?_)
  obtain ⟨o, hmem, hcore, hwhat, hl⟩ := State.spoilsOf_contains_iff.mp h
  exact ho o hmem hcore hwhat hl

end

end Sys2Proof.Machine
end

section
/-! PROOFS. A full/empty operation is performed, waits, or ends with what was recorded (R62, R127, R128, R274, R335). -/

namespace Sys2Proof.Machine

/-- A core with other pending engine writes and other full lines. -/
def CoreSt.withLines (k : CoreSt) (b : Tbl Byte) (f : List Nat) : CoreSt := { k with ebuf := b, full := f }

theorem CoreSt.signalOwe_withLines (k : CoreSt) (b : Tbl Byte) (f : List Nat) (l : List (BitVec 4)) :
    (k.withLines b f).signalOwe .a l = (k.signalOwe .a l).withLines b f := by
  induction l generalizing k with
  | nil => rfl
  | cons w l ih =>
    rw [CoreSt.signalOwe, CoreSt.signalOwe, ← ih]
    congr 1
    unfold CoreSt.signal?
    by_cases h : k.tk.get w.toFin = 255
    · rw [if_pos h, if_pos (show (k.withLines b f).tk.get w.toFin = 255 from h)]
      rfl
    · rw [if_neg h, if_neg (show ¬ (k.withLines b f).tk.get w.toFin = 255 from h)]
      rfl

theorem CoreSt.deliver_withLines (k : CoreSt) (b : Tbl Byte) (f : List Nat) (id n : Nat) (sg : Bool) (d : LoadDst) (bs : List Byte) :
    (k.withLines b f).deliver id n sg d bs = (k.deliver id n sg d bs).withLines b f := by
  cases d with
  | reg j =>
    simp only [CoreSt.deliver, CoreSt.setA]
    split <;> rfl
  | discard => rfl
  | queue q => rfl

theorem CoreSt.setRow_withLines (k : CoreSt) (b : Tbl Byte) (f : List Nat) (n : RowName) (v : Row) :
    (k.withLines b f).setRow n v = (k.setRow n v).withLines b f := by
  cases n with
  | tile r i => rfl
  | operand i =>
    simp only [CoreSt.setRow]
    split <;> rfl

/-- A core of which a performed operation has taken the operands (R127). -/
def CoreSt.fePopped (k : CoreSt) (r : FeReq) : CoreSt :=
  { k with
    fe := none
    xa := (k.xa.setIfInBounds 0 ((k.xa.getD 0 []).drop r.pops.1)).setIfInBounds 1 ((k.xa.getD 1 []).drop r.pops.2) }

/-- A core to which a performed operation has delivered, with its counter. -/
def CoreSt.feDelivered (k : CoreSt) (r : FeReq) (got : List Byte) : CoreSt :=
  match r.op with
  | .load b sg dst => { k.deliver r.id b sg dst got with loads := k.loads - 1 }
  | .loadRow row => { (k.setRow row (rowOfBytes got)).clearBusy row r.id with loads := k.loads - 1 }
  | _ => { k with stores := k.stores - 1 }

/-- A performed operation takes its operands, delivers, and lets A go on before it signals. -/
theorem CoreSt.finishFe_eq (k : CoreSt) (r : FeReq) (got : List Byte) : k.finishFe r got =
    { (k.fePopped r).feDelivered r got with a := ((k.fePopped r).feDelivered r got).a.advance r.next r.words }.signalOwe .a r.sig.toList := rfl

theorem CoreSt.feDelivered_withLines (k : CoreSt) (b : Tbl Byte) (f : List Nat) (r : FeReq) (got : List Byte) :
    (k.withLines b f).feDelivered r got = (k.feDelivered r got).withLines b f := by
  unfold CoreSt.feDelivered
  cases r.op with
  | load n sg d =>
    dsimp only
    rw [CoreSt.deliver_withLines]
    rfl
  | loadRow n =>
    dsimp only
    rw [CoreSt.setRow_withLines]
    rfl
  | store n d => rfl
  | storeRow n => rfl

/-- What a performed operation does on its own core does not look at the lines' states or at pending engine writes. -/
theorem CoreSt.finishFe_withLines (k : CoreSt) (b : Tbl Byte) (f : List Nat) (r : FeReq) (got : List Byte) :
    (k.withLines b f).finishFe r got = (k.finishFe r got).withLines b f := by
  have hp : (k.withLines b f).fePopped r = (k.fePopped r).withLines b f := rfl
  rw [CoreSt.finishFe_eq, CoreSt.finishFe_eq, hp, CoreSt.feDelivered_withLines, ← CoreSt.signalOwe_withLines]
  rfl

/-- A performed operation stands no more, and leaves the states of the core's own lines to its lines (R127). -/
theorem CoreSt.finishFe_frame (k : CoreSt) (r : FeReq) (got : List Byte) : (k.finishFe r got).fe = none ∧ (k.finishFe r got).full = k.full := by
  have h : ((k.fePopped r).feDelivered r got).fe = none ∧ ((k.fePopped r).feDelivered r got).full = k.full := by
    unfold CoreSt.feDelivered
    cases r.op with
    | load n sg d =>
      obtain ⟨_, _, h⟩ := (k.fePopped r).deliver_cases r.id n sg d got
      dsimp only
      rw [h]
      exact ⟨rfl, rfl⟩
    | loadRow n =>
      obtain ⟨_, _, h⟩ := (k.fePopped r).setRow_cases n (rowOfBytes got)
      dsimp only
      rw [h]
      exact ⟨rfl, rfl⟩
    | store n d => exact ⟨rfl, rfl⟩
    | storeRow n => exact ⟨rfl, rfl⟩
  rw [CoreSt.finishFe_eq, CoreSt.signalOwe_fe, CoreSt.signalOwe_full]
  exact h

/-! The lines. -/

/-- The full lines of a core after an operation has turned some lines. -/
def turned (full ls : List Nat) (writes : Bool) : List Nat := if writes then full ++ ls else full.filter (fun l => !ls.contains l)

theorem turned_contains {full ls : List Nat} {writes : Bool} {l : Nat} (h : l ∈ ls) : (turned full ls writes).contains l = writes := by
  cases writes <;> simp [turned, h]

/-- The state after a store at its lines, marked where its data came so (R335), before the lines turn. -/
def State.feStored (s : State) (c key : Nat) (r : FeReq) (ls : List Nat) : State :=
  if r.op.writes then
    (((List.range ls.length).filter (fun i => (s.spoilsOf c (.access r.id)).contains (r.ea.toNat / 128 + i))).foldl
      (fun s i => s.markLine (key + 128 * i)) s).write key r.op.bytes
  else s

theorem State.foldl_markLine_frame (s : State) (key : Nat) (l : List Nat) :
    (l.foldl (fun s i => s.markLine (key + 128 * i)) s).mem = s.mem ∧ (l.foldl (fun s i => s.markLine (key + 128 * i)) s).cores = s.cores :=
  List.foldlRecOn (motive := fun u : State => u.mem = s.mem ∧ u.cores = s.cores) _ _ ⟨rfl, rfl⟩ fun _ hu _ _ => hu

/-- What an operation does at its lines: a store writes exactly its bytes, a load nothing; and cores change only in pending engine writes. -/
theorem State.feStored_frame (s : State) (c key : Nat) (r : FeReq) (ls : List Nat) :
    (∀ d, ∃ b, (s.feStored c key r ls).core d = { s.core d with ebuf := b }) ∧
      (r.op.writes = true → (∀ j, j < r.op.bytes.length → mget (s.feStored c key r ls).mem (key + j) = r.op.bytes.getD j 0) ∧
        OnlyAt s (s.feStored c key r ls) key r.op.bytes.length) ∧
      (r.op.writes = false → (s.feStored c key r ls).mem = s.mem) := by
  unfold State.feStored
  generalize (List.range ls.length).filter _ = marks
  obtain ⟨hm, hc⟩ := s.foldl_markLine_frame key marks
  generalize marks.foldl _ s = u at hm hc
  have hcore : ∀ d, u.core d = s.core d := State.core_of_cores hc
  split
  · next hw =>
    refine ⟨fun d => ?_, fun _ => ⟨fun j hj => State.write_mget _ _ _ _ hj, ?_⟩, fun h => by rw [hw] at h; cases h⟩
    · obtain ⟨b, hb⟩ := (MemOnly.write u key r.op.bytes).2 d
      exact ⟨b, hb.trans (by rw [hcore])⟩
    · exact OnlyAt.write _ _ (fun d => by rw [hcore]) hm
  · next hw => exact ⟨fun d => ⟨_, rfl⟩, fun h => absurd h hw, fun _ => rfl⟩

section
variable {s : State} {c d : Nat} {r : FeReq} {ls : List Nat}

/-- An operation acts once its lines are in the state that it needs and nothing comes before it (R127, R128). -/
theorem State.feAct_acts {key : Nat} (hl : s.feLines c r = some (d, ls)) (hlate : s.cx.late = false) (hp : (s.core c).allPerformed = true)
    (hf : ∀ l ∈ ls, (s.core d).full.contains l = !r.op.writes) (ho : s.feOlder c r = false) (ht : s.feThere c r = true)
    (hkey : key = spadKey d (ls.headD 0 * 128 + r.ea.toNat % 128))
    (hbad : r.op.writes = false → s.badAt key r.op.size = false ∧ s.replyMarked c (.access r.id) = false) :
    s.feAct c r = .ok (s.coreBytes c key r.op.size,
      (s.feStored c key r ls).modCore d (fun k => { k with full := turned k.full ls r.op.writes })) := by
  have hall : ls.all (fun l => (s.core d).full.contains l != r.op.writes) = true :=
    List.all_eq_true.mpr fun l h => by rw [hf l h]; cases r.op.writes <;> rfl
  have hgood : (!r.op.writes && (s.badAt key r.op.size || s.replyMarked c (.access r.id))) = false := by
    cases hw : r.op.writes with
    | true => rfl
    | false => simp [hbad hw]
  subst hkey
  simp only [State.feAct, hl, hp, ht, ho, hlate, hall, hgood]
  rfl

/-- An operation of which a line is not in the state it needs, or before which something comes, waits (R127, R128). -/
theorem State.feAct_waits (hl : s.feLines c r = some (d, ls))
    (h : (s.core c).allPerformed = false ∨ (∃ l ∈ ls, (s.core d).full.contains l = r.op.writes) ∨ s.feOlder c r = true ∨ s.cx.late = true) :
    s.feAct c r = .error .stall := by
  have hneed : ((s.core c).allPerformed && s.feThere c r && ls.all (fun l => (s.core d).full.contains l != r.op.writes) && !s.feOlder c r &&
      !s.cx.late) = false := by
    rcases h with h | ⟨l, hm, h⟩ | h | h
    · simp [h]
    · have : ls.all (fun l => (s.core d).full.contains l != r.op.writes) = false :=
        List.all_eq_false.mpr ⟨l, hm, by rw [h]; simp⟩
      rw [this, Bool.and_false, Bool.false_and, Bool.false_and]
    · simp [h]
    · simp [h]
  simp only [State.feAct, hl, hneed]
  rfl

/-- One whose request has not reached its lines waits (R128, R334). -/
theorem State.feAct_unanswered (hl : s.feLines c r = some (d, ls)) (h : s.unanswered c (.access r.id) = true) : s.feAct c r = .error .stall := by
  simp only [State.feAct, hl, State.feThere, h]
  simp
  rfl

/-! The step. -/

/-- An operation that acts, acts with the step that is its (R127, R128). -/
theorem fullEmptyPerform_acts {got : List Byte} {t : State} (hfe : (s.core c).fe = some r) (hthere : s.feThere c r = true)
    (hh : (s.taskOf c).elim false Task.halted = false) (hact : s.feAct c r = .ok (got, t)) :
    exec (.fullEmptyPerform c) s = .next ((t.setCore c ((t.core c).finishFe r got)).answer c (.access r.id)) := by
  have hrec : s.recorded c (.access r.id) = none := by
    have := (Bool.and_eq_true_iff.mp hthere).2
    simpa using this
  show execFullEmptyPerform c s = _
  simp only [execFullEmptyPerform, hfe, hrec, hh, hact]
  rfl

/-- An operation that waits changes nothing. -/
theorem fullEmptyPerform_waits (hfe : (s.core c).fe = some r) (h : s.recorded c (.access r.id) = none → s.feAct c r = .error .stall)
    (hrec : s.recorded c (.access r.id) = none ∨ s.unanswered c (.access r.id) = true) : exec (.fullEmptyPerform c) s = .next s := by
  show execFullEmptyPerform c s = _
  cases hr : s.recorded c (.access r.id) with
  | none =>
    simp only [execFullEmptyPerform, hfe, hr, h hr]
    split <;> rfl
  | some got =>
    have hu : s.unanswered c (.access r.id) = true := hrec.resolve_left (by rw [hr]; exact Option.some_ne_none _)
    simp only [execFullEmptyPerform, hfe, hr, hu, if_true]

/-- The cores after an operation's lines have turned: its own with other lines and pending engine writes, and the lines' with them turned. -/
theorem State.turnLines_core {u : State} (hu : ∀ e, ∃ b, u.core e = { s.core e with ebuf := b }) {w : Bool} {t : State}
    (ht : t = u.modCore d (fun k => { k with full := turned k.full ls w })) :
    (∃ b f, t.core c = (s.core c).withLines b f) ∧ (t.core d).full = turned (s.core d).full ls w := by
  subst ht
  obtain ⟨b, hd⟩ := hu d
  refine ⟨?_, by rw [State.core_modCore_self, hd]⟩
  by_cases hc : c = d
  · subst hc
    exact ⟨b, turned (s.core c).full ls w, by rw [State.core_modCore_self, hd]; rfl⟩
  · obtain ⟨b, hb⟩ := hu c
    exact ⟨b, (s.core c).full, by rw [State.core_modCore_ne _ _ _ _ hc, hb]; rfl⟩

/-- The lines stay as they have turned while the operation's core completes it. -/
theorem State.finishFe_full (t : State) (got : List Byte) :
    ((t.setCore c ((t.core c).finishFe r got)).core d).full = (t.core d).full := by
  by_cases hd : d = c
  · subst hd
    rw [State.core_setCore_self]
    exact ((t.core d).finishFe_frame r got).2
  · rw [State.core_setCore_ne _ _ _ _ hd]

end

/-- A full/empty operation that may act turns its lines, stores exactly its bytes, and lets A go on (R62, R127, R128). -/
theorem fullEmptyPerform_performs {s : State} {c d key : Nat} {r : FeReq} {ls : List Nat} (hfe : (s.core c).fe = some r)
    (hthere : s.feThere c r = true) (hh : (s.taskOf c).elim false Task.halted = false)
    (hact : s.feAct c r = .ok (s.coreBytes c key r.op.size,
      (s.feStored c key r ls).modCore d (fun k => { k with full := turned k.full ls r.op.writes }))) :
    ∃ t k, k = (s.core c).finishFe r (s.coreBytes c key r.op.size) ∧ exec (.fullEmptyPerform c) s = .next t ∧ (t.core c).fe = none ∧
      (∀ l ∈ ls, (t.core d).full.contains l = r.op.writes) ∧
      (t.core c).a = k.a ∧ (t.core c).tk = k.tk ∧ (t.core c).ar = k.ar ∧ (t.core c).tile = k.tile ∧
      (r.op.writes = true → (∀ j, j < r.op.bytes.length → mget t.mem (key + j) = r.op.bytes.getD j 0) ∧ OnlyAt s t key r.op.bytes.length) ∧
      (r.op.writes = false → t.mem = s.mem) := by
  obtain ⟨hcores, hstore, hload⟩ := s.feStored_frame c key r ls
  generalize hv : (s.feStored c key r ls).modCore d (fun k => { k with full := turned k.full ls r.op.writes }) = v at hact
  obtain ⟨⟨b, f, hc⟩, hd⟩ := State.turnLines_core (s := s) (c := c) hcores hv.symm
  have hmem : v.mem = (s.feStored c key r ls).mem := by rw [← hv]; rfl
  generalize s.coreBytes c key r.op.size = got at hact ⊢
  have hcore : ((v.setCore c ((v.core c).finishFe r got)).answer c (.access r.id)).core c = ((s.core c).finishFe r got).withLines b f := by
    rw [State.core_answer, State.core_setCore_self, hc, CoreSt.finishFe_withLines]
  refine ⟨_, _, rfl, fullEmptyPerform_acts hfe hthere hh hact, ?_, fun l hl => ?_, ?_, ?_, ?_, ?_, fun hw => ?_, fun hw => ?_⟩
  · rw [hcore]
    exact ((s.core c).finishFe_frame r got).1
  · rw [State.core_answer, State.finishFe_full, hd]
    exact turned_contains hl
  · rw [hcore]; rfl
  · rw [hcore]; rfl
  · rw [hcore]; rfl
  · rw [hcore]; rfl
  · obtain ⟨hb, ho⟩ := hstore hw
    exact ⟨fun j hj => (congrArg (mget · (key + j)) hmem).trans (hb j hj), ho.of_mem hmem⟩
  · exact hmem.trans (hload hw)

/-- One that is performed, and whose reply was lost, ends with what was recorded, or the gang fails where that comes marked (R122, R274, R335). -/
theorem fullEmptyPerform_ends {s : State} {c : Nat} {r : FeReq} {got : List Byte} (hfe : (s.core c).fe = some r)
    (hrec : s.recorded c (.access r.id) = some got) (hu : s.unanswered c (.access r.id) = false) :
    exec (.fullEmptyPerform c) s = .next (if !r.op.writes && s.replyMarked c (.access r.id) then raiseFatal s c kPoison r.ea.toNat
      else (s.setCore c ((s.core c).finishFe r got)).answer c (.access r.id)) := by
  show execFullEmptyPerform c s = _
  simp only [execFullEmptyPerform, hfe, hrec, hu, Bool.false_eq_true, if_false]
  exact (apply_ite Host.Outcome.next _ _ _).symm

/-- Settles O27: each clause is one outcome of a store's place or of a full/empty operation's step; what a store writes is what one write of
memory writes. -/
theorem storesAndFullEmptyPerform : Obligations.StoresAndFullEmptyPerform := by
  intro s c
  refine ⟨fun a hn hp ha => storePerformed_ends hn hp ha, fun a hp hn => State.replied_iff.mp (State.replied_of_nextAccess hn hp),
    fun a n ea key hn hp ha hsz hea hw hu => ?store, fun r d ls k hlate hfe hl hap hf ho hh ht key hkey hbad hk => ?performed,
    fun r d ls hfe hl hwait => ?waits, fun r got k hfe hrec hu hk => ?recorded⟩
  case store =>
    refine ⟨fun kd ad hkey => performHead_fails hn ha hp ⟨rfl, rfl⟩ (State.nextPlace_refused (hsz ▸ hea) hw hu (ha ▸ hkey)),
      fun hkey ho => ?marks, fun hkey ho hr => ?marksNone, fun hkey hlast => ?last, fun hkey hmore => ?more⟩
    all_goals obtain ⟨u, hst, hstep⟩ := storePerformed_places hn hp ha hsz hea hw hu hkey
    case marks => exact ⟨_, hstep, hst.marks ha rfl ho⟩
    case marksNone => exact ⟨_, hstep, hst.marksNone ha rfl ho hr⟩
    case last =>
      obtain ⟨hbytes, honly⟩ := hst.writes ha rfl
      rw [if_pos hlast] at hstep hbytes honly
      exact ⟨_, hstep, hsz ▸ hbytes, hsz ▸ honly, hst.last ha rfl⟩
    case more =>
      obtain ⟨hbytes, honly⟩ := hst.writes ha rfl
      rw [if_neg (by omega)] at hstep hbytes honly
      exact ⟨_, hstep, hsz ▸ hbytes, hsz ▸ honly, hst.more rfl⟩
  case performed =>
    obtain ⟨t, k', rfl, hall⟩ := fullEmptyPerform_performs hfe ht hh (State.feAct_acts hl hlate hap hf ho ht hkey hbad)
    exact ⟨t, hk ▸ hall⟩
  case waits =>
    rcases hwait with ⟨hrec, h⟩ | h
    · exact fullEmptyPerform_waits hfe (fun _ => State.feAct_waits hl h) (.inl hrec)
    · exact fullEmptyPerform_waits hfe (fun _ => State.feAct_unanswered hl h) (.inr h)
  case recorded =>
    have hend := fullEmptyPerform_ends hfe hrec hu
    refine ⟨fun h => ?_, fun hw hm => ⟨_, hend.trans (by rw [hw, hm]; rfl), raiseFatal_failed s c 7 r.ea.toNat⟩⟩
    rw [hend, hk, if_neg]
    rcases h with h | h <;> simp [h]

end Sys2Proof.Machine
end

section
/-! PROOFS. The record of a changed throttle level, with pending engine writes of two cores that a table lists in falling order (R263, R351). -/

namespace Sys2Proof.Machine

/-- A state whose table of cores is not in rising order: core 5 stands before core 3, and each has an engine write of its own pending at byte 0, in the
unit of 8 bytes in which the device's event ring keeps its producer. -/
def crossedCores : State :=
  { State.reset with
    cores := [(5, { CoreSt.reset with ebuf := [(0, 1)] }), (3, { CoreSt.reset with ebuf := [(0, 2)] })]
    devEvents := { on := true, base := 1, n := 0 } }

/-- Readings with which the thermal level alone changes. -/
def warm : Readings := { thermal := 1, current := [], canary := [] }

/-- The state after the control interval. -/
def afterInterval : State :=
  match exec (.controlInterval warm) crossedCores with
  | .next t => t
  | _ => crossedCores

/-- The record alone lets the pending writes enter memory in the order of the table: the write of core 3 is the last. -/
theorem crossedCores_record : mget (crossedCores.postEvent none 8 0 1 0).mem 0 = 2 := by decide +kernel

/-- The control interval first writes the floor of core 3, whose entry then stands before that of core 5: the write of core 5 is the last. -/
theorem crossedCores_interval {t : State} (h : exec (.controlInterval warm) crossedCores = .next t) :
    t.thermal = 1 ∧ mget t.mem 0 = 1 ∧ ((List.range 16).map (fun r => if (t.rail r).cur = 0 then 0 else 2 ^ r)).sum = 0 := by
  have ht : t = afterInterval := by simp only [afterInterval, h]
  rw [ht]
  decide +kernel

/-- Refutes O54: memory after a control interval is not that after its record alone where the table of cores is not in rising order: the interval
changes cores before it writes the record, and with them the order in which their pending engine writes enter memory. -/
theorem not_powerAndClocks : ¬ Obligations.PowerAndClocks := by
  intro h
  obtain ⟨⟨t, hstep, -, -, hrecord, -⟩, -⟩ := h crossedCores warm 0 0 0 none []
  obtain ⟨hthermal, hbyte, hmap⟩ := crossedCores_interval hstep
  have hmem := hrecord (.inl (by rw [hthermal]; decide))
  rw [hthermal, hmap] at hmem
  rw [hmem, crossedCores_record] at hbyte
  exact absurd hbyte (by decide)

end Sys2Proof.Machine
end

section
/-! PROOFS. The record of a withdrawn core, with pending engine writes of two cores that a table lists in falling order (R26, R263). -/

namespace Sys2Proof.Machine

/-- A device whose cores test themselves, with the cores that are listed in falling order. -/
def crossedBoot : State := { crossedCores with bootState := 4 }

/-- A report in which core 3 is withdrawn. -/
def coreThreeLost : BootReport := { romOk := true, flashOk := true, hbmOk := true, withdrawn := [(3, 1)], bankmap := [], bar2 := 30 }

/-- The state after the self-test. -/
def afterSelfTest : State :=
  match exec (.resetRelease coreThreeLost) crossedBoot with
  | .next t => t
  | _ => crossedBoot

/-- The record alone lets the pending writes enter memory in the order of the table: the write of core 3 is the last. -/
theorem crossedBoot_record : mget (crossedBoot.postEvent none 7 3 1 0).mem 0 = 2 := by decide +kernel

/-- The self-test first notes that core 3 is withdrawn, whose entry then stands before that of core 5: the write of core 5 is the last. -/
theorem crossedBoot_selfTest {t : State} (h : exec (.resetRelease coreThreeLost) crossedBoot = .next t) : mget t.mem 0 = 1 := by
  have ht : t = afterSelfTest := by simp only [afterSelfTest, h]
  rw [ht]
  decide +kernel

/-- Refutes O58: memory after the self-test that withdraws one core is not that after its record alone where the table of cores is not in rising
order: the self-test changes the core before it writes the record, and with it the order in which pending engine writes enter memory. -/
theorem not_resetsAndBringUp : ¬ Obligations.ResetsAndBringUp := by
  intro h
  obtain ⟨-, -, -, -, -, -, -, -, hselfTest, -⟩ := h crossedBoot coreThreeLost 0
  obtain ⟨t, hstep, -, -, -, hrecord⟩ := hselfTest rfl
  have hbyte := crossedBoot_selfTest hstep
  rw [hrecord 3 1 rfl rfl (by decide), crossedBoot_record] at hbyte
  exact absurd hbyte (by decide)

end Sys2Proof.Machine
end

section
/-! PROOFS. The lanes of a row and the elements of an accumulator row, read as they were written (R28, R79, R147, R205). -/

namespace Sys2Proof.Machine

/-! Numbers by their digits. -/

theorem packNat_lt (w : Nat) (l : List Nat) : packNat w l < 2 ^ (w * l.length) := by
  induction l with
  | nil => simp [packNat]
  | cons x r ih =>
    have hx : x % 2 ^ w < 2 ^ w := Nat.mod_lt _ (by positivity)
    calc packNat w (x :: r) = x % 2 ^ w + 2 ^ w * packNat w r := rfl
      _ < 2 ^ w * (packNat w r + 1) := by rw [Nat.mul_succ]; omega
      _ ≤ 2 ^ w * 2 ^ (w * r.length) := Nat.mul_le_mul_left _ ih
      _ = 2 ^ (w * (x :: r).length) := by rw [← Nat.pow_add, List.length_cons, Nat.mul_succ, Nat.add_comm]

/-- Each digit is what was given, cut to its width. -/
theorem packNat_digit (w : Nat) (l : List Nat) (j : Nat) : packNat w l / 2 ^ (w * j) % 2 ^ w = l.getD j 0 % 2 ^ w := by
  induction l generalizing j with
  | nil => simp [packNat]
  | cons x r ih =>
    cases j with
    | zero => simp [packNat]
    | succ j =>
      rw [List.getD_cons_succ, ← ih, Nat.mul_succ, Nat.add_comm (w * j), Nat.pow_add, ← Nat.div_div_eq_div_mul]
      congr 2
      rw [packNat, Nat.add_mul_div_left _ _ (by positivity), Nat.div_eq_of_lt (Nat.mod_lt _ (by positivity)), Nat.zero_add]

/-! Rows. -/

theorem length_lanesOf (r : Row) (w start n : Nat) : (lanesOf r w start n).length = n := by simp [lanesOf]

theorem getD_lanesOf (r : Row) {w start n j : Nat} (h : j < n) :
    (lanesOf r w start n).getD j 0 = r.toNat / 2 ^ (8 * w * (start + j)) % 2 ^ (8 * w) := by
  simp [lanesOf, List.getD_eq_getElem?_getD, h]

/-- A lane is a number of its width. -/
theorem getD_lanesOf_lt (r : Row) (w start n j : Nat) : (lanesOf r w start n).getD j 0 < 2 ^ (8 * w) := by
  by_cases h : j < n
  · rw [getD_lanesOf r h]
    exact Nat.mod_lt _ (by positivity)
  · simp [List.getD_eq_getElem?_getD, lanesOf, h]

/-- The lanes that are put from lane 0 on are read, cut to their width. -/
theorem lanesOf_putLanes_zero (old : Row) (w : Nat) (l : List Nat) (h : 8 * w * l.length ≤ 2048) :
    lanesOf (putLanes old w 0 l) w 0 l.length = l.map (· % 2 ^ (8 * w)) := by
  have hval : (putLanes old w 0 l).toNat % 2 ^ (8 * w * l.length) = packNat (8 * w) l := by
    rw [putLanes, BitVec.toNat_ofNat, Nat.mod_mod_of_dvd _ (Nat.pow_dvd_pow 2 h)]
    simp only [Nat.mul_zero, Nat.pow_zero, Nat.mod_one, Nat.zero_add, Nat.one_mul]
    rw [Nat.add_mul_mod_self_left, Nat.mod_eq_of_lt (packNat_lt _ _)]
  refine List.ext_getElem (by simp [lanesOf]) fun j hj _ => ?_
  have hjl : j < l.length := by simpa [lanesOf] using hj
  have hfit : 8 * w * j + 8 * w ≤ 8 * w * l.length := by
    rw [← Nat.mul_succ]
    exact Nat.mul_le_mul_left _ hjl
  have hdigit := packNat_digit (8 * w) l j
  rw [← hval, List.getD_eq_getElem _ _ hjl, ← Nat.mod_mul_right_div_self, ← Nat.pow_add,
    Nat.mod_mod_of_dvd _ (Nat.pow_dvd_pow 2 hfit), Nat.pow_add, Nat.mod_mul_right_div_self] at hdigit
  simp only [lanesOf, List.getElem_map, List.getElem_range, Nat.zero_add]
  exact hdigit

/-! Accumulator rows. -/

/-- The elements of a row of 64 are what was given, cut to their widths. -/
theorem AccRow.ofLists_elements {vs ns : List Nat} (hv : vs.length = 64) (hn : ns.length = 64) (j : Nat) :
    (AccRow.ofLists vs ns).val j = vs.getD j 0 % 2 ^ 128 ∧ (AccRow.ofLists vs ns).cnt j = ns.getD j 0 % 2 ^ 32 := by
  have h1 : packNat 128 vs < 2 ^ 8192 := (packNat_lt 128 vs).trans_eq (by rw [hv])
  have h2 : packNat 32 ns < 2 ^ 2048 := (packNat_lt 32 ns).trans_eq (by rw [hn])
  constructor
  · rw [AccRow.val, AccRow.ofLists, BitVec.toNat_ofNat, Nat.mod_eq_of_lt h1, packNat_digit]
  · rw [AccRow.cnt, AccRow.ofLists, BitVec.toNat_ofNat, Nat.mod_eq_of_lt h2, packNat_digit]

theorem AccRow.val_mod (a : AccRow) (j : Nat) : a.val j % 2 ^ 128 = a.val j := Nat.mod_mod _ _

theorem AccRow.cnt_mod (a : AccRow) (j : Nat) : a.cnt j % 2 ^ 32 = a.cnt j := Nat.mod_mod _ _

@[simp] theorem CoreSt.accRow_setAccRow_self (k : CoreSt) (b r : Nat) (v : AccRow) : (k.setAccRow b r v).accRow b r = v :=
  tget_tset_self _ _ _ _

theorem CoreSt.accRow_setAccRow_ne (k : CoreSt) (b r r' : Nat) (v : AccRow) (h : r' ≠ r) : (k.setAccRow b r v).accRow b r' = k.accRow b r' :=
  tget_tset_ne _ _ _ _ _ (by omega)

theorem CoreSt.accRow_congr {k k' : CoreSt} (h : k.acc = k'.acc) (b r : Nat) : k.accRow b r = k'.accRow b r := by
  simp only [CoreSt.accRow, h]

/-- A filter that keeps every entry of a key leaves what the key reads as. -/
theorem tget_filter_kept {α : Type} (d : α) (t : Tbl α) (p : Nat → Bool) (k : Nat) (h : p k = true) :
    tget d (t.filter (fun e => p e.1)) k = tget d t k := by
  induction t with
  | nil => rfl
  | cons e r ih =>
    obtain ⟨k', v⟩ := e
    by_cases hk : k' = k
    · subst hk
      simp [h, tget]
    · by_cases hp : p k' = true <;> simp [hp, tget, hk, ih]

/-- A filter that drops every entry of a key makes the key read as the default. -/
theorem tget_filter_dropped {α : Type} (d : α) (t : Tbl α) (p : Nat → Bool) (k : Nat) (h : p k = false) :
    tget d (t.filter (fun e => p e.1)) k = d := by
  induction t with
  | nil => rfl
  | cons e r ih =>
    obtain ⟨k', v⟩ := e
    by_cases hp : p k' = true
    · have hk : k' ≠ k := fun e => by rw [e, h] at hp; cases hp
      simp [hp, tget, hk, ih]
    · simp [hp, ih]

end Sys2Proof.Machine
end

section
/-! PROOFS. The head of the matrix queue: how the array takes it, and what an MMA writes (R31, R209 to R214, R216). -/

namespace Sys2Proof.Machine

/-! The head of the queue. -/

section
variable {s : State} {c : Nat} {m : MatCmd} {r : List MatCmd}

theorem State.headCmd_of_mq (h : (s.core c).mq = m :: r) : s.headCmd c = some m := by rw [State.headCmd, h]; rfl

theorem State.setHead_core (s : State) (c : Nat) (m : MatCmd) : (s.setHead c m).core c = { s.core c with mq := m :: (s.core c).mq.drop 1 } :=
  State.core_modCore_self _ _ _

theorem State.setHead_head (s : State) (c : Nat) (m : MatCmd) : ((s.setHead c m).core c).mq.head? = some m := by rw [State.setHead_core]; rfl

/-- A command of a template that the array has taken: it is the queue's, started, with the scale rows of its start. -/
theorem State.startTpl_cmd {t : BitVec 128} {v : State} {n : MatCmd} (h : s.startTpl c m t = some (v, n)) :
    n = m ∧ m.started = true ∨ m.started = false ∧ n = { m with
      started := true
      scaleA := (s.core c).row (.operand (tScaleA t % 8))
      scaleB := (s.core c).row (.operand (tScaleB t % 8)) } := by
  unfold State.startTpl at h
  split at h
  · next hs =>
    simp only [Option.some.injEq, Prod.mk.injEq] at h
    exact .inl ⟨h.2.symm, hs⟩
  · next hs =>
    refine .inr ⟨by simpa using hs, ?_⟩
    dsimp only at h
    split at h
    · cases h
    · split at h
      · simp only [Option.some.injEq, Prod.mk.injEq] at h
        exact h.2.symm
      · obtain ⟨k, -, hk⟩ := Option.map_eq_some_iff.mp h
        simp only [Prod.mk.injEq] at hk
        exact hk.2.symm

theorem State.startCmd_cmd {t : BitVec 128} {v : State} {n : MatCmd} (h : s.startCmd c m t = some (v, n)) :
    n = m ∧ m.started = true ∨ m.started = false ∧ n = { m with
      started := true
      scaleA := (s.core c).row (.operand (tScaleA t % 8))
      scaleB := (s.core c).row (.operand (tScaleB t % 8)) } := by
  unfold State.startCmd at h
  split at h
  · next hs =>
    simp only [Option.some.injEq, Prod.mk.injEq] at h
    exact .inl ⟨h.2.symm, hs⟩
  · split at h
    · obtain ⟨p, hp, hv⟩ := Option.map_eq_some_iff.mp h
      simp only [Prod.mk.injEq] at hv
      exact hv.2 ▸ State.startTpl_cmd (v := p.1) hp
    · cases h

/-- Taking a command changes neither its id nor its progress. -/
theorem State.startCmd_keeps {t : BitVec 128} {v : State} {n : MatCmd} (h : s.startCmd c m t = some (v, n)) : n.id = m.id ∧ n.q = m.q := by
  rcases State.startCmd_cmd h with ⟨rfl, -⟩ | ⟨-, rfl⟩ <;> exact ⟨rfl, rfl⟩

/-- Before the pacing gap has passed the array takes no command that has not started (R31). -/
theorem State.startCmd_gap (hs : m.started = false) (hg : s.arrayGap c = false) (t : BitVec 128) : s.startCmd c m t = none := by
  simp [State.startCmd, hs, hg]

end

/-! Scale exponents. -/

/-- The exponent of a scale code (R212), 0 where the scale is off. -/
def scaleOf (enabled : Bool) (x : Nat) : Int := if enabled then (BitVec.ofNat 8 x).toInt else 0

/-- Whether an exponent is out of range (R212). -/
def beyondScale (x : Int) : Bool := decide (x < -16 ∨ 16 < x)

theorem scaleExp_eq (enabled : Bool) {x : Nat} (h : x < 256) :
    scaleExp enabled x = (if beyondScale (scaleOf enabled x) then none else some (scaleOf enabled x),
      scaleOf enabled x != -128 && beyondScale (scaleOf enabled x)) := by
  cases enabled with
  | false => rfl
  | true =>
    simp only [scaleExp, scaleOf, beyondScale, Bool.not_true, Bool.false_eq_true, if_false, if_true]
    by_cases h8 : x = 0x80
    · subst h8
      rfl
    · have hne : (BitVec.ofNat 8 x).toInt ≠ -128 := by
        simp only [BitVec.toInt, BitVec.toNat_ofNat]
        omega
      rw [if_neg h8]
      by_cases hb : (BitVec.ofNat 8 x).toInt < -16 ∨ 16 < (BitVec.ofNat 8 x).toInt <;> simp [hb, hne]

/-! The rows of an MMA. -/

/-- The result element of an MMA at a row and a column, from the operand rows, the scale rows and what the accumulator held (R213). -/
def mmaAt (t : BitVec 128) (sat : Bool) (sa sb : Row) (a b : List Row) (i j : Nat) (old : AccRow) : Nat × Nat × List Nat × Bool :=
  let ea := scaleOf (8 ≤ tScaleA t) ((lanesOf sa 1 i 1).getD 0 0)
  let eb := scaleOf (8 ≤ tScaleB t) ((lanesOf sb 1 j 1).getD 0 0)
  mmaElem t sat (old.val j) (old.cnt j) (if beyondScale ea || beyondScale eb then none else some (ea + eb))
    ((ea != -128 && beyondScale ea) || (eb != -128 && beyondScale eb))
    (((fmtLanes t (a.getD i 0)).take (tKlen t)).zip (bColumn t b j))

/-- The elements of a result row: those of its columns, and what the row held behind them (R213). -/
theorem mmaRow_elements (t : BitVec 128) (sat : Bool) (sa sb : Row) (a b : List Row) (i : Nat) (old : AccRow) {j : Nat} (hj : j < 64) :
    (mmaRow t sat sa sb a b i old).1.val j = (if j < tN t then (mmaAt t sat sa sb a b i j old).1 else old.val j) % 2 ^ 128 ∧
      (mmaRow t sat sa sb a b i old).1.cnt j = (if j < tN t then (mmaAt t sat sa sb a b i j old).2.1 else old.cnt j) % 2 ^ 32 := by
  have hlane : ∀ (x : Row) (l : Nat), (lanesOf x 1 l 1).getD 0 0 < 256 := fun x l => getD_lanesOf_lt x 1 l 1 0
  unfold mmaRow
  dsimp only
  rw [(AccRow.ofLists_elements (by simp) (by simp) j).1, (AccRow.ofLists_elements (by simp) (by simp) j).2]
  simp only [List.getD_eq_getElem?_getD, List.getElem?_map, List.getElem?_range hj, Option.map_some, Option.getD_some]
  by_cases hn : j < tN t
  · simp only [if_pos hn, mmaAt, ← List.getD_eq_getElem?_getD, scaleExp_eq _ (hlane _ _)]
    generalize scaleOf (8 ≤ tScaleA t) _ = x
    generalize scaleOf (8 ≤ tScaleB t) _ = y
    cases beyondScale x <;> cases beyondScale y <;> exact ⟨rfl, rfl⟩
  · simp only [if_neg hn, and_self]

theorem CoreSt.setSat_acc (k : CoreSt) (b : Nat) (f : Bool) : (k.setSat b f).acc = k.acc := by
  unfold CoreSt.setSat
  split <;> rfl

/-- Each row of the result is written from what it held; the rows behind them stay (R213). -/
theorem CoreSt.mmaAll_accRow (k : CoreSt) (t : BitVec 128) (sat : Bool) (m : MatCmd) (i : Nat) :
    (k.mmaAll t sat m).1.accRow (tAcc t) i =
      if i < tM t then (mmaRow t sat m.scaleA m.scaleB m.gotA m.gotB i (k.accRow (tAcc t) i)).1 else k.accRow (tAcc t) i := by
  unfold CoreSt.mmaAll
  induction tM t with
  | zero => rfl
  | succ n ih =>
    rw [List.range_succ, List.foldl_append]
    generalize (List.range n).foldl _ (k, []) = p at ih
    simp only [List.foldl_cons, List.foldl_nil]
    rw [CoreSt.accRow_congr (CoreSt.setSat_acc _ _ _)]
    by_cases hi : i = n
    · subst hi
      rw [CoreSt.accRow_setAccRow_self, if_pos (Nat.lt_succ_self _), ih, if_neg (lt_irrefl _)]
    · rw [CoreSt.accRow_setAccRow_ne _ _ _ _ _ hi, ih]
      congr 1
      simp only [Nat.lt_succ_iff_lt_or_eq, hi, or_false]

end Sys2Proof.Machine
end

section
/-! PROOFS. What MMA, MXPOSE and MZERO write (R209 to R213, R215 to R217). -/

namespace Sys2Proof.Machine

/-! MMA. -/

section
variable {s v w z : State} {c : Nat} {m n : MatCmd} {r : List MatCmd} {t : BitVec 128} {sat : Bool} {ga gb : List Row}

/-- The step in which an MMA has all of its operand rows: `z` is the state with the rows taken (R211, R213). -/
theorem mmaExecute_writes (hq : (s.core c).mq = m :: r) (he : m.executed = false) (ho : m.op = .tpl t sat) (hk : tOpk t = 0) (h0 : m.q = 0)
    (hs : s.startCmd c m t = some (v, n))
    (ha : State.takeRows c (tAKind t) (tAIdx t) n.areg (tARow t) (tM t) (tM t) n.gotA v = (ga, w, none))
    (hb : State.takeRows c (tBKind t) (tBIdx t) n.breg (tBRow t) (tRowsB t) (tRowsB t) n.gotB w = (gb, z, none))
    (hla : ga.length = tM t) (hlb : gb.length = tRowsB t) :
    exec (.mmaExecute c) s = .next ((z.setCore c ((z.core c).mmaAll t sat { n with gotA := ga, gotB := gb }).1).setHead c
      { ({ n with gotA := ga, gotB := gb } : MatCmd).rise t with events := ((z.core c).mmaAll t sat { n with gotA := ga, gotB := gb }).2 }) := by
  show execMmaExecute c s = _
  simp only [execMmaExecute, State.headCmd_of_mq hq, ho, hk, he, h0, hs, ha, hb, hla, hlb, ne_eq, not_true_eq_false, decide_false, Bool.or_false,
    Bool.false_eq_true, if_false, Option.orElse, lt_irrefl]

/-- An MMA writes the element that its row and column give, and no other element of its accumulator (R213). -/
theorem mmaExecute_elements (k : CoreSt) (t : BitVec 128) (sat : Bool) (n : MatCmd) :
    (∀ i j, i < tM t → j < tN t → tN t ≤ 64 →
      ((k.mmaAll t sat n).1.accRow (tAcc t) i).val j =
        (mmaAt t sat n.scaleA n.scaleB n.gotA n.gotB i j (k.accRow (tAcc t) i)).1 % 2 ^ 128 ∧
      ((k.mmaAll t sat n).1.accRow (tAcc t) i).cnt j =
        (mmaAt t sat n.scaleA n.scaleB n.gotA n.gotB i j (k.accRow (tAcc t) i)).2.1 % 2 ^ 32) ∧
    (∀ i j, j < 64 → tM t ≤ i ∨ tN t ≤ j →
      ((k.mmaAll t sat n).1.accRow (tAcc t) i).val j = (k.accRow (tAcc t) i).val j ∧
      ((k.mmaAll t sat n).1.accRow (tAcc t) i).cnt j = (k.accRow (tAcc t) i).cnt j) := by
  refine ⟨fun i j hi hj hn => ?_, fun i j hj hout => ?_⟩
  · rw [CoreSt.mmaAll_accRow, if_pos hi]
    simpa only [if_pos hj] using mmaRow_elements t sat n.scaleA n.scaleB n.gotA n.gotB i (k.accRow (tAcc t) i) (by omega : j < 64)
  · rw [CoreSt.mmaAll_accRow]
    split
    · next hi =>
      simpa only [if_neg (show ¬ j < tN t by omega), AccRow.val_mod, AccRow.cnt_mod] using
        mmaRow_elements t sat n.scaleA n.scaleB n.gotA n.gotB i (k.accRow (tAcc t) i) hj
    · exact ⟨rfl, rfl⟩

/-- An MMA that has written its rows only raises its progress (R216; log entry 31). -/
theorem mmaExecute_rises (hq : (s.core c).mq = m :: r) (he : m.executed = false) (ho : m.op = .tpl t sat) (hk : tOpk t = 0) (h0 : m.q ≠ 0) :
    exec (.mmaExecute c) s = .next (s.setHead c (m.rise t)) := by
  show execMmaExecute c s = _
  simp [execMmaExecute, State.headCmd_of_mq hq, ho, hk, he, h0]

theorem MatCmd.rise_eq (m : MatCmd) (t : BitVec 128) :
    m.rise t = { m with q := min (m.q + tWmStep t) (tM t), executed := decide (tM t ≤ m.q + tWmStep t) } := by
  have h : tM t ≤ min (m.q + tWmStep t) (tM t) ↔ tM t ≤ m.q + tWmStep t := by omega
  simp only [MatCmd.rise, h]

end

/-! MXPOSE. -/

/-- One row of an MXPOSE is written (R215). -/
def CoreSt.xposeStep (t : BitVec 128) (ga : List Row) (reg id : Nat) (k : CoreSt) (j : Nat) : CoreSt :=
  (k.setRow (.tile reg (tBRow t + j)) (xposeRow t ga j (k.row (.tile reg (tBRow t + j))))).clearBusy (.tile reg (tBRow t + j)) id

/-- The rows of an MXPOSE, each from what it held; each is busy with its command no longer (R215). -/
theorem CoreSt.foldl_xposeStep (t : BitVec 128) (ga : List Row) (reg id : Nat) (k : CoreSt) (n : Nat) :
    (∀ j, ((List.range n).foldl (CoreSt.xposeStep t ga reg id) k).row (.tile reg (tBRow t + j)) =
      if j < n then xposeRow t ga j (k.row (.tile reg (tBRow t + j))) else k.row (.tile reg (tBRow t + j))) ∧
    ∀ b, b ∈ ((List.range n).foldl (CoreSt.xposeStep t ga reg id) k).busy ↔
      b ∈ k.busy ∧ ¬ (b.owner = id ∧ ∃ j < n, b.row = .tile reg (tBRow t + j)) := by
  induction n with
  | zero => exact ⟨fun j => rfl, fun b => by simp⟩
  | succ n ih =>
    obtain ⟨hrow, hbusy⟩ := ih
    rw [List.range_succ, List.foldl_append]
    generalize (List.range n).foldl (CoreSt.xposeStep t ga reg id) k = u at hrow hbusy
    refine ⟨fun j => ?_, fun b => ?_⟩
    · by_cases hj : j = n
      · subst hj
        have hself : (u.setRow (.tile reg (tBRow t + j)) (xposeRow t ga j (u.row (.tile reg (tBRow t + j))))).row (.tile reg (tBRow t + j)) = _ :=
          CoreSt.row_setRow _ _ _ (fun _ h => nomatch h)
        rw [if_pos (Nat.lt_succ_self _)]
        have hold := hrow j
        rw [if_neg (lt_irrefl _)] at hold
        rw [← hold]
        exact hself
      · have hne : (CoreSt.xposeStep t ga reg id u n).row (.tile reg (tBRow t + j)) = u.row (.tile reg (tBRow t + j)) :=
          tget_tset_ne _ _ _ _ _ (by omega)
        rw [List.foldl_cons, List.foldl_nil, hne, hrow]
        congr 1
        simp only [Nat.lt_succ_iff_lt_or_eq, hj, or_false]
    · show b ∈ u.busy.filter _ ↔ _
      rw [List.mem_filter, hbusy]
      simp only [Nat.lt_succ_iff_lt_or_eq, Bool.not_eq_true', Bool.and_eq_false_iff, beq_eq_false_iff_ne]
      constructor
      · rintro ⟨⟨hb, hn⟩, hlast⟩
        refine ⟨hb, ?_⟩
        rintro ⟨ho, j, hj | rfl, hr⟩
        · exact hn ⟨ho, j, hj, hr⟩
        · exact hlast.elim (fun h => h hr) (fun h => h ho)
      · rintro ⟨hb, hn⟩
        refine ⟨⟨hb, fun ⟨ho, j, hj, hr⟩ => hn ⟨ho, j, .inl hj, hr⟩⟩, ?_⟩
        by_cases ho : b.owner = id
        · exact .inl fun hr => hn ⟨ho, n, .inr rfl, hr⟩
        · exact .inr ho

/-- Lane i of row j is lane j of row i (R215). -/
theorem lanesOf_xposeRow (t : BitVec 128) (ga : List Row) (j : Nat) (old : Row) (hl : ga.length = tM t) (hw : tM t * typeWidth (tFmt t) ≤ 256) :
    lanesOf (xposeRow t ga j old) (typeWidth (tFmt t)) 0 (tM t) = ga.map (fun x => (lanesOf x (typeWidth (tFmt t)) j 1).getD 0 0) := by
  generalize hlanes : ga.map (fun x => (lanesOf x (typeWidth (tFmt t)) j 1).getD 0 0) = l
  have hlen : l.length = tM t := by rw [← hlanes, List.length_map, hl]
  have hrow : xposeRow t ga j old = putLanes old (typeWidth (tFmt t)) 0 l := by rw [xposeRow, ← hl, List.take_length, hlanes]
  have hfit : 8 * typeWidth (tFmt t) * l.length ≤ 2048 := by
    rw [hlen, Nat.mul_assoc, Nat.mul_comm (typeWidth (tFmt t))]
    omega
  rw [hrow, ← hlen, lanesOf_putLanes_zero _ _ _ hfit, ← hlanes, List.map_map]
  exact List.map_congr_left fun x _ => Nat.mod_eq_of_lt (getD_lanesOf_lt _ _ _ _ _)

section
variable {s v w : State} {c : Nat} {m n : MatCmd} {r : List MatCmd} {t : BitVec 128} {sat : Bool} {ga : List Row}

/-- The step in which an MXPOSE has all of its rows (R215). -/
theorem mxposeExecute_writes (hq : (s.core c).mq = m :: r) (he : m.executed = false) (ho : m.op = .tpl t sat) (hk : tOpk t = 1)
    (hs : s.startCmd c m t = some (v, n))
    (ha : State.takeRows c (tAKind t) (tAIdx t) n.areg (tARow t) (tM t) (tM t) n.gotA v = (ga, w, none)) (hla : ga.length = tM t) :
    exec (.mxposeExecute c) s =
      .next ((w.setCore c ((List.range (tN t)).foldl (CoreSt.xposeStep t ga n.breg n.id) (w.core c))).setHead c
        { n with gotA := ga, executed := true }) := by
  show execMxposeExecute c s = _
  simp only [execMxposeExecute, State.headCmd_of_mq hq, ho, hk, he, hs, ha, hla, ne_eq, not_true_eq_false, decide_false, Bool.or_false,
    Bool.false_eq_true, if_false, lt_irrefl]
  rfl

end

/-! MZERO. -/

section
variable {s : State} {c : Nat} {m : MatCmd} {r : List MatCmd} {a : BitVec 1}

/-- A core of which an accumulator is empty and its flag clear (R217). -/
def CoreSt.zeroed (k : CoreSt) (a : Nat) : CoreSt := { k with acc := k.acc.filter (fun e => e.1 / 64 != a), accSat := k.accSat.setIfInBounds a false }

theorem mzeroExecute_empties (hq : (s.core c).mq = m :: r) (he : m.executed = false) (ho : m.op = .zero a) (hg : s.arrayGap c = true) :
    exec (.mzeroExecute c) s = .next (((s.noteStart c).modCore c (fun k => k.zeroed a.toNat)).setHead c { m with executed := true, q := 64 }) := by
  show execMzeroExecute c s = _
  simp only [execMzeroExecute, State.headCmd_of_mq hq, ho, he, hg, Bool.not_true, Bool.or_self, Bool.false_eq_true, if_false]
  rfl

/-- Every row of the accumulator is empty, and no row of another has changed (R217). -/
theorem CoreSt.zeroed_accRow (k : CoreSt) (a : Nat) {i : Nat} (hi : i < 64) :
    (k.zeroed a).accRow a i = AccRow.reset ∧ ∀ b, b ≠ a → (k.zeroed a).accRow b i = k.accRow b i := by
  have hkey : ∀ b, (b * 64 + i) / 64 = b := fun b => by omega
  refine ⟨tget_filter_dropped _ _ (fun x => x / 64 != a) _ (by simp [hkey]), fun b hb => ?_⟩
  exact tget_filter_kept _ _ (fun x => x / 64 != a) _ (by simp [hkey, hb])

theorem CoreSt.zeroed_accSat (k : CoreSt) (a : BitVec 1) : (k.zeroed a.toNat).accSat.toList.getD a.toNat true = false := by
  have h : a.toNat < 2 := a.isLt
  simp [CoreSt.zeroed, List.getD_eq_getElem?_getD, h]

end

/-- A command that has not started waits for the pacing gap (R31). -/
theorem array_waits {s : State} {c : Nat} {m : MatCmd} {r : List MatCmd} (hq : (s.core c).mq = m :: r) (hs : m.started = false)
    (hr : m.rowsOut = 0) (h0 : m.q = 0) (hg : s.arrayGap c = false) :
    exec (.mmaExecute c) s = .next s ∧ exec (.mxposeExecute c) s = .next s ∧ exec (.mzeroExecute c) s = .next s ∧
      exec (.mdrainExecute c) s = .next s := by
  have hstart := State.startCmd_gap hs hg
  have hhead := State.headCmd_of_mq hq
  refine ⟨show execMmaExecute c s = _ from ?_, show execMxposeExecute c s = _ from ?_, show execMzeroExecute c s = _ from ?_,
    show execMdrainExecute c s = _ from ?_⟩
  · cases ho : m.op <;> simp [execMmaExecute, hhead, ho, h0, hstart]
  · cases ho : m.op <;> simp [execMxposeExecute, hhead, ho, hstart]
  · cases ho : m.op <;> simp [execMzeroExecute, hhead, ho, hg]
  · cases ho : m.op <;> simp [execMdrainExecute, hhead, ho, hr, hg]

end Sys2Proof.Machine
end

section
/-! PROOFS. What MDRAIN puts out, row by row (R152, R218, R219, R250). -/

namespace Sys2Proof.Machine

/-! The rows of a drain. -/

/-- What holds before the first row of a drain, and with each row that finds room holds again for the next, holds when all rows are out. -/
theorem State.drainRows_all {c : Nat} {f : Drain} {d : Nat} {rm : BitVec 3} {sat : Bool} (P : Nat → State → Bool → Prop)
    (hstep : ∀ r s m lost, r ≤ f.nrm1.toNat → P r s lost → ∃ s' l,
      s.drainOut c m f d r (drainRow f rm sat ((s.core c).accRow f.acc.toNat (f.crow0.toNat + r))).1 lost = .ok (s', l) ∧
        P (r + 1) (s'.modCore c (fun k => k.clearAcc f r)) l)
    (fuel : Nat) (s : State) (m : MatCmd) (lost : Bool) (hP : P m.rowsOut s lost) (hle : m.rowsOut ≤ f.nrm1.toNat + 1)
    (hf : f.nrm1.toNat + 1 - m.rowsOut ≤ fuel) :
    ∃ t h l, State.drainRows c f d rm sat fuel s m lost = (t, h, none) ∧ P (f.nrm1.toNat + 1) t l ∧ h.rowsOut = f.nrm1.toNat + 1 := by
  induction fuel generalizing s m lost with
  | zero =>
    have hr : m.rowsOut = f.nrm1.toNat + 1 := by omega
    exact ⟨s, m, lost, rfl, hr ▸ hP, hr⟩
  | succ fuel ih =>
    by_cases hr : f.nrm1.toNat < m.rowsOut
    · have hr' : m.rowsOut = f.nrm1.toNat + 1 := by omega
      exact ⟨s, m, lost, by rw [State.drainRows, if_pos hr], hr' ▸ hP, hr'⟩
    · obtain ⟨s', l, hout, hP'⟩ := hstep m.rowsOut s m lost (by omega) hP
      obtain ⟨t, h, l', hrows, hall, hdone⟩ := ih (s'.modCore c (fun k => k.clearAcc f m.rowsOut))
        { m with
          rowsOut := m.rowsOut + 1
          events := m.events ++ (drainRow f rm sat ((s.core c).accRow f.acc.toNat (f.crow0.toNat + m.rowsOut))).2
          started := m.started || l } l hP' (by show m.rowsOut + 1 ≤ _; omega) (by show _ - (m.rowsOut + 1) ≤ _; omega)
      refine ⟨t, h, l', ?_, hall, hdone⟩
      rw [State.drainRows, if_neg hr]
      dsimp only
      rw [hout]
      exact hrows

/-- The kind and the address of a fatal context error; none for what only waits. -/
def Stop.fatalOf : Stop → Option (Nat × Nat)
  | .fatal kd a => some (kd, a)
  | _ => none

/-- A drain whose next row finds no room puts out none. -/
theorem State.drainRows_stalls {c : Nat} {f : Drain} {d : Nat} {rm : BitVec 3} {sat : Bool} {fuel : Nat} {s : State} {m : MatCmd} {lost : Bool}
    (hr : m.rowsOut ≤ f.nrm1.toNat) {e : Stop}
    (ho : s.drainOut c m f d m.rowsOut (drainRow f rm sat ((s.core c).accRow f.acc.toNat (f.crow0.toNat + m.rowsOut))).1 lost = .error e) :
    State.drainRows c f d rm sat (fuel + 1) s m lost = (s, m, e.fatalOf) := by
  rw [State.drainRows, if_neg (by omega)]
  dsimp only
  rw [ho]
  cases e <;> rfl

/-- A drained row is empty with CLR; every other row of the accumulator stays (R218). -/
theorem CoreSt.clearAcc_accRow (k : CoreSt) (f : Drain) (r i : Nat) :
    (k.clearAcc f r).accRow f.acc.toNat (f.crow0.toNat + i) =
      if i = r ∧ f.clr = 1 then AccRow.reset else k.accRow f.acc.toNat (f.crow0.toNat + i) := by
  unfold CoreSt.clearAcc
  by_cases hc : f.clr = 1
  · rw [if_pos hc]
    by_cases hi : i = r
    · rw [if_pos ⟨hi, hc⟩, hi, CoreSt.accRow_setAccRow_self]
    · rw [if_neg (fun h => hi h.1), CoreSt.accRow_setAccRow_ne _ _ _ _ _ (by omega)]
  · rw [if_neg hc, if_neg (fun h => hc h.2)]

/-- Zeroing a drained row changes nothing of its core but the accumulators. -/
theorem CoreSt.clearAcc_cases (k : CoreSt) (f : Drain) (r : Nat) : ∃ a, k.clearAcc f r = { k with acc := a } := by
  unfold CoreSt.clearAcc
  split <;> exact ⟨_, rfl⟩

@[simp] theorem CoreSt.clearAcc_row (k : CoreSt) (f : Drain) (r : Nat) (n : RowName) : (k.clearAcc f r).row n = k.row n := by
  obtain ⟨a, h⟩ := k.clearAcc_cases f r
  rw [h]
  exact CoreSt.row_congr rfl rfl n

/-! The step. -/

section
variable {s t : State} {c : Nat} {m h : MatCmd} {r : List MatCmd} {f : Drain} {d : Nat} {rm : BitVec 3} {sat : Bool}

/-- A drain of which every row has found room is executed (R219). -/
theorem mdrainExecute_drains (hq : (s.core c).mq = m :: r) (he : m.executed = false) (ho : m.op = .drain f d rm sat) (h0 : m.rowsOut = 0)
    (hg : s.arrayGap c = true) (hd : State.drainRows c f d rm sat 64 s m m.started = (t, h, none)) (hh : h.rowsOut = f.nrm1.toNat + 1) :
    exec (.mdrainExecute c) s =
      .next ((t.noteStart c).setHead c { h with executed := true, q := if f.clr = 1 then 64 else h.q }) := by
  show execMdrainExecute c s = _
  simp only [execMdrainExecute, State.headCmd_of_mq hq, ho, he, hg, h0, hd, hh, Bool.not_true, Bool.and_false, Bool.or_self, Bool.false_eq_true,
    if_false, ne_eq, Nat.add_eq_zero_iff, one_ne_zero, and_false, not_false_eq_true, and_self, if_true, Nat.lt_succ_self]

/-- A drain of which no row has found room stands where it stood, or has met an error. -/
theorem mdrainExecute_stands (hq : (s.core c).mq = m :: r) (he : m.executed = false) (ho : m.op = .drain f d rm sat) (h0 : m.rowsOut = 0)
    (hg : s.arrayGap c = true) {e : Option (Nat × Nat)} (hd : State.drainRows c f d rm sat 64 s m m.started = (s, m, e)) :
    exec (.mdrainExecute c) s = .next (match e with
      | some (kd, a) => raiseFatal (s.setHead c m) c kd a
      | none => s.setHead c m) := by
  show execMdrainExecute c s = _
  simp only [execMdrainExecute, State.headCmd_of_mq hq, ho, he, hg, h0, hd, Bool.not_true, Bool.and_false, Bool.or_self, Bool.false_eq_true,
    if_false, ne_eq, not_true_eq_false, and_false, Nat.not_lt_zero]
  cases e <;> rfl

/-- What the core holds once the array has noted its start and its head command. -/
theorem State.noteStart_setHead_core (t : State) (c : Nat) (h : MatCmd) :
    ((t.noteStart c).setHead c h).core c = { t.core c with mStart := t.cycle + 1, mq := h :: (t.core c).mq.drop 1 } := by
  rw [State.setHead_core, State.noteStart, State.core_modCore_self]

end

/-! Tile rows. -/

/-- The first `r` rows of a drain into tile rows are written, and empty with CLR; nothing else of them has changed, and memory has not (R218, R219). -/
def DrainedToTile (s : State) (c : Nat) (f : Drain) (d : Nat) (rm : BitVec 3) (sat : Bool) (r : Nat) (u : State) (_ : Bool) : Prop :=
  u.mem = s.mem ∧ ∀ i,
    (u.core c).row (.tile d (f.drow0.toNat + i)) = (if i < r then
      putLanes ((s.core c).row (.tile d (f.drow0.toNat + i))) (typeWidth f.tfmt) (64 * f.part.toNat)
        (drainRow f rm sat ((s.core c).accRow f.acc.toNat (f.crow0.toNat + i))).1
      else (s.core c).row (.tile d (f.drow0.toNat + i))) ∧
    (u.core c).accRow f.acc.toNat (f.crow0.toNat + i) =
      if i < r ∧ f.clr = 1 then AccRow.reset else (s.core c).accRow f.acc.toNat (f.crow0.toNat + i)

theorem DrainedToTile.step {s u : State} {c : Nat} {f : Drain} {d : Nat} {rm : BitVec 3} {sat lost : Bool} {r : Nat} (hk : f.dkind = 0) (m : MatCmd)
    (h : DrainedToTile s c f d rm sat r u lost) : ∃ u' l,
      u.drainOut c m f d r (drainRow f rm sat ((u.core c).accRow f.acc.toNat (f.crow0.toNat + r))).1 lost = .ok (u', l) ∧
        DrainedToTile s c f d rm sat (r + 1) (u'.modCore c (fun k => k.clearAcc f r)) l := by
  obtain ⟨hmem, hall⟩ := h
  set lanes := (drainRow f rm sat ((u.core c).accRow f.acc.toNat (f.crow0.toNat + r))).1 with hlanes
  set name := RowName.tile d (f.drow0.toNat + r) with hname
  set k := ((u.core c).setRow name (putLanes ((u.core c).row name) (typeWidth f.tfmt) (64 * f.part.toNat) lanes)).clearBusy name m.id with hkdef
  refine ⟨u.setCore c k, false, ?_, hmem, fun i => ?_⟩
  · have h0 : f.dkind.toNat = 0 := by rw [hk]; rfl
    simp only [State.drainOut, h0]
    rfl
  · obtain ⟨hrow, hacc⟩ := hall i
    rw [State.core_modCore_self, State.core_setCore_self]
    refine ⟨?_, ?_⟩
    · rw [CoreSt.clearAcc_row]
      by_cases hi : i = r
      · subst hi
        obtain ⟨hrow', hacc'⟩ := hall i
        rw [if_neg (lt_irrefl _)] at hrow'
        rw [if_neg (fun h => lt_irrefl _ h.1)] at hacc'
        rw [if_pos (Nat.lt_succ_self _), ← hrow', ← hacc', ← hlanes]
        exact (CoreSt.row_congr (k := k) rfl rfl name).trans (CoreSt.row_setRow (u.core c) name _ (fun _ h => nomatch h))
      · have hne : k.row (.tile d (f.drow0.toNat + i)) = (u.core c).row (.tile d (f.drow0.toNat + i)) := tget_tset_ne _ _ _ _ _ (by omega)
        rw [hne, hrow]
        simp only [Nat.lt_succ_iff_lt_or_eq, hi, or_false]
    · have hkacc : k.accRow f.acc.toNat (f.crow0.toNat + i) = (u.core c).accRow f.acc.toNat (f.crow0.toNat + i) := rfl
      rw [CoreSt.clearAcc_accRow, hkacc, hacc]
      by_cases hi : i = r
      · subst hi
        simp
      · simp only [hi, false_and, if_false, Nat.lt_succ_iff_lt_or_eq, or_false]

end Sys2Proof.Machine
end

section
/-! PROOFS. Rows of a drain that go to a runnel queue or to the weir (R219, R250). -/

namespace Sys2Proof.Machine

/-- The row that a drain makes of an accumulator row, for a destination that holds nothing of it (R219, R250). -/
def CoreSt.drainedRow (k : CoreSt) (f : Drain) (rm : BitVec 3) (sat : Bool) (i : Nat) : Row :=
  putLanes 0 (typeWidth f.tfmt) (64 * f.part.toNat) (drainRow f rm sat (k.accRow f.acc.toNat (f.crow0.toNat + i))).1

/-- The accumulator rows of a drain from one on are as they were. -/
def SameAccFrom (k k' : CoreSt) (f : Drain) (r : Nat) : Prop :=
  ∀ i, r ≤ i → k'.accRow f.acc.toNat (f.crow0.toNat + i) = k.accRow f.acc.toNat (f.crow0.toNat + i)

theorem SameAccFrom.step {k k' : CoreSt} {f : Drain} {r : Nat} (h : SameAccFrom k k' f r) : SameAccFrom k (k'.clearAcc f r) f (r + 1) := by
  intro i hi
  rw [CoreSt.clearAcc_accRow, if_neg (fun e => by omega)]
  exact h i (by omega)

theorem CoreSt.loAt_of_lt (k : CoreSt) {i : Nat} (h : i < 4) : k.loAt i = k.lo[i] := by
  simp [CoreSt.loAt, Vector.getD, h]

/-! Rows pushed to a runnel queue. -/

/-- The first `r` rows of a drain stand in the queue behind what it held (R250). -/
def DrainedToLo (s : State) (c : Nat) (f : Drain) (rm : BitVec 3) (sat : Bool) (r : Nat) (u : State) (lost : Bool) : Prop :=
  lost = false ∧ u.mem = s.mem ∧ (u.core c).lr = (s.core c).lr ∧
    (u.core c).loAt f.dreg.toNat =
      { (s.core c).loAt f.dreg.toNat with
        rows := ((s.core c).loAt f.dreg.toNat).rows ++ (List.range r).map ((s.core c).drainedRow f rm sat) } ∧
    SameAccFrom (s.core c) (u.core c) f r

section
variable {s u : State} {c : Nat} {f : Drain} {rm : BitVec 3} {sat lost : Bool} {r : Nat}

theorem DrainedToLo.step (hk : f.dkind = 1) (hd : f.dreg.toNat < 4) (d : Nat) (m : MatCmd)
    (hpeer : ((s.core c).loAt f.dreg.toNat).peer.isSome = true) (hroom : ((s.core c).loAt f.dreg.toNat).rows.length + r < 8)
    (h : DrainedToLo s c f rm sat r u lost) : ∃ u' l,
      u.drainOut c m f d r (drainRow f rm sat ((u.core c).accRow f.acc.toNat (f.crow0.toNat + r))).1 lost = .ok (u', l) ∧
        DrainedToLo s c f rm sat (r + 1) (u'.modCore c (fun k => k.clearAcc f r)) l := by
  obtain ⟨rfl, hmem, hlr, hlo, hacc⟩ := h
  have hrow : putLanes 0 (typeWidth f.tfmt) (64 * f.part.toNat) (drainRow f rm sat ((u.core c).accRow f.acc.toNat (f.crow0.toNat + r))).1 =
      (s.core c).drainedRow f rm sat r := by rw [hacc r le_rfl]; rfl
  set q := (u.core c).lo[f.dreg.toNat] with hq
  have hloq : q = _ := ((u.core c).loAt_of_lt hd).symm.trans hlo
  have hp : q.peer.isNone = false := by rw [hloq]; simpa [Option.isNone_eq_false_iff] using hpeer
  have hl : q.rows.length < 8 := by rw [hloq]; simpa using hroom
  set k : CoreSt := { u.core c with lo := (u.core c).lo.set f.dreg.toNat { q with rows := q.rows ++ [(s.core c).drainedRow f rm sat r] } hd } with hkdef
  refine ⟨u.setCore c k, false, ?_, rfl, hmem, ?_⟩
  · have h1 : f.dkind.toNat = 1 := by rw [hk]; rfl
    simp only [State.drainOut, h1, dif_pos hd, ← hq, hp, hl, hrow, Bool.or_self, Bool.false_eq_true, if_false, if_true]
    rfl
  · rw [State.core_modCore_self, State.core_setCore_self]
    have hk' : SameAccFrom (s.core c) k f r := hacc
    obtain ⟨a, ha⟩ := k.clearAcc_cases f r
    refine ⟨?_, ?_, hk'.step⟩
    · rw [ha]
      exact hlr
    · have hloAt : (k.clearAcc f r).loAt f.dreg.toNat = k.loAt f.dreg.toNat := by rw [ha]; rfl
      rw [hloAt, k.loAt_of_lt hd]
      show ((u.core c).lo.set f.dreg.toNat _ hd)[f.dreg.toNat] = _
      rw [Vector.getElem_set_self, hloq, List.range_succ, List.map_append, List.append_assoc]
      rfl

/-- A queue that holds eight rows takes none (R250). -/
theorem State.drainOut_fullLo (hk : f.dkind = 1) (hd : f.dreg.toNat < 4) (d : Nat) (m : MatCmd) (lanes : List Nat) (s : State)
    (hpeer : ((s.core c).loAt f.dreg.toNat).peer.isSome = true) (hfull : 8 ≤ ((s.core c).loAt f.dreg.toNat).rows.length) :
    s.drainOut c m f d r lanes false = .error .stall := by
  rw [CoreSt.loAt_of_lt _ hd] at hpeer hfull
  have h1 : f.dkind.toNat = 1 := by rw [hk]; rfl
  have hp : ((s.core c).lo[f.dreg.toNat]).peer.isNone = false := by simpa [Option.isNone_eq_false_iff] using hpeer
  simp only [State.drainOut, h1, dif_pos hd, hp, Bool.or_self, Bool.false_eq_true, if_false, if_neg (Nat.not_lt.mpr hfull)]

/-- The rows of a drain into a queue with no binding are lost, and the core's M is to raise ILL (R250). -/
def DrainedNowhere (s : State) (c : Nat) (f : Drain) (r : Nat) (u : State) (_ : Bool) : Prop :=
  (u.core c).loAt f.dreg.toNat = (s.core c).loAt f.dreg.toNat ∧ (0 < r → (u.core c).mIll = some .otherUse)

theorem DrainedNowhere.step (hk : f.dkind = 1) (hd : f.dreg.toNat < 4) (d : Nat) (m : MatCmd) (lanes : List Nat)
    (hpeer : ((s.core c).loAt f.dreg.toNat).peer = none) (h : DrainedNowhere s c f r u lost) : ∃ u' l,
      u.drainOut c m f d r lanes lost = .ok (u', l) ∧ DrainedNowhere s c f (r + 1) (u'.modCore c (fun k => k.clearAcc f r)) l := by
  obtain ⟨hlo, -⟩ := h
  have hp : ((u.core c).lo[f.dreg.toNat]).peer.isNone = true := by rw [← CoreSt.loAt_of_lt _ hd, hlo, hpeer]; rfl
  refine ⟨u.setCore c { u.core c with mIll := some .otherUse }, true, ?_, ?_⟩
  · have h1 : f.dkind.toNat = 1 := by rw [hk]; rfl
    simp only [State.drainOut, h1, dif_pos hd, hp, Bool.or_true, if_true]
  · unfold DrainedNowhere
    rw [State.core_modCore_self, State.core_setCore_self]
    obtain ⟨a, ha⟩ := ({ u.core c with mIll := some .otherUse } : CoreSt).clearAcc_cases f r
    rw [ha]
    exact ⟨hlo, fun _ => rfl⟩

end

/-! Rows put into the weir. -/

/-- The weir's row of a drain's row (R250). -/
def weirRow (f : Drain) (i : Nat) : Nat := (f.dreg.toNat + i) % 4

/-- The first `r` rows of a drain stand in the weir, whose rows for the others are empty (R250). -/
def DrainedToWeir (s : State) (c : Nat) (f : Drain) (rm : BitVec 3) (sat : Bool) (r : Nat) (u : State) (_ : Bool) : Prop :=
  SameTask s u c ∧ SameAccFrom (s.core c) (u.core c) f r ∧
    (∀ i, i < r → (u.pair (pairOf c)).twFull.getD (weirRow f i) false = true ∧
      (u.pair (pairOf c)).tw.getD (weirRow f i) 0 = (s.core c).drainedRow f rm sat i) ∧
    ∀ i, r ≤ i → i < 4 → (u.pair (pairOf c)).twFull.getD (weirRow f i) true = false

theorem State.weirOk_congr {s u : State} {c : Nat} (h : SameTask s u c) : u.weirOk c = s.weirOk c := by
  rw [State.weirOk, State.inGang, State.gang, h.2]
  rfl

/-- A core that is not there has no twin of its gang, and no drain of it passes the check of the weir (R204). -/
theorem State.drainOut_noWeir {s : State} {c d r : Nat} {f : Drain} (hk : f.dkind = 2) (m : MatCmd) (lanes : List Nat) (lost : Bool)
    (hw : s.weirOk c = false) : s.drainOut c m f d r lanes lost = .error (.fatal kWeir 0) := by
  have h2 : f.dkind.toNat = 2 := by rw [hk]; rfl
  simp [State.drainOut, h2, hw]

section
variable {s u : State} {c : Nat} {f : Drain} {rm : BitVec 3} {sat lost : Bool} {r : Nat}

theorem DrainedToWeir.step (hk : f.dkind = 2) (d : Nat) (m : MatCmd) (hw : s.weirOk c = true) (hr : r < 4)
    (h : DrainedToWeir s c f rm sat r u lost) : ∃ u' l,
      u.drainOut c m f d r (drainRow f rm sat ((u.core c).accRow f.acc.toNat (f.crow0.toNat + r))).1 lost = .ok (u', l) ∧
        DrainedToWeir s c f rm sat (r + 1) (u'.modCore c (fun k => k.clearAcc f r)) l := by
  obtain ⟨htask, hacc, hfull, hempty⟩ := h
  have hrow : putLanes 0 (typeWidth f.tfmt) (64 * f.part.toNat) (drainRow f rm sat ((u.core c).accRow f.acc.toNat (f.crow0.toNat + r))).1 =
      (s.core c).drainedRow f rm sat r := by rw [hacc r le_rfl]; rfl
  have hlt : weirRow f r < 4 := Nat.mod_lt _ (by omega)
  set p := u.pair (pairOf c) with hp
  have hfree : p.twFull.getD (weirRow f r) false = false := by simpa [Vector.getD, hlt] using hempty r le_rfl hr
  set p' : Pair := { p with
    tw := p.tw.setIfInBounds (weirRow f r) ((s.core c).drainedRow f rm sat r)
    twFull := p.twFull.setIfInBounds (weirRow f r) true } with hp'
  have hpair : ∀ g : CoreSt → CoreSt, ((u.setPair (pairOf c) p').modCore c g).pair (pairOf c) = p' := fun g => State.pair_setPair_self _ _ _
  refine ⟨u.setPair (pairOf c) p', false, ?_, ?_, ?_, fun i hi => ?_, fun i hi hi4 => ?_⟩
  · have h2 : f.dkind.toNat = 2 := by rw [hk]; rfl
    have hidx : (f.dreg.toNat + r) % 4 = weirRow f r := rfl
    simp only [State.drainOut, h2, State.weirOk_congr htask, hw, hidx, ← hp, hfree, hrow, Bool.not_true, Bool.false_eq_true, if_false]
    rfl
  · obtain ⟨a, ha⟩ := (u.core c).clearAcc_cases f r
    have hcore : ((u.setPair (pairOf c) p').modCore c (fun k => k.clearAcc f r)).core c = { u.core c with acc := a } := by
      rw [State.core_modCore_self, State.core_setPair, ha]
    have hsame : SameTask u ((u.setPair (pairOf c) p').modCore c (fun k => k.clearAcc f r)) c :=
      .of_core rfl rfl (by rw [hcore]) (by rw [hcore]) (by rw [hcore])
    exact ⟨hsame.1.trans htask.1, hsame.2.trans htask.2⟩
  · rw [State.core_modCore_self, State.core_setPair]
    exact hacc.step
  · rw [hpair]
    by_cases hir : i = r
    · subst hir
      simp [hp', Vector.getD, hlt]
    · have hne : weirRow f i ≠ weirRow f r := by unfold weirRow; omega
      have hi4 : weirRow f i < 4 := Nat.mod_lt _ (by omega)
      have := hfull i (by omega)
      simpa [hp', Vector.getD, hi4, Vector.getElem_setIfInBounds, hne.symm] using this
  · rw [hpair]
    have hne : weirRow f i ≠ weirRow f r := by unfold weirRow; omega
    have hlt4 : weirRow f i < 4 := Nat.mod_lt _ (by omega)
    have := hempty i (by omega) hi4
    simpa [hp', Vector.getD, hlt4, Vector.getElem_setIfInBounds, hne.symm] using this

end

end Sys2Proof.Machine
end

section
/-! PROOFS. The matrix array executes the head of its queue (R31, R152, R201, R204, R209 to R220, R250, R335). -/

namespace Sys2Proof.Machine

/-! The drain of one element (R152). -/

theorem drainElem_count (ef : Bool) (k : Kind) (rm : Nat) (sat : Bool) (v n : Nat) :
    drainElem 2 ef k rm sat v n = if n < 2 ^ 31 then (n, []) else (0x7FFFFFFF, [if sat then evSAT else evOVF]) := by
  have h : n ≤ 2 ^ 31 - 1 ↔ n < 2 ^ 31 := by omega
  simp only [drainElem, h]

/-- An element with no contributor drains as absent. -/
theorem drainElem_absent {fn : Nat} (h : fn = 0 ∨ fn = 1) (ef : Bool) (k : Kind) (rm : Nat) (sat : Bool) (v : Nat) :
    drainElem fn ef k rm sat v 0 = (absentCode k, [evNXA]) := by
  rcases h with rfl | rfl <;> rfl

theorem drainElem_value (ef : Bool) (k : Kind) (rm : Nat) (sat : Bool) (v : Nat) {n : Nat} (h : n ≠ 0) :
    drainElem 0 ef k rm sat v n = roundVal (decodeVal (if ef then kindOfType 14 else .fx) v) k rm sat := by
  simp [drainElem, h]

theorem drainElem_quotient (ef : Bool) (k : Kind) (rm : Nat) (sat : Bool) (v : Nat) {n : Nat} (h : n ≠ 0) :
    drainElem 1 ef k rm sat v n = roundVal (divNat (decodeVal (if ef then kindOfType 14 else .fx) v) n) k rm sat := by
  simp [drainElem, h]

/-- What is no number is its own quotient. -/
theorem divNat_special {x : Val} (n : Nat) (h : x = .nan ∨ (∃ g, x = .inf g) ∨ x = .absent) : divNat x n = x := by
  rcases h with rfl | ⟨g, rfl⟩ | rfl <;> rfl

/-- The digits of a quotient: all of them where it ends, else enough that what they leave out lies below the last. -/
theorem divNat_quotient {x : Val} {y : ℚ} {n : Nat} (h0 : n ≠ 0) (hn : n < 2 ^ 32) (hx : ratOf x = some y) :
    ∃ g p e more, divNat x n = .fin g p e more ∧ (y ≠ 0 → (g = true ↔ y < 0)) ∧ (more = false → (p : ℚ) * (2 : ℚ) ^ e = |y| / n) ∧
      (more = true → 2 ^ 268 ≤ p ∧ (p : ℚ) * (2 : ℚ) ^ e < |y| / n ∧ |y| / n < ((p : ℚ) + 1) * (2 : ℚ) ^ e) := by
  obtain ⟨s, m, e, rfl⟩ : ∃ s m e, x = .fin s m e false := by
    cases x with
    | fin s m e r =>
      cases r with
      | false => exact ⟨s, m, e, rfl⟩
      | true => cases hx
    | nan => cases hx
    | inf g => cases hx
    | absent => cases hx
  obtain rfl : (if s then -1 else 1) * (m : ℚ) * (2 : ℚ) ^ e = y := by simpa [ratOf] using hx
  have hpow : (0 : ℚ) < (2 : ℚ) ^ e := by positivity
  have hnq : (0 : ℚ) < n := by exact_mod_cast Nat.pos_of_ne_zero h0
  have habs : |(if s then -1 else 1) * (m : ℚ) * (2 : ℚ) ^ e| = m * (2 : ℚ) ^ e := by
    rw [abs_mul, abs_mul, abs_of_pos hpow, Nat.abs_cast]
    cases s <;> simp
  have hscale : (2 : ℚ) ^ e = (2 : ℚ) ^ (e - 300) * 2 ^ 300 := by
    rw [← zpow_natCast, ← zpow_add₀ (by norm_num)]
    congr 1
    push_cast
    ring
  have hunit : (0 : ℚ) < (2 : ℚ) ^ (e - 300) := by positivity
  have hdiv : (n : ℚ) * ((m * 2 ^ 300 / n : Nat) : ℚ) + ((m * 2 ^ 300 % n : Nat) : ℚ) = m * 2 ^ 300 := by
    exact_mod_cast Nat.div_add_mod (m * 2 ^ 300) n
  have hmod : ((m * 2 ^ 300 % n : Nat) : ℚ) < n := by exact_mod_cast Nat.mod_lt _ (Nat.pos_of_ne_zero h0)
  have hquot : |(if s then -1 else 1) * (m : ℚ) * (2 : ℚ) ^ e| / n =
      (((m * 2 ^ 300 / n : Nat) : ℚ) + ((m * 2 ^ 300 % n : Nat) : ℚ) / n) * (2 : ℚ) ^ (e - 300) := by
    rw [habs, hscale, ← mul_assoc, mul_right_comm, ← hdiv]
    field_simp
  refine ⟨s, m * 2 ^ 300 / n, e - 300, m * 2 ^ 300 % n != 0, rfl, fun hy => ?_, fun hm => ?_, fun hm => ⟨?_, ?_, ?_⟩⟩
  · have hm : (0 : ℚ) < m := by
      rcases Nat.eq_zero_or_pos m with rfl | h
      · simp at hy
      · exact_mod_cast h
    have hmp : (0 : ℚ) < m * (2 : ℚ) ^ e := mul_pos hm hpow
    cases s
    · simpa [mul_assoc] using hmp.le
    · simpa [mul_assoc] using hmp
  · have hr : m * 2 ^ 300 % n = 0 := by simpa using hm
    rw [hquot, hr, Nat.cast_zero, zero_div, add_zero]
  · have hpos : 0 < m := Nat.pos_of_ne_zero fun h => by simp [h] at hm
    rw [Nat.le_div_iff_mul_le (Nat.pos_of_ne_zero h0)]
    calc 2 ^ 268 * n ≤ 2 ^ 268 * 2 ^ 32 := Nat.mul_le_mul_left _ hn.le
      _ = 1 * 2 ^ 300 := by rw [← Nat.pow_add, Nat.one_mul]
      _ ≤ m * 2 ^ 300 := Nat.mul_le_mul_right _ hpos
  · have hr : (0 : ℚ) < ((m * 2 ^ 300 % n : Nat) : ℚ) := by
      have : m * 2 ^ 300 % n ≠ 0 := by simpa using hm
      exact_mod_cast Nat.pos_of_ne_zero this
    rw [hquot]
    exact mul_lt_mul_of_pos_right (lt_add_of_pos_right _ (div_pos hr hnq)) hunit
  · rw [hquot]
    exact mul_lt_mul_of_pos_right (by gcongr; exact (div_lt_one hnq).mpr hmod) hunit

theorem getD_drainRow (f : Drain) (rm : BitVec 3) (sat : Bool) (a : AccRow) {j : Nat} (h : j < 64) :
    (drainRow f rm sat a).1.getD j 0 =
      (drainElem f.fn.toNat (f.afmt = 1) (kindOfType f.tfmt) rm.toNat sat (a.val j) (a.cnt j)).1 := by
  simp [drainRow, List.getD_eq_getElem?_getD, h]

/-! The clauses. -/

theorem scaleOf_decide (p : Prop) [Decidable p] (x : Nat) : scaleOf (decide p) x = if p then (BitVec.ofNat 8 x).toInt else 0 := by
  by_cases h : p <;> simp [scaleOf, h]

/-- The rows of a core are not its queue's head. -/
theorem State.setHead_row (s : State) (c : Nat) (m : MatCmd) (n : RowName) : ((s.setHead c m).core c).row n = (s.core c).row n := by
  rw [State.setHead_core]
  exact CoreSt.row_congr rfl rfl n

/-- A marked row of an li queue is an uncorrectable error (R335). -/
theorem State.takeRow_marked {s : State} {c i : Nat} {x : Row} {xs : List Row} (hx : (s.core c).li.getD i [] = x :: xs)
    (hm : (s.core c).liMarked i = true) (g b n : Nat) : s.takeRow c 2 i g b n = .error (.fatal 7 0) := by
  simp [State.takeRow, hx, hm, kPoison]

section
variable {s v w z : State} {c : Nat} {m n : MatCmd} {r : List MatCmd} {t : BitVec 128} {sat : Bool} {ga gb : List Row}

/-- An MXPOSE with all of its rows moves each lane, frees its rows, and leaves memory (R215). -/
theorem mxposeExecute_moves (hq : (s.core c).mq = m :: r) (he : m.executed = false) (ho : m.op = .tpl t sat) (hk : tOpk t = 1)
    (hs : s.startCmd c m t = some (v, n))
    (ha : State.takeRows c (tAKind t) (tAIdx t) n.areg (tARow t) (tM t) (tM t) n.gotA v = (ga, w, none)) (hla : ga.length = tM t)
    (hw : tM t * typeWidth (tFmt t) ≤ 256) :
    ∃ u h, exec (.mxposeExecute c) s = .next u ∧ (u.core c).mq.head? = some h ∧ h.executed = true ∧ u.mem = w.mem ∧
      ∀ j, j < tN t →
        lanesOf ((u.core c).row (.tile n.breg (tBRow t + j))) (typeWidth (tFmt t)) 0 (tM t) =
          ga.map (fun x => (lanesOf x (typeWidth (tFmt t)) j 1).getD 0 0) ∧
        (u.core c).rowBusy (.tile n.breg (tBRow t + j)) = (w.core c).busy.any (fun b => b.row == .tile n.breg (tBRow t + j) && b.owner != n.id) := by
  refine ⟨_, _, mxposeExecute_writes hq he ho hk hs ha hla, State.setHead_head _ _ _, rfl, rfl, fun j hj => ?_⟩
  obtain ⟨hrow, hbusy⟩ := CoreSt.foldl_xposeStep t ga n.breg n.id (w.core c) (tN t)
  rw [State.setHead_row, State.setHead_core, State.core_setCore_self]
  generalize (List.range (tN t)).foldl (CoreSt.xposeStep t ga n.breg n.id) (w.core c) = k at hrow hbusy
  refine ⟨?_, ?_⟩
  · rw [hrow j, if_pos hj]
    exact lanesOf_xposeRow t ga j _ hla hw
  · show k.busy.any (fun b => b.row == .tile n.breg (tBRow t + j)) = _
    rw [Bool.eq_iff_iff, List.any_eq_true, List.any_eq_true]
    simp only [hbusy, beq_iff_eq, Bool.and_eq_true, bne_iff_ne, ne_eq]
    constructor
    · rintro ⟨b, ⟨hb, hn⟩, hr⟩
      exact ⟨b, hb, hr, fun ho => hn ⟨ho, j, hj, hr⟩⟩
    · rintro ⟨b, hb, hr, hne⟩
      exact ⟨b, ⟨hb, fun h => hne h.1⟩, hr⟩

end

section
variable {s : State} {c : Nat} {m : MatCmd} {r : List MatCmd} {f : Drain} {d : Nat} {rm : BitVec 3} {sat : Bool}

/-- A drain of which every row finds room, from its first on (R219): `P` is what holds as its rows go out. -/
theorem mdrainExecute_all (P : Nat → State → Bool → Prop) (hq : (s.core c).mq = m :: r) (he : m.executed = false)
    (ho : m.op = .drain f d rm sat) (h0 : m.rowsOut = 0) (hg : s.arrayGap c = true)
    (hstep : ∀ r s m lost, r ≤ f.nrm1.toNat → P r s lost → ∃ s' l,
      s.drainOut c m f d r (drainRow f rm sat ((s.core c).accRow f.acc.toNat (f.crow0.toNat + r))).1 lost = .ok (s', l) ∧
        P (r + 1) (s'.modCore c (fun k => k.clearAcc f r)) l) (hP : P 0 s m.started) :
    ∃ t h l, exec (.mdrainExecute c) s = .next ((t.noteStart c).setHead c h) ∧ h.executed = true ∧ P (f.nrm1.toNat + 1) t l := by
  have hn : f.nrm1.toNat < 64 := f.nrm1.isLt
  obtain ⟨t, h, l, hrows, hall, hdone⟩ := State.drainRows_all P hstep 64 s m m.started (h0.symm ▸ hP) (by omega) (by omega)
  exact ⟨t, _, l, mdrainExecute_drains hq he ho h0 hg hrows hdone, rfl, hall⟩

end

end Sys2Proof.Machine
end

section
/-! PROOFS. The clauses of the array's statement (R209 to R220, R250). -/

namespace Sys2Proof.Machine

/-- Settles O42: each clause is one outcome of a step of the array; a drain is one induction over its rows. -/
theorem theArrayExecutes : Obligations.TheArrayExecutes := by
  intro s c m r hq he
  refine ⟨fun t sat v n ga gb w z ho hk h0 hs ha hb hla hlb hM hN => ?mma, fun t v n hstart hs => ?scales,
    fun i x xs hi hx hm g b n => State.takeRow_marked hx hm g b n, fun t sat ho hk h0 => ?rises, fun h1 h2 h3 h4 => array_waits hq h1 h2 h3 h4,
    fun t sat v n ga w ho hk hs ha hla hw hN => mxposeExecute_moves hq he ho hk hs ha hla hw, fun a ho hg => ?zero,
    fun f d rm sat ho hk h0 hg => ?tile, fun f d rm sat q ho hk hd h0 hst hg hlo => ?lo, fun f d rm sat ho hk hn h0 hg => ?weir,
    fun f rm sat a j hj => getD_drainRow f rm sat a hj, fun ef k rm sat v n => ?elem⟩
  case mma =>
    refine ⟨_, _, mmaExecute_writes hq he ho hk h0 hs ha hb hla hlb, State.setHead_head _ _ _, ?_, rfl, fun i j hi hj => ?_,
      fun i j hi hj hout => ?_⟩
    · show min (n.q + tWmStep t) (tM t) = _
      rw [(State.startCmd_keeps hs).2, h0, Nat.zero_add]
    · have h := (mmaExecute_elements (z.core c) t sat { n with gotA := ga, gotB := gb }).1 i j hi hj hN
      rw [State.setHead_core, State.core_setCore_self]
      simp only [mmaAt, scaleOf_decide] at h
      exact h
    · have h := (mmaExecute_elements (z.core c) t sat { n with gotA := ga, gotB := gb }).2 i j hj hout
      rw [State.setHead_core, State.core_setCore_self]
      exact h
  case scales =>
    rcases State.startCmd_cmd hs with ⟨-, h⟩ | ⟨-, rfl⟩
    · rw [hstart] at h
      cases h
    · exact ⟨fun _ => rfl, fun _ => rfl⟩
  case rises =>
    refine ⟨_, _, mmaExecute_rises hq he ho hk h0, ?_, rfl, m.rise_eq t⟩
    rw [State.setHead_core, hq]
    rfl
  case zero =>
    refine ⟨_, _, mzeroExecute_empties hq he ho hg, State.setHead_head _ _ _, rfl, rfl, ?_⟩
    rw [State.setHead_core, State.core_modCore_self]
    refine ⟨fun i hi => ?_, CoreSt.zeroed_accSat _ _⟩
    obtain ⟨h1, h2⟩ := CoreSt.zeroed_accRow ((s.noteStart c).core c) a.toNat hi
    refine ⟨h1, fun b hb => (h2 b hb).trans ?_⟩
    rw [State.noteStart, State.core_modCore_self]
    rfl
  case tile =>
    obtain ⟨t, h, l, hstep, hh, hmem, hall⟩ := mdrainExecute_all (DrainedToTile s c f d rm sat) hq he ho h0 hg
      (fun r u m lost _ hP => DrainedToTile.step hk m hP) ⟨rfl, fun i => by simp⟩
    refine ⟨_, h, hstep, State.setHead_head _ _ _, hh, hmem, fun i hi => ?_⟩
    obtain ⟨hrow, hacc⟩ := hall i
    rw [State.noteStart_setHead_core]
    refine ⟨(CoreSt.row_congr (k' := t.core c) rfl rfl _).trans (hrow.trans (if_pos (by omega))), ?_⟩
    refine (CoreSt.accRow_congr (k' := t.core c) rfl _ _).trans (hacc.trans ?_)
    simp only [show i < f.nrm1.toNat + 1 from by omega, true_and]
  case lo =>
    subst hlo
    refine ⟨fun hp hroom => ?room, fun hp hfull => ?full, fun hp => ?nowhere⟩
    case room =>
      obtain ⟨t, h, l, hstep, hh, -, hmem, hlr, hq', -⟩ := mdrainExecute_all (DrainedToLo s c f rm sat) hq he ho h0 hg
        (fun r u m lost hr hP => DrainedToLo.step hk hd d m hp (by omega) hP) ⟨hst, rfl, rfl, by simp, fun _ _ => rfl⟩
      refine ⟨_, h, hstep, State.setHead_head _ _ _, hh, hmem, ?_⟩
      rw [State.noteStart_setHead_core]
      exact ⟨hq', hlr⟩
    case full =>
      have hstall := State.drainRows_stalls (rm := rm) (sat := sat) (fuel := 63) (m := m) (by omega)
        (State.drainOut_fullLo hk hd d m _ s hp hfull)
      rw [hst.symm] at hstall
      refine ⟨_, m, mdrainExecute_stands hq he ho h0 hg hstall, State.setHead_head _ _ _, he, h0, rfl, ?_⟩
      show ((s.setHead c m).core c).loAt _ = _
      rw [State.setHead_core]
      rfl
    case nowhere =>
      obtain ⟨t, h, l, hstep, hh, hlo, hill⟩ := mdrainExecute_all (DrainedNowhere s c f) hq he ho h0 hg
        (fun r u m lost _ hP => DrainedNowhere.step hk hd d m _ hp hP) ⟨rfl, fun h => absurd h (lt_irrefl _)⟩
      refine ⟨_, h, hstep, State.setHead_head _ _ _, hh, ?_⟩
      rw [State.noteStart_setHead_core]
      exact ⟨hlo, hill (Nat.succ_pos _)⟩
  case weir =>
    refine ⟨fun hw => ?none, fun hw hempty => ?puts⟩
    case none =>
      have hstall := State.drainRows_stalls (rm := rm) (sat := sat) (fuel := 63) (m := m) (lost := m.started) (by omega)
        (State.drainOut_noWeir (d := d) hk m _ m.started hw)
      refine ⟨_, mdrainExecute_stands hq he ho h0 hg hstall, ?_⟩
      refine (raiseFatal_failed (s.setHead c m) c 4 0).congr (.of_core rfl rfl ?_ ?_ ?_) ⟨rfl, rfl⟩ <;> rw [State.setHead_core]
    case puts =>
      obtain ⟨t, h, l, hstep, hh, htask, -, hrows, -⟩ := mdrainExecute_all (DrainedToWeir s c f rm sat) hq he ho h0 hg
        (fun r u m lost hr hP => DrainedToWeir.step hk d m hw (by omega) hP)
        ⟨⟨rfl, rfl⟩, fun _ _ => rfl, fun i hi => absurd hi (Nat.not_lt_zero _), fun i _ _ => hempty _ (Nat.mod_lt _ (by omega))⟩
      exact ⟨_, h, hstep, State.setHead_head _ _ _, hh, htask.1, fun i hi => hrows i (by omega)⟩
  case elem =>
    refine ⟨fun fn hfn => drainElem_absent hfn ef k rm sat v, fun hn => drainElem_value ef k rm sat v hn, fun hn hx => ?_, fun hn hlt y hy => ?_,
      drainElem_count ef k rm sat v n⟩
    · rw [drainElem_quotient ef k rm sat v hn, divNat_special n hx]
    · obtain ⟨g, p, e, more, hquot, hsign, hexact, hmore⟩ := divNat_quotient hn hlt hy
      exact ⟨g, p, e, more, by rw [drainElem_quotient ef k rm sat v hn, hquot], hsign, hexact, hmore⟩

end Sys2Proof.Machine
end

section
/-! PROOFS. The tasks of the fountainhead: what is found under a key, the head of a stream, and what a change of one task leaves (R276, R281, R286). -/

namespace Sys2Proof.Machine

/-- A change of a task that keeps its partition and its id. -/
def KeepsKey (f : Task → Task) : Prop := ∀ g, (f g).part = g.part ∧ (f g).id = g.id

/-- Changing the task of one key changes what is found under no other. -/
theorem State.task?_modTask_ne (s : State) (p i p' i' : Nat) (f : Task → Task) (hf : KeepsKey f) (h : ¬ (p' = p ∧ i' = i)) :
    (s.modTask p i f).task? p' i' = s.task? p' i' := by
  unfold State.modTask State.task?
  dsimp only
  induction s.tasks with
  | nil => rfl
  | cons t l ih =>
    rw [List.map_cons, List.find?_cons, List.find?_cons]
    by_cases ht : t.part = p ∧ t.id = i
    · have hkey : (t.part == p && t.id == i) = true := by simp [ht]
      have hother : (t.part == p' && t.id == i') = false := by
        rw [ht.1, ht.2]
        simp only [Bool.and_eq_false_iff, beq_eq_false_iff_ne]
        by_contra hc
        push Not at hc
        exact h ⟨hc.1.symm, hc.2.symm⟩
      rw [if_pos hkey, (hf t).1, (hf t).2, hother]
      exact ih
    · have hkey : (t.part == p && t.id == i) = false := by
        simp only [Bool.and_eq_false_iff, beq_eq_false_iff_ne]
        tauto
      rw [if_neg (by rw [hkey]; exact Bool.false_ne_true)]
      split
      · rfl
      · exact ih

theorem State.task?_some {s : State} {p i : Nat} {g : Task} (h : s.task? p i = some g) : g ∈ s.tasks ∧ g.part = p ∧ g.id = i := by
  refine ⟨List.mem_of_find?_eq_some h, ?_⟩
  simpa using List.find?_some h

/-- A task that is alone under its key is found there. -/
theorem State.task?_of_unique {s : State} {h : Task} (hm : h ∈ s.tasks) (hu : ∀ x ∈ s.tasks, x.part = h.part ∧ x.id = h.id → x = h) :
    s.task? h.part h.id = some h := by
  obtain ⟨x, hx⟩ : ∃ x, s.task? h.part h.id = some x := by
    rw [← Option.isSome_iff_exists, State.task?, List.find?_isSome]
    exact ⟨h, hm, by simp⟩
  obtain ⟨hxm, hp, hi⟩ := State.task?_some hx
  rw [hx, hu x hxm ⟨hp, hi⟩]

/-- Where no two tasks have one key, each is found under its own. -/
theorem State.task?_of_nodup {s : State} {h : Task} (hm : h ∈ s.tasks) (hn : (s.tasks.map (fun x => (x.part, x.id))).Nodup) :
    s.task? h.part h.id = some h :=
  State.task?_of_unique hm fun _ hx e => List.inj_on_of_nodup_map hn hx hm (Prod.ext e.1 e.2)

/-! The head of a stream (R281, R286). -/

/-- Of the tasks of a list the one with the least order, the first such. -/
def firstByOrder (l : List Task) : Option Task :=
  l.foldl (fun b t => match b with
    | none => some t
    | some h => if t.order < h.order then some t else some h) none

/-- The tasks that may be a stream's head: those of its pool that have been dispatched, if there are any. -/
def State.headTasks (s : State) (q : Nat) : List Task :=
  let l := s.tasks.filter (fun t => t.stream == q && t.inPool)
  if l.any (·.dispatched) then l.filter (·.dispatched) else l

theorem State.headOf_eq (s : State) (q : Nat) : s.headOf q = firstByOrder (s.headTasks q) := rfl

theorem firstByOrder_mem {l : List Task} {h : Task} (hh : firstByOrder l = some h) : h ∈ l := by
  refine List.foldlRecOn (motive := fun b : Option Task => ∀ x, b = some x → x ∈ l) l _ (fun _ hx => by cases hx) ?_ h hh
  intro b hb t ht x hx
  cases b with
  | none =>
    cases hx
    exact ht
  | some y =>
    dsimp only at hx
    split at hx
    · cases hx
      exact ht
    · exact hb x hx

/-- The head of a stream is a task of the stream in the pool. -/
theorem State.headOf_some {s : State} {q : Nat} {h : Task} (hh : s.headOf q = some h) : h ∈ s.tasks ∧ h.stream = q ∧ h.inPool = true := by
  have hm := firstByOrder_mem (s.headOf_eq q ▸ hh)
  have hf : h ∈ s.tasks.filter (fun t => t.stream == q && t.inPool) := by
    unfold State.headTasks at hm
    dsimp only at hm
    split at hm
    · exact List.mem_of_mem_filter hm
    · exact hm
  obtain ⟨hmem, hp⟩ := List.mem_filter.mp hf
  simp only [Bool.and_eq_true, beq_iff_eq] at hp
  exact ⟨hmem, hp⟩

/-- A change of tasks that the choice of a head does not look at. -/
def KeepsHead (f : Task → Task) : Prop := ∀ g, (f g).stream = g.stream ∧ (f g).inPool = g.inPool ∧ (f g).dispatched = g.dispatched ∧ (f g).order = g.order

theorem firstByOrder_map (l : List Task) (f : Task → Task) (hf : KeepsHead f) : firstByOrder (l.map f) = (firstByOrder l).map f := by
  unfold firstByOrder
  rw [List.foldl_map]
  suffices h : ∀ b : Option Task, l.foldl (fun b t => match b with
      | none => some (f t)
      | some h => if (f t).order < h.order then some (f t) else some h) (b.map f) = (l.foldl (fun b t => match b with
      | none => some t
      | some h => if t.order < h.order then some t else some h) b).map f by exact h none
  induction l with
  | nil => exact fun b => rfl
  | cons t l ih =>
    intro b
    rw [List.foldl_cons, List.foldl_cons, ← ih]
    congr 1
    cases b with
    | none => rfl
    | some x =>
      simp only [Option.map_some, (hf t).2.2.2, (hf x).2.2.2]
      split <;> rfl

theorem State.headOf_map {s t : State} {f : Task → Task} (hf : KeepsHead f) (ht : t.tasks = s.tasks.map f) (q : Nat) :
    t.headOf q = (s.headOf q).map f := by
  have hfilter : ∀ l : List Task, (l.map f).filter (fun t => t.stream == q && t.inPool) = (l.filter (fun t => t.stream == q && t.inPool)).map f := by
    intro l
    rw [List.filter_map]
    congr 1
    refine List.filter_congr fun x _ => ?_
    simp only [Function.comp_apply, (hf x).1, (hf x).2.1]
  have hdisp : (fun x : Task => x.dispatched) ∘ f = fun x => x.dispatched := funext fun x => (hf x).2.2.1
  rw [State.headOf_eq, State.headOf_eq, ← firstByOrder_map _ _ hf]
  congr 1
  unfold State.headTasks
  dsimp only
  rw [ht, hfilter, List.any_map, hdisp]
  split
  · rw [List.filter_map, hdisp]
  · rfl

theorem State.headOf_congr {s t : State} (h : t.tasks = s.tasks) (q : Nat) : t.headOf q = s.headOf q := by
  simp only [State.headOf, h]

end Sys2Proof.Machine
end

section
/-! PROOFS. Readiness: a task enters the pool or fails, and a stream ages (R281, R283, R284, R344). -/

namespace Sys2Proof.Machine

/-! A task that has failed stays so while others that wait on it fail. -/

/-- A task as it ends (R283, R294). -/
def Task.endedAs (ph : TaskPhase) (kd det ad n : Nat) (t : Task) : Task :=
  { t with phase := ph, running := false, kind := kd, detail := det, addr := ad, eprio := 0, recordDue := true, doneAt := n,
           images := none, boundary := none, atBoundary := false, spill := none, awaits := .nothing, preemptAt := none, preemptFor := none,
           saving := false, traps := [], fatal := none, cores := [] }

theorem Task.endedAs_keepsKey (ph : TaskPhase) (kd det ad n : Nat) : KeepsKey (Task.endedAs ph kd det ad n) := fun _ => ⟨rfl, rfl⟩

/-- A task that is in the pool leaves it. -/
def State.leftPool (s : State) (t : Task) : State := if t.inPool then s.leavePool t else s

theorem State.endTask_eq (s : State) (t : Task) (ph : TaskPhase) (kd det ad : Nat) : s.endTask t ph kd det ad =
    ({ s.leftPool t with reserved := (s.leftPool t).reserved.filter (fun r => !(r.2.1 == t.part && r.2.2 == t.id)) } : State).modTask t.part t.id
      (Task.endedAs ph kd det ad (s.leftPool t).cycle) := rfl

/-- What ending a task leaves under another key. -/
theorem State.task?_endTask_ne (s : State) (v : Task) (ph : TaskPhase) (kd det ad : Nat) {p i : Nat} (h : ¬ (p = v.part ∧ i = v.id)) :
    (s.endTask v ph kd det ad).task? p i = s.task? p i := by
  rw [State.endTask_eq, State.task?_modTask_ne _ _ _ _ _ _ (Task.endedAs_keepsKey _ _ _ _ _) h]
  show (s.leftPool v).task? p i = _
  unfold State.leftPool State.leavePool
  split
  · have hf : KeepsKey (fun t => { t with inPool := false }) := fun _ => ⟨rfl, rfl⟩
    rw [State.task?_modTask_ne _ _ _ _ _ _ hf h]
    split <;> rfl
  · rfl

/-- What waits on a task that fails, fails too; a task of another key that does not wait stays as it is (R283). -/
theorem failTask_task? (n : Nat) (s : State) (v : Task) (kd det ad : Nat) {p i : Nat} {g : Task} (hg : s.task? p i = some g)
    (hw : g.phase ≠ .waiting) (hk : ¬ (p = v.part ∧ i = v.id)) : (failTask n s v kd det ad).task? p i = some g := by
  induction n generalizing s v kd det ad with
  | zero => exact hg
  | succ n ih =>
    unfold failTask
    refine List.foldlRecOn (motive := fun u : State => u.task? p i = some g) _ _ ((s.task?_endTask_ne v _ _ _ _ hk).trans hg) ?_
    intro u hu w _
    split
    · next v' hv' =>
      split
      · next hwait =>
        obtain ⟨-, hp, hi⟩ := State.task?_some hv'
        refine ih u v' _ _ _ hu ?_
        rintro ⟨rfl, rfl⟩
        rw [hp, hi] at hu
        rw [hu] at hv'
        cases hv'
        exact hw (by simpa using hwait)
      · exact hu
    · exact hu

section
variable {s : State} {h : Task} {key : Nat}

/-- A task that fails outside the pool is found failed, with its kind and detail (R283, R294). -/
theorem State.task?_fail (hk : s.task? h.part h.id = some h) (hp : h.inPool = false) (kd det ad : Nat) :
    ∃ g, (s.fail h kd det ad).task? h.part h.id = some g ∧ g.phase = .failed ∧ g.kind = kd ∧ g.detail = det := by
  have hend : ∃ g, (s.endTask h .failed kd det ad).task? h.part h.id = some g ∧ g.phase = .failed ∧ g.kind = kd ∧ g.detail = det := by
    have hs : s.leftPool h = s := by rw [State.leftPool, hp]; rfl
    rw [State.endTask_eq, hs, State.task?_modTask _ _ _ _ (Task.endedAs_keepsKey _ _ _ _ _)]
    exact ⟨_, congrArg (Option.map _) hk, rfl, rfl, rfl⟩
  obtain ⟨g, hg, hf, hkind, hdet⟩ := hend
  refine ⟨g, ?_, hf, hkind, hdet⟩
  unfold State.fail failTask
  refine List.foldlRecOn (motive := fun u : State => u.task? h.part h.id = some g) _ _ hg ?_
  intro u hu w _
  split
  · next v hv =>
    split
    · next hwait =>
      obtain ⟨-, hvp, hvi⟩ := State.task?_some hv
      refine failTask_task? _ u v _ _ _ hu (by rw [hf]; exact TaskPhase.noConfusion) ?_
      rintro ⟨e1, e2⟩
      rw [← hvp, ← hvi, ← e1, ← e2, hu] at hv
      cases hv
      rw [hf] at hwait
      exact absurd hwait (by decide)
    · exact hu
  · exact hu

/-- A task may enter the pool: it comes back, or it may enter and none that comes back waits (R283, R292). -/
theorem taskReady_enters (hk : s.taskKey? key = some h) (hc : s.poolCount < 1024) (hp : h.inPool = false)
    (he : h.canReturn = true ∨ s.canEnter h = true ∧ s.tasks.any Task.canReturn = false) :
    exec (.taskReady key) s = .next (if s.spillIntact h then
      s.modTask h.part h.id (fun t => { t with phase := .ready, inPool := true, poolSince := s.cycle, spill := none })
      else s.fail h kRefused 1 0) := by
  have hmay : (h.canReturn || (s.canEnter h && !s.tasks.any Task.canReturn)) = true := by
    rcases he with e | ⟨e1, e2⟩
    · rw [e, Bool.true_or]
    · rw [e1, e2, Bool.not_false, Bool.and_true, Bool.or_true]
  show execTaskReady key s = _
  simp only [execTaskReady, hk, hp, hmay, Bool.or_false, decide_eq_true_eq, if_neg (Nat.not_le.mpr hc), if_true]
  split <;> rfl

theorem taskReady_stays (hk : s.taskKey? key = some h) (hr : h.canReturn = false) (he : s.canEnter h = false) :
    exec (.taskReady key) s = .next s := by
  show execTaskReady key s = _
  simp only [execTaskReady, hk, hr, he, Bool.false_and, Bool.or_false, Bool.false_eq_true, if_false, ite_self]

/-! A stream ages (R284). -/

/-- Whether the head of a stream has stood longer than AGE, and what priority it then has (R284). -/
theorem streamAged_boosts {q : Nat} (hh : s.headOf q = some h) : ∃ t, exec (.streamAged q) s = .next t ∧
    if (s.stream q).age ≠ 0 ∧ Nat.max h.poolSince (s.stream q).lastDispatch + (s.stream q).age * 3200 < s.cycle then
      exec .eprioUpdate s = .next t ∧ s.basePrio h = Nat.max h.recd.prio (Nat.min (h.recd.prio + 1) 15)
    else t = s ∧ s.basePrio h = h.recd.prio := by
  obtain ⟨-, hq, -⟩ := State.headOf_some hh
  have haged : s.isAged q = true ↔
      (s.stream q).age ≠ 0 ∧ Nat.max h.poolSince (s.stream q).lastDispatch + (s.stream q).age * 3200 < s.cycle := by
    simp only [State.isAged, hh, Option.any_some, Bool.and_eq_true, bne_iff_ne, decide_eq_true_eq]
    rfl
  have hbase : s.basePrio h = if s.isAged q then max h.recd.prio (min (h.recd.prio + 1) 15) else h.recd.prio := by
    simp only [State.basePrio, hq, hh, Option.any_some, beq_self_eq_true, Bool.and_self, Bool.true_and]
  show ∃ t, execStreamAged q s = .next t ∧ _
  unfold execStreamAged
  by_cases ha : s.isAged q = true
  · rw [if_pos ha]
    refine ⟨_, rfl, ?_⟩
    rw [if_pos (haged.mp ha), hbase, if_pos ha]
    exact ⟨rfl, rfl⟩
  · rw [if_neg ha]
    refine ⟨s, rfl, ?_⟩
    rw [if_neg (fun e => ha (haged.mpr e)), hbase, if_neg ha]
    exact ⟨rfl, rfl⟩

end

end Sys2Proof.Machine
end

section
/-! PROOFS. Victims of a request for pre-emption, their order, and addresses at a restore (R228, R288, R302, R305). -/

namespace Sys2Proof.Machine

/-! The order of victims (R288). -/

theorem mem_insertVictim {x v : Task} {l : List Task} : x ∈ insertVictim v l ↔ x = v ∨ x ∈ l := by
  induction l with
  | nil => simp [insertVictim]
  | cons u r ih =>
    unfold insertVictim
    split
    · exact List.mem_cons
    · rw [List.mem_cons, ih, List.mem_cons]
      tauto

theorem mem_foldl_insertVictim {x : Task} {l b : List Task} : x ∈ l.foldl (fun b v => insertVictim v b) b ↔ x ∈ l ∨ x ∈ b := by
  induction l generalizing b with
  | nil => simp
  | cons v l ih =>
    rw [List.foldl_cons, ih, mem_insertVictim, List.mem_cons]
    tauto

/-- Ascending effective priority, the latest dispatched first. -/
def BeforeVictim (u v : Task) : Prop := u.eprio < v.eprio ∨ u.eprio = v.eprio ∧ v.startedAt ≤ u.startedAt

theorem pairwise_insertVictim {v : Task} {l : List Task} (h : l.Pairwise BeforeVictim) : (insertVictim v l).Pairwise BeforeVictim := by
  induction l with
  | nil => simp [insertVictim]
  | cons u r ih =>
    obtain ⟨hu, hr⟩ := List.pairwise_cons.mp h
    unfold insertVictim
    split
    · next hb =>
      refine List.pairwise_cons.mpr ⟨fun x hx => ?_, h⟩
      have hvu : BeforeVictim v u := hb.imp_right fun e => ⟨e.1, e.2.le⟩
      rcases List.mem_cons.mp hx with rfl | hx
      · exact hvu
      · have hux := hu x hx
        unfold BeforeVictim at hvu hux ⊢
        omega
    · next hb =>
      refine List.pairwise_cons.mpr ⟨fun x hx => ?_, ih hr⟩
      rcases mem_insertVictim.mp hx with rfl | hx
      · unfold BeforeVictim
        omega
      · exact hu x hx

/-- The gangs that may be victims of a task (R288; log entry 39). -/
theorem State.mem_candidates {s : State} {h v : Task} :
    v ∈ s.candidates h ↔ v ∈ s.tasks ∧ v.phase = .running ∧ v.eprio < h.eprio ∧ v.preemptFor = none := by
  rw [State.candidates, mem_foldl_insertVictim, List.mem_filter]
  simp [and_assoc]

theorem State.pairwise_candidates (s : State) (h : Task) : (s.candidates h).Pairwise BeforeVictim :=
  List.foldlRecOn (motive := fun l : List Task => l.Pairwise BeforeVictim) _ _ List.Pairwise.nil fun _ hl _ _ => pairwise_insertVictim hl

/-! The choice of victims (R288). -/

/-- Where each candidate finds save space, victims are the fewest, in order, that give the task a placement. -/
theorem State.chooseVictims_eq (s : State) (h : Task) (r chosen : List Task)
    (hroom : ∀ i v, r[i]? = some v → ((s.reserveSaves (chosen ++ r.take i)).saveRoom v).isSome = true) :
    s.chooseVictims h r chosen =
      ((List.range r.length).find? (fun n => (s.place h ((chosen ++ r.take (n + 1)).flatMap (·.cores))).isSome)).map
        (fun n => chosen ++ r.take (n + 1)) := by
  induction r generalizing chosen with
  | nil => rfl
  | cons v r ih =>
    have hv := hroom 0 v rfl
    rw [List.take_zero, List.append_nil] at hv
    have hnext := ih (chosen ++ [v]) fun i u hu => by
      rw [List.append_assoc]
      exact hroom (i + 1) u hu
    rw [State.chooseVictims, if_neg (by rw [Option.isNone_eq_false_iff.mpr hv]; exact Bool.false_ne_true), hnext, List.length_cons,
      List.range_succ_eq_map, List.find?_cons]
    simp only [Nat.zero_add, List.take_succ_cons, List.take_zero]
    split
    · next hp => simp only [hp, Option.map_some, List.take_zero]
    · next hp =>
      simp only [Bool.eq_false_iff.mpr hp, List.find?_map, Option.map_map, List.append_assoc, List.cons_append, List.nil_append,
        Function.comp_def]

/-- The victims of a request are candidates, in their order. -/
theorem State.chooseVictims_sublist {s : State} {h : Task} {r chosen vs : List Task} (hc : s.chooseVictims h r chosen = some vs) :
    ∃ l, vs = chosen ++ l ∧ l.Sublist r := by
  induction r generalizing chosen with
  | nil => cases hc
  | cons v r ih =>
    rw [State.chooseVictims] at hc
    split at hc
    · obtain ⟨l, hl, hs⟩ := ih hc
      exact ⟨l, hl, hs.cons v⟩
    · split at hc
      · cases hc
        exact ⟨[v], rfl, List.singleton_sublist.mpr List.mem_cons_self⟩
      · obtain ⟨l, hl, hs⟩ := ih hc
        exact ⟨v :: l, by rw [hl, List.append_assoc]; rfl, hs.cons_cons v⟩

end Sys2Proof.Machine
end

section
/-! PROOFS. Remote addresses at a restore (R228, R305). -/

namespace Sys2Proof.Machine

theorem regionOf_remote {a f : Nat} (h : regionOf a = .remote f) : a = 0x00FFF00000000000 + f ∧ f < 0x80000000000 := by
  unfold regionOf at h
  split at h
  · cases h
  · split at h
    · cases h
    · split at h
      · have := EaRegion.remote.inj h
        omega
      · cases h

/-- The fields of a remote window address (R228). -/
theorem remoteFields {f z y x off : Nat} (hz : z = 1 ∨ z = 2) (hy : y < 8) (hx : x < 16) (hoff : off < 2 ^ 24)
    (hf : f = z * 2 ^ 32 + y * 2 ^ 28 + x * 2 ^ 24 + off) :
    f / 2 ^ 34 = 0 ∧ f / 2 ^ 32 % 4 = z ∧ f / 2 ^ 31 % 2 = 0 ∧ f / 2 ^ 28 % 8 = y ∧ f / 2 ^ 24 % 16 = x ∧ f % 2 ^ 24 = off := by
  omega

theorem List.idxOf?_eq_ite (l : List Nat) (c : Nat) : l.idxOf? c = if c ∈ l then some (l.idxOf c) else none := by
  by_cases h : c ∈ l
  · obtain ⟨r, hr⟩ := Option.isSome_iff_exists.mp (List.isSome_idxOf?.mpr h)
    rw [if_pos h, List.idxOf_eq_getD_idxOf?, hr]
    rfl
  · rw [if_neg h, List.idxOf?_eq_none_iff]
    exact h

/-- An address of a core that held a member names the core that its rank has now; any other stays (R305). -/
theorem rewriteAddr_toNat {spad : Nat} {old new : List Nat} {v : Dword} {f z y x off : Nat} (hr : regionOf v.toNat = .remote f)
    (hz : z = 1 ∨ z = 2) (hy : y < 8) (hx : x < 16) (hoff : off < 2 ^ 24) (hf : f = z * 2 ^ 32 + y * 2 ^ 28 + x * 2 ^ 24 + off)
    (hnew : ∀ c ∈ new, c < 256) :
    let c := (z - 1) * 128 + y * 16 + x
    (rewriteAddr spad old new v).toNat = if off < spad * 2 ^ 14 ∧ c ∈ old then
      let d := new.getD (old.idxOf c) c
      v.toNat - f + (d / 128 + 1) * 2 ^ 32 + d % 128 / 16 * 2 ^ 28 + d % 16 * 2 ^ 24 + off
    else v.toNat := by
  intro c
  obtain ⟨hv, -⟩ := regionOf_remote hr
  obtain ⟨h34, h32, h31, h28, h24, hlow⟩ := remoteFields hz hy hx hoff hf
  have hcore : (z - 1) * 128 + y * 16 + x = c := rfl
  simp only [rewriteAddr, hr, h34, h32, h31, h28, h24, hlow, hz, hcore, true_and]
  by_cases hlt : off < spad * 2 ^ 14
  · simp only [hlt, if_true, true_and]
    rw [List.idxOf?_eq_ite]
    by_cases hc : c ∈ old
    · rw [if_pos hc, if_pos hc]
      have hd : new.getD (old.idxOf c) c < 256 := by
        rw [List.getD_eq_getElem?_getD]
        cases hg : new[old.idxOf c]? with
        | none =>
          simp only [Option.getD_none]
          omega
        | some d => exact hnew d (List.mem_of_getElem? hg)
      dsimp only
      rw [BitVec.toNat_ofNat, Nat.mod_eq_of_lt]
      omega
    · rw [if_neg hc, if_neg hc]
  · simp only [hlt, if_false, false_and]

/-- An address that lies in no remote window stays (R305). -/
theorem rewriteAddr_of_not_remote {v : Dword} (h : ∀ f, regionOf v.toNat ≠ .remote f) (spad : Nat) (old new : List Nat) :
    rewriteAddr spad old new v = v := by
  unfold rewriteAddr
  split
  · next f hf => exact absurd hf (h f)
  · rfl

end Sys2Proof.Machine
end

section
/-! PROOFS. What the device reads and writes does not look at the fountainhead's books: its tasks, streams and reservations (R276, R286 to R289). -/

namespace Sys2Proof.Machine

/-- A state with the books of another: its tasks, its streams with their credit, the cores that it has reserved and its count of dispatches. -/
def State.withBooks (s p : State) : State :=
  { s with tasks := p.tasks, streams := p.streams, ptr := p.ptr, cred := p.cred, reserved := p.reserved, fresh := p.fresh }

section
variable (s p : State)

@[simp] theorem State.withBooks_core (c : Nat) : (s.withBooks p).core c = s.core c := rfl
@[simp] theorem State.withBooks_byteAt (k : Nat) : (s.withBooks p).byteAt k = s.byteAt k := rfl
@[simp] theorem State.withBooks_forward (k : Nat) : (s.withBooks p).forward k = s.forward k := rfl
@[simp] theorem State.withBooks_badAt (k n : Nat) : (s.withBooks p).badAt k n = s.badAt k n := rfl
@[simp] theorem State.withBooks_pte (t i : Nat) : (s.withBooks p).pte t i = s.pte t i := rfl
@[simp] theorem State.withBooks_readPa (a n : Nat) : (s.withBooks p).readPa a n = s.readPa a n := rfl
@[simp] theorem State.withBooks_part (i : Nat) : (s.withBooks p).part i = s.part i := rfl
@[simp] theorem State.withBooks_pageOk (i a u : Nat) : (s.withBooks p).pageOk i a u = s.pageOk i a u := rfl
@[simp] theorem State.withBooks_useLeaf (i va : Nat) (w : Bool) (e : TlbEntry) : (s.withBooks p).useLeaf i va w e = s.useLeaf i va w e := rfl

@[simp] theorem State.withBooks_walkPages (i va : Nat) : (s.withBooks p).walkPages i va = s.walkPages i va := by
  unfold State.walkPages
  rw [show (s.withBooks p).pte = s.pte from rfl, show (s.withBooks p).part = s.part from rfl, show (s.withBooks p).pageOk = s.pageOk from rfl]

@[simp] theorem State.withBooks_partAddr (i va : Nat) (w : Bool) : (s.withBooks p).partAddr i va w = s.partAddr i va w := by
  simp only [State.partAddr, State.withBooks_useLeaf, State.withBooks_walkPages]

@[simp] theorem State.withBooks_partRead (i va n : Nat) : (s.withBooks p).partRead i va n = s.partRead i va n := by
  unfold State.partRead
  rw [show (s.withBooks p).partAddr = s.partAddr from funext₃ (s.withBooks_partAddr p), show (s.withBooks p).badAt = s.badAt from rfl,
    show (s.withBooks p).byteAt = s.byteAt from rfl]

@[simp] theorem State.withBooks_partWritable (i va n : Nat) : (s.withBooks p).partWritable i va n = s.partWritable i va n := by
  simp only [State.partWritable, State.withBooks_partAddr]

@[simp] theorem State.withBooks_ringNat (i : Option Nat) (a n : Nat) : (s.withBooks p).ringNat i a n = s.ringNat i a n := by
  cases i with
  | none => rfl
  | some i => simp only [State.ringNat, State.partNat, State.withBooks_partRead]

/-- A change that goes through the books commutes with their exchange, step by step. -/
theorem State.foldl_withBooks {α : Type} (l : List α) (f : State → α → State) (h : ∀ s a, f (s.withBooks p) a = (f s a).withBooks p) (s : State) :
    l.foldl f (s.withBooks p) = (l.foldl f s).withBooks p := by
  induction l generalizing s with
  | nil => rfl
  | cons a l ih => rw [List.foldl_cons, h, ih, List.foldl_cons]

/-! Filling lines of views. -/

theorem State.fillLine_withBooks (l : Nat) : (s.withBooks p).fillLine l = (s.fillLine l).withBooks p := by
  have hw : (s.withBooks p).windowOf (l * 128) = s.windowOf (l * 128) := rfl
  have hv : (s.withBooks p).viewLines = s.viewLines := rfl
  unfold State.fillLine
  rw [hw, hv]
  split
  · rfl
  · split <;> rfl

theorem State.touch_withBooks (k n : Nat) : (s.withBooks p).touch k n = (s.touch k n).withBooks p := by
  unfold State.touch
  split
  · rfl
  · exact State.foldl_withBooks p _ (fun s i => s.fillLine (k / 128 + i)) (fun s i => s.fillLine_withBooks p _) s

theorem State.partTouch_withBooks (i va n : Nat) : (s.withBooks p).partTouch i va n = (s.partTouch i va n).withBooks p := by
  refine State.foldl_withBooks p _ _ (fun s j => ?_) s
  rw [State.withBooks_partAddr]
  split
  · exact s.touch_withBooks p _ _
  · rfl

theorem State.partFetch_withBooks (i va n : Nat) :
    (s.withBooks p).partFetch i va n = ((s.partFetch i va n).1.withBooks p, (s.partFetch i va n).2) := by
  simp only [State.partFetch, State.partTouch_withBooks, State.withBooks_partRead]

/-- What a first dispatch reads does not depend on the books (R277, R289). -/
theorem State.loadTask_withBooks (t : Task) : (s.withBooks p).loadTask t = ((s.loadTask t).1.withBooks p, (s.loadTask t).2) := by
  simp only [State.loadTask, State.partFetch_withBooks]

/-! Records. -/

theorem State.modCore_withBooks (c : Nat) (f : CoreSt → CoreSt) : (s.withBooks p).modCore c f = (s.modCore c f).withBooks p := rfl

theorem State.flush_withBooks (k n : Nat) : (s.withBooks p).flush k n = (s.flush k n).withBooks p := by
  refine State.foldl_withBooks p _ _ (fun s c => ?_) s
  dsimp only
  rw [State.withBooks_core]
  split <;> rfl

theorem State.write_withBooks (k : Nat) (bs : List Byte) : (s.withBooks p).write k bs = (s.write k bs).withBooks p := by
  simp only [State.write, State.flush_withBooks]
  rfl

theorem State.writePa_withBooks (a : Nat) (bs : List Byte) : (s.withBooks p).writePa a bs = (s.writePa a bs).withBooks p :=
  State.foldl_withBooks p _ _ (fun s i => by rw [State.withBooks_forward, State.write_withBooks]) s

theorem State.partWrite_withBooks (i va : Nat) (bs : List Byte) : (s.withBooks p).partWrite i va bs = (s.partWrite i va bs).withBooks p := by
  unfold State.partWrite
  rw [State.withBooks_partWritable]
  split
  · rfl
  · refine State.foldl_withBooks p _ _ (fun s j => ?_) s
    rw [State.withBooks_partAddr]
    split
    · exact s.write_withBooks p _ _
    · rfl

theorem State.ringWrite_withBooks (i : Option Nat) (a : Nat) (bs : List Byte) :
    (s.withBooks p).ringWrite i a bs = (s.ringWrite i a bs).withBooks p := by
  cases i with
  | none => exact s.writePa_withBooks p a bs
  | some i => exact s.partWrite_withBooks p i a bs

theorem State.ringPut_withBooks (i : Option Nat) (r : Ring) (rec : List Byte) :
    (s.withBooks p).ringPut i r rec = ((s.ringPut i r rec).1, (s.ringPut i r rec).2.withBooks p) := by
  simp only [State.ringPut, State.withBooks_ringNat, State.ringWrite_withBooks]
  split
  · rfl
  · split <;> rfl

theorem State.sourceNext_withBooks (k : Nat) (ok : Bool) : (s.withBooks p).sourceNext k ok = (s.sourceNext k ok).withBooks p := by
  have hs : (s.withBooks p).sources = s.sources := rfl
  unfold State.sourceNext
  rw [hs]
  dsimp only
  split
  · split <;> rfl
  · rfl

/-- An event record does not depend on the books, and leaves them (R345, R346). -/
theorem State.postEvent_withBooks (i : Option Nat) (k src d0 d1 : Nat) :
    (s.withBooks p).postEvent i k src d0 d1 = (s.postEvent i k src d0 d1).withBooks p := by
  have hd : (s.withBooks p).devEvents = s.devEvents := rfl
  have hs : (s.withBooks p).sources = s.sources := rfl
  have hq : ∀ x, (s.withBooks p).sourceSeq x = s.sourceSeq x := fun _ => rfl
  have hc : (s.withBooks p).cycle = s.cycle := rfl
  simp only [State.postEvent, hd, hs, hq, hc, State.withBooks_part, State.ringPut_withBooks, State.sourceNext_withBooks]
  split <;> rfl

end

/-- A state whose books are those of another that differs in nothing else is the other. -/
theorem State.withBooks_self (s : State) : s.withBooks s = s := rfl

end Sys2Proof.Machine
end

section
/-! PROOFS. The visits of a decision: levels without a head, rounds of credit, streams that are passed by (R286). -/

namespace Sys2Proof.Machine

/-- What a decision leaves as it was until it dispatches: only streams' credit and the levels' pointers change (R286). -/
structure State.Weighs (s u : State) : Prop where
  device : u = s.withBooks u
  tasks : u.tasks = s.tasks
  reserved : u.reserved = s.reserved

namespace State.Weighs
variable {s u : State}

theorem refl (s : State) : s.Weighs s := ⟨rfl, rfl, rfl⟩

theorem headOf (h : s.Weighs u) (q : Nat) : u.headOf q = s.headOf q := State.headOf_congr h.tasks q

theorem core (h : s.Weighs u) (c : Nat) : u.core c = s.core c := by
  rw [h.device]
  rfl

theorem part (h : s.Weighs u) (i : Nat) : u.part i = s.part i := by
  rw [h.device]
  rfl

theorem cycle (h : s.Weighs u) : u.cycle = s.cycle := by
  rw [h.device]
  rfl

theorem coreFits (h : s.Weighs u) (t : Task) : u.coreFits t = s.coreFits t := by
  funext c
  simp only [State.coreFits, h.core, h.part]

theorem coreFree (h : s.Weighs u) (t : Task) (l : List Nat) : u.coreFree t l = s.coreFree t l := by
  funext c
  simp only [State.coreFree, h.core, h.reserved]

/-- Credit does not change where a gang may go. -/
theorem place (h : s.Weighs u) (t : Task) (l : List Nat) : u.place t l = s.place t l := by
  simp only [State.place, h.coreFits, h.coreFree, h.core]

end State.Weighs

/-! One visit. -/

/-- The pointer of a level goes on to a stream (R286). -/
def State.movedTo (s : State) (lv x : Nat) : State := { s with ptr := tset s.ptr lv x, cred := tset s.cred lv false }

/-- A stream's credit after a round (R286). -/
def Stream.credited (q : Stream) : Stream := { q with deficit := min (q.deficit + 16 * q.weight) 4096 }

/-- A stream that is visited for the first time has a round of credit (R286). -/
def State.givenRound (s : State) (lv p : Nat) : State :=
  if tget false s.cred lv then s else ({ s with cred := tset s.cred lv true } : State).modStream p Stream.credited

/-- A head that has been dispatched uses up credit (R286). -/
def Stream.charged (n : Nat) (q : Stream) : Stream := { q with deficit := q.deficit - n }

section
variable {s u : State} {lv p : Nat} {c failed : List Nat} {h : Task} {cores : List Nat}

theorem State.Weighs.movedTo (hu : s.Weighs u) (lv x : Nat) : s.Weighs (u.movedTo lv x) :=
  ⟨congrArg (State.movedTo · lv x) hu.device, hu.tasks, hu.reserved⟩

theorem State.Weighs.givenRound (hu : s.Weighs u) (lv p : Nat) : s.Weighs (u.givenRound lv p) := by
  unfold State.givenRound
  split
  · exact hu
  · exact ⟨congrArg (fun u : State => ({ u with cred := tset u.cred lv true } : State).modStream p Stream.credited) hu.device, hu.tasks, hu.reserved⟩

@[simp] theorem State.movedTo_stream (s : State) (lv x i : Nat) : (s.movedTo lv x).stream i = s.stream i := rfl
@[simp] theorem State.movedTo_ptr (s : State) (lv x : Nat) : tget 0 (s.movedTo lv x).ptr lv = x := tget_tset_self _ _ _ _
@[simp] theorem State.movedTo_cred (s : State) (lv x : Nat) : tget false (s.movedTo lv x).cred lv = false := tget_tset_self _ _ _ _
@[simp] theorem State.givenRound_ptr (s : State) (lv p : Nat) : (s.givenRound lv p).ptr = s.ptr := by
  unfold State.givenRound
  split <;> rfl

/-- The first visit of a stream grants it a round of credit. -/
theorem State.givenRound_eq (hc : tget false s.cred lv = false) (p : Nat) :
    s.givenRound lv p = ({ s with cred := tset s.cred lv true } : State).modStream p Stream.credited := by
  rw [State.givenRound, hc]
  rfl

theorem State.givenRound_cred (s : State) (lv p : Nat) : tget false (s.givenRound lv p).cred lv = true := by
  unfold State.givenRound
  split
  · assumption
  · exact tget_tset_self _ _ _ _

theorem State.givenRound_stream (hc : tget false s.cred lv = false) (p : Nat) : (s.givenRound lv p).stream p = (s.stream p).credited := by
  rw [State.givenRound_eq hc]
  exact State.stream_modStream_self _ _ _

theorem State.givenRound_stream_ne (s : State) (lv : Nat) {p q : Nat} (h : q ≠ p) : (s.givenRound lv p).stream q = s.stream q := by
  unfold State.givenRound
  split
  · rfl
  · exact tget_tset_ne _ _ _ _ _ h

/-- What a visit of stream `p` comes to, by the stream's head, when its round of credit has been given (R286). -/
def State.visitHead (u : State) (lv p : Nat) (c : List Nat) (n : Nat) (failed : List Nat) : Option Task → Visits
  | none => ⟨u, failed, false⟩
  | some h =>
    if h.recd.size ≤ (u.stream p).deficit then
      match u.place h [] with
      | some cores => ⟨(u.dispatch h cores).modStream p (Stream.charged h.recd.size), failed, true⟩
      | none =>
        let failed := if failed.contains p then failed else failed ++ [p]
        if failed.length = c.length then ⟨u.movedTo lv (nextStream c p), failed, false⟩
        else visitLevel lv c n (u.movedTo lv (nextStream c p)) failed
    else visitLevel lv c n (u.movedTo lv (nextStream c p)) failed

theorem visitLevel_visits (n : Nat) (hp : p ∈ c) (hptr : tget 0 s.ptr lv = p) :
    visitLevel lv c (n + 1) s failed = (s.givenRound lv p).visitHead lv p c n failed ((s.givenRound lv p).headOf p) := by
  have hc : (!c.contains p) = false := by rw [List.contains_iff_mem.mpr hp, Bool.not_true]
  subst hptr
  rw [visitLevel]
  simp only [hc, Bool.false_eq_true, if_false]
  rfl

/-- A visit whose head has credit and a placement dispatches it. -/
theorem visitLevel_dispatches (n : Nat) (hp : p ∈ c) (hptr : tget 0 s.ptr lv = p) (hh : (s.givenRound lv p).headOf p = some h)
    (hsize : h.recd.size ≤ ((s.givenRound lv p).stream p).deficit) (hplace : (s.givenRound lv p).place h [] = some cores) :
    visitLevel lv c (n + 1) s failed =
      ⟨((s.givenRound lv p).dispatch h cores).modStream p (Stream.charged h.recd.size), failed, true⟩ := by
  rw [visitLevel_visits n hp hptr, hh, State.visitHead, if_pos hsize, hplace]

/-- A visit whose head has too little credit moves on. -/
theorem visitLevel_saves (n : Nat) (hp : p ∈ c) (hptr : tget 0 s.ptr lv = p) (hh : (s.givenRound lv p).headOf p = some h)
    (hsize : ((s.givenRound lv p).stream p).deficit < h.recd.size) :
    visitLevel lv c (n + 1) s failed = visitLevel lv c n ((s.givenRound lv p).movedTo lv (nextStream c p)) failed := by
  rw [visitLevel_visits n hp hptr, hh, State.visitHead, if_neg (Nat.not_le.mpr hsize)]

/-- A visit whose head has credit and no placement notes it and moves on, or ends the visits where every stream has failed. -/
theorem visitLevel_fails (n : Nat) (hp : p ∈ c) (hptr : tget 0 s.ptr lv = p) (hh : (s.givenRound lv p).headOf p = some h)
    (hsize : h.recd.size ≤ ((s.givenRound lv p).stream p).deficit) (hplace : (s.givenRound lv p).place h [] = none) :
    visitLevel lv c (n + 1) s [] =
      if 1 = c.length then ⟨(s.givenRound lv p).movedTo lv (nextStream c p), [p], false⟩
      else visitLevel lv c n ((s.givenRound lv p).movedTo lv (nextStream c p)) [p] := by
  rw [visitLevel_visits n hp hptr, hh, State.visitHead, if_pos hsize, hplace]
  rfl

end

/-! Levels. -/

/-- Levels where no stream has a head are passed by. -/
theorem decideLevels_append_of_empty (l r : List Nat) (s : State) (h : ∀ lv ∈ l, s.levelStreams lv = []) :
    decideLevels (l ++ r) s = decideLevels r s := by
  induction l with
  | nil => rfl
  | cons lv l ih =>
    rw [List.cons_append, decideLevels, h lv List.mem_cons_self]
    exact ih fun x hx => h x (List.mem_cons_of_mem _ hx)

/-- The levels in the order of the decision: those above one, then it, then those below. -/
theorem levels_split {lv : Nat} (h : lv ≤ 15) : ∃ a b, (List.range 16).reverse = a ++ lv :: b ∧ (∀ n ∈ a, lv < n ∧ n ≤ 15) ∧ ∀ n ∈ b, n < lv := by
  have hm : lv ∈ (List.range 16).reverse := by
    rw [List.mem_reverse, List.mem_range]
    omega
  obtain ⟨a, b, he⟩ := List.append_of_mem hm
  have hpair : (a ++ lv :: b).Pairwise (fun x y => y < x) := by
    rw [← he, List.pairwise_reverse]
    exact List.pairwise_lt_range
  obtain ⟨-, hb, hab⟩ := List.pairwise_append.mp hpair
  refine ⟨a, b, he, fun n hn => ⟨hab n hn lv List.mem_cons_self, ?_⟩, (List.pairwise_cons.mp hb).1⟩
  have : n ∈ (List.range 16).reverse := he ▸ List.mem_append_left _ hn
  rw [List.mem_reverse, List.mem_range] at this
  omega

/-- A decision in which no task's capacity changes weighs the levels as they stand. -/
theorem dispatchDecision_eq {s : State} (h : ∀ x ∈ s.tasks, s.judgeCapacity x = x) :
    exec .dispatchDecision s = .next (decideLevels (List.range 16).reverse s) := by
  show execDispatchDecision s = _
  have hm : s.tasks.map s.judgeCapacity = s.tasks := (List.map_congr_left h).trans (List.map_id s.tasks)
  rw [execDispatchDecision, hm]

/-- A decision with no head changes nothing (R286). -/
theorem dispatchDecision_of_no_head {s : State} (hj : ∀ x ∈ s.tasks, s.judgeCapacity x = x) (h : ∀ i, s.headOf i = none) :
    exec .dispatchDecision s = .next s := by
  rw [dispatchDecision_eq hj, ← List.append_nil (List.range 16).reverse, decideLevels_append_of_empty _ [] s]
  · rfl
  · intro lv _
    unfold State.levelStreams
    simp only [h, Option.any_none, List.filter_false]

/-- The decision comes to the highest level that has a head. -/
theorem dispatchDecision_at_level {s : State} {lv : Nat} (hj : ∀ x ∈ s.tasks, s.judgeCapacity x = x) (hlv : lv ≤ 15)
    (habove : ∀ n, lv < n → n ≤ 15 → s.levelStreams n = []) {c : List Nat} (hc : s.levelStreams lv = c) (hne : c ≠ []) {v : Visits}
    (hv : visitLevel lv c (17 * c.length + 2) s [] = v) :
    ∃ b, (∀ n ∈ b, n < lv) ∧ exec .dispatchDecision s = .next (if v.done then v.s
      else decideLevels b (match v.failed.head?.bind v.s.headOf with
        | some h => v.s.requestPreemption h
        | none => v.s)) := by
  obtain ⟨a, b, he, ha, hb⟩ := levels_split hlv
  refine ⟨b, hb, ?_⟩
  rw [dispatchDecision_eq hj, he, decideLevels_append_of_empty a _ s fun n hn => habove n (ha n hn).1 (ha n hn).2, decideLevels]
  have hempty : c.isEmpty = false := by simpa using hne
  simp only [hc, hempty, hv]
  rfl

end Sys2Proof.Machine
end

section
/-! PROOFS. Rounds of credit of a stream that is alone at its level (R286). -/

namespace Sys2Proof.Machine

/-- A stream after rounds of credit (R286). -/
def Stream.afterRounds (q : Stream) (m : Nat) : Stream := { q with deficit := Nat.min (q.deficit + m * (16 * q.weight)) 4096 }

theorem Stream.credited_eq (q : Stream) : q.credited = q.afterRounds 1 := by
  rw [Stream.afterRounds, Nat.one_mul]
  rfl

theorem Stream.credited_afterRounds (q : Stream) (m : Nat) : (q.afterRounds m).credited = q.afterRounds (m + 1) := by
  have h : min (min (q.deficit + m * (16 * q.weight)) 4096 + 16 * q.weight) 4096 = min (q.deficit + (m + 1) * (16 * q.weight)) 4096 := by
    rw [Nat.succ_mul m]
    generalize 16 * q.weight = w
    omega
  exact congrArg (fun d => { q with deficit := d }) h

/-- Some round, of at most 16, is the first that gives a head enough credit. -/
theorem Stream.exists_first_round (q : Stream) {n : Nat} (hw : 0 < q.weight) (hn : n ≤ 256) :
    ∃ k, k < 16 ∧ n ≤ (q.afterRounds (k + 1)).deficit ∧ ∀ m, 0 < m → m < k + 1 → (q.afterRounds m).deficit < n := by
  have h16 : n ≤ (q.afterRounds 16).deficit := by
    show n ≤ min (q.deficit + 16 * (16 * q.weight)) 4096
    omega
  have hex : ∃ k, n ≤ (q.afterRounds (k + 1)).deficit := ⟨15, h16⟩
  refine ⟨Nat.find hex, Nat.lt_succ_of_le (Nat.find_min' hex h16), Nat.find_spec hex, fun m hm hlt => ?_⟩
  obtain ⟨j, rfl⟩ := Nat.exists_eq_succ_of_ne_zero hm.ne'
  exact not_le.mp (Nat.find_min hex (Nat.succ_lt_succ_iff.mp hlt))

theorem nextStream_singleton (q : Nat) : nextStream [q] q = q := by simp [nextStream]

/-- A stream that is alone has rounds of credit until its head fits, and then its head is dispatched (R286). -/
theorem visitLevel_rounds {s : State} {lv q : Nat} {h : Task} {cores : List Nat} (hh : s.headOf q = some h) (hplace : s.place h [] = some cores)
    (k n m : Nat) (u : State) (hu : s.Weighs u) (hptr : tget 0 u.ptr lv = q) (hcred : tget false u.cred lv = false)
    (hq : (u.stream q).credited = (s.stream q).afterRounds (m + 1)) (hfit : h.recd.size ≤ ((s.stream q).afterRounds (m + 1 + k)).deficit)
    (hleast : ∀ j, m < j → j < m + 1 + k → ((s.stream q).afterRounds j).deficit < h.recd.size) (hk : k < n) :
    ∃ v, s.Weighs v ∧ tget 0 v.ptr lv = q ∧ tget false v.cred lv = true ∧ v.stream q = (s.stream q).afterRounds (m + 1 + k) ∧
      visitLevel lv [q] n u [] = ⟨(v.dispatch h cores).modStream q (Stream.charged h.recd.size), [], true⟩ := by
  have hmem : q ∈ [q] := List.mem_singleton.mpr rfl
  induction k generalizing n m u with
  | zero =>
    obtain ⟨n, rfl⟩ := Nat.exists_eq_succ_of_ne_zero hk.ne'
    have hv := hu.givenRound lv q
    have hstream : (u.givenRound lv q).stream q = (s.stream q).afterRounds (m + 1) := (State.givenRound_stream hcred q).trans hq
    refine ⟨u.givenRound lv q, hv, by rw [State.givenRound_ptr, hptr], State.givenRound_cred _ _ _, hstream, ?_⟩
    exact visitLevel_dispatches n hmem hptr ((hv.headOf q).trans hh) (by rw [hstream]; exact hfit) ((hv.place h []).trans hplace)
  | succ k ih =>
    obtain ⟨n, rfl⟩ := Nat.exists_eq_succ_of_ne_zero (Nat.ne_zero_of_lt hk)
    have hv := hu.givenRound lv q
    have hstream : (u.givenRound lv q).stream q = (s.stream q).afterRounds (m + 1) := (State.givenRound_stream hcred q).trans hq
    have hless : ((u.givenRound lv q).stream q).deficit < h.recd.size := by
      rw [hstream]
      exact hleast (m + 1) (Nat.lt_succ_self m) (by omega)
    have hsum : m + 1 + 1 + k = m + 1 + (k + 1) := by omega
    rw [visitLevel_saves n hmem hptr ((hv.headOf q).trans hh) hless, nextStream_singleton, ← hsum]
    refine ih n (m + 1) _ (hv.movedTo lv q) (State.movedTo_ptr _ _ _) (State.movedTo_cred _ _ _) ?_ (hsum ▸ hfit)
      (fun j hj hlt => hleast j (by omega) (by omega)) (by omega)
    rw [State.movedTo_stream, hstream, Stream.credited_afterRounds]

end Sys2Proof.Machine
end

section
/-! PROOFS. What a dispatch does to the fountainhead's books (R286, R289, R291). -/

namespace Sys2Proof.Machine

/-- Two states with the same tasks, streams, pointers and credit. -/
def State.SameBooks (s t : State) : Prop := t.tasks = s.tasks ∧ t.streams = s.streams ∧ t.ptr = s.ptr ∧ t.cred = s.cred

theorem State.SameBooks.refl (s : State) : s.SameBooks s := ⟨rfl, rfl, rfl, rfl⟩

theorem State.SameBooks.trans {s t u : State} (h : s.SameBooks t) (h' : t.SameBooks u) : s.SameBooks u := by
  obtain ⟨h1, h2, h3, h4⟩ := h
  obtain ⟨g1, g2, g3, g4⟩ := h'
  exact ⟨g1.trans h1, g2.trans h2, g3.trans h3, g4.trans h4⟩

/-- What is kept by each step of a change over a list is kept by the whole. -/
theorem State.SameBooks.foldl {α : Type} (l : List α) (f : State → α → State) (hf : ∀ (u : State), ∀ a ∈ l, u.SameBooks (f u a)) (s : State) :
    s.SameBooks (l.foldl f s) :=
  List.foldlRecOn (motive := fun u : State => s.SameBooks u) l f (.refl s) fun u hu a ha => hu.trans (hf u a ha)

theorem State.sameBooks_loadTask (s : State) (t : Task) : s.SameBooks (s.loadTask t).1 := by
  have h := congrArg Prod.fst (s.loadTask_withBooks s t)
  rw [State.withBooks_self] at h
  rw [h]
  exact ⟨rfl, rfl, rfl, rfl⟩

theorem State.sameBooks_clearWeir (s : State) (cores : List Nat) : s.SameBooks (s.clearWeir cores) := by
  refine State.SameBooks.foldl _ _ (fun u c _ => ?_) s
  dsimp only
  split <;> exact ⟨rfl, rfl, rfl, rfl⟩

/-- The member of one rank comes to its core (R289). -/
def State.startMember (t : Task) (l : Loaded) (cores : List Nat) (s : State) (r : Nat) : State :=
  (s.clearSpad (cores.getD r 0)).setCore (cores.getD r 0)
    (s.startClocks t.part (cores.getD r 0) (startCore t l (relocated l cores) r (s.core (cores.getD r 0))))

theorem State.dispatchNew_eq (s : State) (t : Task) (l : Loaded) (cores : List Nat) :
    s.dispatchNew t l cores = ((List.range cores.length).foldl (State.startMember t l cores) s).clearWeir cores := rfl

/-- The weir rows of a restored pair come back with a member that held them (R225, R291). -/
def State.withWeir (s : State) (c : Nat) : Option (Vector Row 4 × Vector Bool 4) → State
  | some (tw, fl) => s.setPair (pairOf c) { s.pair (pairOf c) with tw := tw, twFull := fl }
  | none => s

/-- The member of an image comes to its core (R291). -/
def State.resumeMember (t : Task) (l : Loaded) (ims : List Image) (cores : List Nat) (s : State) (p : Image × Nat) : State :=
  let s := s.putSpad p.2 p.1.spadBytes p.1.spadMarks
  (s.setCore p.2 (s.startClocks t.part p.2 (restoreCore t (ims.map (·.core)) cores (relocated l cores) p.1 (s.core p.2)))).withWeir p.2 p.1.tw

theorem State.restoreGang_eq (s : State) (t : Task) (l : Loaded) (ims : List Image) (cores : List Nat) :
    s.restoreGang t l ims cores = (ims.zip cores).foldl (State.resumeMember t l ims cores) s := rfl

theorem State.sameBooks_dispatchNew (s : State) (t : Task) (l : Loaded) (cores : List Nat) : s.SameBooks (s.dispatchNew t l cores) :=
  (State.SameBooks.foldl _ (State.startMember t l cores) (fun _ _ _ => ⟨rfl, rfl, rfl, rfl⟩) s).trans (State.sameBooks_clearWeir _ _)

theorem State.sameBooks_restoreGang (s : State) (t : Task) (l : Loaded) (ims : List Image) (cores : List Nat) :
    s.SameBooks (s.restoreGang t l ims cores) := by
  rw [State.restoreGang_eq]
  refine State.SameBooks.foldl _ _ (fun u p _ => ?_) s
  unfold State.resumeMember State.withWeir
  dsimp only
  split <;> exact ⟨rfl, rfl, rfl, rfl⟩

/-- A task that leaves the pool. -/
def Task.outOfPool (t : Task) : Task := { t with inPool := false }

/-- A dispatch takes a task from the pool, with its reservations and the time of its stream's last dispatch (R286, R289). -/
def State.claimed (s : State) (t : Task) : State :=
  (({ s with reserved := s.reserved.filter (fun r => !(r.2.1 == t.part && r.2.2 == t.id)), fresh := s.fresh + 1 } : State).modStream
    t.stream (fun q => { q with lastDispatch := s.cycle })).modTask t.part t.id Task.outOfPool

/-- What a dispatch reads, unless it has been read already (R277). -/
def State.loadedFor (s : State) (t : Task) : State × Option Loaded :=
  match t.loaded with
  | some l => (s, some l)
  | none => s.loadTask t

/-- The cores of a placement with the members of a gang (R289, R291). -/
def State.populated (s : State) (t : Task) (l : Loaded) (cores : List Nat) : State :=
  match t.images with
  | some ims => s.restoreGang t l ims cores
  | none => s.dispatchNew t l cores

/-- The state in which a dispatched gang begins to run. -/
def State.manned (s : State) (t : Task) (l : Loaded) (cores : List Nat) : State := ((s.claimed t).loadedFor t).1.populated t l cores

theorem State.dispatch_eq {s : State} {t : Task} {l : Loaded} {cores : List Nat} (h : ((s.claimed t).loadedFor t).2 = some l) :
    s.dispatch t cores = (s.manned t l cores).modTask t.part t.id (·.started cores (s.manned t l cores).fresh l) := by
  have hd : s.dispatch t cores = match ((s.claimed t).loadedFor t).2 with
      | none => ((s.claimed t).loadedFor t).1.fail { t with inPool := false } kRefused 10 0
      | some l => (((s.claimed t).loadedFor t).1.populated t l cores).modTask t.part t.id
        (·.started cores (((s.claimed t).loadedFor t).1.populated t l cores).fresh l) := rfl
  rw [hd, h]
  rfl

theorem State.sameBooks_loadedFor (s : State) (t : Task) : s.SameBooks (s.loadedFor t).1 := by
  unfold State.loadedFor
  split
  · exact .refl s
  · exact s.sameBooks_loadTask t

theorem State.sameBooks_populated (s : State) (t : Task) (l : Loaded) (cores : List Nat) : s.SameBooks (s.populated t l cores) := by
  unfold State.populated
  split
  · exact s.sameBooks_restoreGang t l _ cores
  · exact s.sameBooks_dispatchNew t l cores

theorem State.sameBooks_manned (s : State) (t : Task) (l : Loaded) (cores : List Nat) : (s.claimed t).SameBooks (s.manned t l cores) :=
  (State.sameBooks_loadedFor _ t).trans (State.sameBooks_populated _ t l cores)

/-- What a dispatch reads is what the state before the decision gives. -/
theorem State.Weighs.loadedFor {s u : State} (hu : s.Weighs u) (t : Task) : ((u.claimed t).loadedFor t).2 = t.loaded.or (s.loadTask t).2 := by
  have hc : u.claimed t = s.withBooks (u.claimed t) := by
    rw [hu.device]
    rfl
  unfold State.loadedFor
  cases t.loaded with
  | some l => rfl
  | none =>
    rw [hc, State.loadTask_withBooks]
    rfl

theorem Task.started_keepsKey (cores : List Nat) (n : Nat) (l : Loaded) : KeepsKey (·.started cores n l) := fun _ => ⟨rfl, rfl⟩
theorem Task.outOfPool_keepsKey : KeepsKey Task.outOfPool := fun _ => ⟨rfl, rfl⟩

section
variable {s : State} {h : Task} {l : Loaded} {cores : List Nat}

/-- After a dispatch the task runs on its placement (R289). -/
theorem State.task?_dispatch (hl : ((s.claimed h).loadedFor h).2 = some l) (hm : s.task? h.part h.id = some h) :
    ∃ n, (s.dispatch h cores).task? h.part h.id = some (h.outOfPool.started cores n l) := by
  refine ⟨(s.manned h l cores).fresh, ?_⟩
  have hbooks : (s.manned h l cores).task? h.part h.id = (s.claimed h).task? h.part h.id := by
    rw [State.task?, (s.sameBooks_manned h l cores).1]
    rfl
  have hclaim : (s.claimed h).task? h.part h.id = some h.outOfPool := by
    rw [State.claimed, State.task?_modTask _ _ _ _ Task.outOfPool_keepsKey]
    exact congrArg (Option.map _) hm
  rw [State.dispatch_eq hl, State.task?_modTask _ _ _ _ (Task.started_keepsKey _ _ _), hbooks, hclaim]
  rfl

/-- A dispatch changes no other task. -/
theorem State.mem_tasks_dispatch (hl : ((s.claimed h).loadedFor h).2 = some l) {x : Task} (hx : x ∈ (s.dispatch h cores).tasks)
    (hk : x.part ≠ h.part ∨ x.id ≠ h.id) : x ∈ s.tasks := by
  have other : ∀ (u : State) (f : Task → Task), KeepsKey f → x ∈ (u.modTask h.part h.id f).tasks → x ∈ u.tasks := by
    intro u f hf hu
    obtain ⟨y, hy, rfl⟩ := List.mem_map.mp hu
    by_cases hc : (y.part == h.part && y.id == h.id) = true
    · rw [if_pos hc, (hf y).1, (hf y).2] at hk
      simp only [Bool.and_eq_true, beq_iff_eq] at hc
      exact absurd hc (by tauto)
    · rw [if_neg hc]
      exact hy
  rw [State.dispatch_eq hl] at hx
  have hm := other _ _ (Task.started_keepsKey _ _ _) hx
  rw [(s.sameBooks_manned h l cores).1] at hm
  exact other _ _ Task.outOfPool_keepsKey hm

theorem State.dispatch_streams (hl : ((s.claimed h).loadedFor h).2 = some l) : (s.dispatch h cores).streams = (s.claimed h).streams := by
  rw [State.dispatch_eq hl]
  exact (s.sameBooks_manned h l cores).2.1

theorem State.dispatch_ptr (hl : ((s.claimed h).loadedFor h).2 = some l) : (s.dispatch h cores).ptr = s.ptr := by
  rw [State.dispatch_eq hl]
  exact (s.sameBooks_manned h l cores).2.2.1

theorem State.dispatch_cred (hl : ((s.claimed h).loadedFor h).2 = some l) : (s.dispatch h cores).cred = s.cred := by
  rw [State.dispatch_eq hl]
  exact (s.sameBooks_manned h l cores).2.2.2

/-- A dispatch notes its time with its stream, and no deficit. -/
theorem State.dispatch_deficit (hl : ((s.claimed h).loadedFor h).2 = some l) (i : Nat) :
    ((s.dispatch h cores).stream i).deficit = (s.stream i).deficit := by
  have hs : (s.dispatch h cores).stream i = (s.claimed h).stream i := by
    rw [State.stream, State.stream, State.dispatch_streams hl]
  rw [hs]
  by_cases hi : i = h.stream
  · subst hi
    have hself : (s.claimed h).stream h.stream = { s.stream h.stream with lastDispatch := s.cycle } := tget_tset_self _ _ _ _
    rw [hself]
  · exact congrArg Stream.deficit (tget_tset_ne _ _ _ _ _ hi)

theorem State.dispatch_core (hl : ((s.claimed h).loadedFor h).2 = some l) (c : Nat) :
    (s.dispatch h cores).core c = (s.manned h l cores).core c := by
  rw [State.dispatch_eq hl]
  rfl

theorem State.dispatch_mem (hl : ((s.claimed h).loadedFor h).2 = some l) : (s.dispatch h cores).mem = (s.manned h l cores).mem := by
  rw [State.dispatch_eq hl]
  rfl

end

end Sys2Proof.Machine
end

section
/-! PROOFS. A change made for every entry of a list, each in its own place. -/

namespace Sys2Proof.Machine

/-- Where each step of a change, in the states that it comes to, does what is asked of its entry, and no step undoes what was done for another entry,
the whole does it for every entry. -/
theorem foldl_each {σ ι : Type} (f : σ → ι → σ) (I : σ → Prop) (P : ι → σ → Prop) (l : List ι) (hI : ∀ s, ∀ i ∈ l, I s → I (f s i))
    (hset : ∀ s, ∀ i ∈ l, I s → P i (f s i)) (hkeep : ∀ s, ∀ i ∈ l, ∀ j ∈ l, i ≠ j → P i s → P i (f s j)) (s : σ) (hs : I s) :
    ∀ i ∈ l, P i (l.foldl f s) := by
  induction l using List.reverseRecOn with
  | nil => exact fun i hi => absurd hi List.not_mem_nil
  | append_singleton l a ih =>
    have hleft : ∀ {x}, x ∈ l → x ∈ l ++ [a] := List.mem_append_left _
    have ha : a ∈ l ++ [a] := List.mem_append_right _ (List.mem_singleton.mpr rfl)
    intro i hi
    rw [List.foldl_append, List.foldl_cons, List.foldl_nil]
    by_cases hia : i = a
    · subst hia
      exact hset _ i hi (List.foldlRecOn (motive := I) l f hs fun u hu x hx => hI u x (hleft hx) hu)
    · have hl : i ∈ l := (List.mem_append.mp hi).resolve_right fun h => hia (List.mem_singleton.mp h)
      refine hkeep _ i hi a ha hia (ih (fun u x hx => hI u x (hleft hx)) (fun u x hx => hset u x (hleft hx)) ?_ i hl)
      exact fun u x hx y hy => hkeep u x (hleft hx) y (hleft hy)

/-! Bytes of scratchpads. -/

theorem mget_filter_of_keeps (m : Mem) (p : Host.Cell → Bool) (k : Nat) (h : ∀ v, p (k, v) = true) : mget (m.filter p) k = mget m k := by
  induction m with
  | nil => rfl
  | cons e m ih =>
    obtain ⟨k', v⟩ := e
    by_cases hk : k' = k
    · subst hk
      rw [List.filter_cons_of_pos (h v), mget, mget, if_pos rfl, if_pos rfl]
    · rw [List.filter_cons, mget, if_neg hk]
      split
      · rw [mget, if_neg hk, ih]
      · exact ih

theorem mget_mclear_out (m : Mem) {lo hi k : Nat} (h : k < lo ∨ hi ≤ k) : mget (mclear m lo hi) k = mget m k := by
  refine mget_filter_of_keeps m _ k fun v => ?_
  simp only [Bool.not_eq_true', Bool.and_eq_false_iff, decide_eq_false_iff_not]
  omega

theorem mget_mclear_in (m : Mem) {lo hi k : Nat} (h : lo ≤ k) (h' : k < hi) : mget (mclear m lo hi) k = 0 := by
  refine mget_of_not_mem _ k fun e he hk => ?_
  have hp := (List.mem_filter.mp he).2
  rw [hk] at hp
  simp only [h, h', decide_true, Bool.and_self, Bool.not_true] at hp
  exact Bool.false_ne_true hp

/-- Bytes that are written in a scratchpad, each once, are read there; the others stay. -/
theorem mget_foldl_mset_spad (c : Nat) (bs : List Host.Cell) (hn : (bs.map (·.1)).Nodup) (m : Mem) (i : Nat) :
    mget (bs.foldl (fun m e => mset m (spadKey c e.1) e.2) m) (spadKey c i) =
      ((bs.find? (fun e => e.1 == i)).map (·.2)).getD (mget m (spadKey c i)) := by
  induction bs generalizing m with
  | nil => rfl
  | cons e bs ih =>
    obtain ⟨hne, hn⟩ := List.nodup_cons.mp hn
    rw [List.foldl_cons, ih hn, List.find?_cons]
    by_cases he : e.1 = i
    · have hnone : bs.find? (fun e => e.1 == i) = none := by
        rw [List.find?_eq_none]
        intro x hx hxi
        rw [beq_iff_eq] at hxi
        exact hne (List.mem_map.mpr ⟨x, hx, hxi.trans he.symm⟩)
      rw [hnone, beq_iff_eq.mpr he, he, mget_mset_self]
      rfl
    · have hkey : spadKey c i ≠ spadKey c e.1 := fun h => he (Nat.add_left_cancel h).symm
      rw [beq_eq_false_iff_ne.mpr he, mget_mset_ne _ _ _ _ hkey]

theorem mget_foldl_mset_spad_ne (c : Nat) (bs : List Host.Cell) (m : Mem) (k : Nat) (h : ∀ e ∈ bs, k ≠ spadKey c e.1) :
    mget (bs.foldl (fun m e => mset m (spadKey c e.1) e.2) m) k = mget m k :=
  List.foldlRecOn (motive := fun u : Mem => mget u k = mget m k) bs _ rfl fun u hu e he => (mget_mset_ne u _ _ _ (h e he)).trans hu

theorem spadKey_ne {c d i j : Nat} (h : c ≠ d) (hi : i < 2 ^ 19) (hj : j < 2 ^ 19) : spadKey c i ≠ spadKey d j := by
  unfold spadKey
  omega

section
variable (s : State) {c d i : Nat}

theorem State.clearSpad_mget (hi : i < 2 ^ 19) : mget (s.clearSpad c).mem (spadKey c i) = 0 :=
  mget_mclear_in _ (by unfold spadKey; omega) (by unfold spadKey; omega)

theorem State.clearSpad_mget_ne (h : d ≠ c) (hi : i < 2 ^ 19) : mget (s.clearSpad c).mem (spadKey d i) = mget s.mem (spadKey d i) :=
  mget_mclear_out _ (by unfold spadKey; omega)

/-- A scratchpad holds the bytes that return to it, and zeros (R291). -/
theorem State.putSpad_mget {bs : List Host.Cell} (hn : (bs.map (·.1)).Nodup) (marks : List Nat) (hi : i < 2 ^ 19) :
    mget (s.putSpad c bs marks).mem (spadKey c i) = ((bs.find? (fun e => e.1 == i)).map (·.2)).getD 0 := by
  rw [← s.clearSpad_mget hi]
  exact mget_foldl_mset_spad c bs hn (s.clearSpad c).mem i

theorem State.putSpad_mget_ne {bs : List Host.Cell} (hb : ∀ e ∈ bs, e.1 < 2 ^ 19) (marks : List Nat) (h : d ≠ c) (hi : i < 2 ^ 19) :
    mget (s.putSpad c bs marks).mem (spadKey d i) = mget s.mem (spadKey d i) := by
  rw [← s.clearSpad_mget_ne h hi]
  exact mget_foldl_mset_spad_ne c bs (s.clearSpad c).mem _ fun e he => spadKey_ne h hi (hb e he)

end

end Sys2Proof.Machine
end

section
/-! PROOFS. A gang that starts at its prologue, and one that is restored (R28, R34, R289, R291, R305). -/

namespace Sys2Proof.Machine

/-- What a core holds that a gang's member starts on (R28, R34, R289). -/
theorem startClocks_startCore_fields {s : State} {t : Task} {l : Loaded} {text : List Word} {p c r : Nat} {k k' : CoreSt}
    (hk : k = s.startClocks p c (startCore t l text r k')) :
    k.resident = true ∧ k.task = t.id ∧ k.part = t.part ∧ k.rank = r ∧ k.gangSize = t.recd.size ∧ k.demand = t.recd.tregs ∧
      k.spad = t.recd.spad ∧ k.text = text ∧ k.kernel = BitVec.ofNat 32 t.recd.kernel ∧ k.epilogue = BitVec.ofNat 32 t.recd.epilogue ∧
      k.g = Vector.replicate 32 0 ∧ k.ar = Vector.replicate 16 0 ∧ k.tk = Vector.replicate 16 0 ∧ k.loads = 0 ∧ k.slipw = 256 ∧ k.iteridx = 0 ∧
      (∀ i, i < 16 → k.kAt i = l.consts.getD i 0) ∧
      ∀ y, (k.strand y).pc = BitVec.ofNat 32 t.recd.prologue ∧ (k.strand y).phase = .prologue ∧ (k.strand y).walked = 0 ∧
        (k.strand y).p = Vector.replicate 8 false := by
  subst hk
  refine ⟨rfl, rfl, rfl, rfl, rfl, rfl, rfl, rfl, rfl, rfl, rfl, rfl, rfl, rfl, rfl, rfl, fun i hi => ?_, fun y => ?_⟩
  · have hconst : (s.startClocks p c (startCore t l text r k')).k = Vector.ofFn (fun i : Fin 16 => l.consts.getD i.val 0) := rfl
    rw [CoreSt.kAt, dif_pos hi]
    simp only [hconst, Vector.getElem_ofFn]
  · cases y <;> exact ⟨rfl, rfl, rfl, rfl⟩

/-- What a core holds that a saved member is restored on (R291, R305). -/
theorem startClocks_restoreCore_fields {s : State} {t : Task} {old new : List Nat} {text : List Word} {im : Image} {p c : Nat} {k k' : CoreSt}
    (hk : k = s.startClocks p c (restoreCore t old new text im k')) :
    (k.resident = true ∧ k.rank = im.st.rank ∧ k.stage = im.st.stage ∧ k.slipw = im.st.slipw ∧ k.iteridx = im.st.iteridx ∧ k.text = text ∧
      k.g = im.st.g ∧ k.k = im.st.k ∧ k.tk = im.st.tk ∧ k.tile = im.st.tile ∧ k.acc = im.st.acc ∧ k.rc = im.st.rc ∧ k.li = im.st.li ∧
      k.fqAt = [] ∧ k.owed = im.st.owed ∧ k.tlb = [] ∧ k.stash = [] ∧ k.timeh = 0 ∧ k.ar = im.st.ar.map (rewriteAddr im.st.spad old new)) ∧
      (∀ (i : Fin 4) j d, (im.st.lo.get i).peer = some (j, d) → (k.lo.get i).peer = some (new.getD j 0, d)) ∧
      ∀ y, k.strand y = { im.st.strand y with holding := false, fetched := none } := by
  subst hk
  refine ⟨⟨rfl, rfl, rfl, rfl, rfl, rfl, rfl, rfl, rfl, rfl, rfl, rfl, rfl, rfl, rfl, rfl, rfl, rfl, rfl⟩, fun i j d hp => ?_, fun y => ?_⟩
  · have hlo : (s.startClocks p c (restoreCore t old new text im k')).lo =
        im.st.lo.map (fun q => { q with peer := q.peer.map (fun p => (new.getD p.1 0, p.2)) }) := rfl
    rw [Vector.get_eq_getElem] at hp ⊢
    simp only [hlo, Vector.getElem_map, hp, Option.map_some]
  · cases y <;> rfl

theorem State.clearWeir_core (s : State) (cores : List Nat) (c : Nat) : (s.clearWeir cores).core c = s.core c := by
  refine List.foldlRecOn (motive := fun u : State => u.core c = s.core c) cores _ rfl fun u hu d _ => ?_
  dsimp only
  split
  · rw [State.core_setPair, hu]
  · exact hu

theorem State.clearWeir_mem (s : State) (cores : List Nat) : (s.clearWeir cores).mem = s.mem := by
  refine List.foldlRecOn (motive := fun u : State => u.mem = s.mem) cores _ rfl fun u hu d _ => ?_
  dsimp only
  split
  · rw [State.setPair_mem, hu]
  · exact hu

@[simp] theorem State.withWeir_core (s : State) (c : Nat) (w : Option (Vector Row 4 × Vector Bool 4)) (d : Nat) :
    (s.withWeir c w).core d = s.core d := by
  cases w <;> rfl

@[simp] theorem State.withWeir_mem (s : State) (c : Nat) (w : Option (Vector Row 4 × Vector Bool 4)) : (s.withWeir c w).mem = s.mem := by
  cases w <;> rfl

theorem State.resumeMember_mem (t : Task) (l : Loaded) (ims : List Image) (cores : List Nat) (s : State) (p : Image × Nat) :
    (s.resumeMember t l ims cores p).mem = (s.putSpad p.2 p.1.spadBytes p.1.spadMarks).mem := State.withWeir_mem _ _ _

section
variable (s : State) (t : Task) (l : Loaded) {cores : List Nat} {ims : List Image} {r c : Nat} {im : Image}

/-- Ranks stand on cores of their own. -/
theorem getD_map_range (cores : List Nat) : (List.range cores.length).map (fun r => cores.getD r 0) = cores := by
  refine List.ext_getElem (by simp) fun i h1 h2 => ?_
  simp [h2]

/-- A gang that starts: each rank's core holds its member, and its scratchpad zeros (R28, R289). -/
theorem State.dispatchNew_member (hn : cores.Nodup) (hc : cores[r]? = some c) :
    (∃ u k, (s.dispatchNew t l cores).core c = State.startClocks u t.part c (startCore t l (relocated l cores) r k)) ∧
      ∀ i, i < 2 ^ 19 → mget (s.dispatchNew t l cores).mem (spadKey c i) = 0 := by
  obtain ⟨hr, rfl⟩ := List.getElem?_eq_some_iff.mp hc
  have hget : cores.getD r 0 = cores[r] := by simp [hr]
  rw [State.dispatchNew_eq, State.clearWeir_core, State.clearWeir_mem, ← hget]
  refine foldl_each (State.startMember t l cores) (fun _ => True) (fun r v =>
    (∃ u k, v.core (cores.getD r 0) = State.startClocks u t.part (cores.getD r 0) (startCore t l (relocated l cores) r k)) ∧
      ∀ i, i < 2 ^ 19 → mget v.mem (spadKey (cores.getD r 0) i) = 0) _ (fun _ _ _ _ => trivial) ?_ ?_ s trivial r (List.mem_range.mpr hr)
  · exact fun v j _ _ => ⟨⟨v, _, State.core_setCore_self _ _ _⟩, fun i hi => v.clearSpad_mget hi⟩
  · rintro v i hi j hj hij ⟨⟨u, k, hk⟩, hm⟩
    have hne : cores.getD i 0 ≠ cores.getD j 0 := fun he => hij (List.inj_on_of_nodup_map ((getD_map_range cores).symm ▸ hn) hi hj he)
    refine ⟨⟨u, k, (State.core_setCore_ne _ _ _ _ hne).trans hk⟩, fun b hb => ?_⟩
    exact (v.clearSpad_mget_ne hne hb).trans (hm b hb)

theorem mem_zip_of_getElem? {ims : List Image} (hc : cores[r]? = some c) (him : ims[r]? = some im) : (im, c) ∈ ims.zip cores := by
  refine List.mem_of_getElem? (i := r) ?_
  rw [List.getElem?_zip_eq_some]
  exact ⟨him, hc⟩

/-- A gang that is restored: each rank's core holds what its image does (R291). -/
theorem State.restoreGang_core (hn : cores.Nodup) (hlen : ims.length = cores.length) (hc : cores[r]? = some c) (him : ims[r]? = some im) :
    ∃ u k, (s.restoreGang t l ims cores).core c =
      State.startClocks u t.part c (restoreCore t (ims.map (·.core)) cores (relocated l cores) im k) := by
  rw [State.restoreGang_eq]
  refine foldl_each (State.resumeMember t l ims cores) (fun _ => True) (fun p v =>
    ∃ u k, v.core p.2 = State.startClocks u t.part p.2 (restoreCore t (ims.map (·.core)) cores (relocated l cores) p.1 k)) _
    (fun _ _ _ _ => trivial) ?_ ?_ s trivial (im, c) (mem_zip_of_getElem? hc him)
  · intro v p _ _
    exact ⟨_, _, (State.withWeir_core _ _ _ _).trans (State.core_setCore_self _ _ _)⟩
  · rintro v p hp q hq hpq ⟨u, k, hk⟩
    have hne : p.2 ≠ q.2 := fun he => hpq (List.inj_on_of_nodup_map ((List.map_snd_zip hlen.ge).symm ▸ hn) hp hq he)
    exact ⟨u, k, ((State.withWeir_core _ _ _ _).trans (State.core_setCore_ne _ _ _ _ hne)).trans hk⟩

/-- A gang that is restored: each rank's scratchpad holds the bytes of its image (R291). -/
theorem State.restoreGang_mget (hn : cores.Nodup) (hlen : ims.length = cores.length) (hc : cores[r]? = some c) (him : ims[r]? = some im) (hnd : (im.spadBytes.map (·.1)).Nodup)
    (hb : ∀ x ∈ ims, ∀ e ∈ x.spadBytes, e.1 < 2 ^ 19) {i : Nat} (hi : i < 2 ^ 19) :
    mget (s.restoreGang t l ims cores).mem (spadKey c i) = ((im.spadBytes.find? (fun e => e.1 == i)).map (·.2)).getD 0 := by
  rw [State.restoreGang_eq]
  refine foldl_each (State.resumeMember t l ims cores) (fun _ => True) (fun p v => (p.1.spadBytes.map (·.1)).Nodup →
    mget v.mem (spadKey p.2 i) = ((p.1.spadBytes.find? (fun e => e.1 == i)).map (·.2)).getD 0) _
    (fun _ _ _ _ => trivial) ?_ ?_ s trivial (im, c) (mem_zip_of_getElem? hc him) hnd
  · intro v p _ _ hp
    rw [State.resumeMember_mem]
    exact v.putSpad_mget hp _ hi
  · intro v p hpm q hq hpq hk hp
    have hne : p.2 ≠ q.2 := fun he => hpq (List.inj_on_of_nodup_map ((List.map_snd_zip hlen.ge).symm ▸ hn) hpm hq he)
    have hbytes := hb q.1 (List.of_mem_zip hq).1
    rw [State.resumeMember_mem, v.putSpad_mget_ne hbytes _ hne hi]
    exact hk hp

end

end Sys2Proof.Machine
end

section
/-! PROOFS. Decisions that dispatch a head (R286 to R289, R291). -/

namespace Sys2Proof.Machine

section
variable {s : State} {h : Task} {q lv : Nat} {cores : List Nat} {l : Loaded}

/-- A stream that is alone at the only level with a head: its head is dispatched after the fewest rounds that give it credit (R286). -/
theorem dispatchDecision_dispatches (hj : ∀ x ∈ s.tasks, s.judgeCapacity x = x) (hlv : lv ≤ 15)
    (hlevels : ∀ n, n ≤ 15 → s.levelStreams n = if n = lv then [q] else []) (hptr : tget 0 s.ptr lv = q) (hcred : tget false s.cred lv = false)
    (hh : s.headOf q = some h) (hw : 0 < (s.stream q).weight) (hsize : h.recd.size ≤ 256) (hplace : s.place h [] = some cores) :
    ∃ v k, s.Weighs v ∧ tget 0 v.ptr lv = q ∧ tget false v.cred lv = true ∧ v.stream q = (s.stream q).afterRounds (k + 1) ∧ k < 16 ∧
      h.recd.size ≤ ((s.stream q).afterRounds (k + 1)).deficit ∧
      (∀ m, 0 < m → m < k + 1 → ((s.stream q).afterRounds m).deficit < h.recd.size) ∧
      exec .dispatchDecision s = .next ((v.dispatch h cores).modStream q (Stream.charged h.recd.size)) := by
  have hlevel : s.levelStreams lv = [q] := by rw [hlevels lv hlv, if_pos rfl]
  have habove : ∀ n, lv < n → n ≤ 15 → s.levelStreams n = [] := fun n hn hn15 => by rw [hlevels n hn15, if_neg hn.ne']
  obtain ⟨k, hk, hfit, hleast⟩ := (s.stream q).exists_first_round hw hsize
  have hsum : 0 + 1 + k = k + 1 := by omega
  obtain ⟨v, hv, hvptr, hvcred, hvstream, hvisit⟩ := visitLevel_rounds hh hplace k 19 0 s (.refl s) hptr hcred (Stream.credited_eq _)
    (hsum ▸ hfit) (hsum ▸ hleast) (by omega)
  rw [hsum] at hvstream
  obtain ⟨b, -, hexec⟩ := dispatchDecision_at_level hj hlv habove hlevel (List.cons_ne_nil _ _) hvisit
  exact ⟨v, k, hv, hvptr, hvcred, hvstream, hk, hfit, hleast, hexec⟩

section
variable {v : State}

/-- The books after a head has been dispatched and charged (R286, R289). -/
theorem State.Weighs.task?_dispatched (hv : s.Weighs v) (hh : s.headOf q = some h)
    (hu : ∀ x ∈ s.tasks, x.part = h.part ∧ x.id = h.id → x = h) (hl : h.loaded.or (s.loadTask h).2 = some l) (f : Stream → Stream) :
    ∃ n, ((v.dispatch h cores).modStream q f).task? h.part h.id = some (h.outOfPool.started cores n l) := by
  have hm := (State.headOf_some hh).1
  refine State.task?_dispatch ((hv.loadedFor h).trans hl) (State.task?_of_unique ?_ ?_)
  · rw [hv.tasks]
    exact hm
  · rw [hv.tasks]
    exact hu

end

/-- A member that is restored, by its rank. -/
theorem State.manned_restored {ims : List Image} (s : State) (hi : h.images = some ims) (l : Loaded) (cores : List Nat) :
    s.manned h l cores = ((s.claimed h).loadedFor h).1.restoreGang h l ims cores := by
  rw [State.manned, State.populated, hi]

theorem State.manned_new (s : State) (hi : h.images = none) (l : Loaded) (cores : List Nat) :
    s.manned h l cores = ((s.claimed h).loadedFor h).1.dispatchNew h l cores := by
  rw [State.manned, State.populated, hi]

/-- A list with two entries that differ has more than one. -/
theorem one_ne_length_of_ne {c : List Nat} {p q : Nat} (hp : p ∈ c) (hq : q ∈ c) (h : p ≠ q) : 1 ≠ c.length := by
  intro hc
  obtain ⟨x, rfl⟩ := List.length_eq_one_iff.mp hc.symm
  exact h ((List.mem_singleton.mp hp).trans (List.mem_singleton.mp hq).symm)

/-- Of several heads the next stream's is dispatched where the one that the pointer names has too little credit or no placement (R286). -/
theorem dispatchDecision_next_stream {p : Nat} {g : Task} (hj : ∀ x ∈ s.tasks, s.judgeCapacity x = x) (hlv : lv ≤ 15)
    (habove : ∀ n, lv < n → n ≤ 15 → s.levelStreams n = []) (hp : p ∈ s.levelStreams lv) (hq : q ∈ s.levelStreams lv)
    (hnext : nextStream (s.levelStreams lv) p = q) (hpq : p ≠ q) (hptr : tget 0 s.ptr lv = p) (hcred : tget false s.cred lv = false)
    (hg : s.headOf p = some g) (hh : s.headOf q = some h)
    (hpass : (s.stream p).credited.deficit < g.recd.size ∨ s.place g [] = none) (hsize : h.recd.size ≤ (s.stream q).credited.deficit)
    (hplace : s.place h [] = some cores) :
    ∃ v, s.Weighs v ∧ tget 0 v.ptr lv = q ∧ tget false v.cred lv = true ∧ v.stream p = (s.stream p).credited ∧
      v.stream q = (s.stream q).credited ∧
      exec .dispatchDecision s = .next ((v.dispatch h cores).modStream q (Stream.charged h.recd.size)) := by
  let u := (s.givenRound lv p).movedTo lv q
  have hgiven : s.Weighs (s.givenRound lv p) := (State.Weighs.refl s).givenRound lv p
  have hu : s.Weighs u := hgiven.movedTo lv q
  have hv : s.Weighs (u.givenRound lv q) := hu.givenRound lv q
  have huptr : tget 0 u.ptr lv = q := State.movedTo_ptr _ _ _
  have hucred : tget false u.cred lv = false := State.movedTo_cred _ _ _
  have hup : u.stream p = (s.stream p).credited := State.givenRound_stream hcred p
  have huq : u.stream q = s.stream q := State.givenRound_stream_ne s lv hpq.symm
  have hvq : (u.givenRound lv q).stream q = (s.stream q).credited := by rw [State.givenRound_stream hucred, huq]
  have hgp : ((s.givenRound lv p).stream p) = (s.stream p).credited := State.givenRound_stream hcred p
  obtain ⟨n, hn⟩ : ∃ n, 17 * (s.levelStreams lv).length + 2 = n + 1 + 1 := ⟨_, rfl⟩
  have hfirst : ∃ failed, visitLevel lv (s.levelStreams lv) (n + 1 + 1) s [] = visitLevel lv (s.levelStreams lv) (n + 1) u failed := by
    by_cases hlow : (s.stream p).credited.deficit < g.recd.size
    · refine ⟨[], ?_⟩
      rw [visitLevel_saves (n + 1) hp hptr ((hgiven.headOf p).trans hg) (by rw [hgp]; exact hlow), hnext]
    · refine ⟨[p], ?_⟩
      rw [visitLevel_fails (n + 1) hp hptr ((hgiven.headOf p).trans hg) (by rw [hgp]; exact not_lt.mp hlow)
        ((hgiven.place g []).trans (hpass.resolve_left hlow)), if_neg (one_ne_length_of_ne hp hq hpq), hnext]
  obtain ⟨failed, hfirst⟩ := hfirst
  have hvisits : visitLevel lv (s.levelStreams lv) (17 * (s.levelStreams lv).length + 2) s [] =
      ⟨((u.givenRound lv q).dispatch h cores).modStream q (Stream.charged h.recd.size), failed, true⟩ := by
    rw [hn, hfirst]
    exact visitLevel_dispatches n hq huptr ((hv.headOf q).trans hh) (by rw [hvq]; exact hsize) ((hv.place h []).trans hplace)
  obtain ⟨b, -, hexec⟩ := dispatchDecision_at_level hj hlv habove rfl (List.ne_nil_of_mem hp) hvisits
  refine ⟨u.givenRound lv q, hv, by rw [State.givenRound_ptr, huptr], State.givenRound_cred _ _ _, ?_, hvq, hexec⟩
  rw [State.givenRound_stream_ne u lv hpq, hup]

end

end Sys2Proof.Machine
end

section
/-! PROOFS. Requests for pre-emption (R57, R288, R290). -/

namespace Sys2Proof.Machine

/-! Cores that are told to hold (R57). -/

/-- A core that a request reaches chooses its hold point; one that is past its kernel takes none (R57; log entry 34). -/
def CoreSt.told (k : CoreSt) : CoreSt := { k with hold := if k.pastKernel then .none else k.chooseHold }

/-- The cores of a gang are told to hold. -/
def State.tellCores (s : State) (cores : List Nat) : State := cores.foldl (fun s c => s.modCore c CoreSt.told) s

/-- Two states whose cores differ in their hold points only. -/
def State.SameButHold (s u : State) : Prop := ∀ c, ∃ x, u.core c = { s.core c with hold := x }

theorem State.SameButHold.of_core {s u : State} (h : ∀ c, u.core c = s.core c) : s.SameButHold u := fun c => ⟨(s.core c).hold, h c⟩

theorem State.SameButHold.trans {s t u : State} (h : s.SameButHold t) (h' : t.SameButHold u) : s.SameButHold u := fun c => by
  obtain ⟨x, hx⟩ := h c
  obtain ⟨y, hy⟩ := h' c
  exact ⟨y, by rw [hy, hx]⟩

section
variable {s u : State} (h : s.SameButHold u) (c : Nat)
include h

/-- Where a core stands does not depend on its hold point. -/
theorem State.SameButHold.allPast : (u.core c).allPast = (s.core c).allPast := by
  obtain ⟨x, hx⟩ := h c
  rw [hx]
  rfl

theorem State.SameButHold.told : (u.core c).told.hold = (s.core c).told.hold := by
  obtain ⟨x, hx⟩ := h c
  rw [hx]
  rfl

end

theorem State.sameButHold_modCore_told (s : State) (c : Nat) : s.SameButHold (s.modCore c CoreSt.told) := fun d => by
  by_cases hd : d = c
  · subst hd
    exact ⟨_, State.core_modCore_self _ _ _⟩
  · exact ⟨(s.core d).hold, State.core_modCore_ne _ _ _ _ hd⟩

theorem State.tellCores_sameButHold (s : State) (cores : List Nat) : s.SameButHold (s.tellCores cores) :=
  List.foldlRecOn (motive := fun u : State => s.SameButHold u) cores _ (.of_core fun _ => rfl)
    fun u hu c _ => hu.trans (u.sameButHold_modCore_told c)

/-- Telling cores to hold changes nothing but cores. -/
theorem State.tellCores_eq (s : State) (cores : List Nat) : s.tellCores cores = { s with cores := (s.tellCores cores).cores } :=
  List.foldlRecOn (motive := fun u : State => u = { s with cores := u.cores }) cores _ rfl fun _ hu c _ => congrArg (State.modCore · c CoreSt.told) hu

theorem State.tellCores_hold (s : State) {cores : List Nat} {c : Nat} (hc : c ∈ cores) :
    ((s.tellCores cores).core c).hold = (s.core c).told.hold := by
  refine foldl_each (fun (u : State) c => u.modCore c CoreSt.told) (fun u => s.SameButHold u) (fun c u => (u.core c).hold = (s.core c).told.hold)
    cores ?_ ?_ ?_ s (.of_core fun _ => rfl) c hc
  · exact fun u c _ hu => hu.trans (u.sameButHold_modCore_told c)
  · intro u c _ hu
    rw [State.core_modCore_self]
    exact hu.told c
  · intro u c _ d _ hcd hu
    rw [State.core_modCore_ne _ _ _ _ hcd]
    exact hu

theorem State.tellCores_core_ne (s : State) {cores : List Nat} {c : Nat} (hc : c ∉ cores) : (s.tellCores cores).core c = s.core c :=
  List.foldlRecOn (motive := fun u : State => u.core c = s.core c) cores _ rfl fun u hu d hd =>
    (u.core_modCore_ne d c _ (ne_of_mem_of_not_mem hd hc).symm).trans hu

/-! One victim. -/

/-- Whether a gang takes a request: a member has a strand that is not past its kernel, and nothing has halted it (R57). -/
def State.takesRequest (s : State) (v : Task) : Bool := !v.cores.all (fun c => (s.core c).allPast) && !v.halted

/-- A task that has been asked to leave its cores (R288, R290). -/
def Task.askedFor (key : Nat) (at_ : Option Nat) (grotto : Bool) (v : Task) : Task :=
  { v with preemptFor := some key, preemptAt := at_, inGrotto := grotto }

theorem Task.askedFor_keepsKey (key : Nat) (at_ : Option Nat) (grotto : Bool) : KeepsKey (Task.askedFor key at_ grotto) := fun _ => ⟨rfl, rfl⟩
theorem Task.askedFor_keepsHead (key : Nat) (at_ : Option Nat) (grotto : Bool) : KeepsHead (Task.askedFor key at_ grotto) :=
  fun _ => ⟨rfl, rfl, rfl, rfl⟩

/-- The books after a request: the cores are reserved, and the gang is asked (R288). -/
def State.asksFor (s : State) (h v : Task) : State :=
  ({ s with reserved := s.reserved ++ v.cores.map (fun c => (c, h.part, h.id)) } : State).modTask v.part v.id
    (Task.askedFor h.key (if s.takesRequest v then some s.cycle else none) ((s.saveRoom v).getD true))

theorem State.requestHold_eq (s : State) (h v : Task) :
    s.requestHold h v = if s.takesRequest v then (s.asksFor h v).tellCores v.cores else s.asksFor h v := rfl

section
variable (s : State) (h v : Task)

theorem State.requestHold_books : (s.requestHold h v).tasks = (s.asksFor h v).tasks ∧
    (s.requestHold h v).reserved = s.reserved ++ v.cores.map (fun c => (c, h.part, h.id)) ∧ (s.requestHold h v).streams = s.streams ∧
    (s.requestHold h v).cred = s.cred ∧ (s.requestHold h v).cycle = s.cycle := by
  rw [State.requestHold_eq]
  split
  · rw [State.tellCores_eq]
    exact ⟨rfl, rfl, rfl, rfl, rfl⟩
  · exact ⟨rfl, rfl, rfl, rfl, rfl⟩

theorem State.requestHold_sameButHold : s.SameButHold (s.requestHold h v) := by
  rw [State.requestHold_eq]
  split
  · exact (State.SameButHold.of_core fun _ => rfl : s.SameButHold (s.asksFor h v)).trans (State.tellCores_sameButHold _ _)
  · exact .of_core fun _ => rfl

theorem State.requestHold_core_ne {c : Nat} (hc : c ∉ v.cores) : (s.requestHold h v).core c = s.core c := by
  rw [State.requestHold_eq]
  split
  · rw [State.tellCores_core_ne _ hc]
    rfl
  · rfl

theorem State.requestHold_hold (ht : s.takesRequest v = true) {c : Nat} (hc : c ∈ v.cores) :
    ((s.requestHold h v).core c).hold = (s.core c).told.hold := by
  rw [State.requestHold_eq, if_pos ht, State.tellCores_hold _ hc]
  rfl

theorem State.task?_requestHold : (s.requestHold h v).task? v.part v.id = (s.task? v.part v.id).map
    (Task.askedFor h.key (if s.takesRequest v then some s.cycle else none) ((s.saveRoom v).getD true)) := by
  rw [State.task?, (s.requestHold_books h v).1]
  exact State.task?_modTask _ _ _ _ (Task.askedFor_keepsKey _ _ _)

theorem State.task?_requestHold_ne {p i : Nat} (hk : ¬ (p = v.part ∧ i = v.id)) : (s.requestHold h v).task? p i = s.task? p i := by
  rw [State.task?, (s.requestHold_books h v).1]
  exact State.task?_modTask_ne _ _ _ _ _ _ (Task.askedFor_keepsKey _ _ _) hk

/-- A request leaves the heads of the streams, with their priorities. -/
theorem State.requestHold_headPrio (i : Nat) : ((s.requestHold h v).headOf i).map (·.eprio) = (s.headOf i).map (·.eprio) := by
  let f := Task.askedFor h.key (if s.takesRequest v then some s.cycle else none) ((s.saveRoom v).getD true)
  have hf : KeepsHead (fun t => if t.part == v.part && t.id == v.id then f t else t) := fun t => by
    dsimp only
    split
    · exact Task.askedFor_keepsHead _ _ _ t
    · exact ⟨rfl, rfl, rfl, rfl⟩
  rw [State.headOf_map hf (s.requestHold_books h v).1, Option.map_map]
  congr 1
  funext t
  dsimp only [Function.comp_apply]
  split <;> rfl

end

/-! All victims. -/

/-- What a gang that was asked to leave holds (R57, R288): with a member that is not past its kernel and nothing that halts it, a hold point. -/
def State.Asked (s : State) (key : Nat) (v : Task) (t : State) : Prop :=
  ∃ g, t.task? v.part v.id = some g ∧ g.preemptFor = some key ∧
    if v.halted = true ∨ (∀ c ∈ v.cores, (s.core c).allPast = true) then g.preemptAt = none
    else g.preemptAt = some s.cycle ∧ ∀ c ∈ v.cores, (t.core c).hold = if (s.core c).pastKernel then .none else (s.core c).chooseHold

section
variable {s w : State} {h : Task} {vs : List Task}

theorem State.takesRequest_iff {s : State} {v : Task} :
    s.takesRequest v = true ↔ ¬ (v.halted = true ∨ ∀ c ∈ v.cores, (s.core c).allPast = true) := by
  simp only [State.takesRequest, Bool.and_eq_true, Bool.not_eq_true', ← Bool.not_eq_true, List.all_eq_true]
  tauto

/-- A request that is made of a gang asks it, whatever was asked of others before. -/
theorem State.requestHold_asks {u : State} {v : Task} (hcore : s.SameButHold u) (hcycle : u.cycle = s.cycle)
    (hv : ∃ g, u.task? v.part v.id = some g) : s.Asked h.key v (u.requestHold h v) := by
  obtain ⟨g, hg⟩ := hv
  have htakes : u.takesRequest v = s.takesRequest v := by
    simp only [State.takesRequest, hcore.allPast]
  refine ⟨_, by rw [State.task?_requestHold, hg]; rfl, rfl, ?_⟩
  by_cases ht : s.takesRequest v = true
  · rw [if_neg (State.takesRequest_iff.mp ht)]
    refine ⟨?_, fun c hc => ?_⟩
    · show (if u.takesRequest v then some u.cycle else none) = _
      rw [htakes, if_pos ht, hcycle]
    · rw [State.requestHold_hold _ _ _ (htakes.trans ht) hc, hcore.told]
      rfl
  · rw [if_pos (not_not.mp fun hn => ht (State.takesRequest_iff.mpr hn))]
    show (if u.takesRequest v then some u.cycle else none) = _
    rw [htakes, if_neg ht]

/-- A request that is made of another gang leaves what was asked of one. -/
theorem State.Asked.requestHold {u : State} {key : Nat} {v x : Task} (hv : s.Asked key v u) (hk : ¬ (v.part = x.part ∧ v.id = x.id))
    (hd : ∀ c ∈ v.cores, c ∉ x.cores) : s.Asked key v (u.requestHold h x) := by
  obtain ⟨g, hg, hfor, hat⟩ := hv
  refine ⟨g, by rw [State.task?_requestHold_ne _ _ _ hk, hg], hfor, ?_⟩
  split at hat
  · next hc => rwa [if_pos hc]
  · next hc =>
    rw [if_neg hc]
    exact ⟨hat.1, fun c hm => by rw [State.requestHold_core_ne _ _ _ (hd c hm)]; exact hat.2 c hm⟩

/-- Every victim of a request is asked to leave (R288). -/
theorem State.foldl_requestHold_asks (s : State) (h : Task) (hmem : ∀ v ∈ vs, v ∈ s.tasks)
    (hn : (s.tasks.map (fun x => (x.part, x.id))).Nodup) (hd : (vs.flatMap (·.cores)).Nodup) :
    ∀ v ∈ vs, s.Asked h.key v (vs.foldl (fun u v => u.requestHold h v) s) := by
  have hfound : ∀ v ∈ vs, ∃ g, s.task? v.part v.id = some g := fun v hv => ⟨v, State.task?_of_nodup (hmem v hv) hn⟩
  refine foldl_each (fun (u : State) v => u.requestHold h v)
    (fun u => s.SameButHold u ∧ u.cycle = s.cycle ∧ ∀ v ∈ vs, ∃ g, u.task? v.part v.id = some g) (s.Asked h.key) vs ?_ ?_ ?_ s
    ⟨.of_core fun _ => rfl, rfl, hfound⟩
  · rintro u v hv ⟨hcore, hcycle, htask⟩
    obtain ⟨-, -, -, -, hc⟩ := u.requestHold_books h v
    refine ⟨hcore.trans (u.requestHold_sameButHold h v), hc.trans hcycle, fun x hx => ?_⟩
    by_cases hk : x.part = v.part ∧ x.id = v.id
    · obtain ⟨g, hg⟩ := htask v hv
      rw [hk.1, hk.2, State.task?_requestHold, hg]
      exact ⟨_, rfl⟩
    · rw [State.task?_requestHold_ne _ _ _ hk]
      exact htask x hx
  · rintro u v hv ⟨hcore, hcycle, htask⟩
    exact State.requestHold_asks hcore hcycle (htask v hv)
  · intro u v hv x hx hvx ha
    refine ha.requestHold (fun he => hvx (List.inj_on_of_nodup_map hn (hmem v hv) (hmem x hx) (Prod.ext he.1 he.2))) ?_
    have : Std.Symm (Function.onFun List.Disjoint (fun x : Task => x.cores)) := ⟨fun _ _ hab => hab.symm⟩
    exact (List.nodup_flatMap.mp hd).2.forall hv hx hvx

end

end Sys2Proof.Machine
end

section
/-! PROOFS. A head without a placement asks for pre-emption (R288, R290). -/

namespace Sys2Proof.Machine

/-! The choice of victims does not look at the credit of streams. -/

section
variable {s u : State}

theorem State.Weighs.modTask (hu : s.Weighs u) (p i : Nat) (f : Task → Task) : (s.modTask p i f).Weighs (u.modTask p i f) := by
  refine ⟨?_, congrArg (List.map fun t : Task => if t.part == p && t.id == i then f t else t) hu.tasks, hu.reserved⟩
  rw [hu.device]
  rfl

theorem State.Weighs.saveUsed (hu : s.Weighs u) : u.saveUsed = s.saveUsed := by
  funext g p
  rw [State.saveUsed, hu.tasks]
  rfl

theorem State.Weighs.saveRoom (hu : s.Weighs u) : u.saveRoom = s.saveRoom := by
  funext v
  unfold State.saveRoom
  rw [hu.saveUsed, hu.part]

theorem State.Weighs.reserveSaves (hu : s.Weighs u) (l : List Task) : (s.reserveSaves l).Weighs (u.reserveSaves l) := by
  induction l generalizing s u with
  | nil => exact hu
  | cons v l ih =>
    unfold State.reserveSaves at ih ⊢
    rw [List.foldl_cons, List.foldl_cons, hu.saveRoom]
    exact ih (hu.modTask _ _ _)

theorem State.Weighs.chooseVictims (hu : s.Weighs u) (h : Task) (r chosen : List Task) :
    u.chooseVictims h r chosen = s.chooseVictims h r chosen := by
  induction r generalizing chosen with
  | nil => rfl
  | cons v r ih => rw [State.chooseVictims, State.chooseVictims, (hu.reserveSaves chosen).saveRoom, hu.place, ih, ih]

theorem State.Weighs.candidates (hu : s.Weighs u) (h : Task) : u.candidates h = s.candidates h := by
  rw [State.candidates, hu.tasks]
  rfl

end

/-! A request. -/

section
variable (s : State) (h : Task)

/-- What a request leaves: streams, credit, heads and their priorities. -/
def State.SameHeads (s t : State) : Prop :=
  t.streams = s.streams ∧ t.cred = s.cred ∧ ∀ i, (t.headOf i).map (·.eprio) = (s.headOf i).map (·.eprio)

theorem State.foldl_requestHold_sameHeads (vs : List Task) : s.SameHeads (vs.foldl (fun u v => u.requestHold h v) s) := by
  refine List.foldlRecOn (motive := fun u : State => s.SameHeads u) vs _ ⟨rfl, rfl, fun _ => rfl⟩ ?_
  rintro u ⟨hs, hc, hh⟩ v _
  obtain ⟨-, -, hs', hc', -⟩ := u.requestHold_books h v
  exact ⟨hs'.trans hs, hc'.trans hc, fun i => (u.requestHold_headPrio h v i).trans (hh i)⟩

theorem State.requestPreemption_sameHeads : s.SameHeads (s.requestPreemption h) := by
  unfold State.requestPreemption
  split
  · exact ⟨rfl, rfl, fun _ => rfl⟩
  · split
    · exact s.foldl_requestHold_sameHeads h _
    · exact ⟨rfl, rfl, fun _ => rfl⟩

theorem State.foldl_requestHold_reserved (vs : List Task) : (vs.foldl (fun u v => u.requestHold h v) s).reserved =
    s.reserved ++ vs.flatMap (fun v => v.cores.map (fun c => (c, h.part, h.id))) := by
  induction vs generalizing s with
  | nil => exact (List.append_nil _).symm
  | cons v vs ih =>
    obtain ⟨-, hr, -⟩ := s.requestHold_books h v
    rw [List.foldl_cons, ih, hr, List.append_assoc, List.flatMap_cons]

end

section
variable {s : State} {h : Task}

/-- No request is made while one for the task is pending, nor where no victims are enough (R288). -/
theorem State.requestPreemption_none (hn : (∃ v ∈ s.tasks, v.preemptFor = some h.key) ∨ s.chooseVictims h (s.candidates h) [] = none) :
    s.requestPreemption h = s := by
  unfold State.requestPreemption
  split
  · rfl
  · next hp =>
    rcases hn with ⟨v, hv, hk⟩ | hc
    · exact absurd (List.any_eq_true.mpr ⟨v, hv, by rw [hk, beq_self_eq_true]⟩) hp
    · rw [hc]

theorem State.requestPreemption_some (hp : ∀ v ∈ s.tasks, v.preemptFor ≠ some h.key) {vs : List Task}
    (hc : s.chooseVictims h (s.candidates h) [] = some vs) : s.requestPreemption h = vs.foldl (fun u v => u.requestHold h v) s := by
  unfold State.requestPreemption
  rw [if_neg, hc]
  simp only [List.any_eq_true, beq_iff_eq, not_exists, not_and]
  exact hp

end

/-! A level with one head that finds no placement. -/

theorem mem_keys_tset {α : Type} {t : Tbl α} {k i : Nat} {v : α} (h : i ∈ (tset t k v).map (·.1)) : i = k ∨ i ∈ t.map (·.1) := by
  induction t with
  | nil => exact Or.inl (by simpa [tset] using h)
  | cons e t ih =>
    obtain ⟨k', v'⟩ := e
    unfold tset at h
    split at h
    · simpa using h
    · split at h
      · simp only [List.map_cons, List.mem_cons] at h ⊢
        tauto
      · simp only [List.map_cons, List.mem_cons] at h ⊢
        tauto

theorem State.levelStreams_eq_nil {s : State} {n : Nat} :
    s.levelStreams n = [] ↔ ∀ i ∈ s.streams.map (·.1), ∀ p, (s.headOf i).map (·.eprio) = some p → p ≠ n := by
  unfold State.levelStreams
  rw [List.filter_eq_nil_iff]
  refine forall₂_congr fun i _ => ?_
  cases s.headOf i with
  | none => simp
  | some h => simp

section
variable {s : State} {h : Task} {q lv : Nat}

/-- The one head of the only level with one asks for pre-emption where it has credit and no placement (R286, R288). -/
theorem dispatchDecision_asks (hj : ∀ x ∈ s.tasks, s.judgeCapacity x = x) (hlv : h.eprio ≤ 15)
    (hlevels : ∀ n, n ≤ 15 → s.levelStreams n = if n = h.eprio then [q] else []) (hptr : tget 0 s.ptr h.eprio = q)
    (hcred : tget false s.cred h.eprio = false) (hh : s.headOf q = some h) (hsize : h.recd.size ≤ (s.stream q).credited.deficit)
    (hplace : s.place h [] = none) :
    ∃ w, s.Weighs w ∧ tget false w.cred h.eprio = false ∧ exec .dispatchDecision s = .next (w.requestPreemption h) := by
  have hlevel : s.levelStreams h.eprio = [q] := by rw [hlevels _ hlv, if_pos rfl]
  have habove : ∀ n, h.eprio < n → n ≤ 15 → s.levelStreams n = [] := fun n hn hn15 => by rw [hlevels n hn15, if_neg hn.ne']
  let w := (s.givenRound h.eprio q).movedTo h.eprio q
  have hgiven : s.Weighs (s.givenRound h.eprio q) := (State.Weighs.refl s).givenRound _ q
  have hw : s.Weighs w := hgiven.movedTo _ q
  have hvisit : visitLevel h.eprio [q] (17 * [q].length + 2) s [] = ⟨w, [q], false⟩ := by
    rw [visitLevel_fails _ (List.mem_singleton.mpr rfl) hptr ((hgiven.headOf q).trans hh)
      (by rw [State.givenRound_stream hcred]; exact hsize) ((hgiven.place h []).trans hplace), nextStream_singleton]
    rfl
  obtain ⟨b, hb, hexec⟩ := dispatchDecision_at_level hj hlv habove hlevel (List.cons_ne_nil _ _) hvisit
  have hnext : exec .dispatchDecision s = .next (decideLevels b (w.requestPreemption h)) := by
    have hwh : w.headOf q = some h := (hw.headOf q).trans hh
    rw [hexec]
    simp only [List.head?_cons, Option.bind_some, hwh]
    rfl
  refine ⟨w, hw, State.movedTo_cred _ _ _, ?_⟩
  rw [hnext, ← List.append_nil b, decideLevels_append_of_empty b [] _ fun n hn => ?_]
  · rfl
  have hlower := hb n hn
  obtain ⟨hstreams, -, hheads⟩ := w.requestPreemption_sameHeads h
  have hempty := State.levelStreams_eq_nil.mp ((hlevels n (by omega)).trans (if_neg hlower.ne))
  refine State.levelStreams_eq_nil.mpr fun i hi p hp => ?_
  rw [hheads, hw.headOf] at hp
  have hkeys : w.streams = tset s.streams q (s.stream q).credited := congrArg State.streams (State.givenRound_eq hcred q)
  rw [hstreams, hkeys] at hi
  rcases mem_keys_tset hi with rfl | hi
  · rw [hh] at hp
    obtain rfl : h.eprio = p := Option.some.inj hp
    exact hlower.ne'
  · exact hempty i hi p hp

end

end Sys2Proof.Machine
end

section
/-! PROOFS. Notices of capacity (R287, R346). -/

namespace Sys2Proof.Machine

/-- A state with other tasks. -/
def State.withTasks (s : State) (l : List Task) : State := { s with tasks := l }

/-- An event record does not look at the tasks, and leaves them. -/
theorem State.postEvent_withTasks (s : State) (l : List Task) (i : Option Nat) (k src d0 d1 : Nat) :
    (s.withTasks l).postEvent i k src d0 d1 = (s.postEvent i k src d0 d1).withTasks l := by
  have hbooks : s.postEvent i k src d0 d1 = (s.postEvent i k src d0 d1).withBooks s := s.postEvent_withBooks s i k src d0 d1
  have hother : (s.withTasks l).postEvent i k src d0 d1 = (s.postEvent i k src d0 d1).withBooks (s.withTasks l) :=
    s.postEvent_withBooks (s.withTasks l) i k src d0 d1
  rw [hother, hbooks]
  rfl

/-- A task whose wait for capacity has been reported. -/
def Task.noted (t : Task) : Task := { t with capNoted := true }

/-- Whether two tasks have one key. -/
def Task.sameKey (x t : Task) : Bool := t.part == x.part && t.id == x.id

/-- Reports of tasks of a list, one after the other: their event records, and the tasks of their keys noted. -/
theorem foldl_postEvent_modTask (l : List Task) (s : State) (ts : List Task) :
    l.foldl (fun s t => (s.postEvent (some t.part) 2 t.stream t.id 0).modTask t.part t.id Task.noted) (s.withTasks ts) =
      (l.foldl (fun u x => u.postEvent (some x.part) 2 x.stream x.id 0) s).withTasks
        (ts.map (fun t => if l.any (fun x => x.sameKey t) then t.noted else t)) := by
  induction l generalizing s ts with
  | nil => exact congrArg s.withTasks (List.map_id ts).symm
  | cons x l ih =>
    rw [List.foldl_cons, List.foldl_cons, State.postEvent_withTasks]
    refine (ih (s.postEvent (some x.part) 2 x.stream x.id 0) (ts.map (fun t => if x.sameKey t then t.noted else t))).trans ?_
    refine congrArg _ ((List.map_map).trans (List.map_congr_left fun t _ => ?_))
    have hkey : ∀ y : Task, y.sameKey t.noted = y.sameKey t := fun _ => rfl
    have hnoted : t.noted.noted = t.noted := rfl
    rw [Function.comp_apply, List.any_cons]
    by_cases hx : x.sameKey t = true
    · simp only [hx, if_true, hkey, hnoted, ite_self, Bool.true_or]
    · simp only [Bool.eq_false_iff.mpr hx, Bool.false_eq_true, if_false, Bool.false_or]

/-- Every task that has waited as long as the notice time is reported once (R287, R346). -/
theorem capacityNotice_reports (s : State) (hn : (s.tasks.map (fun x => (x.part, x.id))).Nodup) :
    ∃ t u, exec .capacityNotice s = .next t ∧ t.tasks = s.tasks.map (fun x => if s.noticeDue x then { x with capNoted := true } else x) ∧
      t = { u with tasks := t.tasks } ∧ u = (s.tasks.filter s.noticeDue).foldl (fun u x => u.postEvent (some x.part) 2 x.stream x.id 0) s := by
  have hexec : exec .capacityNotice s = .next ((s.tasks.filter s.noticeDue).foldl
      (fun s t => (s.postEvent (some t.part) 2 t.stream t.id 0).modTask t.part t.id Task.noted) (s.withTasks s.tasks)) := rfl
  rw [foldl_postEvent_modTask] at hexec
  refine ⟨_, _, hexec, ?_, rfl, rfl⟩
  refine List.map_congr_left fun x hx => ?_
  have hdue : (s.tasks.filter s.noticeDue).any (fun y => y.sameKey x) = s.noticeDue x := by
    rw [Bool.eq_iff_iff, List.any_eq_true]
    constructor
    · rintro ⟨y, hy, hk⟩
      obtain ⟨hym, hyd⟩ := List.mem_filter.mp hy
      simp only [Task.sameKey, Bool.and_eq_true, beq_iff_eq] at hk
      rwa [List.inj_on_of_nodup_map hn hx hym (Prod.ext hk.1 hk.2)]
    · exact fun hd => ⟨x, List.mem_filter.mpr ⟨hx, hd⟩, by simp [Task.sameKey]⟩
  rw [hdue]
  rfl

end Sys2Proof.Machine
end

section
/-! PROOFS. Obligation O48. -/

namespace Sys2Proof.Machine

/-- A task that has entered the pool (R283). -/
def Task.readied (n : Nat) (t : Task) : Task := { t with phase := .ready, inPool := true, poolSince := n, spill := none }

section
variable {s : State} {h : Task} {q : Nat} {key : Nat}

/-- A task that enters the pool, or fails where its entry in the spill area has been written over (R281, R283; log entry 73). -/
theorem taskReady_result (hk : s.taskKey? key = some h) (hc : s.poolCount < 1024) (hp : h.inPool = false)
    (he : h.canReturn = true ∨ s.canEnter h = true ∧ s.tasks.any Task.canReturn = false) :
    (s.spillIntact h = true → ∃ t g, exec (.taskReady key) s = .next t ∧ t.taskKey? key = some g ∧
      g = { h with phase := .ready, inPool := true, poolSince := s.cycle, spill := none } ∧ t.cores = s.cores ∧ t.mem = s.mem) ∧
    (s.spillIntact h = false → ∃ t g, exec (.taskReady key) s = .next t ∧ t.taskKey? key = some g ∧ g.phase = .failed ∧ g.kind = 11 ∧ g.detail = 1) := by
  obtain ⟨-, hpart, hid⟩ := State.task?_some hk
  have hk' : s.task? h.part h.id = some h := by rw [hpart, hid]; exact hk
  have hkey : ∀ t : State, t.taskKey? key = t.task? h.part h.id := fun t => by rw [hpart, hid]; rfl
  have hexec := taskReady_enters hk hc hp he
  constructor
  · intro hi
    rw [if_pos hi] at hexec
    refine ⟨_, _, hexec, ?_, rfl, rfl, rfl⟩
    rw [hkey]
    exact (State.task?_modTask s h.part h.id (Task.readied s.cycle) (fun _ => ⟨rfl, rfl⟩)).trans (congrArg (Option.map _) hk')
  · intro hi
    rw [if_neg (by rw [hi]; exact Bool.false_ne_true)] at hexec
    obtain ⟨g, hg, hph, hkind, hdet⟩ := State.task?_fail hk' hp kRefused 1 0
    exact ⟨_, g, hexec, (hkey _).trans hg, hph, hkind, hdet⟩

/-- What a dispatched gang's cores and scratchpads hold, by what its task had saved (R28, R289, R291, R305). -/
theorem State.Weighs.dispatched_members {v : State} (hv : s.Weighs v) {cores : List Nat} {l : Loaded} (hn : cores.Nodup)
    (hl : h.loaded.or (s.loadTask h).2 = some l) :
    (∀ (ims : List Image), h.images = some ims → ims.length = cores.length → ∀ (r c : Nat) (im : Image), cores[r]? = some c → ims[r]? = some im →
      (∃ (u : State) (k : CoreSt), (v.dispatch h cores).core c =
        u.startClocks h.part c (restoreCore h (ims.map (·.core)) cores (relocated l cores) im k)) ∧
      ((im.spadBytes.map (·.1)).Nodup → (∀ x ∈ ims, ∀ e ∈ x.spadBytes, e.1 < 2 ^ 19) → ∀ i, i < 2 ^ 19 →
        mget (v.dispatch h cores).mem (spadKey c i) = ((im.spadBytes.find? (fun e => e.1 == i)).map (·.2)).getD 0)) ∧
    (h.images = none → ∀ r c, cores[r]? = some c →
      (∃ (u : State) (k : CoreSt), (v.dispatch h cores).core c = u.startClocks h.part c (startCore h l (relocated l cores) r k)) ∧
      ∀ i, i < 2 ^ 19 → mget (v.dispatch h cores).mem (spadKey c i) = 0) := by
  have hvl := (hv.loadedFor h).trans hl
  constructor
  · intro ims hi hlen r c im hc him
    rw [State.dispatch_core hvl, State.dispatch_mem hvl, State.manned_restored v hi]
    exact ⟨State.restoreGang_core _ h l hn hlen hc him, fun hnd hb i hlt => State.restoreGang_mget _ h l hn hlen hc him hnd hb hlt⟩
  · intro hi r c hc
    rw [State.dispatch_core hvl, State.dispatch_mem hvl, State.manned_new v hi]
    exact State.dispatchNew_member _ h l hn hc

end

/-- Settles O48: the parts are a task's entry into the pool, the ageing of a stream, the visits of a level by rounds of credit, what a dispatch
writes for every rank, the rewriting of remote addresses, the choice of victims, their request, and the notices. -/
theorem tasksBecomeReadyAndAreDispatched : Obligations.TasksBecomeReadyAndAreDispatched := by
  unfold Obligations.TasksBecomeReadyAndAreDispatched
  intro s h q key
  refine ⟨taskReady_result, taskReady_stays, streamAged_boosts, dispatchDecision_of_no_head, ?_, ?_, ?_, ?_, ?_, ?_, ?_, ?_, ?_⟩
  · intro cores l hj hlv hlevels hptr hcred hh hw hsize hplace hn hl hu
    obtain ⟨v, k, hv, hvptr, hvcred, hvstream, hk, hfit, hleast, hexec⟩ :=
      dispatchDecision_dispatches hj hlv hlevels hptr hcred hh hw hsize hplace
    have hvl := (hv.loadedFor h).trans hl
    obtain ⟨n, htask⟩ := hv.task?_dispatched (cores := cores) hh hu hl (Stream.charged h.recd.size)
    obtain ⟨hrestored, hnew⟩ := hv.dispatched_members hn hl
    refine ⟨_, _, k + 1, hexec, htask, rfl, rfl, rfl, ⟨Nat.succ_pos k, hk, hfit, hleast, ?_⟩, ?_, ?_, ?_, ?_⟩
    · rw [State.stream_modStream_self]
      show ((v.dispatch h cores).stream q).deficit - _ = _
      rw [State.dispatch_deficit hvl, hvstream]
      rfl
    · exact (congrArg (tget 0 · h.eprio) (State.dispatch_ptr hvl)).trans hvptr
    · exact (congrArg (tget false · h.eprio) (State.dispatch_cred hvl)).trans hvcred
    · intro ims hi hlen _ r c im hc him
      obtain ⟨⟨u, kc, hcore⟩, hmem⟩ := hrestored ims hi hlen r c im hc him
      obtain ⟨⟨h1, h2, h3, h4, h5, h6, h7, h8, h9, h10, h11, h12, h13, h14, h15, h16, h17, h18, h19⟩, hlo, hstrand⟩ :=
        startClocks_restoreCore_fields hcore
      exact ⟨h1, h2, h3, h4, h5, h6, h7, h8, h9, h10, h11, h12, h13, h14, h15, h16, h17, h18, h19, hlo, hstrand, hmem⟩
    · intro hi r c hc
      obtain ⟨⟨u, kc, hcore⟩, hmem⟩ := hnew hi r c hc
      obtain ⟨h1, h2, h3, h4, h5, h6, h7, h8, h9, h10, h11, h12, h13, h14, h15, h16, hconst, hstrand⟩ := startClocks_startCore_fields hcore
      exact ⟨h1, h2, h3, h4, h5, h6, h7, h8, h9, h10, h11, h12, h13, h14, h15, h16, hconst, hstrand, hmem⟩
  · intro spad old new v f z y x off hr hz hy hx hoff hf hnew
    exact rewriteAddr_toNat hr hz hy hx hoff hf hnew
  · exact fun spad old new v hv => rewriteAddr_of_not_remote hv spad old new
  · intro cores l g p lv hj hpr hlv habove hp hq hnext hpq hptr hcred hg hh hu credit hpass hsize hplace hl
    obtain ⟨v, hv, hvptr, hvcred, hvp, hvq, hexec⟩ :=
      dispatchDecision_next_stream hj hlv habove hp hq hnext hpq hptr hcred hg hh hpass hsize hplace
    have hl' : h.loaded.or (s.loadTask h).2 = some l := by rw [hl]; rfl
    have hvl := (hv.loadedFor h).trans hl'
    obtain ⟨n, htask⟩ := hv.task?_dispatched (cores := cores) hh hu hl' (Stream.charged h.recd.size)
    refine ⟨_, _, hexec, htask, rfl, rfl, ?_, ?_, ?_, ?_, ?_⟩
    · exact (congrArg (tget 0 · lv) (State.dispatch_ptr hvl)).trans hvptr
    · exact (congrArg (tget false · lv) (State.dispatch_cred hvl)).trans hvcred
    · have hother : ((v.dispatch h cores).modStream q (Stream.charged h.recd.size)).stream p = (v.dispatch h cores).stream p :=
        tget_tset_ne _ _ _ _ _ hpq
      rw [hother, State.dispatch_deficit hvl, hvp]
      rfl
    · rw [State.stream_modStream_self]
      show ((v.dispatch h cores).stream q).deficit - _ = _
      rw [State.dispatch_deficit hvl, hvq]
      rfl
    · intro x hx hk
      rw [← hv.tasks]
      exact State.mem_tasks_dispatch hvl hx hk
  · intro hj hlv hlevels hptr hcred hh hsize hplace
    obtain ⟨w, hw, hwcred, hexec⟩ := dispatchDecision_asks hj hlv hlevels hptr hcred hh hsize hplace
    have hchoose : w.chooseVictims h (w.candidates h) [] = s.chooseVictims h (s.candidates h) [] := by
      rw [hw.candidates, hw.chooseVictims]
    refine ⟨_, hexec, ?_, fun hnone => ?_, fun vs hpend hvs hn hd => ?_⟩
    · rw [(w.requestPreemption_sameHeads h).2.1]
      exact hwcred
    · rw [State.requestPreemption_none (hw.tasks.symm ▸ hchoose.symm ▸ hnone)]
      exact ⟨hw.tasks, hw.reserved⟩
    · rw [State.requestPreemption_some (hw.tasks.symm ▸ hpend) (hchoose.trans hvs), State.foldl_requestHold_reserved, hw.reserved]
      refine ⟨rfl, fun v hv => ?_⟩
      obtain ⟨l, hl, hsub⟩ := State.chooseVictims_sublist hvs
      rw [List.nil_append] at hl
      have hmem : ∀ v ∈ vs, v ∈ w.tasks := fun v hv => by
        rw [hw.tasks]
        exact (State.mem_candidates.mp (hsub.subset (hl ▸ hv))).1
      have hasked := State.foldl_requestHold_asks w h hmem (hw.tasks.symm ▸ hn) hd v hv
      simp only [State.Asked, hw.core, hw.cycle] at hasked
      exact hasked
  · exact fun v => State.mem_candidates
  · exact s.pairwise_candidates h
  · exact fun hroom => by simpa only [List.nil_append] using s.chooseVictims_eq h (s.candidates h) [] (by simpa only [List.nil_append] using hroom)
  · exact capacityNotice_reports s

end Sys2Proof.Machine
end

section
/-! PROOFS. What an engine that works leaves as it was: translation and everything but its core's TLB, stash and pending writes (R231, R263, R296,
R297). -/

namespace Sys2Proof.Machine

/-! A leaf serves every address that it covers. -/

theorem State.walkPages_congr (s : State) (p : Nat) {va vb : Nat} (h : va / 2 ^ 16 = vb / 2 ^ 16) : s.walkPages p va = s.walkPages p vb := by
  have h42 : va / 2 ^ 42 = vb / 2 ^ 42 := by omega
  have h29 : va / 2 ^ 29 = vb / 2 ^ 29 := by omega
  unfold State.walkPages
  rw [h42, h29, h]

/-- The leaf of a walk: its page is that of the address, or a large one that every address of it leads to. -/
theorem State.walkPages_leaf {s : State} {p va : Nat} {e : TlbEntry} (h : s.walkPages p va = .ok e) :
    (e.units = 1 ∧ e.vpage = va / 2 ^ 16) ∨
      (e.units = 2 ^ 13 ∧ e.vpage = va / 2 ^ 29 * 2 ^ 13 ∧ ∀ vb, vb / 2 ^ 29 = va / 2 ^ 29 → s.walkPages p vb = .ok e) := by
  unfold State.walkPages at h ⊢
  dsimp only at h ⊢
  split at h
  · cases h
  next h1 =>
  split at h
  · cases h
  next h2 =>
  split at h
  · cases h
  next h3 =>
  split at h
  · cases h
  next h4 =>
  split at h
  · next h5 =>
    split at h
    · next h6 =>
      obtain rfl := Except.ok.inj h
      refine .inr ⟨rfl, rfl, fun vb hvb => ?_⟩
      have h42 : vb / 2 ^ 42 = va / 2 ^ 42 := by omega
      rw [h42, hvb, if_neg h1, if_neg h2, if_neg h3, if_neg h4, if_pos h5, if_pos h6]
    · cases h
  · split at h
    · cases h
    · split at h
      · cases h
      · split at h
        · obtain rfl := Except.ok.inj h
          exact .inl ⟨rfl, rfl⟩
        · cases h

/-- Every address that the leaf of a walk covers has that leaf. -/
theorem State.walkPages_of_covers {s : State} {p va vb : Nat} {e : TlbEntry} (h : s.walkPages p va = .ok e) (hc : e.covers vb = true) :
    s.walkPages p vb = .ok e := by
  simp only [TlbEntry.covers, Bool.and_eq_true, decide_eq_true_eq] at hc
  rcases State.walkPages_leaf h with ⟨hu, hv⟩ | ⟨hu, hv, hall⟩
  · rw [← h]
    exact s.walkPages_congr p (by omega)
  · exact hall vb (by omega)

/-! An engine at work. -/

/-- A state that the work of core c's engines has led to: memory, translation and the other cores are as in `s`; its TLB holds leaves of the tables, and
no line of its stash is marked. -/
structure Works (s : State) (c : Nat) (u : State) : Prop where
  frame : u = { s with cores := u.cores, outstanding := u.outstanding, nextTag := u.nextTag }
  others : ∀ d, d ≠ c → u.core d = s.core d
  context : (u.core c).part = (s.core c).part ∧ (u.core c).spad = (s.core c).spad ∧ (u.core c).resident = (s.core c).resident ∧
    (u.core c).task = (s.core c).task ∧ (u.core c).copies = (s.core c).copies
  leaves : ∀ e ∈ (u.core c).tlb, ∀ va, e.covers va = true → s.walkPages (s.core c).part va = .ok e
  unmarked : ∀ x ∈ (u.core c).stash, x.marked = false

/-- Of a core only its TLB, its stash and its pending writes have changed. -/
def KeepsCore (k k' : CoreSt) : Prop := ∃ t h b, k' = { k with tlb := t, stash := h, ebuf := b }

theorem KeepsCore.refl (k : CoreSt) : KeepsCore k k := ⟨k.tlb, k.stash, k.ebuf, rfl⟩

theorem KeepsCore.trans {k k' k'' : CoreSt} (h : KeepsCore k k') (h' : KeepsCore k' k'') : KeepsCore k k'' := by
  obtain ⟨t, a, b, rfl⟩ := h
  obtain ⟨t', a', b', rfl⟩ := h'
  exact ⟨t', a', b', rfl⟩

theorem KeepsCore.engine {k k' : CoreSt} (h : KeepsCore k k') (e : Engine) : k'.engine e = k.engine e := by
  obtain ⟨t, a, b, rfl⟩ := h
  cases e <;> rfl

theorem Works.of_calm {s : State} {c : Nat} (h : Calm s c) : Works s c s := ⟨rfl, fun _ _ => rfl, ⟨rfl, rfl, rfl, rfl, rfl⟩, h.1, h.2⟩

section
variable {s u : State} {c : Nat}

theorem Works.mem (h : Works s c u) : u.mem = s.mem := by rw [h.frame]
theorem Works.tasks (h : Works s c u) : u.tasks = s.tasks := by rw [h.frame]
theorem Works.cycle (h : Works s c u) : u.cycle = s.cycle := by rw [h.frame]

theorem Works.byteAt (h : Works s c u) (key : Nat) : u.byteAt key = s.byteAt key := by
  rw [h.frame]
  rfl

theorem Works.badAt (h : Works s c u) (key n : Nat) : u.badAt key n = s.badAt key n := by
  rw [h.frame]
  rfl

theorem Works.walkPages (h : Works s c u) (p va : Nat) : u.walkPages p va = s.walkPages p va := by
  have hpte : u.pte = s.pte := by
    rw [h.frame]
    rfl
  have hpart : u.part = s.part := by
    rw [h.frame]
    rfl
  have hpage : u.pageOk = s.pageOk := by
    rw [h.frame]
    rfl
  unfold State.walkPages
  rw [hpte, hpart, hpage]

theorem Works.useLeaf (h : Works s c u) (p va : Nat) (w : Bool) (e : TlbEntry) : u.useLeaf p va w e = s.useLeaf p va w e := by
  rw [h.frame]
  rfl

/-- The leaf that an engine uses is that of the tables. -/
theorem Works.coreLeaf (h : Works s c u) (va : Nat) : u.coreLeaf c va = s.walkPages (s.core c).part va := by
  unfold State.coreLeaf
  split
  · next e he => exact (h.leaves e (List.mem_of_find?_eq_some he) va (by simpa using List.find?_some he)).symm
  · rw [h.walkPages, h.context.1]

theorem Works.taskOf (h : Works s c u) : u.taskOf c = s.taskOf c := by
  obtain ⟨hp, -, hr, ht, -⟩ := h.context
  rw [State.taskOf, State.taskOf, State.task?, State.task?, hp, hr, ht, h.tasks]

theorem Works.spadOf (h : Works s c u) (ea : Nat) : u.spadOf c ea = s.spadOf c ea := by
  have hg : u.inGang c = s.inGang c := by
    funext d
    rw [State.inGang, State.inGang, State.gang, State.gang, h.taskOf]
  unfold State.spadOf
  rw [h.context.2.1, hg]

/-- Where an address leads does not change while an engine works. -/
theorem Works.keyOf (h : Works s c u) (h0 : Calm s c) (ea : Nat) (w : Bool) : u.keyOf c ea w = s.keyOf c ea w := by
  have hleaf : u.coreLeaf c ea = s.coreLeaf c ea := (h.coreLeaf ea).trans ((Works.of_calm h0).coreLeaf ea).symm
  have huse : u.useLeaf (u.core c).part ea w = s.useLeaf (s.core c).part ea w := by
    funext e
    rw [h.context.1, h.useLeaf]
  unfold State.keyOf
  rw [hleaf, huse, h.spadOf]

/-! What an access of an engine does beside its byte. -/

/-- A step of an engine's work that writes nothing. -/
def Looks (s : State) (c : Nat) (u v : State) : Prop := Works s c v ∧ KeepsCore (u.core c) (v.core c) ∧ (v.core c).ebuf = (u.core c).ebuf

theorem Looks.refl (h : Works s c u) : Looks s c u u := ⟨h, .refl _, rfl⟩

theorem Looks.trans {v w : State} (h : Looks s c u v) (h' : Looks s c v w) : Looks s c u w :=
  ⟨h'.1, h.2.1.trans h'.2.1, h'.2.2.trans h.2.2⟩

theorem Looks.cacheLeaf (h : Works s c u) (va : Nat) : Looks s c u (u.cacheLeaf c va) := by
  unfold State.cacheLeaf
  split
  · exact .refl h
  · split
    · next e he =>
      rw [h.walkPages, h.context.1] at he
      refine ⟨⟨?_, ?_, ?_, ?_, ?_⟩, ?_, ?_⟩
      · rw [h.frame]
        rfl
      · exact fun d hd => (State.core_modCore_ne _ _ _ _ hd).trans (h.others d hd)
      · rw [State.core_modCore_self]
        exact h.context
      · rw [State.core_modCore_self]
        intro x hx vb hc
        rcases List.mem_append.mp hx with hx | hx
        · exact h.leaves x (List.mem_of_mem_drop hx) vb hc
        · obtain rfl := List.mem_singleton.mp hx
          exact State.walkPages_of_covers he hc
      · rw [State.core_modCore_self]
        exact h.unmarked
      · rw [State.core_modCore_self]
        exact ⟨_, _, _, rfl⟩
      · rw [State.core_modCore_self]
    · exact .refl h

theorem State.leaveMark_of_unmarked {x : StashLine} (h : x.marked = false) (s : State) (c : Nat) : s.leaveMark c x = s := by
  rw [State.leaveMark, h, Bool.and_false]
  rfl

/-- Lines that go unmarked change what is asked, and nothing else. -/
theorem State.foldl_leaveMark_answer (s : State) (c : Nat) (l : List StashLine) (h : ∀ x ∈ l, x.marked = false) :
    ∃ o, l.foldl (fun s y => (s.leaveMark c y).answer c (.line y.line)) s = { s with outstanding := o } := by
  refine List.foldlRecOn (motive := fun u : State => ∃ o, u = { s with outstanding := o }) l _ ⟨s.outstanding, rfl⟩ ?_
  rintro u ⟨o, rfl⟩ x hx
  exact ⟨_, by rw [State.leaveMark_of_unmarked (h x hx)]; rfl⟩

/-- A new stash of a core whose lines are not marked. -/
theorem Looks.setStash (h : Works s c u) {l : List StashLine} (hl : ∀ x ∈ l, x.marked = false) (o : List Outstanding) (n : Nat) :
    Looks s c u (({ u with outstanding := o, nextTag := n } : State).setCore c { u.core c with stash := l }) := by
  refine ⟨⟨?_, ?_, ?_, ?_, ?_⟩, ?_, ?_⟩
  · rw [h.frame]
    rfl
  · exact fun d hd => (State.core_setCore_ne _ _ _ _ hd).trans (h.others d hd)
  · rw [State.core_setCore_self]
    exact h.context
  · rw [State.core_setCore_self]
    exact h.leaves
  · rw [State.core_setCore_self]
    exact hl
  · rw [State.core_setCore_self]
    exact ⟨_, _, _, rfl⟩
  · rw [State.core_setCore_self]

theorem Looks.stashTouch (h : Works s c u) (line : Nat) : Looks s c u (u.stashTouch c line) := by
  unfold State.stashTouch
  dsimp only
  split
  · next x hx =>
    refine Looks.setStash h (l := x :: (u.core c).stash.filter (fun y => y.line != line)) ?_ u.outstanding u.nextTag
    intro y hy
    rcases List.mem_cons.mp hy with rfl | hy
    · exact h.unmarked y (List.mem_of_find?_eq_some hx)
    · exact h.unmarked y (List.mem_of_mem_filter hy)
  · obtain ⟨o, ho⟩ := u.foldl_leaveMark_answer c ((u.core c).stash.drop ((u.core c).stashUnits * 128 - 1))
      fun x hx => h.unmarked x (List.mem_of_mem_drop hx)
    rw [ho]
    refine Looks.setStash h (l := _ :: stashRoom _ _) ?_ _ _
    intro y hy
    rcases List.mem_cons.mp hy with rfl | hy
    · rfl
    · exact h.unmarked y (List.mem_of_mem_take hy)

theorem Looks.stashUse (h : Works s c u) (ea n : Nat) : Looks s c u (u.stashUse c ea n) := by
  unfold State.stashUse
  split
  · exact List.foldlRecOn (motive := fun v : State => Looks s c u v) _ _ (.refl h) fun v hv i _ => hv.trans (.stashTouch hv.1 _)
  · exact .refl h

/-- What a read of a byte that lies in no view does beside it. -/
theorem Looks.read (h : Works s c u) (a : Nat) {key : Nat} (hk : paKind key ≠ .view) :
    Looks s c u (((u.cacheLeaf c a).touch key 1).stashUse c a 1) := by
  have htouch : (u.cacheLeaf c a).touch key 1 = u.cacheLeaf c a := by
    rw [State.touch, if_pos (.inr hk)]
  rw [htouch]
  exact (Looks.cacheLeaf h a).trans (.stashUse (Looks.cacheLeaf h a).1 a 1)

/-- An engine's write to one byte, with what it does beside it. -/
theorem Works.put (h : Works s c u) (a key : Nat) (b : Byte) {v : State}
    (hv : v = (((u.cacheLeaf c a).stashUse c a 1).engWrite c key b).modCore c (fun k => k.stashDirty a)) :
    Works s c v ∧ KeepsCore (u.core c) (v.core c) ∧ (v.core c).ebuf = tset (u.core c).ebuf key b := by
  obtain ⟨hw, hkeep, hbuf⟩ := (Looks.cacheLeaf h a).trans (.stashUse (Looks.cacheLeaf h a).1 a 1)
  generalize ((u.cacheLeaf c a).stashUse c a 1) = w at *
  have hcore : v.core c = ({ w.core c with ebuf := tset (w.core c).ebuf key b } : CoreSt).stashDirty a := by
    rw [hv, State.core_modCore_self, State.engWrite, State.core_modCore_self]
  refine ⟨⟨?_, ?_, ?_, ?_, ?_⟩, ?_, ?_⟩
  · rw [hv, hw.frame]
    rfl
  · intro d hd
    rw [hv, State.core_modCore_ne _ _ _ _ hd, State.engWrite, State.core_modCore_ne _ _ _ _ hd, hw.others d hd]
  · rw [hcore]
    exact hw.context
  · rw [hcore]
    exact hw.leaves
  · rw [hcore]
    intro x hx
    obtain ⟨y, hy, rfl⟩ := List.mem_map.mp hx
    split
    · exact hw.unmarked y hy
    · exact hw.unmarked y hy
  · rw [hcore]
    exact hkeep.trans ⟨_, _, _, rfl⟩
  · rw [hcore, ← hbuf]
    rfl

end

end Sys2Proof.Machine
end

section
/-! PROOFS. A calculus for the work of engines: what a part of a command gives and leaves, by what the core sees before and after (R236, R263). -/

namespace Sys2Proof.Machine

/-- What a core sees, byte by byte. -/
abbrev Sight := Nat → Byte

/-! Bytes that a core sees. -/

theorem find?_tset {α : Type} (t : Tbl α) (k j : Nat) (v : α) :
    (tset t k v).find? (fun e => e.1 == j) = if j = k then some (k, v) else t.find? (fun e => e.1 == j) := by
  induction t with
  | nil =>
    by_cases h : j = k
    · simp [tset, h]
    · simp [tset, h, Ne.symm h]
  | cons e t ih =>
    obtain ⟨k', v'⟩ := e
    unfold tset
    split
    · by_cases h : j = k
      · simp [h]
      · simp [h, Ne.symm h]
    · split
      · next hk =>
        subst hk
        by_cases h : j = k
        · simp [h]
        · simp [h, Ne.symm h]
      · next hk =>
        rw [List.find?_cons, ih, List.find?_cons]
        by_cases h : j = k
        · subst h
          have hne : (k' == j) = false := beq_eq_false_iff_ne.mpr (Ne.symm hk)
          simp only [hne, if_true]
        · simp only [h, if_false]

section
variable {s u v : State} {c : Nat}

/-- What a core sees changes with its pending writes only. -/
theorem Works.coreByte_of_ebuf (hu : Works s c u) (hv : Works s c v) (h : (v.core c).ebuf = (u.core c).ebuf) : v.coreByte c = u.coreByte c := by
  funext key
  rw [State.coreByte, State.coreByte, h, hv.byteAt, hu.byteAt]

/-- A core sees the byte that its engine has written (R263). -/
theorem Works.coreByte_put (hu : Works s c u) (hv : Works s c v) {key : Nat} {b : Byte} (h : (v.core c).ebuf = tset (u.core c).ebuf key b) :
    v.coreByte c = Function.update (u.coreByte c) key b := by
  funext j
  rw [State.coreByte, h, find?_tset, hv.byteAt]
  by_cases hj : j = key
  · subst hj
    rw [if_pos rfl, Function.update_self]
  · rw [if_neg hj, Function.update_of_ne hj, State.coreByte, hu.byteAt]

end

/-! Parts of commands. -/

/-- From a state of the engine's work in which the core's sight meets `P`, a part of a command gives a value, and ends in one in which `Q` holds of it
and of the sight; of the core only its TLB, stash and pending writes have changed. -/
def Does (s : State) (c : Nat) {α : Type} (x : Eng α) (P : Sight → Prop) (Q : α → Sight → Prop) : Prop :=
  ∀ u, Works s c u → P (u.coreByte c) →
    ∃ a v, x.run u = (.ok a, v) ∧ Works s c v ∧ KeepsCore (u.core c) (v.core c) ∧ Q a (v.coreByte c)

theorem Eng.run_bind_ok {α β : Type} {x : Eng α} {f : α → Eng β} {u v : State} {a : α} (h : x.run u = (.ok a, v)) :
    (x >>= f).run u = (f a).run v := by
  rw [ExceptT.run_bind]
  change StateT.bind _ _ _ = _
  unfold StateT.bind
  rw [h]
  rfl

theorem Eng.run_bind_error {α β : Type} {x : Eng α} {f : α → Eng β} {u v : State} {e : Nat × Nat} (h : x.run u = (.error e, v)) :
    (x >>= f).run u = (.error e, v) := by
  rw [ExceptT.run_bind]
  change StateT.bind _ _ _ = _
  unfold StateT.bind
  rw [h]
  rfl

section
variable {s : State} {c : Nat} {α β : Type} {P : Sight → Prop} {Q : α → Sight → Prop}

theorem Does.pure (a : α) (h : ∀ σ, P σ → Q a σ) : Does s c (pure a : Eng α) P Q :=
  fun u hu hp => ⟨a, u, rfl, hu, .refl _, h _ hp⟩

theorem Does.bind {x : Eng α} {f : α → Eng β} {R : β → Sight → Prop} (hx : Does s c x P Q) (hf : ∀ a, Does s c (f a) (Q a) R) :
    Does s c (x >>= f) P R := by
  intro u hu hp
  obtain ⟨a, v, hrun, hv, hkeep, hq⟩ := hx u hu hp
  obtain ⟨b, w, hrun', hw, hkeep', hr⟩ := hf a v hv hq
  exact ⟨b, w, (Eng.run_bind_ok hrun).trans hrun', hw, hkeep.trans hkeep', hr⟩

/-- A part whose value is known, before another. -/
theorem Does.bind_val {x : Eng α} {f : α → Eng β} {a : α} {P' : Sight → Prop} {R : β → Sight → Prop}
    (hx : Does s c x P (fun b σ => b = a ∧ P' σ)) (hf : Does s c (f a) P' R) : Does s c (x >>= f) P R := by
  refine hx.bind fun b u hu hp => ?_
  obtain ⟨rfl, hp⟩ := hp
  exact hf u hu hp

/-- A part whose value does not matter, before another. -/
theorem Does.seq {x : Eng Unit} {y : Eng β} {P' : Sight → Prop} {R : β → Sight → Prop} (hx : Does s c x P (fun _ => P')) (hy : Does s c y P' R) :
    Does s c (x >>= fun _ => y) P R := hx.bind fun _ => hy

theorem Does.conseq {x : Eng α} {P' : Sight → Prop} {Q' : α → Sight → Prop} (hx : Does s c x P' Q') (hp : ∀ σ, P σ → P' σ)
    (hq : ∀ a σ, Q' a σ → Q a σ) : Does s c x P Q := by
  intro u hu h
  obtain ⟨a, v, hrun, hv, hkeep, h'⟩ := hx u hu (hp _ h)
  exact ⟨a, v, hrun, hv, hkeep, hq _ _ h'⟩

theorem Eng.run_get_bind (f : State → Eng α) (u : State) : (get >>= f : Eng α).run u = (f u).run u := Eng.run_bind_ok rfl

/-- A part that keeps the state as it stands, to read from it later. -/
theorem Does.get {f : State → Eng α} (h : ∀ u, Works s c u → P (u.coreByte c) → Does s c (f u) P Q) :
    Does s c (get >>= f) P Q := by
  intro u hu hp
  rw [Eng.run_get_bind]
  exact h u hu hp u hu hp

/-! Loops. -/

theorem Does.forM_range' {f : Nat → Eng Unit} (n : Nat) (I : Nat → Sight → Prop) (k : Nat)
    (h : ∀ i, k ≤ i → i < k + n → Does s c (f i) (I i) (fun _ => I (i + 1))) :
    Does s c ((List.range' k n).forM f) (I k) (fun _ => I (k + n)) := by
  induction n generalizing k with
  | zero => exact Does.pure () fun _ h => h
  | succ n ih =>
    rw [List.range'_succ]
    have hlast : k + 1 + n = k + (n + 1) := by omega
    refine Does.seq (h k le_rfl (by omega)) ?_
    rw [← hlast]
    exact ih (k + 1) fun i hi hlt => h i (by omega) (by omega)

theorem Does.forM_range {f : Nat → Eng Unit} (n : Nat) (I : Nat → Sight → Prop) (h : ∀ i, i < n → Does s c (f i) (I i) (fun _ => I (i + 1))) :
    Does s c ((List.range n).forM f) (I 0) (fun _ => I n) := by
  have hr := Does.forM_range' (s := s) (c := c) (f := f) n I 0 fun i _ hi => h i (by omega)
  rw [Nat.zero_add] at hr
  rw [List.range_eq_range']
  exact hr

/-- A loop whose values do not matter. -/
theorem Does.mapM_range {f : Nat → Eng β} (n : Nat) (I : Nat → Sight → Prop) (h : ∀ i, i < n → Does s c (f i) (I i) (fun _ => I (i + 1))) :
    Does s c ((List.range n).mapM f) (I 0) (fun _ => I n) := by
  have hr : ∀ m k, (∀ i, k ≤ i → i < k + m → Does s c (f i) (I i) (fun _ => I (i + 1))) →
      Does s c ((List.range' k m).mapM f) (I k) (fun _ => I (k + m)) := by
    intro m
    induction m with
    | zero =>
      intro k _
      rw [List.range'_zero, List.mapM_nil]
      exact Does.pure [] fun _ h => h
    | succ m ih =>
      intro k hk
      rw [List.range'_succ, List.mapM_cons]
      have hlast : k + 1 + m = k + (m + 1) := by omega
      refine (hk k le_rfl (by omega)).bind fun a => ?_
      rw [← hlast]
      exact (ih (k + 1) fun i hi hlt => hk i (by omega) (by omega)).bind fun l => Does.pure _ fun _ h => h
  have h0 := hr n 0 fun i _ hi => h i (by omega)
  rw [Nat.zero_add] at h0
  rw [List.range_eq_range']
  exact h0

/-- A loop that reads: its values. -/
theorem Does.mapM_reads {ι : Type} {f : ι → Eng β} (l : List ι) (g : ι → β) (h : ∀ x ∈ l, Does s c (f x) P (fun b σ => b = g x ∧ P σ)) :
    Does s c (l.mapM f) P (fun bs σ => bs = l.map g ∧ P σ) := by
  induction l with
  | nil =>
    rw [List.mapM_nil]
    exact Does.pure [] fun _ h => ⟨rfl, h⟩
  | cons x l ih =>
    rw [List.mapM_cons]
    refine (h x List.mem_cons_self).bind_val ((ih fun y hy => h y (List.mem_cons_of_mem _ hy)).bind_val ?_)
    exact Does.pure _ fun _ h => ⟨rfl, h⟩

end

/-! Addresses. -/

theorem addrPlus_zero (ea : Dword) : addrPlus ea 0 = ea.toNat := by simp [addrPlus]

theorem addrPlus_succ (ea : Dword) (i : Nat) : addrPlus ea (i + 1) = addrPlus (ea + 1) i := by
  unfold addrPlus
  congr 1
  rw [Nat.add_comm, BitVec.ofNat_add, BitVec.add_assoc]
  rfl

theorem plus_natCast (ea : Dword) (n : Nat) : plus ea n = ea + BitVec.ofNat 64 n := by
  rw [plus, BitVec.ofInt_natCast]

theorem addrPlus_plus (ea : Dword) (n i : Nat) : addrPlus (plus ea n) i = addrPlus ea (n + i) := by
  rw [plus_natCast]
  unfold addrPlus
  rw [BitVec.ofNat_add, BitVec.add_assoc]

theorem plus_zero (ea : Dword) : plus ea 0 = ea := by
  have h := plus_natCast ea 0
  simpa using h

/-! Reads. -/

/-- Core c may read these bytes at an address, and with this sight they are what it sees there: `Sees` is this for the sight of a state. -/
def Reads (s : State) (c : Nat) (σ : Sight) (ea : Dword) (bs : List Byte) : Prop :=
  ∀ i, i < bs.length → ∃ key, s.keyOf c (addrPlus ea i) false = .ok key ∧ paKind key ≠ .view ∧ s.badAt key 1 = false ∧ σ key = bs.getD i 0

theorem sees_iff {s : State} {c : Nat} {ea : Dword} {bs : List Byte} : Sees s c ea bs ↔ Reads s c (s.coreByte c) ea bs := Iff.rfl

theorem slice_length {bs : List Byte} {i n : Nat} (h : i + n ≤ bs.length) : (slice bs i n).length = n := by
  rw [slice, List.length_take, List.length_drop]
  omega

theorem slice_getD {bs : List Byte} {i n j : Nat} (hj : j < n) : (slice bs i n).getD j 0 = bs.getD (i + j) 0 := by
  simp [slice, List.getD_eq_getElem?_getD, hj]

theorem slice_all (bs : List Byte) : slice bs 0 bs.length = bs := by simp [slice]

section
variable {s : State} {c : Nat} {σ : Sight} {ea : Dword} {bs : List Byte}

theorem Reads.tail {b : Byte} (h : Reads s c σ ea (b :: bs)) : Reads s c σ (ea + 1) bs := by
  intro i hi
  obtain ⟨key, hk, hv, hb, hs⟩ := h (i + 1) (Nat.succ_lt_succ hi)
  exact ⟨key, by rw [← addrPlus_succ]; exact hk, hv, hb, hs⟩

/-- Bytes that lie in a range that a core may read. -/
theorem Reads.slice (h : Reads s c σ ea bs) {i n : Nat} (hn : i + n ≤ bs.length) : Reads s c σ (plus ea i) (slice bs i n) := by
  intro j hj
  rw [slice_length hn] at hj
  obtain ⟨key, hk, hv, hb, hs⟩ := h (i + j) (by omega)
  exact ⟨key, by rw [addrPlus_plus]; exact hk, hv, hb, by rw [hs, slice_getD hj]⟩

theorem Reads.congr {τ : Sight} (h : Reads s c σ ea bs)
    (hτ : ∀ i, i < bs.length → ∀ key, s.keyOf c (addrPlus ea i) false = .ok key → τ key = σ key) : Reads s c τ ea bs := by
  intro i hi
  obtain ⟨key, hk, hv, hb, hs⟩ := h i hi
  exact ⟨key, hk, hv, hb, (hτ i hi key hk).trans hs⟩

end

/-! One byte of a read. -/

theorem Eng.run_set_bind {α : Type} (v : State) (f : PUnit → Eng α) (u : State) : (set v >>= f : Eng α).run u = (f ⟨⟩).run v := Eng.run_bind_ok rfl

section
variable {u v : State} {c key n : Nat} {ea : Dword} {pick : State → State}

theorem engReadIn_run_ok (hk : u.keyOf c ea.toNat false = .ok key) (hv : v = ((u.cacheLeaf c ea.toNat).touch key 1).stashUse c ea.toNat 1)
    (hb : (pick v).badAt key 1 = false) (hm : ((pick v).core c).stashMarked ea.toNat = false) :
    (engReadIn pick c ea (n + 1)).run u = (engReadIn pick c (ea + 1) n >>= fun r => pure ((pick v).coreByte c key :: r)).run v := by
  rw [engReadIn, Eng.run_get_bind]
  simp only [hk, ← hv]
  rw [Eng.run_set_bind]
  simp only [hb, hm, Bool.or_false, Bool.false_eq_true, if_false]

theorem engReadIn_run_marked (hk : u.keyOf c ea.toNat false = .ok key) (hv : v = ((u.cacheLeaf c ea.toNat).touch key 1).stashUse c ea.toNat 1)
    (hb : (pick v).badAt key 1 = true) : (engReadIn pick c ea (n + 1)).run u = (.error (kPoison, ea.toNat), v) := by
  rw [engReadIn, Eng.run_get_bind]
  simp only [hk, ← hv]
  rw [Eng.run_set_bind]
  simp only [hb, Bool.true_or, if_true]
  rfl

theorem engReadIn_run_fatal {kd ad : Nat} (hk : u.keyOf c ea.toNat false = .error (.fatal kd ad)) :
    (engReadIn pick c ea (n + 1)).run u = (.error (kd, ad), u) := by
  rw [engReadIn, Eng.run_get_bind]
  simp only [hk]
  rfl

end

/-! Reads of ranges. -/

section
variable {s : State} {c : Nat} {ea : Dword} {bs : List Byte} {P : Sight → Prop}

/-- A read gives the bytes of the state that it is made in, and writes nothing (R236). -/
theorem engReadIn_reads (h0 : Calm s c) {pick : State → State} {u : State} (hu : Works s c u)
    (hp : ∀ v, Looks s c u v → Works s c (pick v) ∧ Reads s c ((pick v).coreByte c) ea bs) :
    ∃ v, (engReadIn pick c ea bs.length).run u = (.ok bs, v) ∧ Looks s c u v := by
  induction bs generalizing ea u with
  | nil => exact ⟨u, rfl, .refl hu⟩
  | cons b bs ih =>
    obtain ⟨key, hk, hv, hbad, -⟩ := (hp u (.refl hu)).2 0 (Nat.succ_pos _)
    have hku : u.keyOf c ea.toNat false = .ok key := by rw [hu.keyOf h0, ← hk, addrPlus_zero]
    have hlook := Looks.read hu ea.toNat hv
    generalize hw : ((u.cacheLeaf c ea.toNat).touch key 1).stashUse c ea.toNat 1 = w at *
    obtain ⟨hpw, hpr⟩ := hp w hlook
    have hmark : ((pick w).core c).stashMarked ea.toNat = false := by
      rw [CoreSt.stashMarked, List.any_eq_false]
      intro x hx
      rw [hpw.unmarked x hx, Bool.and_false]
      exact Bool.false_ne_true
    have hbyte : (pick w).coreByte c key = b := by
      obtain ⟨key', hk', -, -, hbyte⟩ := hpr 0 (Nat.succ_pos _)
      rw [hk] at hk'
      obtain rfl := Except.ok.inj hk'
      exact hbyte
    obtain ⟨v, hrun, hlook'⟩ := ih (ea := ea + 1) hlook.1 fun x hx => ⟨(hp x (hlook.trans hx)).1, (hp x (hlook.trans hx)).2.tail⟩
    refine ⟨v, ?_, hlook.trans hlook'⟩
    rw [List.length_cons, engReadIn_run_ok hku hw.symm ((hpw.badAt key 1).trans hbad) hmark, Eng.run_bind_ok hrun, hbyte]
    rfl

variable {n : Nat} (h0 : Calm s c) (hn : bs.length = n)
include h0 hn

theorem Does.readIn {pick : State → State}
    (hp : ∀ u, Works s c u → P (u.coreByte c) → Works s c (pick u) ∧ Reads s c ((pick u).coreByte c) ea bs) :
    Does s c (engReadIn pick c ea n) P (fun a σ => a = bs ∧ P σ) := by
  subst hn
  intro u hu hP
  obtain ⟨v, hrun, hw, hkeep, hbuf⟩ := engReadIn_reads h0 (pick := pick) (ea := ea) (bs := bs) hu fun v hv =>
    hp v hv.1 (by rw [hu.coreByte_of_ebuf hv.1 hv.2.2]; exact hP)
  exact ⟨bs, v, hrun, hw, hkeep, rfl, by rw [hu.coreByte_of_ebuf hw hbuf]; exact hP⟩

/-- A read of bytes as they stand. -/
theorem Does.read (hr : ∀ σ, P σ → Reads s c σ ea bs) : Does s c (engRead c ea n) P (fun a σ => a = bs ∧ P σ) :=
  Does.readIn h0 hn fun _ hu hP => ⟨hu, hr _ hP⟩

theorem Does.natIn {pick : State → State}
    (hp : ∀ u, Works s c u → P (u.coreByte c) → Works s c (pick u) ∧ Reads s c ((pick u).coreByte c) ea bs) :
    Does s c (engNatIn pick c ea n) P (fun a σ => a = natOfBytes bs ∧ P σ) :=
  (Does.readIn h0 hn hp).bind_val (Does.pure _ fun _ h => ⟨rfl, h⟩)

theorem Does.nat (hr : ∀ σ, P σ → Reads s c σ ea bs) : Does s c (engNat c ea n) P (fun a σ => a = natOfBytes bs ∧ P σ) :=
  Does.natIn h0 hn fun _ hu hP => ⟨hu, hr _ hP⟩

end

/-! Writes. -/

/-- What a core sees after a write of its engine. -/
def State.puts (s : State) (c : Nat) : Dword → List Byte → Sight → Sight
  | _, [], σ => σ
  | ea, b :: r, σ =>
    match s.keyOf c ea.toNat true with
    | .ok key => s.puts c (ea + 1) r (Function.update σ key b)
    | .error _ => s.puts c (ea + 1) r σ

section
variable {s u : State} {c key : Nat} {ea : Dword} {b : Byte} {bs : List Byte}

theorem engPut_run_ok (hk : u.keyOf c ea.toNat true = .ok key) :
    (engPut c ea (b :: bs)).run u =
      (engPut c (ea + 1) bs).run ((((u.cacheLeaf c ea.toNat).stashUse c ea.toNat 1).engWrite c key b).modCore c (fun k => k.stashDirty ea.toNat)) := by
  rw [engPut, Eng.run_get_bind]
  simp only [hk]
  rw [Eng.run_set_bind]

theorem engPut_run_fatal {kd ad : Nat} (hk : u.keyOf c ea.toNat true = .error (.fatal kd ad)) :
    (engPut c ea (b :: bs)).run u = (.error (kd, ad), u) := by
  rw [engPut, Eng.run_get_bind]
  simp only [hk]
  rfl

/-- A write changes what the core sees by its bytes (R236, R263). -/
theorem Does.put (h0 : Calm s c) (Q : Sight → Prop) (hk : ∀ i, i < bs.length → ∃ key, s.keyOf c (addrPlus ea i) true = .ok key) :
    Does s c (engPut c ea bs) (fun σ => Q (s.puts c ea bs σ)) (fun _ => Q) := by
  induction bs generalizing ea with
  | nil => exact Does.pure () fun _ h => h
  | cons b bs ih =>
    intro u hu hP
    obtain ⟨key, hkey⟩ := hk 0 (Nat.succ_pos _)
    rw [addrPlus_zero] at hkey
    obtain ⟨hw, hkeep, hbuf⟩ := hu.put ea.toNat key b rfl
    have hsight := hu.coreByte_put hw hbuf
    rw [State.puts, hkey] at hP
    dsimp only at hP
    rw [← hsight] at hP
    obtain ⟨_, v, hrun, hv, hkeep', hQ⟩ := ih (ea := ea + 1) (fun i hi => by rw [← addrPlus_succ]; exact hk (i + 1) (Nat.succ_lt_succ hi)) _ hw hP
    exact ⟨_, v, (engPut_run_ok ((hu.keyOf h0 _ _).trans hkey)).trans hrun, hv, hkeep.trans hkeep', hQ⟩

/-- A write leaves the bytes that none of its addresses reaches. -/
theorem State.puts_out (s : State) (c : Nat) {ea : Dword} {bs : List Byte} {σ : Sight} {j : Nat}
    (h : ∀ i, i < bs.length → s.keyOf c (addrPlus ea i) true ≠ .ok j) : s.puts c ea bs σ j = σ j := by
  induction bs generalizing ea σ with
  | nil => rfl
  | cons b bs ih =>
    have hrest : ∀ i, i < bs.length → s.keyOf c (addrPlus (ea + 1) i) true ≠ .ok j := fun i hi => by
      rw [← addrPlus_succ]
      exact h (i + 1) (Nat.succ_lt_succ hi)
    have h0 := h 0 (Nat.succ_pos _)
    rw [addrPlus_zero] at h0
    rw [State.puts]
    cases hkey : s.keyOf c ea.toNat true with
    | ok key =>
      have hne : j ≠ key := by
        rintro rfl
        exact h0 hkey
      exact (ih hrest).trans (Function.update_of_ne hne _ _)
    | error _ => exact ih hrest

end

/-! Areas: places of memory, each its own, that commands write. -/

/-- `n` addresses lead a core's writes to `n` different bytes of memory: `Writes` is this for addresses in a row. -/
def Clear (s : State) (c : Nat) (addr : Nat → Nat) (n : Nat) : Prop :=
  (∀ i, i < n → ∃ key, s.keyOf c (addr i) true = .ok key) ∧
    ∀ i j, i < n → j < n → s.keyOf c (addr i) true = s.keyOf c (addr j) true → i = j

theorem writes_iff {s : State} {c : Nat} {ea : Dword} {n : Nat} : Writes s c ea n ↔ Clear s c (addrPlus ea) n := Iff.rfl

/-- With this sight a core sees bytes in an area, and all else as the state has it. -/
def Shows (s : State) (c : Nat) (addr : Nat → Nat) (n : Nat) (f : Nat → Byte) (σ : Sight) : Prop :=
  (∀ i, i < n → ∀ key, s.keyOf c (addr i) true = .ok key → σ key = f i) ∧
    ∀ key, (∀ i, i < n → s.keyOf c (addr i) true ≠ .ok key) → σ key = s.coreByte c key

/-- What a state holds in an area. -/
def State.held (s : State) (c : Nat) (addr : Nat → Nat) (i : Nat) : Byte :=
  match s.keyOf c (addr i) true with
  | .ok key => s.coreByte c key
  | .error _ => 0

theorem shows_held (s : State) (c : Nat) (addr : Nat → Nat) (n : Nat) : Shows s c addr n (s.held c addr) (s.coreByte c) :=
  ⟨fun i _ key hk => by rw [State.held, hk], fun _ _ => rfl⟩

/-- Bytes with some of them replaced. -/
def splice (f : Nat → Byte) (o : Nat) (bs : List Byte) (i : Nat) : Byte := if o ≤ i ∧ i < o + bs.length then bs.getD (i - o) 0 else f i

theorem splice_cons (f : Nat → Byte) (o : Nat) (b : Byte) (bs : List Byte) :
    splice f o (b :: bs) = splice (Function.update f o b) (o + 1) bs := by
  funext i
  unfold splice
  rw [List.length_cons]
  by_cases hi : i = o
  · subst hi
    rw [if_pos (by omega), if_neg (by omega), Function.update_self, Nat.sub_self]
    rfl
  · rw [Function.update_of_ne hi]
    by_cases hr : o + 1 ≤ i ∧ i < o + 1 + bs.length
    · obtain ⟨k, rfl⟩ : ∃ k, i = o + 1 + k := ⟨i - (o + 1), by omega⟩
      rw [if_pos hr, if_pos (by omega), Nat.add_sub_cancel_left, Nat.add_assoc, Nat.add_sub_cancel_left, Nat.add_comm 1 k]
      rfl
    · rw [if_neg hr, if_neg (by omega)]

theorem splice_in {f : Nat → Byte} {o i : Nat} {bs : List Byte} (h : i < bs.length) : splice f o bs (o + i) = bs.getD i 0 := by
  rw [splice, if_pos (by omega), Nat.add_sub_cancel_left]

theorem splice_out {f : Nat → Byte} {o i : Nat} {bs : List Byte} (h : i < o ∨ o + bs.length ≤ i) : splice f o bs i = f i := by
  rw [splice, if_neg (by omega)]

section
variable {s : State} {c n : Nat} {addr : Nat → Nat} {f : Nat → Byte} {σ : Sight}

theorem Shows.update (hc : Clear s c addr n) (h : Shows s c addr n f σ) {o key : Nat} (ho : o < n) (hk : s.keyOf c (addr o) true = .ok key)
    (b : Byte) : Shows s c addr n (Function.update f o b) (Function.update σ key b) := by
  refine ⟨fun i hi j hj => ?_, fun j hj => ?_⟩
  · by_cases he : i = o
    · subst he
      rw [hk] at hj
      obtain rfl := Except.ok.inj hj
      rw [Function.update_self, Function.update_self]
    · have hne : j ≠ key := by
        rintro rfl
        exact he (hc.2 i o hi ho (hj.trans hk.symm))
      rw [Function.update_of_ne hne, Function.update_of_ne he]
      exact h.1 i hi j hj
  · have hne : j ≠ key := by
      rintro rfl
      exact hj o ho hk
    rw [Function.update_of_ne hne]
    exact h.2 j hj

/-- A write into an area. -/
theorem Shows.puts (hc : Clear s c addr n) (h : Shows s c addr n f σ) {o : Nat} {ea : Dword} {bs : List Byte}
    (ha : ∀ j, j < bs.length → addrPlus ea j = addr (o + j)) (hn : o + bs.length ≤ n) :
    Shows s c addr n (splice f o bs) (s.puts c ea bs σ) := by
  induction bs generalizing o ea f σ with
  | nil =>
    have hs : splice f o [] = f := funext fun i => splice_out (by simp only [List.length_nil]; omega)
    rw [hs]
    exact h
  | cons b bs ih =>
    rw [List.length_cons] at hn
    have haddr : ea.toNat = addr o := by rw [← addrPlus_zero]; exact ha 0 (Nat.succ_pos _)
    obtain ⟨key, hk⟩ := hc.1 o (by omega)
    rw [State.puts, haddr, hk, splice_cons]
    refine ih (h.update hc (by omega) hk b) (fun j hj => ?_) (by omega)
    rw [← addrPlus_succ, ha (j + 1) (Nat.succ_lt_succ hj)]
    congr 1
    omega

/-- A range that the area leaves alone is read as it stood. -/
theorem Shows.reads (h : Shows s c addr n f σ) {ea : Dword} {bs : List Byte} (hs : Sees s c ea bs)
    (ha : ∀ i, i < n → ∀ key, s.keyOf c (addr i) true = .ok key → ∀ j, j < bs.length → s.keyOf c (addrPlus ea j) false ≠ .ok key) :
    Reads s c σ ea bs :=
  (sees_iff.mp hs).congr fun j hj key hk => h.2 key fun i hi he => ha i hi key he j hj hk

variable {u : State}

/-- What an area shows has landed. -/
theorem Shows.lands (h : Shows s c addr n f (u.coreByte c)) {o : Nat} {ea : Dword} {bs : List Byte}
    (ha : ∀ j, j < bs.length → addrPlus ea j = addr (o + j)) (hn : o + bs.length ≤ n) (hf : ∀ j, j < bs.length → f (o + j) = bs.getD j 0) :
    Lands s u c ea bs := by
  intro j hj key hk
  rw [ha j hj] at hk
  rw [h.1 (o + j) (by omega) key hk, hf j hj]

theorem Does.write (h0 : Calm s c) (hc : Clear s c addr n) {o : Nat} {ea : Dword} {bs : List Byte}
    (ha : ∀ j, j < bs.length → addrPlus ea j = addr (o + j)) (hn : o + bs.length ≤ n) :
    Does s c (engPut c ea bs) (Shows s c addr n f) (fun _ => Shows s c addr n (splice f o bs)) := by
  refine (Does.put h0 (Shows s c addr n (splice f o bs)) fun j hj => ?_).conseq (fun σ h => h.puts hc ha hn) fun _ _ h => h
  rw [ha j hj]
  exact hc.1 (o + j) (by omega)

end

end Sys2Proof.Machine
end

section
/-! PROOFS. A command starts: its work is done, or an address that fails a check ends the gang (R233, R236, R294). -/

namespace Sys2Proof.Machine

theorem CoreSt.engine_setEngine (k : CoreSt) (e : Engine) (x : EngineSt) : (k.setEngine e x).engine e = x := by
  cases e <;> rfl

theorem CoreSt.setEngine_frame (k : CoreSt) (e : Engine) (x : EngineSt) : (k.setEngine e x).part = k.part ∧ (k.setEngine e x).spad = k.spad ∧
    (k.setEngine e x).resident = k.resident ∧ (k.setEngine e x).task = k.task ∧ (k.setEngine e x).copies = k.copies ∧
    (k.setEngine e x).tlb = k.tlb ∧ (k.setEngine e x).stash = k.stash ∧ (k.setEngine e x).ebuf = k.ebuf := by
  cases e <;> exact ⟨rfl, rfl, rfl, rfl, rfl, rfl, rfl, rfl⟩

theorem CoreSt.ebuf_setEngine (k : CoreSt) (e : Engine) (x : EngineSt) : (k.setEngine e x).ebuf = k.ebuf := by
  cases e <;> rfl

/-- A change of a core's engine is no matter of its sight. -/
theorem Works.setEngine {s u : State} {c : Nat} (h : Works s c u) (e : Engine) (f : CoreSt → EngineSt) :
    Works s c (u.modCore c (fun k => k.setEngine e (f k))) ∧
      (u.modCore c (fun k => k.setEngine e (f k))).coreByte c = u.coreByte c := by
  obtain ⟨hpart, hspad, hres, htask, hcopies, htlb, hstash, hebuf⟩ := (u.core c).setEngine_frame e (f (u.core c))
  have hw : Works s c (u.modCore c (fun k => k.setEngine e (f k))) := by
    refine ⟨?_, ?_, ?_, ?_, ?_⟩
    · rw [h.frame]
      rfl
    · exact fun d hd => (State.core_modCore_ne _ _ _ _ hd).trans (h.others d hd)
    · rw [State.core_modCore_self, hpart, hspad, hres, htask, hcopies]
      exact h.context
    · rw [State.core_modCore_self, htlb]
      exact h.leaves
    · rw [State.core_modCore_self, hstash]
      exact h.unmarked
  refine ⟨hw, h.coreByte_of_ebuf hw ?_⟩
  rw [State.core_modCore_self, hebuf]

theorem Works.request {s u : State} {c : Nat} (h : Works s c u) (w : Req) : Works s c (u.request c w) :=
  ⟨by rw [h.frame]; rfl, h.others, h.context, h.leaves, h.unmarked⟩

/-- The state in which a command of an engine begins its work (R233, R334). -/
def State.starting (s : State) (c : Nat) (e : Engine) (m : EngCmd) (r : List EngCmd) : State :=
  (if m.travels c then s.request c (.engine e) else s).modCore c (fun k => k.setEngine e { queue := r, active := [m], lastStart := s.cycle + 1 })

section
variable {s : State} {c : Nat} {e : Engine} {m : EngCmd} {r : List EngCmd} {op : EngOp}

theorem Starts.op_eq (h : Starts s c e m r op) : m.op = op := h.2.2.1

theorem Starts.calm (h : Starts s c e m r op) : Calm s c := h.2.2.2

theorem Starts.exec (h : Starts s c e m r op) : exec (.engineCommandStart c e) s = .next ((s.starting c e m r).runEngine c e m) := by
  obtain ⟨hq, hready, -, -⟩ := h
  show execEngineCommandStart c e s = _
  simp only [execEngineCommandStart, hq, hready, if_true]
  unfold State.starting
  split <;> rfl

theorem Starts.works (h : Starts s c e m r op) : Works s c (s.starting c e m r) ∧ (s.starting c e m r).coreByte c = s.coreByte c ∧
    ((s.starting c e m r).core c).engine e = { queue := r, active := [m], lastStart := s.cycle + 1 } := by
  have h0 := Works.of_calm h.calm
  have hreq : Works s c (if m.travels c then s.request c (.engine e) else s) := by
    split
    · exact h0.request _
    · exact h0
  have hsight : (if m.travels c then s.request c (.engine e) else s).coreByte c = s.coreByte c := by
    refine h0.coreByte_of_ebuf hreq ?_
    split <;> rfl
  obtain ⟨hw, hb⟩ := hreq.setEngine e (fun _ => { queue := r, active := [m], lastStart := s.cycle + 1 })
  refine ⟨hw, hb.trans hsight, ?_⟩
  rw [State.starting, State.core_modCore_self, CoreSt.engine_setEngine]

/-- A core with an engine's command that has done its work (R162). -/
def CoreSt.worked (k : CoreSt) (e : Engine) (m : EngCmd) (evs : List Nat) : CoreSt :=
  k.setEngine e { k.engine e with active := [{ m with events := evs }] }

/-- What starting a command comes to whose work is done. -/
theorem Starts.exec_of_run (h : Starts s c e m r op) {evs : List Nat} {v : State}
    (hrun : (runCommand c m).run (s.starting c e m r) = (.ok evs, v)) :
    Machine.exec (.engineCommandStart c e) s = .next (v.modCore c (·.worked e m evs)) := by
  rw [h.exec, State.runEngine, hrun]
  rfl

theorem Starts.ran_of_run (h : Starts s c e m r op) {evs : List Nat} {v : State}
    (hrun : (runCommand c m).run (s.starting c e m r) = (.ok evs, v)) (hv : Works s c v)
    (hkeep : (v.core c).engine e = ((s.starting c e m r).core c).engine e) :
    Ran s (v.modCore c (·.worked e m evs)) c e m r evs ∧ (v.modCore c (·.worked e m evs)).coreByte c = v.coreByte c := by
  obtain ⟨hvw, hvb⟩ := hv.setEngine e (fun k => { k.engine e with active := [{ m with events := evs }] })
  have heng : (v.core c).engine e = { queue := r, active := [m], lastStart := s.cycle + 1 } := hkeep.trans h.works.2.2
  refine ⟨⟨h.exec_of_run hrun, ?_, ?_, ?_, hvw.context.2.2.2.2, hvw.mem, hvw.others⟩, hvb⟩
  all_goals rw [State.core_modCore_self, CoreSt.worked, CoreSt.engine_setEngine, heng]

/-- A command whose work can be done has started, and its work is done (R233, R263). -/
theorem Starts.ran (h : Starts s c e m r op) {Q : List Nat → Sight → Prop} (hd : Does s c (runCommand c m) (fun σ => σ = s.coreByte c) Q) :
    ∃ t evs, Ran s t c e m r evs ∧ Q evs (t.coreByte c) := by
  obtain ⟨hw, hb, -⟩ := h.works
  obtain ⟨evs, v, hrun, hv, hkeep, hQ⟩ := hd _ hw hb
  obtain ⟨hran, hsight⟩ := h.ran_of_run hrun hv (hkeep.engine e)
  exact ⟨_, evs, hran, by rw [hsight]; exact hQ⟩

/-- A command whose work can be done and counts no events. -/
theorem Starts.ran_silent (h : Starts s c e m r op) {x : Eng Unit} (hx : runCommand c m = (do x; pure [])) {Q : Sight → Prop}
    (hd : Does s c x (fun σ => σ = s.coreByte c) (fun _ => Q)) : ∃ t, Ran s t c e m r [] ∧ Q (t.coreByte c) := by
  have hall : Does s c (runCommand c m) (fun σ => σ = s.coreByte c) (fun evs σ => evs = [] ∧ Q σ) := by
    rw [hx]
    exact Does.seq hd (Does.pure [] fun _ h => ⟨rfl, h⟩)
  obtain ⟨t, _, hran, rfl, hQ⟩ := h.ran hall
  exact ⟨t, hran, hQ⟩

/-! Failures. -/

/-- A part of a command ends with a fatal context error. -/
def Fails (s : State) (c : Nat) {α : Type} (x : Eng α) (P : Sight → Prop) (kd ad : Nat) : Prop :=
  ∀ u, Works s c u → P (u.coreByte c) → ∃ v, x.run u = (.error (kd, ad), v) ∧ Works s c v ∧ KeepsCore (u.core c) (v.core c)

theorem Fails.bind {α β : Type} {x : Eng α} {P : Sight → Prop} {kd ad : Nat} (hx : Fails s c x P kd ad) (f : α → Eng β) :
    Fails s c (x >>= f) P kd ad := fun u hu hp => by
  obtain ⟨v, hrun, hv, hkeep⟩ := hx u hu hp
  exact ⟨v, Eng.run_bind_error hrun, hv, hkeep⟩

theorem Does.fails {α β : Type} {x : Eng α} {f : α → Eng β} {P : Sight → Prop} {Q : α → Sight → Prop} {kd ad : Nat} (hx : Does s c x P Q)
    (hf : ∀ a, Fails s c (f a) (Q a) kd ad) : Fails s c (x >>= f) P kd ad := fun u hu hp => by
  obtain ⟨a, v, hrun, hv, hkeep, hq⟩ := hx u hu hp
  obtain ⟨w, hrun', hw, hkeep'⟩ := hf a v hv hq
  exact ⟨w, (Eng.run_bind_ok hrun).trans hrun', hw, hkeep.trans hkeep'⟩

/-- A command that an address ends: its gang has met the error, and it has left its engine (R294). -/
theorem Starts.failed (h : Starts s c e m r op) {kd ad : Nat} (hf : Fails s c (runCommand c m) (fun σ => σ = s.coreByte c) kd ad) :
    ∃ t, Machine.exec (.engineCommandStart c e) s = .next t ∧ Failed s t c kd ad ∧ ((t.core c).engine e).active = [] := by
  obtain ⟨hw, hb, he⟩ := h.works
  obtain ⟨v, hrun, hv, hkeep⟩ := hf _ hw hb
  have hres : (s.starting c e m r).runEngine c e m = (raiseFatal v c kd ad).dropCommand c e := by
    rw [State.runEngine, hrun]
  have hcore : ((raiseFatal v c kd ad).dropCommand c e).core c =
      (v.core c).setEngine e { (v.core c).engine e with active := ((v.core c).engine e).active.drop 1 } := by
    rw [State.dropCommand, State.core_answer, State.core_modCore_self, raiseFatal, State.core_modTaskOf]
  have hraised : (raiseFatal v c kd ad).core c = v.core c := State.core_modTaskOf _ _ _ _
  obtain ⟨hpart, -, hresident, htask, -⟩ := (v.core c).setEngine_frame e { (v.core c).engine e with active := ((v.core c).engine e).active.drop 1 }
  refine ⟨_, h.exec.trans (congrArg _ hres), (raiseFatal_failed v c kd ad).congr ⟨hv.mem, hv.taskOf⟩ ?_, ?_⟩
  · refine .of_core rfl rfl ?_ ?_ ?_
    · rw [hcore, hresident, hraised]
    · rw [hcore, hpart, hraised]
    · rw [hcore, htask, hraised]
  · rw [hcore, CoreSt.engine_setEngine, hkeep.engine e, he]
    rfl

end

end Sys2Proof.Machine
end

section
/-! PROOFS. Copies, fills, multicasts, and the addresses that end them (R236 to R240, R294). -/

namespace Sys2Proof.Machine

section
variable {s t : State} {c : Nat} {P : Sight → Prop}

/-- An area that is one range spares all else. -/
theorem Shows.spares {d : Dword} {n : Nat} {f : Nat → Byte} (h : Shows s c (addrPlus d) n f (t.coreByte c)) : Spares s t c [(d, n)] :=
  fun key hk => h.2 key fun i hi => hk (d, n) (List.mem_singleton.mpr rfl) i hi

/-- Bytes that have been written whole have landed. -/
theorem Shows.lands_all {d : Dword} {f : Nat → Byte} {bs : List Byte} {n : Nat} (hn : bs.length = n)
    (h : Shows s c (addrPlus d) n (splice f 0 bs) (t.coreByte c)) : Lands s t c d bs := by
  refine h.lands (o := 0) (fun j _ => by rw [Nat.zero_add]) (by omega) fun j hj => ?_
  exact splice_in hj

/-- Bytes that are written over a whole range. -/
theorem Does.overwrite (h0 : Calm s c) {d : Dword} {n : Nat} {bs : List Byte} (hw : Writes s c d n) (hn : bs.length = n) :
    Does s c (engPut c d bs) (fun σ => σ = s.coreByte c) (fun _ => Shows s c (addrPlus d) n (splice (s.held c (addrPlus d)) 0 bs)) := by
  refine (Does.write h0 (writes_iff.mp hw) (o := 0) (f := s.held c (addrPlus d)) (fun j _ => by rw [Nat.zero_add]) (by omega)).conseq ?_ fun _ _ h => h
  rintro _ rfl
  exact shows_held s c (addrPlus d) n

/-- A range is read with the bytes that the core sees there. -/
theorem Does.readSeen (h0 : Calm s c) {a : Dword} {n : Nat} {bs : List Byte} (hn : bs.length = n) (hs : Sees s c a bs) :
    Does s c (engRead c a n) (fun σ => σ = s.coreByte c) (fun b σ => b = bs ∧ σ = s.coreByte c) :=
  Does.read h0 hn fun _ hσ => hσ ▸ sees_iff.mp hs

theorem runCopy_copies (h0 : Calm s c) {d a : Dword} {n : Nat} {bs : List Byte} (hn : bs.length = n) (hs : Sees s c a bs) (hw : Writes s c d n) :
    Does s c (runCopy c d a n false) (fun σ => σ = s.coreByte c) (fun _ => Shows s c (addrPlus d) n (splice (s.held c (addrPlus d)) 0 bs)) :=
  (Does.readSeen h0 hn hs).bind_val (Does.overwrite h0 hw hn)

/-- The bytes of a FILL (R238). -/
def fillBytes (d a : Dword) (n : Nat) : List Byte := (List.range n).map (fun j => (bytesOfNat 8 a.toNat).getD ((d.toNat + j) % 8) 0)

theorem runCopy_fills (h0 : Calm s c) {d a : Dword} {n : Nat} (hw : Writes s c d n) :
    Does s c (runCopy c d a n true) (fun σ => σ = s.coreByte c)
      (fun _ => Shows s c (addrPlus d) n (splice (s.held c (addrPlus d)) 0 (fillBytes d a n))) :=
  Does.overwrite h0 hw (by simp)

/-! Addresses that fail a check. -/

/-- A read ends at the first byte that may not be read, or that is marked (R122, R236). -/
theorem Fails.read (h0 : Calm s c) {a : Dword} {bs : List Byte} {n kd ad : Nat} (hr : ∀ σ, P σ → Reads s c σ a bs) (hn : bs.length < n)
    (hbad : s.keyOf c (addrPlus a bs.length) false = .error (.fatal kd ad) ∨
      ∃ key, s.keyOf c (addrPlus a bs.length) false = .ok key ∧ paKind key ≠ .view ∧ s.badAt key 1 = true ∧ kd = 7 ∧ ad = addrPlus a bs.length) :
    Fails s c (engRead c a n) P kd ad := by
  induction bs generalizing a n with
  | nil =>
    obtain ⟨n, rfl⟩ := Nat.exists_eq_succ_of_ne_zero hn.ne'
    intro u hu hP
    rw [List.length_nil, addrPlus_zero] at hbad
    rcases hbad with hk | ⟨key, hk, hview, hmark, rfl, rfl⟩
    · exact ⟨u, engReadIn_run_fatal ((hu.keyOf h0 _ _).trans hk), hu, .refl _⟩
    · obtain ⟨hw, hkeep, -⟩ := Looks.read hu a.toNat hview
      exact ⟨_, engReadIn_run_marked ((hu.keyOf h0 _ _).trans hk) rfl ((hw.badAt key 1).trans hmark), hw, hkeep⟩
  | cons b bs ih =>
    obtain ⟨n, rfl⟩ := Nat.exists_eq_succ_of_ne_zero (Nat.ne_zero_of_lt hn)
    intro u hu hP
    obtain ⟨key, hk, hview, hbyte, -⟩ := hr _ hP 0 (Nat.succ_pos _)
    rw [addrPlus_zero] at hk
    obtain ⟨hw, hkeep, hbuf⟩ := Looks.read hu a.toNat hview
    rw [← hu.coreByte_of_ebuf hw hbuf] at hP
    generalize hlook : ((u.cacheLeaf c a.toNat).touch key 1).stashUse c a.toNat 1 = w at *
    have hmark : (w.core c).stashMarked a.toNat = false := by
      rw [CoreSt.stashMarked, List.any_eq_false]
      intro x hx
      rw [hw.unmarked x hx, Bool.and_false]
      exact Bool.false_ne_true
    rw [List.length_cons, addrPlus_succ] at hbad
    obtain ⟨v, hrun, hv, hkeep'⟩ := ih (a := a + 1) (fun σ hσ => (hr σ hσ).tail) (Nat.lt_of_succ_lt_succ hn) hbad w hw hP
    refine ⟨v, ?_, hv, hkeep.trans hkeep'⟩
    rw [engRead, engReadIn_run_ok ((hu.keyOf h0 _ _).trans hk) hlook.symm ((hw.badAt key 1).trans hbyte) hmark]
    exact Eng.run_bind_error hrun

/-- A write ends at the first byte that may not be written, and what was written before stays (R122, R236). -/
theorem Fails.put (h0 : Calm s c) {d : Dword} {bs : List Byte} {i kd ad : Nat} (hi : i < bs.length)
    (hk : ∀ j, j < i → ∃ key, s.keyOf c (addrPlus d j) true = .ok key) (hbad : s.keyOf c (addrPlus d i) true = .error (.fatal kd ad)) :
    Fails s c (engPut c d bs) P kd ad := by
  suffices h : Fails s c (engPut c d bs) (fun _ => True) kd ad from fun u hu _ => h u hu trivial
  induction i generalizing d bs with
  | zero =>
    obtain ⟨b, bs, rfl⟩ := List.exists_cons_of_length_pos hi
    rw [addrPlus_zero] at hbad
    exact fun u hu _ => ⟨u, engPut_run_fatal ((hu.keyOf h0 _ _).trans hbad), hu, .refl _⟩
  | succ i ih =>
    obtain ⟨b, bs, rfl⟩ := List.exists_cons_of_length_pos (Nat.zero_lt_of_lt hi)
    intro u hu _
    obtain ⟨key, hkey⟩ := hk 0 (Nat.succ_pos _)
    rw [addrPlus_zero] at hkey
    rw [addrPlus_succ] at hbad
    obtain ⟨hw, hkeep, -⟩ := hu.put d.toNat key b rfl
    obtain ⟨v, hrun, hv, hkeep'⟩ := ih (d := d + 1) (bs := bs) (Nat.lt_of_succ_lt_succ hi)
      (fun j hj => by rw [← addrPlus_succ]; exact hk (j + 1) (Nat.succ_lt_succ hj)) hbad _ hw trivial
    exact ⟨v, (engPut_run_ok ((hu.keyOf h0 _ _).trans hkey)).trans hrun, hv, hkeep.trans hkeep'⟩

end

end Sys2Proof.Machine
end

section
/-! PROOFS. Multicasts (R240). -/

namespace Sys2Proof.Machine

/-- What a core sees after its engine has written bytes into a scratchpad. -/
def spadPuts (t off : Nat) (bs : List Byte) (σ : Sight) : Sight :=
  (List.range bs.length).foldl (fun σ i => Function.update σ (spadKey t (off + i)) (bs.getD i 0)) σ

theorem spadPuts_in (t off : Nat) {bs : List Byte} (σ : Sight) {i : Nat} (hi : i < bs.length) :
    spadPuts t off bs σ (spadKey t (off + i)) = bs.getD i 0 := by
  refine foldl_each (fun (σ : Sight) i => Function.update σ (spadKey t (off + i)) (bs.getD i 0)) (fun _ => True)
    (fun i σ => σ (spadKey t (off + i)) = bs.getD i 0) (List.range bs.length) (fun _ _ _ _ => trivial) ?_ ?_ σ trivial i (List.mem_range.mpr hi)
  · exact fun σ j _ _ => Function.update_self _ _ _
  · intro σ j _ k _ hjk h
    have hne : spadKey t (off + j) ≠ spadKey t (off + k) := fun he => hjk (by unfold spadKey at he; omega)
    rw [Function.update_of_ne hne, h]

theorem spadPuts_out (t off : Nat) (bs : List Byte) (σ : Sight) {key : Nat} (h : ∀ i, i < bs.length → key ≠ spadKey t (off + i)) :
    spadPuts t off bs σ key = σ key :=
  List.foldlRecOn (motive := fun τ : Sight => τ key = σ key) _ _ rfl fun _ hτ i hi =>
    (Function.update_of_ne (h i (List.mem_range.mp hi)) _ _).trans hτ

/-- What each target of a multicast holds then. -/
theorem foldl_spadPuts_in (ts : List Nat) (off : Nat) {bs : List Byte} (hoff : off + bs.length ≤ 2 ^ 19) (σ : Sight) {d i : Nat} (hd : d ∈ ts)
    (hi : i < bs.length) : ts.foldl (fun σ t => spadPuts t off bs σ) σ (spadKey d (off + i)) = bs.getD i 0 := by
  refine foldl_each (fun (σ : Sight) t => spadPuts t off bs σ) (fun _ => True) (fun d σ => σ (spadKey d (off + i)) = bs.getD i 0) ts
    (fun _ _ _ _ => trivial) (fun σ t _ _ => spadPuts_in t off σ hi) ?_ σ trivial d hd
  intro σ x _ y _ hxy h
  rw [spadPuts_out y off bs σ fun j hj => spadKey_ne hxy (by omega) (by omega), h]

theorem foldl_spadPuts_out (ts : List Nat) (off : Nat) (bs : List Byte) (σ : Sight) {key : Nat}
    (h : ∀ d ∈ ts, ∀ i, i < bs.length → key ≠ spadKey d (off + i)) : ts.foldl (fun σ t => spadPuts t off bs σ) σ key = σ key :=
  List.foldlRecOn (motive := fun τ : Sight => τ key = σ key) ts _ rfl fun τ hτ d hd => (spadPuts_out d off bs τ (h d hd)).trans hτ

section
variable {s u : State} {c : Nat}

theorem Works.engWrite (hu : Works s c u) (key : Nat) (b : Byte) :
    Works s c (u.engWrite c key b) ∧ KeepsCore (u.core c) ((u.engWrite c key b).core c) ∧
      (u.engWrite c key b).coreByte c = Function.update (u.coreByte c) key b := by
  have hcore : (u.engWrite c key b).core c = { u.core c with ebuf := tset (u.core c).ebuf key b } := State.core_modCore_self _ _ _
  have hw : Works s c (u.engWrite c key b) := by
    refine ⟨by rw [hu.frame]; rfl, fun d hd => (State.core_modCore_ne _ _ _ _ hd).trans (hu.others d hd), ?_, ?_, ?_⟩
    · rw [hcore]
      exact hu.context
    · rw [hcore]
      exact hu.leaves
    · rw [hcore]
      exact hu.unmarked
  refine ⟨hw, ?_, hu.coreByte_put hw (by rw [hcore])⟩
  rw [hcore]
  exact ⟨_, _, _, rfl⟩

theorem Does.spad (t off : Nat) (bs : List Byte) (Q : Sight → Prop) :
    Does s c (engSpad c t off bs) (fun σ => Q (spadPuts t off bs σ)) (fun _ => Q) := by
  intro u hu hQ
  have hall : ∀ l : List Nat, Works s c (l.foldl (fun u i => u.engWrite c (spadKey t (off + i)) (bs.getD i 0)) u) ∧
      KeepsCore (u.core c) ((l.foldl (fun u i => u.engWrite c (spadKey t (off + i)) (bs.getD i 0)) u).core c) ∧
      (l.foldl (fun u i => u.engWrite c (spadKey t (off + i)) (bs.getD i 0)) u).coreByte c =
        l.foldl (fun σ i => Function.update σ (spadKey t (off + i)) (bs.getD i 0)) (u.coreByte c) := by
    intro l
    induction l using List.reverseRecOn with
    | nil => exact ⟨hu, .refl _, rfl⟩
    | append_singleton l i ih =>
      obtain ⟨hw, hkeep, hb⟩ := ih
      obtain ⟨hw', hkeep', hb'⟩ := hw.engWrite (spadKey t (off + i)) (bs.getD i 0)
      simp only [List.foldl_append, List.foldl_cons, List.foldl_nil]
      exact ⟨hw', hkeep.trans hkeep', by rw [hb', hb]⟩
  obtain ⟨hw, hkeep, hb⟩ := hall (List.range bs.length)
  exact ⟨(), _, rfl, hw, hkeep, by rw [hb]; exact hQ⟩

theorem Does.spads (ts : List Nat) (off : Nat) (bs : List Byte) (Q : Sight → Prop) :
    Does s c (ts.forM (fun t => engSpad c t off bs)) (fun σ => Q (ts.foldl (fun σ t => spadPuts t off bs σ) σ)) (fun _ => Q) := by
  induction ts with
  | nil => exact Does.pure () fun _ h => h
  | cons t ts ih => exact Does.seq (Does.spad t off bs (fun σ => Q (ts.foldl (fun σ t => spadPuts t off bs σ) σ))) ih

theorem runMcast_spreads (h0 : Calm s c) {off : Nat} {a : Dword} {n : Nat} {ts : List Nat} {bs : List Byte} (hn : bs.length = n)
    (hs : Sees s c a bs) : Does s c (runMcast c off a n ts) (fun σ => σ = s.coreByte c)
      (fun _ σ => σ = ts.foldl (fun σ t => spadPuts t off bs σ) (s.coreByte c)) := by
  refine (Does.readSeen h0 hn hs).bind_val ((Does.spads ts off bs fun σ => σ = ts.foldl (fun σ t => spadPuts t off bs σ) (s.coreByte c)).conseq ?_
    fun _ _ h => h)
  rintro _ rfl
  rfl

end

end Sys2Proof.Machine
end

section
/-! PROOFS. COPYM: rows land whole, and are no longer busy (R126, R239). -/

namespace Sys2Proof.Machine

/-- A row of a COPYM holds its bytes, and the copy holds it busy no more. -/
def RowLanded (k : CoreSt) (name : RowName) (owner : Nat) (bs : List Byte) : Prop :=
  k.row name = rowOfBytes bs ∧ ∀ b ∈ k.busy, ¬(b.row = name ∧ b.owner = owner)

theorem RowLanded.keeps {k k' : CoreSt} {name : RowName} {owner : Nat} {bs : List Byte} (h : RowLanded k name owner bs) (hk : KeepsCore k k') :
    RowLanded k' name owner bs := by
  obtain ⟨t, a, b, rfl⟩ := hk
  cases name <;> exact h

/-- A row of a tile register lands. -/
def CoreSt.landRow (k : CoreSt) (name : RowName) (owner : Nat) (bs : List Byte) : CoreSt := (k.setRow name (rowOfBytes bs)).clearBusy name owner

theorem CoreSt.rowLanded_landRow (k : CoreSt) (reg i owner : Nat) (bs : List Byte) :
    RowLanded (k.landRow (.tile reg i) owner bs) (.tile reg i) owner bs := by
  refine ⟨tget_tset_self _ _ _ _, fun b hb => ?_⟩
  have hp := (List.mem_filter.mp hb).2
  simp only [Bool.not_eq_true', Bool.and_eq_false_iff, beq_eq_false_iff_ne] at hp
  tauto

theorem RowLanded.landRow {k : CoreSt} {reg i j owner : Nat} {bs : List Byte} (h : RowLanded k (.tile reg i) owner bs) (hij : i ≠ j)
    (bs' : List Byte) : RowLanded (k.landRow (.tile reg j) owner bs') (.tile reg i) owner bs := by
  refine ⟨?_, fun b hb => h.2 b (List.mem_of_mem_filter hb)⟩
  rw [← h.1]
  exact tget_tset_ne _ _ _ _ _ (by omega)

section
variable {s u : State} {c : Nat}

theorem Works.landRow (hu : Works s c u) (reg i owner : Nat) (bs : List Byte) :
    Works s c (u.modCore c (·.landRow (.tile reg i) owner bs)) ∧
      (u.modCore c (·.landRow (.tile reg i) owner bs)).coreByte c = u.coreByte c := by
  have hcore : (u.modCore c (·.landRow (.tile reg i) owner bs)).core c = (u.core c).landRow (.tile reg i) owner bs := State.core_modCore_self _ _ _
  have hw : Works s c (u.modCore c (·.landRow (.tile reg i) owner bs)) := by
    refine ⟨by rw [hu.frame]; rfl, fun d hd => (State.core_modCore_ne _ _ _ _ hd).trans (hu.others d hd), ?_, ?_, ?_⟩
    · rw [hcore]
      exact hu.context
    · rw [hcore]
      exact hu.leaves
    · rw [hcore]
      exact hu.unmarked
  exact ⟨hw, hu.coreByte_of_ebuf hw (by rw [hcore]; rfl)⟩

/-- The rows of a COPYM from one on (R239). -/
theorem runCopym_lands (h0 : Calm s c) {reg row owner : Nat} {a : Dword} {bs : List Byte} (hs : Sees s c a bs) (n r : Nat)
    (hn : 256 * (r + n) ≤ bs.length) (hu : Works s c u) (hb : u.coreByte c = s.coreByte c)
    (hdone : ∀ i, i < r → RowLanded (u.core c) (.tile reg (row + i)) owner (slice bs (256 * i) 256)) :
    ∃ v, (runCopym c reg row a owner n r).run u = (.ok (), v) ∧ Works s c v ∧ (∀ e, (v.core c).engine e = (u.core c).engine e) ∧
      ∀ i, i < r + n → RowLanded (v.core c) (.tile reg (row + i)) owner (slice bs (256 * i) 256) := by
  induction n generalizing r u with
  | zero => exact ⟨u, rfl, hu, fun _ => rfl, hdone⟩
  | succ n ih =>
    have hlen : 256 * r + 256 ≤ bs.length := by omega
    have hplus : plus a (256 * r) = plus a ((256 * r : Nat) : Int) := by push_cast; rfl
    obtain ⟨_, v, hrun, hv, hkeep, rfl, hvb⟩ := Does.readSeen h0 (slice_length hlen) (sees_iff.mpr ((sees_iff.mp hs).slice hlen)) u hu hb
    rw [← hplus] at hrun
    obtain ⟨hw, hwb⟩ := hv.landRow reg (row + r) owner (slice bs (256 * r) 256)
    have hcore : ((v.modCore c (·.landRow (.tile reg (row + r)) owner (slice bs (256 * r) 256))).core c) =
      (v.core c).landRow (.tile reg (row + r)) owner (slice bs (256 * r) 256) := State.core_modCore_self _ _ _
    have hnext : ∀ i, i < r + 1 → RowLanded ((v.modCore c (·.landRow (.tile reg (row + r)) owner (slice bs (256 * r) 256))).core c)
        (.tile reg (row + i)) owner (slice bs (256 * i) 256) := fun i hi => by
      rw [hcore]
      by_cases hir : i = r
      · subst hir
        exact CoreSt.rowLanded_landRow _ _ _ _ _
      · exact ((hdone i (by omega)).keeps hkeep).landRow (by omega) _
    obtain ⟨w, hrun', hw', hkeep', hall⟩ := ih (r + 1) (by omega) hw (hwb.trans hvb) hnext
    refine ⟨w, ?_, hw', fun e => ?_, fun i hi => hall i (by omega)⟩
    · rw [runCopym, Eng.run_bind_ok hrun]
      exact (Eng.run_bind_ok rfl).trans hrun'
    · rw [hkeep', hcore, ← hkeep.engine e]
      cases e <;> rfl

end

end Sys2Proof.Machine
end

section
/-! PROOFS. Gathers and scatters (R243, R265). -/

namespace Sys2Proof.Machine

theorem splice_append (f : Nat → Byte) (o : Nat) (a b : List Byte) : splice (splice f o a) (o + a.length) b = splice f o (a ++ b) := by
  funext i
  by_cases h1 : i < o + a.length
  · rw [splice_out (.inl h1)]
    unfold splice
    rw [List.length_append]
    by_cases h2 : o ≤ i
    · rw [if_pos ⟨h2, h1⟩, if_pos (by omega), List.getD_append _ _ _ _ (by omega)]
    · rw [if_neg (by omega), if_neg (by omega)]
  · unfold splice
    rw [List.length_append]
    by_cases h2 : i < o + a.length + b.length
    · rw [if_pos (by omega), if_pos (by omega), List.getD_append_right _ _ _ _ (by omega)]
      congr 1
      omega
    · rw [if_neg (by omega), if_neg (by omega), if_neg (by omega)]

theorem length_flatten_take {us : List (List Byte)} {u : Nat} (h : ∀ i, i < us.length → (us.getD i []).length = u) {i : Nat} (hi : i ≤ us.length) :
    (us.take i).flatten.length = u * i := by
  induction i with
  | zero => simp
  | succ i ih =>
    have hlt : i < us.length := hi
    have hu := h i hlt
    rw [List.getD_eq_getElem _ _ hlt] at hu
    rw [List.take_add_one, List.getElem?_eq_getElem hlt, Option.toList_some, List.flatten_append, List.length_append, ih hlt.le,
      List.flatten_singleton, hu, Nat.mul_succ]

section
variable {s : State} {c : Nat}

/-- A gather, unit by unit (R243): what it reads is what stood before (log entry 27). -/
theorem runGath_gathers (h0 : Calm s c) {d a x : Dword} {ty : BitVec 4} {u n : Nat} {xb : List Byte} {us : List (List Byte)}
    (hxb : xb.length = 4 * n) (hx : Sees s c x xb) (hus : us.length = n)
    (hunits : ∀ i, i < n → (us.getD i []).length = u ∧ if numAt xb (4 * i) 4 = 2 ^ 31 then us.getD i [] = absentUnit ty u
      else Sees s c (plus a (int32 (numAt xb (4 * i) 4) * u)) (us.getD i [])) (hw : Writes s c d (u * n)) :
    Does s c (runGath c d a x ty u n) (fun σ => σ = s.coreByte c)
      (fun _ => Shows s c (addrPlus d) (u * n) (splice (s.held c (addrPlus d)) 0 us.flatten)) := by
  refine Does.get fun v hv hvb => ?_
  have hlen : ∀ i, i ≤ n → (us.take i).flatten.length = u * i := fun i hi =>
    length_flatten_take (fun j hj => (hunits j (hus ▸ hj)).1) (hus ▸ hi)
  have hold : ∀ {ea : Dword} {bs : List Byte}, Sees s c ea bs → Works s c v ∧ Reads s c (v.coreByte c) ea bs := fun hs =>
    ⟨hv, by rw [hvb]; exact sees_iff.mp hs⟩
  let I := fun i => Shows s c (addrPlus d) (u * n) (splice (s.held c (addrPlus d)) 0 (us.take i).flatten)
  have hloop : Does s c _ (I 0) (fun _ => I n) := Does.forM_range (f := fun (i : Nat) => do
    let w ← engNatIn (fun _ => v) c (plus x (4 * i)) 4
    let bs ← if w = 2 ^ 31 then pure (absentUnit ty u) else engReadIn (fun _ => v) c (plus a (int32 w * u)) u
    engPut c (plus d (u * i)) bs) n I fun i hi => ?_
  · refine hloop.conseq ?_ fun _ σ h => ?_
    · rintro _ rfl
      have hs : splice (s.held c (addrPlus d)) 0 (us.take 0).flatten = s.held c (addrPlus d) := funext fun i => splice_out (by simp)
      show Shows s c (addrPlus d) (u * n) (splice (s.held c (addrPlus d)) 0 (us.take 0).flatten) _
      rw [hs]
      exact shows_held s c (addrPlus d) (u * n)
    · have ht : us.take n = us := by rw [← hus, List.take_length]
      rw [← ht]
      exact h
  · have h4 : 4 * i + 4 ≤ xb.length := by omega
    have hidx : plus x (4 * i) = plus x ((4 * i : Nat) : Int) := by push_cast; rfl
    have hdst : plus d (u * i) = plus d ((u * i : Nat) : Int) := by push_cast; rfl
    obtain ⟨hui, hsource⟩ := hunits i hi
    refine (Does.natIn h0 (slice_length h4) (P := I i) fun _ _ _ => ?_).bind_val ?_
    · rw [hidx]
      exact hold (sees_iff.mpr ((sees_iff.mp hx).slice h4))
    · have htake : (us.take (i + 1)).flatten = (us.take i).flatten ++ us.getD i [] := by
        have hlt : i < us.length := hus ▸ hi
        rw [List.take_add_one, List.getElem?_eq_getElem hlt, Option.toList_some, List.flatten_append, List.flatten_singleton,
          List.getD_eq_getElem _ _ hlt]
      have hwrite := Does.write h0 (writes_iff.mp hw) (f := splice (s.held c (addrPlus d)) 0 (us.take i).flatten) (o := u * i)
        (ea := plus d (u * i)) (bs := us.getD i []) (fun j _ => by rw [hdst, addrPlus_plus]) (by rw [hui, ← Nat.mul_succ]; exact Nat.mul_le_mul_left u hi)
      have hjoin : splice (splice (s.held c (addrPlus d)) 0 (us.take i).flatten) (u * i) (us.getD i []) =
          splice (s.held c (addrPlus d)) 0 (us.take (i + 1)).flatten := by
        rw [htake, ← splice_append, Nat.zero_add, hlen i hi.le]
      rw [hjoin] at hwrite
      change Does s c (if numAt xb (4 * i) 4 = 2 ^ 31 then pure (absentUnit ty u) >>= engPut c (plus d (u * i))
        else engReadIn (fun _ => v) c (plus a (int32 (numAt xb (4 * i) 4) * u)) u >>= engPut c (plus d (u * i))) (I i) (fun _ => I (i + 1))
      split at hsource
      · next h =>
        rw [if_pos h, ← hsource]
        exact (Does.pure _ fun _ h => ⟨rfl, h⟩ : Does s c _ (I i) (fun b σ => b = us.getD i [] ∧ I i σ)).bind_val hwrite
      · next h =>
        rw [if_neg h]
        exact (Does.readIn h0 hui fun _ _ _ => hold hsource).bind_val hwrite

/-! Scatters. -/

/-- A write puts its bytes where its addresses lead. -/
theorem State.puts_in {ea : Dword} {bs : List Byte} (hc : Clear s c (addrPlus ea) bs.length) (σ : Sight) {i key : Nat} (hi : i < bs.length)
    (hk : s.keyOf c (addrPlus ea i) true = .ok key) : s.puts c ea bs σ key = bs.getD i 0 := by
  induction bs generalizing ea σ i with
  | nil => exact absurd hi (Nat.not_lt_zero i)
  | cons b bs ih =>
    obtain ⟨k0, hk0⟩ := hc.1 0 (Nat.succ_pos _)
    have hk0' := hk0
    rw [addrPlus_zero] at hk0'
    have hrest : Clear s c (addrPlus (ea + 1)) bs.length := by
      refine ⟨fun j hj => ?_, fun j l hj hl he => ?_⟩
      · rw [← addrPlus_succ]
        exact hc.1 (j + 1) (Nat.succ_lt_succ hj)
      · rw [← addrPlus_succ, ← addrPlus_succ] at he
        exact Nat.succ.inj (hc.2 (j + 1) (l + 1) (Nat.succ_lt_succ hj) (Nat.succ_lt_succ hl) he)
    rw [State.puts, hk0']
    cases i with
    | zero =>
      rw [hk] at hk0
      obtain rfl := Except.ok.inj hk0
      refine (s.puts_out c fun j hj he => ?_).trans (Function.update_self _ _ _)
      rw [← addrPlus_succ] at he
      exact absurd (hc.2 0 (j + 1) (Nat.succ_pos _) (Nat.succ_lt_succ hj) (hk.trans he.symm)) (Nat.succ_ne_zero j).symm
    | succ i =>
      rw [addrPlus_succ] at hk
      exact ih hrest _ (Nat.lt_of_succ_lt_succ hi) hk

/-- The target of a unit of a scatter. -/
def scatTarget (d : Dword) (xb : List Byte) (u i : Nat) : Dword := plus d (int32 (numAt xb (4 * i) 4) * u)

/-- What a core sees after one unit of a scatter (R243). -/
def State.scatUnit (s : State) (c : Nat) (d : Dword) (xb ab : List Byte) (u : Nat) (σ : Sight) (i : Nat) : Sight :=
  if numAt xb (4 * i) 4 = 2 ^ 31 then σ else s.puts c (scatTarget d xb u i) (slice ab (u * i) u) σ

/-- What a core sees after the first units of a scatter. -/
def State.scattered (s : State) (c : Nat) (d : Dword) (xb ab : List Byte) (u i : Nat) : Sight :=
  (List.range i).foldl (s.scatUnit c d xb ab u) (s.coreByte c)

section
variable {d : Dword} {xb ab : List Byte} {u n : Nat}

theorem State.scattered_succ (i : Nat) : s.scattered c d xb ab u (i + 1) = s.scatUnit c d xb ab u (s.scattered c d xb ab u i) i := by
  rw [State.scattered, List.range_succ, List.foldl_append]
  rfl

theorem State.scatUnit_out (hab : ab.length = u * n) {i : Nat} (hi : i < n) (σ : Sight) {key : Nat}
    (h : numAt xb (4 * i) 4 ≠ 2 ^ 31 → ∀ p, p < u → s.keyOf c (addrPlus (scatTarget d xb u i) p) true ≠ .ok key) :
    s.scatUnit c d xb ab u σ i key = σ key := by
  have hlen : u * i + u ≤ ab.length := by
    rw [hab, ← Nat.mul_succ]
    exact Nat.mul_le_mul_left u hi
  unfold State.scatUnit
  split
  · rfl
  · next hx =>
    refine s.puts_out c fun p hp => h hx p ?_
    rwa [slice_length hlen] at hp

/-- A byte that no unit from one on reaches stays. -/
theorem State.scattered_out (hab : ab.length = u * n) {key : Nat} (k i : Nat) (hi : k + i ≤ n)
    (h : ∀ j, k ≤ j → j < k + i → numAt xb (4 * j) 4 ≠ 2 ^ 31 → ∀ p, p < u → s.keyOf c (addrPlus (scatTarget d xb u j) p) true ≠ .ok key) :
    s.scattered c d xb ab u (k + i) key = s.scattered c d xb ab u k key := by
  induction i with
  | zero => rfl
  | succ i ih =>
    rw [← Nat.add_assoc, State.scattered_succ, State.scatUnit_out hab (by omega) _ (h (k + i) (by omega) (by omega))]
    exact ih (by omega) fun j hj hlt => h j hj (by omega)

theorem State.scattered_of_untouched (hab : ab.length = u * n) {i key : Nat} (hi : i ≤ n)
    (h : ∀ j, j < i → numAt xb (4 * j) 4 ≠ 2 ^ 31 → ∀ p, p < u → s.keyOf c (addrPlus (scatTarget d xb u j) p) true ≠ .ok key) :
    s.scattered c d xb ab u i key = s.coreByte c key := by
  have hout := State.scattered_out (s := s) (c := c) (d := d) (xb := xb) hab (key := key) 0 i (by omega) fun j _ hj => h j (by omega)
  rw [Nat.zero_add] at hout
  exact hout

/-- A scatter, unit by unit (R243). -/
theorem runScat_scatters (h0 : Calm s c) {a x : Dword} (hxb : xb.length = 4 * n) (hx : Sees s c x xb) (hab : ab.length = u * n)
    (ha : Sees s c a ab)
    (hunits : ∀ i, i < n → numAt xb (4 * i) 4 ≠ 2 ^ 31 → Writes s c (scatTarget d xb u i) u ∧
      Apart s c (scatTarget d xb u i) u [(x, 4 * n), (a, u * n)]) :
    Does s c (runScat c d a x u n) (fun σ => σ = s.coreByte c) (fun _ σ => σ = s.scattered c d xb ab u n) := by
  have hreads : ∀ i, i ≤ n → ∀ (ea : Dword) (bs : List Byte), (ea, bs.length) ∈ [(x, 4 * n), (a, u * n)] → Sees s c ea bs →
      Reads s c (s.scattered c d xb ab u i) ea bs := fun i hi ea bs hm hs => by
    refine (sees_iff.mp hs).congr fun p hp key hk => State.scattered_of_untouched hab hi fun j hj hne q hq he => ?_
    exact (hunits j (by omega) hne).2 q hq key he _ hm p hp hk
  refine (Does.forM_range n (fun i σ => σ = s.scattered c d xb ab u i) fun i hi => ?_).conseq (fun σ h => h) fun _ _ h => h
  have h4 : 4 * i + 4 ≤ xb.length := by omega
  have hu : u * i + u ≤ ab.length := by
    rw [hab, ← Nat.mul_succ]
    exact Nat.mul_le_mul_left u hi
  have hidx : plus x (4 * i) = plus x ((4 * i : Nat) : Int) := by push_cast; rfl
  have hsrc : plus a (u * i) = plus a ((u * i : Nat) : Int) := by push_cast; rfl
  refine (Does.nat h0 (slice_length h4) (P := fun σ => σ = s.scattered c d xb ab u i) fun σ hσ => ?_).bind_val ?_
  · subst hσ
    rw [hidx]
    exact (hreads i hi.le x xb (by simp [hxb]) hx).slice h4
  · change Does s c (if numAt xb (4 * i) 4 = 2 ^ 31 then pure ()
      else engRead c (plus a (u * i)) u >>= engPut c (scatTarget d xb u i)) _ _
    rw [State.scattered_succ, State.scatUnit]
    split
    · exact Does.pure () fun _ h => h
    · next hne =>
      obtain ⟨hwrite, -⟩ := hunits i hi hne
      refine (Does.read h0 (slice_length hu) (P := fun σ => σ = s.scattered c d xb ab u i) fun σ hσ => ?_).bind_val ?_
      · subst hσ
        rw [hsrc]
        exact (hreads i hi.le a ab (by simp [hab]) ha).slice hu
      · refine (Does.put h0 (fun σ => σ = s.puts c (scatTarget d xb u i) (slice ab (u * i) u) (s.scattered c d xb ab u i)) ?_).conseq ?_
          fun _ _ h => h
        · rw [slice_length hu]
          exact hwrite.1
        · rintro _ rfl
          rfl

/-- Where the last unit with its index goes, its bytes are then seen. -/
theorem State.scattered_last (hab : ab.length = u * n) {i : Nat} (hi : i < n) (hne : numAt xb (4 * i) 4 ≠ 2 ^ 31)
    (hw : Writes s c (scatTarget d xb u i) u)
    (hapart : ∀ j, j < n → numAt xb (4 * j) 4 ≠ 2 ^ 31 → j ≠ i → numAt xb (4 * j) 4 ≠ numAt xb (4 * i) 4 → ∀ p q, p < u → q < u →
      s.keyOf c (addrPlus (scatTarget d xb u i) p) true ≠ s.keyOf c (addrPlus (scatTarget d xb u j) q) true)
    (hlast : ∀ j, i < j → j < n → numAt xb (4 * j) 4 ≠ numAt xb (4 * i) 4) {p key : Nat} (hp : p < u)
    (hk : s.keyOf c (addrPlus (scatTarget d xb u i) p) true = .ok key) :
    s.scattered c d xb ab u n key = (slice ab (u * i) u).getD p 0 := by
  have hlen : u * i + u ≤ ab.length := by
    rw [hab, ← Nat.mul_succ]
    exact Nat.mul_le_mul_left u hi
  have hlater := State.scattered_out (s := s) (c := c) (d := d) (xb := xb) hab (key := key) (i + 1) (n - (i + 1)) (by omega)
    fun j hj hlt hjne q hq he => hapart j (by omega) hjne (by omega) (hlast j (by omega) (by omega)) p q hp hq (hk.trans he.symm)
  rw [show i + 1 + (n - (i + 1)) = n by omega] at hlater
  rw [hlater, State.scattered_succ, State.scatUnit, if_neg hne]
  refine State.puts_in ?_ _ (by rw [slice_length hlen]; exact hp) hk
  rw [slice_length hlen]
  exact writes_iff.mp hw

end

end

end Sys2Proof.Machine
end

section
/-! PROOFS. Numbers in ranges of bytes (R9). -/

namespace Sys2Proof.Machine

theorem natOfBytes_lt (bs : List Byte) : natOfBytes bs < 256 ^ bs.length := by
  induction bs with
  | nil => simp [natOfBytes]
  | cons b bs ih =>
    have hb := b.isLt
    rw [natOfBytes, List.length_cons, Nat.pow_succ]
    omega

theorem natOfBytes_append (a b : List Byte) : natOfBytes (a ++ b) = natOfBytes a + 256 ^ a.length * natOfBytes b := by
  induction a with
  | nil => simp [natOfBytes]
  | cons x a ih =>
    rw [List.cons_append, natOfBytes, natOfBytes, ih, List.length_cons, Nat.pow_succ]
    ring

theorem natOfBytes_bytesOfNat (n v : Nat) : natOfBytes (bytesOfNat n v) = v % 256 ^ n := by
  induction n generalizing v with
  | zero => rw [Nat.pow_zero, Nat.mod_one]; rfl
  | succ n ih =>
    have hpow : 256 ^ (n + 1) = 256 * 256 ^ n := Nat.pow_succ'
    rw [bytesOfNat, natOfBytes, ih, hpow, Nat.mod_mul]
    rfl

theorem bytesOfNat_natOfBytes (bs : List Byte) : bytesOfNat bs.length (natOfBytes bs) = bs := by
  induction bs with
  | nil => rfl
  | cons b bs ih =>
    have hb : b.toNat < 256 := b.isLt
    have h1 : (b.toNat + 256 * natOfBytes bs) / 256 = natOfBytes bs := by omega
    have h2 : BitVec.ofNat 8 (b.toNat + 256 * natOfBytes bs) = b := by
      apply BitVec.eq_of_toNat_eq
      rw [BitVec.toNat_ofNat]
      omega
    rw [List.length_cons, natOfBytes, bytesOfNat, h1, h2, ih]

theorem slice_add (bs : List Byte) (i a b : Nat) : slice bs i (a + b) = slice bs i a ++ slice bs (i + a) b := by
  rw [slice, slice, slice, List.take_add, List.drop_drop]

section
variable {bs : List Byte} {i a b : Nat}

theorem numAt_lt (h : i + a ≤ bs.length) : numAt bs i a < 256 ^ a := by
  have hlt := natOfBytes_lt (slice bs i a)
  rwa [slice_length h] at hlt

theorem numAt_add (h : i + a ≤ bs.length) : numAt bs i (a + b) = numAt bs i a + 256 ^ a * numAt bs (i + a) b := by
  rw [numAt, slice_add, natOfBytes_append, slice_length h]
  rfl

/-- The low bytes of a number. -/
theorem numAt_mod (h : i + a ≤ bs.length) : numAt bs i (a + b) % 256 ^ a = numAt bs i a := by
  rw [numAt_add h, Nat.add_mul_mod_self_left, Nat.mod_eq_of_lt (numAt_lt h)]

/-- The high bytes of a number. -/
theorem numAt_div (h : i + a ≤ bs.length) : numAt bs i (a + b) / 256 ^ a = numAt bs (i + a) b := by
  rw [numAt_add h, Nat.add_mul_div_left _ _ (Nat.pos_of_ne_zero (by positivity)), Nat.div_eq_of_lt (numAt_lt h), Nat.zero_add]

end

theorem ofNat16_mod (n : Nat) : BitVec.ofNat 16 (n % 2 ^ 16) = BitVec.ofNat 16 n := by
  apply BitVec.eq_of_toNat_eq
  simp

end Sys2Proof.Machine
end

section
/-! PROOFS. GATHMC: tiles from the positions that their displacements name (R326). -/

namespace Sys2Proof.Machine

/-- Unit `j` of 64 of tile `k` lies within `m` tiles. -/
theorem unit_fits {u k j m : Nat} (hk : k < m) (hj : j < 64) : 64 * u * k + j * u + u ≤ 64 * u * m := by
  have h1 : 64 * u * (k + 1) ≤ 64 * u * m := Nat.mul_le_mul_left _ hk
  have h2 : (j + 1) * u ≤ 64 * u := Nat.mul_le_mul_right u hj
  rw [Nat.mul_succ] at h1
  rw [Nat.succ_mul] at h2
  omega

theorem absentUnit_length_le (ty : BitVec 4) (u : Nat) : (absentUnit ty u).length ≤ u := by
  have h : (absentUnit ty u).length = u / typeWidth ty * typeWidth ty := by simp [absentUnit]
  rw [h]
  exact Nat.div_mul_le_self u _

/-- The tile that an entry of a list names. -/
def mcTile (lb : List Byte) (i : Nat) : Nat := numAt lb (8 * i) 4

/-- Where position `p` of a tile comes from: its column. -/
def mcX (lb : List Byte) (ntx i p : Nat) : Int := 8 * (mcTile lb i % ntx : Nat) + (p % 8 : Nat) - (BitVec.ofNat 16 (numAt lb (8 * i + 4) 2)).toInt

/-- Where position `p` of a tile comes from: its row. -/
def mcY (lb : List Byte) (ntx i p : Nat) : Int := 8 * (mcTile lb i / ntx : Nat) + (p / 8 : Nat) - (BitVec.ofNat 16 (numAt lb (8 * i + 6) 2)).toInt

/-- The unit at a place of the planes; absent outside them. -/
def mcUnit (ab : List Byte) (ty : BitVec 4) (u ntx nty : Nat) (x y : Int) : List Byte :=
  if 0 ≤ x ∧ x < 8 * ntx ∧ 0 ≤ y ∧ y < 8 * nty then
    slice ab (64 * u * (y.toNat / 8 * ntx + x.toNat / 8) + (8 * (y.toNat % 8) + x.toNat % 8) * u) u
  else absentUnit ty u

/-- An area after one unit of a tile. -/
def mcPut (lb ab : List Byte) (ty : BitVec 4) (u ntx nty i : Nat) (f : Nat → Byte) (p : Nat) : Nat → Byte :=
  splice f (64 * u * mcTile lb i + p * u) (mcUnit ab ty u ntx nty (mcX lb ntx i p) (mcY lb ntx i p))

/-- An area after the units of a tile. -/
def mcPuts (lb ab : List Byte) (ty : BitVec 4) (u ntx nty i : Nat) (f : Nat → Byte) (p : Nat) : Nat → Byte :=
  (List.range p).foldl (mcPut lb ab ty u ntx nty i) f

/-- An area after one entry of a list. -/
def mcEntry (lb ab : List Byte) (ty : BitVec 4) (u ntx nty : Nat) (f : Nat → Byte) (i : Nat) : Nat → Byte :=
  if mcTile lb i = 2 ^ 31 ∨ ntx * nty ≤ mcTile lb i then f else mcPuts lb ab ty u ntx nty i f 64

/-- An area after the first entries of a list. -/
def mcEntries (lb ab : List Byte) (ty : BitVec 4) (u ntx nty : Nat) (f : Nat → Byte) (n : Nat) : Nat → Byte :=
  (List.range n).foldl (mcEntry lb ab ty u ntx nty) f

section
variable {lb ab : List Byte} {ty : BitVec 4} {u ntx nty : Nat}

theorem mcOffset_fits {x y : Int} (h : 0 ≤ x ∧ x < 8 * ntx ∧ 0 ≤ y ∧ y < 8 * nty) :
    64 * u * (y.toNat / 8 * ntx + x.toNat / 8) + (8 * (y.toNat % 8) + x.toNat % 8) * u + u ≤ 64 * u * (ntx * nty) := by
  obtain ⟨h1, h2, h3, h4⟩ := h
  have hx : x.toNat / 8 < ntx := by omega
  have hy : y.toNat / 8 < nty := by omega
  refine unit_fits ?_ (by omega)
  calc y.toNat / 8 * ntx + x.toNat / 8 < y.toNat / 8 * ntx + ntx := Nat.add_lt_add_left hx _
    _ = (y.toNat / 8 + 1) * ntx := (Nat.succ_mul _ _).symm
    _ ≤ nty * ntx := Nat.mul_le_mul_right ntx hy
    _ = ntx * nty := Nat.mul_comm _ _

theorem mcUnit_length_le (hab : ab.length = 64 * u * (ntx * nty)) (x y : Int) : (mcUnit ab ty u ntx nty x y).length ≤ u := by
  unfold mcUnit
  split
  · next h => rw [slice_length (by rw [hab]; exact mcOffset_fits h)]
  · exact absentUnit_length_le ty u

theorem mcPuts_succ (i : Nat) (f : Nat → Byte) (p : Nat) :
    mcPuts lb ab ty u ntx nty i f (p + 1) = mcPut lb ab ty u ntx nty i (mcPuts lb ab ty u ntx nty i f p) p := by
  rw [mcPuts, List.range_succ, List.foldl_append]
  rfl

theorem mcEntries_succ (f : Nat → Byte) (n : Nat) :
    mcEntries lb ab ty u ntx nty f (n + 1) = mcEntry lb ab ty u ntx nty (mcEntries lb ab ty u ntx nty f n) n := by
  rw [mcEntries, List.range_succ, List.foldl_append]
  rfl

/-- Units of other positions leave a unit. -/
theorem mcPuts_in (hab : ab.length = 64 * u * (ntx * nty)) (i : Nat) (f : Nat → Byte) {p b : Nat} (hp : p < 64)
    (hb : b < (mcUnit ab ty u ntx nty (mcX lb ntx i p) (mcY lb ntx i p)).length) :
    mcPuts lb ab ty u ntx nty i f 64 (64 * u * mcTile lb i + p * u + b) =
      (mcUnit ab ty u ntx nty (mcX lb ntx i p) (mcY lb ntx i p)).getD b 0 := by
  have hbu := lt_of_lt_of_le hb (mcUnit_length_le hab _ _)
  suffices h : ∀ q ∈ List.range 64, q = p → mcPuts lb ab ty u ntx nty i f 64 (64 * u * mcTile lb i + p * u + b) =
      (mcUnit ab ty u ntx nty (mcX lb ntx i p) (mcY lb ntx i p)).getD b 0 from h p (List.mem_range.mpr hp) rfl
  refine foldl_each (mcPut lb ab ty u ntx nty i) (fun _ => True) (fun q g => q = p → g (64 * u * mcTile lb i + p * u + b) =
      (mcUnit ab ty u ntx nty (mcX lb ntx i p) (mcY lb ntx i p)).getD b 0) (List.range 64) (fun _ _ _ _ => trivial) ?_ ?_ f trivial
  · rintro g q _ _ rfl
    exact splice_in hb
  · rintro g q _ r _ hqr h rfl
    have hlen := mcUnit_length_le (ty := ty) hab (mcX lb ntx i r) (mcY lb ntx i r)
    refine (splice_out ?_).trans (h rfl)
    rcases Nat.lt_or_gt_of_ne hqr with hlt | hlt
    · have hm : (q + 1) * u ≤ r * u := Nat.mul_le_mul_right u hlt
      rw [Nat.succ_mul] at hm
      omega
    · have hm : (r + 1) * u ≤ q * u := Nat.mul_le_mul_right u hlt
      rw [Nat.succ_mul] at hm
      omega

/-- The units of a tile leave the other tiles. -/
theorem mcPuts_out (hab : ab.length = 64 * u * (ntx * nty)) (i : Nat) (f : Nat → Byte) {k : Nat}
    (hk : k < 64 * u * mcTile lb i ∨ 64 * u * (mcTile lb i + 1) ≤ k) : mcPuts lb ab ty u ntx nty i f 64 k = f k := by
  refine List.foldlRecOn (motive := fun g : Nat → Byte => g k = f k) (List.range 64) _ rfl fun g hg p hp => ?_
  have hlen := mcUnit_length_le (ty := ty) hab (mcX lb ntx i p) (mcY lb ntx i p)
  have hfit := unit_fits (u := u) (Nat.lt_add_one (mcTile lb i)) (List.mem_range.mp hp)
  refine (splice_out ?_).trans hg
  omega

/-- The last entry of a tile leaves its units. -/
theorem mcEntries_last (hab : ab.length = 64 * u * (ntx * nty)) (f : Nat → Byte) {i n : Nat} (hi : i < n) (hq : mcTile lb i ≠ 2 ^ 31)
    (hq' : mcTile lb i < ntx * nty) (hlast : ∀ j, i < j → j < n → mcTile lb j ≠ mcTile lb i) {p b : Nat} (hp : p < 64)
    (hb : b < (mcUnit ab ty u ntx nty (mcX lb ntx i p) (mcY lb ntx i p)).length) :
    mcEntries lb ab ty u ntx nty f n (64 * u * mcTile lb i + p * u + b) =
      (mcUnit ab ty u ntx nty (mcX lb ntx i p) (mcY lb ntx i p)).getD b 0 := by
  have hbu := lt_of_lt_of_le hb (mcUnit_length_le hab _ _)
  induction n with
  | zero => exact absurd hi (Nat.not_lt_zero i)
  | succ n ih =>
    rw [mcEntries_succ, mcEntry]
    by_cases hin : i = n
    · subst hin
      rw [if_neg (by rintro (h | h) <;> omega)]
      exact mcPuts_in hab i _ hp hb
    · have hprev := ih (by omega) fun j hj hlt => hlast j hj (by omega)
      split
      · exact hprev
      · refine (mcPuts_out hab n _ ?_).trans hprev
        have hfit := unit_fits (u := u) (Nat.lt_add_one (mcTile lb i)) hp
        rcases Nat.lt_or_gt_of_ne (hlast n (by omega) (by omega)) with hlt | hlt
        · have hm : 64 * u * (mcTile lb n + 1) ≤ 64 * u * mcTile lb i := Nat.mul_le_mul_left _ hlt
          omega
        · have hm : 64 * u * (mcTile lb i + 1) ≤ 64 * u * mcTile lb n := Nat.mul_le_mul_left _ hlt
          omega

variable {s : State} {c : Nat}

/-- The unit of one position of a tile is read, or absent, before what is done with it (R326). -/
theorem Does.mcUnit (h0 : Calm s c) {a : Dword} (hab : ab.length = 64 * u * (ntx * nty)) {P Q : Sight → Prop} (ha : ∀ σ, P σ → Reads s c σ a ab)
    (x y : Int) {k : List Byte → Eng Unit} (hk : Does s c (k (Machine.mcUnit ab ty u ntx nty x y)) P (fun _ => Q)) :
    Does s c (match gathmcSource a u ntx nty x y with
      | some src => engRead c src u >>= k
      | none => Pure.pure (absentUnit ty u) >>= k) P (fun _ => Q) := by
  unfold gathmcSource
  unfold Machine.mcUnit at hk
  by_cases h : 0 ≤ x ∧ x < 8 * ntx ∧ 0 ≤ y ∧ y < 8 * nty
  · have hfit := mcOffset_fits (u := u) h
    rw [if_pos h] at hk ⊢
    obtain ⟨hx0, -, hy0, -⟩ := h
    obtain ⟨X, rfl⟩ := Int.eq_ofNat_of_zero_le hx0
    obtain ⟨Y, rfl⟩ := Int.eq_ofNat_of_zero_le hy0
    have hoff : (64 * u * ((Y : Int) / 8 * ntx + (X : Int) / 8) + (8 * ((Y : Int) % 8) + (X : Int) % 8) * u) =
        ((64 * u * (Y / 8 * ntx + X / 8) + (8 * (Y % 8) + X % 8) * u : Nat) : Int) := by push_cast; rfl
    rw [hoff]
    exact (Does.read h0 (slice_length (by rw [hab]; exact hfit)) fun σ hσ => (ha σ hσ).slice (by rw [hab]; exact hfit)).bind_val hk
  · rw [if_neg h] at hk ⊢
    exact (Does.pure _ fun _ h => ⟨rfl, h⟩ : Does s c _ P (fun bs σ => bs = absentUnit ty u ∧ P σ)).bind_val hk

/-- GATHMC, entry by entry (R326). -/
theorem runGathmc_gathers (h0 : Calm s c) {d a l : Dword} (hlb : lb.length = 8 * (ntx * nty)) (hl : Sees s c l lb)
    (hab : ab.length = 64 * u * (ntx * nty)) (ha : Sees s c a ab) (hw : Writes s c d (64 * u * (ntx * nty)))
    (hapart : Apart s c d (64 * u * (ntx * nty)) [(l, 8 * (ntx * nty)), (a, 64 * u * (ntx * nty))]) :
    Does s c (runGathmc c d a l ty u ntx nty) (fun σ => σ = s.coreByte c) (fun _ => Shows s c (addrPlus d) (64 * u * (ntx * nty))
      (mcEntries lb ab ty u ntx nty (s.held c (addrPlus d)) (ntx * nty))) := by
  have hreads : ∀ f (σ : Sight), Shows s c (addrPlus d) (64 * u * (ntx * nty)) f σ → Reads s c σ l lb ∧ Reads s c σ a ab := fun f σ hσ =>
    ⟨hσ.reads hl fun i hi key hk j hj => hapart i hi key hk (l, 8 * (ntx * nty)) (by simp) j (hlb ▸ hj),
      hσ.reads ha fun i hi key hk j hj => hapart i hi key hk (a, 64 * u * (ntx * nty)) (by simp) j (hab ▸ hj)⟩
  refine (Does.forM_range (ntx * nty) (fun i => Shows s c (addrPlus d) (64 * u * (ntx * nty))
    (mcEntries lb ab ty u ntx nty (s.held c (addrPlus d)) i)) fun i hi => ?_).conseq ?_ fun _ _ h => h
  · have h8 : 8 * i + 8 ≤ lb.length := by omega
    have hidx : plus l (8 * i) = plus l ((8 * i : Nat) : Int) := by push_cast; rfl
    have htile : natOfBytes (slice lb (8 * i) 8) % 2 ^ 32 = mcTile lb i := numAt_mod (a := 4) (b := 4) (by omega)
    have hdx : BitVec.ofNat 16 (natOfBytes (slice lb (8 * i) 8) / 2 ^ 32) = BitVec.ofNat 16 (numAt lb (8 * i + 4) 2) := by
      have h1 : natOfBytes (slice lb (8 * i) 8) / 2 ^ 32 = numAt lb (8 * i + 4) 4 := numAt_div (a := 4) (b := 4) (by omega)
      have h2 : numAt lb (8 * i + 4) 4 % 2 ^ 16 = numAt lb (8 * i + 4) 2 := numAt_mod (a := 2) (b := 2) (by omega)
      rw [h1, ← h2, ofNat16_mod]
    have hdy : natOfBytes (slice lb (8 * i) 8) / 2 ^ 48 = numAt lb (8 * i + 6) 2 := numAt_div (a := 6) (b := 2) (by omega)
    refine (Does.nat h0 (slice_length h8) fun σ hσ => ?_).bind_val ?_
    · rw [hidx]
      exact (hreads _ σ hσ).1.slice h8
    · rw [mcEntries_succ, mcEntry]
      simp only [htile, hdx, hdy]
      split
      · exact Does.pure () fun _ h => h
      · next hq =>
        push Not at hq
        refine (Does.forM_range 64 (fun p => Shows s c (addrPlus d) (64 * u * (ntx * nty)) (mcPuts lb ab ty u ntx nty i
          (mcEntries lb ab ty u ntx nty (s.held c (addrPlus d)) i) p)) fun p hp => ?_).conseq (fun _ h => h) fun _ _ h => h
        refine Does.mcUnit h0 hab (fun σ hσ => (hreads _ σ hσ).2) (mcX lb ntx i p) (mcY lb ntx i p) ?_
        rw [mcPuts_succ]
        have hlen := mcUnit_length_le (ty := ty) hab (mcX lb ntx i p) (mcY lb ntx i p)
        have hfit := unit_fits (u := u) hq.2 hp
        have hdst : plus d (64 * u * mcTile lb i + p * u) = plus d ((64 * u * mcTile lb i + p * u : Nat) : Int) := by push_cast; rfl
        rw [hdst]
        exact Does.write h0 (writes_iff.mp hw) (fun j _ => addrPlus_plus d _ j) (by omega)
  · rintro _ rfl
    exact shows_held s c (addrPlus d) _

end

end Sys2Proof.Machine
end

section
/-! PROOFS. Scatter-accumulates: the values that a window reads, and the update of its target (R244, R245, R266). -/

namespace Sys2Proof.Machine

/-! Parts of commands that only read. -/

/-- A part of a command that gives a value and writes nothing, where the core sees what it saw at first. -/
def Views (s : State) (c : Nat) {α : Type} (x : Eng α) (a : α) : Prop :=
  ∀ u, Works s c u → u.coreByte c = s.coreByte c → ∃ v, x.run u = (.ok a, v) ∧ Looks s c u v

section
variable {s : State} {c : Nat} {α β : Type}

theorem Views.pure (a : α) : Views s c (pure a : Eng α) a := fun u hu _ => ⟨u, rfl, .refl hu⟩

theorem Views.bind {x : Eng α} {f : α → Eng β} {a : α} {b : β} (hx : Views s c x a) (hf : Views s c (f a) b) : Views s c (x >>= f) b := by
  intro u hu hb
  obtain ⟨v, hrun, hv⟩ := hx u hu hb
  obtain ⟨w, hrun', hw⟩ := hf v hv.1 ((hu.coreByte_of_ebuf hv.1 hv.2.2).trans hb)
  exact ⟨w, (Eng.run_bind_ok hrun).trans hrun', hv.trans hw⟩

theorem Views.mapM {ι : Type} {f : ι → Eng β} (l : List ι) (g : ι → β) (h : ∀ x ∈ l, Views s c (f x) (g x)) : Views s c (l.mapM f) (l.map g) := by
  induction l with
  | nil =>
    rw [List.mapM_nil]
    exact .pure []
  | cons x l ih =>
    rw [List.mapM_cons]
    exact (h x List.mem_cons_self).bind ((ih fun y hy => h y (List.mem_cons_of_mem _ hy)).bind (.pure _))

theorem Views.nat (h0 : Calm s c) {ea : Dword} {bs : List Byte} {n : Nat} (hn : bs.length = n) (hs : Sees s c ea bs) :
    Views s c (engNat c ea n) (natOfBytes bs) := by
  subst hn
  intro u hu hb
  obtain ⟨v, hrun, hv⟩ := engReadIn_reads h0 (pick := fun s => s) (ea := ea) (bs := bs) hu fun v hv =>
    ⟨hv.1, by rw [hu.coreByte_of_ebuf hv.1 hv.2.2, hb]; exact sees_iff.mp hs⟩
  exact ⟨v, (Eng.run_bind_ok hrun).trans rfl, hv⟩

/-- A number in a range that the core sees. -/
theorem Views.numAt (h0 : Calm s c) {ea : Dword} {bs : List Byte} {i n : Nat} {k : Int} (hk : k = (i : Nat)) (hn : i + n ≤ bs.length)
    (hs : Sees s c ea bs) : Views s c (engNat c (plus ea k) n) (Machine.numAt bs i n) := by
  subst hk
  exact Views.nat h0 (slice_length hn) (sees_iff.mpr ((sees_iff.mp hs).slice hn))

end

/-! Memory beneath an engine at work. -/

/-- A state with another memory. -/
def State.withMem (s : State) (m : Mem) : State := { s with mem := m }

/-- Bytes are written one after the other. -/
theorem mwrite_eq_foldl (m : Mem) (k : Nat) (bs : List Byte) :
    mwrite m k bs = (List.range bs.length).foldl (fun m i => mset m (k + i) (bs.getD i 0)) m := by
  induction bs generalizing m k with
  | nil => rfl
  | cons b bs ih =>
    rw [mwrite, ih, List.length_cons, List.range_succ_eq_map, List.foldl_cons, List.foldl_map, Nat.add_zero]
    refine List.foldl_ext _ _ _ fun m i _ => ?_
    rw [Nat.add_assoc, Nat.add_comm 1 i]
    rfl

theorem map_byteAt_range' {s : State} {key n : Nat} (h : ∀ i, i < n → s.byteAt (key + i) = mget s.mem (key + i)) :
    (List.range' key n).map s.byteAt = mread s.mem key n := by
  induction n generalizing key with
  | zero => rfl
  | succ n ih =>
    rw [List.range'_succ, List.map_cons, mread, ih fun i hi => ?_]
    · have h0 := h 0 (Nat.succ_pos n)
      rw [Nat.add_zero] at h0
      rw [h0]
    · have hi' := h (i + 1) (Nat.succ_lt_succ hi)
      rwa [Nat.add_comm i 1, ← Nat.add_assoc] at hi'

theorem State.flush_of_none {s : State} {key n : Nat} (h : ∀ c, ∀ p ∈ (s.core c).ebuf, sameUnits key n p.1 = false) : s.flush key n = s := by
  refine List.foldlRecOn (motive := fun u : State => u = s) _ _ rfl fun u hu c _ => ?_
  subst hu
  have hnone : (u.core c).ebuf.filter (fun p => sameUnits key n p.1) = [] := List.filter_eq_nil_iff.mpr fun p hp => by
    rw [h c p hp]
    exact Bool.false_ne_true
  simp only [hnone, List.isEmpty_nil, if_true]

section
variable {s u : State} {c : Nat}

/-- A byte that a core may write lies in no view (R122). -/
theorem State.byteAt_of_writable {ea key : Nat} (h : s.keyOf c ea true = .ok key) : s.byteAt key = mget s.mem key := by
  rw [State.byteAt, if_neg]
  rintro ⟨hlt, hview⟩
  unfold State.keyOf at h
  split at h
  · cases h
  · split at h
    · split at h
      · cases h
      · next hn =>
        obtain rfl := Except.ok.inj h
        exact hn (by rw [hview]; rfl)
    · cases h
  · split at h
    · obtain rfl := Except.ok.inj h
      unfold spadKey at hlt
      omega
    · cases h

theorem Looks.stashDirty {v : State} (h : Looks s c u v) (a : Nat) : Looks s c u (v.modCore c (fun k => k.stashDirty a)) := by
  obtain ⟨hv, hkeep, hbuf⟩ := h
  have hcore : (v.modCore c (fun k => k.stashDirty a)).core c = (v.core c).stashDirty a := State.core_modCore_self _ _ _
  refine ⟨⟨by rw [hv.frame]; rfl, fun d hd => (State.core_modCore_ne _ _ _ _ hd).trans (hv.others d hd), ?_, ?_, ?_⟩, ?_, ?_⟩
  · rw [hcore]
    exact hv.context
  · rw [hcore]
    exact hv.leaves
  · rw [hcore]
    intro x hx
    obtain ⟨y, hy, rfl⟩ := List.mem_map.mp hx
    split <;> exact hv.unmarked y hy
  · rw [hcore]
    exact hkeep.trans ⟨_, _, _, rfl⟩
  · rw [hcore, ← hbuf]
    rfl

/-- Nothing is pending in some units while an engine that wrote nothing works. -/
theorem Works.pending (hu : Works s c u) (hbuf : (u.core c).ebuf = (s.core c).ebuf) {key n : Nat}
    (h : ∀ k ∈ s.cores, ∀ p ∈ k.2.ebuf, sameUnits key n p.1 = false) (d : Nat) {p : Nat × Byte} (hp : p ∈ (u.core d).ebuf) :
    sameUnits key n p.1 = false := by
  have hs : p ∈ (s.core d).ebuf := by
    by_cases hd : d = c
    · subst hd
      rw [← hbuf]
      exact hp
    · rw [← hu.others d hd]
      exact hp
  obtain ⟨e, he, hm⟩ := State.ebuf_listed hs
  exact h e he p hm

theorem sameUnits_of_within {key w i j : Nat} (hi : i < w) (h : sameUnits key w j = false) : sameUnits (key + i) 1 j = false := by
  unfold sameUnits at *
  simp only [Bool.and_eq_false_iff, decide_eq_false_iff_not] at *
  omega

/-! A read-modify-write. -/

theorem rmwKeys_run_ok {key n : Nat} {ea : Dword} (hk : u.keyOf c ea.toNat true = .ok key) {v : State}
    (hv : v = (u.cacheLeaf c ea.toNat).stashUse c ea.toNat 1) (hb : v.badAt key 1 = false) (hm : (v.core c).stashMarked ea.toNat = false) :
    (rmwKeys c ea (n + 1)).run u = (rmwKeys c (ea + 1) n >>= fun r => pure (key :: r)).run v := by
  rw [rmwKeys, Eng.run_get_bind]
  simp only [hk, ← hv]
  rw [Eng.run_set_bind]
  simp only [hb, hm, Bool.or_false, Bool.false_eq_true, if_false]

theorem Views.rmwKeys (h0 : Calm s c) (w : Nat) {ea : Dword} {key : Nat}
    (h : ∀ i, i < w → s.keyOf c (addrPlus ea i) true = .ok (key + i) ∧ s.badAt (key + i) 1 = false) :
    Views s c (rmwKeys c ea w) (List.range' key w) := by
  induction w generalizing ea key with
  | zero => exact .pure []
  | succ w ih =>
    intro u hu hb
    obtain ⟨hk, hbad⟩ := h 0 (Nat.succ_pos _)
    rw [addrPlus_zero, Nat.add_zero] at hk
    rw [Nat.add_zero] at hbad
    have hlook := (Looks.cacheLeaf hu ea.toNat).trans (.stashUse (Looks.cacheLeaf hu ea.toNat).1 ea.toNat 1)
    generalize hw : (u.cacheLeaf c ea.toNat).stashUse c ea.toNat 1 = v at *
    have hmark : (v.core c).stashMarked ea.toNat = false := by
      rw [CoreSt.stashMarked, List.any_eq_false]
      intro x hx
      rw [hlook.1.unmarked x hx, Bool.and_false]
      exact Bool.false_ne_true
    obtain ⟨x, hrun, hx⟩ := ih (ea := ea + 1) (key := key + 1) (fun i hi => by
      have hi' := h (i + 1) (Nat.succ_lt_succ hi)
      rwa [addrPlus_succ, Nat.add_comm i 1, ← Nat.add_assoc] at hi') v hlook.1 ((hu.coreByte_of_ebuf hlook.1 hlook.2.2).trans hb)
    refine ⟨x, ?_, hlook.trans hx⟩
    rw [rmwKeys_run_ok ((hu.keyOf h0 _ _).trans hk) hw.symm ((hlook.1.badAt key 1).trans hbad) hmark, Eng.run_bind_ok hrun]
    rfl

/-- A read-modify-write updates its target in the memory order at once, and gives its old value (R245, R266). -/
theorem rmw_updates (h0 : Calm s c) (hu : Works s c u) (hbuf : (u.core c).ebuf = (s.core c).ebuf) {ea : Dword} {key w : Nat}
    (hkeys : ∀ i, i < w → s.keyOf c (addrPlus ea i) true = .ok (key + i) ∧ s.badAt (key + i) 1 = false)
    (hpend : ∀ k ∈ s.cores, ∀ p ∈ k.2.ebuf, sameUnits key w p.1 = false) (f : Nat → Nat) :
    ∃ v, Looks s c u v ∧ (rmw c ea w f).run u = (.ok (natOfBytes (mread s.mem key w)),
      v.withMem (mwrite s.mem key (bytesOfNat w (f (natOfBytes (mread s.mem key w)))))) := by
  have hsight : u.coreByte c = s.coreByte c := (Works.of_calm h0).coreByte_of_ebuf hu hbuf
  obtain ⟨x, hrun, hx⟩ := Views.rmwKeys h0 w hkeys u hu hsight
  have hxbuf : (x.core c).ebuf = (s.core c).ebuf := hx.2.2.trans hbuf
  have hflush : (List.range' key w).foldl (fun s key => s.flush key 1) x = x := by
    refine List.foldlRecOn (motive := fun u : State => u = x) _ _ rfl fun y hy k hk => ?_
    subst hy
    obtain ⟨i, hi, rfl⟩ := List.mem_range'.mp hk
    rw [Nat.one_mul]
    exact State.flush_of_none fun d p hp => sameUnits_of_within hi (hx.1.pending hxbuf hpend d hp)
  have hold : natOfBytes ((List.range' key w).map x.byteAt) = natOfBytes (mread s.mem key w) := by
    have hbyte : x.byteAt = s.byteAt := funext hx.1.byteAt
    rw [hbyte, map_byteAt_range' fun i hi => State.byteAt_of_writable (hkeys i hi).1]
  generalize natOfBytes (mread s.mem key w) = old at *
  have hbs : (bytesOfNat w (f old)).length = w := bytesOfNat_length _ _
  have hwrites : ∀ n, n ≤ w → ∃ v, Looks s c u v ∧ (List.range n).foldl (fun s i =>
      (s.write ((List.range' key w).getD i 0) [(bytesOfNat w (f old)).getD i 0]).modCore c (fun k => k.stashDirty (ea.toNat + i))) x =
      v.withMem ((List.range n).foldl (fun m i => mset m (key + i) ((bytesOfNat w (f old)).getD i 0)) s.mem) := by
    intro n
    induction n with
    | zero => exact fun _ => ⟨x, hx, by rw [← hx.1.mem]; rfl⟩
    | succ n ih =>
      intro hn
      obtain ⟨v, hv, hfold⟩ := ih (by omega)
      refine ⟨v.modCore c (fun k => k.stashDirty (ea.toNat + n)), hv.stashDirty _, ?_⟩
      have hkey : (List.range' key w).getD n 0 = key + n := by
        rw [List.getD_eq_getElem _ _ (by simpa using hn), List.getElem_range', Nat.one_mul]
      rw [List.range_succ, List.foldl_append, List.foldl_append, hfold, List.foldl_cons, List.foldl_nil, List.foldl_cons, List.foldl_nil, hkey,
        State.write, State.flush_of_none]
      · rfl
      · exact fun d p hp => sameUnits_of_within hn (hv.1.pending (hv.2.2.trans hbuf) hpend d hp)
  obtain ⟨v, hv, hfold⟩ := hwrites w le_rfl
  refine ⟨v, hv, ?_⟩
  rw [mwrite_eq_foldl, hbs, ← hfold, rmw, Eng.run_bind_ok hrun, Eng.run_get_bind]
  simp only [hflush, hold]
  rfl

end

end Sys2Proof.Machine
end

section
/-! PROOFS. Scatter-accumulates: one window on one target (R244, R245). -/

namespace Sys2Proof.Machine

/-! Writes above a memory that has changed beneath the engine. -/

/-- With another memory the tables still lead an address of a core where they did. -/
def State.LeadsSame (s : State) (c : Nat) (m : Mem) (a : Nat) : Prop :=
  regionOf a = .global → (s.withMem m).walkPages (s.core c).part a = s.walkPages (s.core c).part a

section
variable {s u : State} {c a : Nat} {m : Mem}

theorem Works.walkPages_withMem (hu : Works s c u) (hg : regionOf a = .global) (hm : s.LeadsSame c m a) :
    (u.withMem m).walkPages (u.core c).part a = u.walkPages (u.core c).part a := by
  have hpte : (u.withMem m).pte = (s.withMem m).pte := by
    rw [hu.frame]
    rfl
  have hpart : u.part = s.part := by
    rw [hu.frame]
    rfl
  have hpage : u.pageOk = s.pageOk := by
    rw [hu.frame]
    rfl
  rw [hu.walkPages, hu.context.1, ← hm hg, State.walkPages, State.walkPages, hpte, show (u.withMem m).part = (s.withMem m).part from hpart,
    show (u.withMem m).pageOk = (s.withMem m).pageOk from hpage]

theorem Works.coreLeaf_withMem (hu : Works s c u) (hg : regionOf a = .global) (hm : s.LeadsSame c m a) :
    (u.withMem m).coreLeaf c a = u.coreLeaf c a := by
  unfold State.coreLeaf
  rw [show (u.withMem m).core c = u.core c from rfl, hu.walkPages_withMem hg hm]

theorem Works.keyOf_withMem (hu : Works s c u) (hm : s.LeadsSame c m a) (w : Bool) : (u.withMem m).keyOf c a w = u.keyOf c a w := by
  unfold State.keyOf
  cases hr : regionOf a with
  | global => rw [hu.coreLeaf_withMem hr hm]; rfl
  | none | remote | near => rfl

theorem State.modCore_withMem (s : State) (c : Nat) (m : Mem) (f : CoreSt → CoreSt) : (s.withMem m).modCore c f = (s.modCore c f).withMem m := rfl

theorem Works.cacheLeaf_withMem (hu : Works s c u) (hm : s.LeadsSame c m a) :
    (u.withMem m).cacheLeaf c a = (u.cacheLeaf c a).withMem m := by
  unfold State.cacheLeaf
  rw [show (u.withMem m).core c = u.core c from rfl]
  by_cases h : (regionOf a != .global || (u.core c).tlb.any (·.covers a)) = true
  · rw [if_pos h, if_pos h]
  · have hg : regionOf a = .global := by
      simp only [Bool.or_eq_true, bne_iff_ne, ne_eq, not_or, not_not] at h
      exact h.1
    rw [if_neg h, if_neg h, hu.walkPages_withMem hg hm]
    generalize u.walkPages (u.core c).part a = x
    cases x with
    | ok e => exact State.modCore_withMem u c m _
    | error _ => rfl

theorem Works.stashable_withMem (hu : Works s c u) (hm : s.LeadsSame c m a) : (u.withMem m).stashable c a = u.stashable c a := by
  unfold State.stashable
  by_cases hr : regionOf a = .global
  · rw [hu.coreLeaf_withMem hr hm, show (u.withMem m).core c = u.core c from rfl]
  · simp only [beq_eq_false_iff_ne.mpr hr, Bool.and_false, Bool.false_and]

theorem State.foldl_leaveMark_withMem (s : State) (c : Nat) (m : Mem) (l : List StashLine) (h : ∀ x ∈ l, x.marked = false) :
    l.foldl (fun s y => (s.leaveMark c y).answer c (.line y.line)) (s.withMem m) =
      (l.foldl (fun s y => (s.leaveMark c y).answer c (.line y.line)) s).withMem m := by
  induction l generalizing s with
  | nil => rfl
  | cons x l ih =>
    have hx := h x List.mem_cons_self
    rw [List.foldl_cons, List.foldl_cons, State.leaveMark_of_unmarked hx, State.leaveMark_of_unmarked hx,
      ← ih _ fun y hy => h y (List.mem_cons_of_mem _ hy)]
    rfl

theorem Works.stashTouch_withMem (hu : Works s c u) (line : Nat) : (u.withMem m).stashTouch c line = (u.stashTouch c line).withMem m := by
  unfold State.stashTouch
  dsimp only
  rw [show (u.withMem m).core c = u.core c from rfl]
  split
  · rfl
  · rw [u.foldl_leaveMark_withMem c m _ fun x hx => hu.unmarked x (List.mem_of_mem_drop hx)]
    rfl

theorem Works.stashUse_withMem (hu : Works s c u) (hm : s.LeadsSame c m a) (n : Nat) :
    (u.withMem m).stashUse c a n = (u.stashUse c a n).withMem m := by
  unfold State.stashUse
  rw [hu.stashable_withMem hm]
  split
  · have hall : ∀ l : List Nat, Works s c (l.foldl (fun s i => s.stashTouch c (a / 128 + i)) u) ∧
        l.foldl (fun s i => s.stashTouch c (a / 128 + i)) (u.withMem m) = (l.foldl (fun s i => s.stashTouch c (a / 128 + i)) u).withMem m := by
      intro l
      induction l using List.reverseRecOn with
      | nil => exact ⟨hu, rfl⟩
      | append_singleton l i ih =>
        simp only [List.foldl_append, List.foldl_cons, List.foldl_nil]
        exact ⟨(Looks.stashTouch ih.1 _).1, by rw [ih.2, ih.1.stashTouch_withMem]⟩
    exact (hall _).2
  · rfl

/-- A core sees the byte that its engine has written, whatever memory holds. -/
theorem Works.coreByte_put_withMem {v : State} (hu : Works s c u) (hv : Works s c v) {key : Nat} {b : Byte}
    (h : (v.core c).ebuf = tset (u.core c).ebuf key b) :
    (v.withMem m).coreByte c = Function.update ((u.withMem m).coreByte c) key b := by
  have hbyte : (v.withMem m).byteAt = (u.withMem m).byteAt := by
    rw [hv.frame, hu.frame]
    rfl
  funext j
  rw [State.coreByte, show (v.withMem m).core c = v.core c from rfl, h, find?_tset, hbyte]
  by_cases hj : j = key
  · subst hj
    rw [if_pos rfl, Function.update_self]
  · rw [if_neg hj, Function.update_of_ne hj]
    rfl

/-- A write above another memory that leads its addresses where they led. -/
theorem engPut_withMem (h0 : Calm s c) (hu : Works s c u) {ea : Dword} {bs : List Byte} (hm : ∀ i, i < bs.length → s.LeadsSame c m (addrPlus ea i))
    (hk : ∀ i, i < bs.length → ∃ key, s.keyOf c (addrPlus ea i) true = .ok key) :
    ∃ v : State, (engPut c ea bs).run (u.withMem m) = (.ok (), v.withMem m) ∧ KeepsCore (u.core c) (v.core c) ∧
      (v.withMem m).coreByte c = s.puts c ea bs ((u.withMem m).coreByte c) := by
  induction bs generalizing ea u with
  | nil => exact ⟨u, rfl, .refl _, rfl⟩
  | cons b bs ih =>
    obtain ⟨key, hkey⟩ := hk 0 (Nat.succ_pos _)
    have hm0 := hm 0 (Nat.succ_pos _)
    rw [addrPlus_zero] at hkey hm0
    obtain ⟨hw, hkeep, hbuf⟩ := hu.put ea.toNat key b rfl
    obtain ⟨v, hrun, hkeep', hsight⟩ := ih (ea := ea + 1) hw (fun i hi => by rw [← addrPlus_succ]; exact hm (i + 1) (Nat.succ_lt_succ hi))
      fun i hi => by rw [← addrPlus_succ]; exact hk (i + 1) (Nat.succ_lt_succ hi)
    refine ⟨v, ?_, hkeep.trans hkeep', ?_⟩
    · rw [engPut_run_ok ((hu.keyOf_withMem hm0 _).trans ((hu.keyOf h0 _ _).trans hkey)), hu.cacheLeaf_withMem hm0,
        (Looks.cacheLeaf hu _).1.stashUse_withMem hm0]
      exact hrun
    · rw [hsight, State.puts, hkey, hu.coreByte_put_withMem hw hbuf]

end

end Sys2Proof.Machine
end

section
/-! PROOFS. Scatter-accumulates: one window whose entries all name one target (R244, R245). -/

namespace Sys2Proof.Machine

/-- Entries of one target are one group. -/
theorem groupEntries_of_one (q : Nat) {es : List Nat} (h : es ≠ []) : groupEntries (es.map (fun e => (q, e))) = [(q, es)] := by
  have hfst : (es.map (fun e => (q, e))).map (·.1) = List.replicate es.length q := by
    rw [List.map_map]
    exact List.map_const' .. 
  have hdups : (List.replicate es.length q).eraseDups = [q] := by
    obtain ⟨e, r, rfl⟩ := List.exists_cons_of_ne_nil h
    have hnone : (List.replicate r.length q).filter (fun b => !b == q) = [] :=
      List.filter_eq_nil_iff.mpr fun b hb => by simp [List.eq_of_mem_replicate hb]
    rw [List.length_cons, List.replicate_succ, List.eraseDups_cons, hnone]
    rfl
  have hall : (es.map (fun e => (q, e))).filter (fun p => p.1 == q) = es.map (fun e => (q, e)) :=
    List.filter_eq_self.mpr fun p hp => by
      obtain ⟨e, -, rfl⟩ := List.mem_map.mp hp
      exact beq_self_eq_true q
  rw [groupEntries, hfst, hdups, List.map_singleton, hall, List.map_map]
  exact congrArg (fun l => [(q, l)]) (List.map_id es)

/-- The entries of a window that holds them all. -/
theorem window_entries {n win : Nat} (h : n ≤ win) :
    (List.range win).filterMap (fun j => if win * 0 + j < n then some (win * 0 + j) else none) = List.range n := by
  obtain ⟨k, rfl⟩ := Nat.exists_eq_add_of_le h
  have hlow : ∀ j ∈ List.range n, (if (n + k) * 0 + j < n then some ((n + k) * 0 + j) else none) = some j := fun j hj => by
    rw [if_pos (by have := List.mem_range.mp hj; omega), Nat.mul_zero, Nat.zero_add]
  have hhigh : ∀ j ∈ (List.range k).map (n + ·), (if (n + k) * 0 + j < n then some ((n + k) * 0 + j) else none) = (none : Option Nat) :=
    fun j hj => by
      obtain ⟨i, -, rfl⟩ := List.mem_map.mp hj
      rw [if_neg (by omega)]
  rw [List.range_add, List.filterMap_append, List.filterMap_congr hlow, List.filterMap_congr hhigh, List.filterMap_some]
  simp

theorem saccFold_code (opc : BitVec 3) (ty : BitVec 4) (z : Nat) (zs : List Nat) (ev : List Nat) :
    (zs.foldl (fun (a : Nat × List Nat) b => let (u, ev) := saccStep opc ty a.1 b; (u, a.2 ++ ev)) (z, ev)).1 =
      zs.foldl (fun a b => (saccStep opc ty a b).1) z := by
  induction zs generalizing z ev with
  | nil => rfl
  | cons y zs ih => exact ih _ _

/-- Memory after an update by the values of a window (R245). -/
def saccMem (m : Mem) (opc : BitVec 3) (ty : BitVec 4) (key : Nat) (vs : List Nat) : Mem :=
  match vs.filter (fun z => !isAbsent (kindOfType ty) z) with
  | [] => m
  | z :: zs => mwrite m key (bytesOfNat (typeWidth ty)
      (saccStep opc ty (natOfBytes (mread m key (typeWidth ty))) (zs.foldl (fun a b => (saccStep opc ty a b).1) z)).1)

section
variable {s u : State} {c : Nat}

/-- A window reads its indices; then its target is updated (R245). -/
theorem runSacc_of_one_window (h0 : Calm s c) {d x v : Dword} {opc : BitVec 3} {ty : BitVec 4} {n win q : Nat} {xb : List Byte} (hn : 0 < n)
    (hwin : n ≤ win) (hxb : xb.length = 4 * n) (hx : Sees s c x xb) (hq : ∀ i, i < n → numAt xb (4 * i) 4 = q) (hq' : q ≠ 2 ^ 31)
    (hu : Works s c u) (hb : u.coreByte c = s.coreByte c) :
    ∃ v', Looks s c u v' ∧ ∀ evs w, (saccTarget c d v opc ty q (List.range n)).run v' = (.ok evs, w) →
      (runSacc c d x v opc ty n win).run u = (.ok evs, w) := by
  have hone : (n + win - 1) / win = 1 := Nat.div_eq_of_lt_le (by omega) (by omega)
  have hne : List.range n ≠ [] := by
    rw [Ne, List.range_eq_nil]
    omega
  obtain ⟨v', hrun, hv⟩ := Views.mapM (s := s) (c := c) (f := fun (e : Nat) => do
    let k ← engNat c (plus x (4 * e)) 4
    pure (k, e)) (List.range n) (fun e => (q, e)) (fun e he => by
      have he' := List.mem_range.mp he
      rw [← hq e he']
      exact (Views.numAt h0 (by push_cast; rfl) (by omega) hx).bind (.pure _)) u hu hb
  refine ⟨v', hv, fun evs w htarget => ?_⟩
  have hkeep : ((List.range n).map (fun e => (q, e))).filter (fun p => p.1 != 2 ^ 31) = (List.range n).map (fun e => (q, e)) :=
    List.filter_eq_self.mpr fun p hp => by
      obtain ⟨e, -, rfl⟩ := List.mem_map.mp hp
      exact bne_iff_ne.mpr hq'
  have hflat : [evs].flatten = evs := by simp
  have hgroup : ((groupEntries (((List.range n).map (fun e => (q, e))).filter (fun p => p.1 != 2 ^ 31))).mapM
      (fun g => saccTarget c d v opc ty g.1 g.2)).run v' = (.ok [evs], w) := by
    rw [hkeep, groupEntries_of_one q hne, List.mapM_cons, List.mapM_nil]
    exact (Eng.run_bind_ok htarget).trans rfl
  rw [runSacc, hone, List.range_one, List.mapM_cons, List.mapM_nil, ← hflat]
  refine Eng.run_bind_ok (Eng.run_bind_ok (a := evs) (v := w) ?_)
  rw [window_entries hwin]
  refine (Eng.run_bind_ok hrun).trans ((Eng.run_bind_ok hgroup).trans ?_)
  rw [hflat]
  rfl

/-- The update of a target by the value that a window's values fold to. -/
def saccUpdate (c : Nat) (t : Dword) (opc : BitVec 3) (ty : BitVec 4) (p : Option Nat × List Nat) : Eng (List Nat) :=
  match p.1 with
  | none => pure p.2
  | some z => do
    let old ← rmw c t (typeWidth ty) (fun o => (saccStep opc ty o z).1)
    pure (p.2 ++ (saccStep opc ty old z).2)

/-- The exchange of a target with one entry's slot. -/
def saccSwap (c : Nat) (v t : Dword) (opc : BitVec 3) (w : Nat) (e : Nat) : Eng Unit := do
  let slot := plus v ((if opc = 5 then w else 2 * w : Nat) * e)
  let arg ← engNat c slot w
  if opc = 5 then
    let old ← rmw c t w (fun _ => arg)
    engPut c slot (bytesOfNat w old)
  else
    let new ← engNat c (plus slot w) w
    let old ← rmw c t w (fun o => if o = arg then new else o)
    engPut c slot (bytesOfNat w old)

/-- A target that is in its scratchpad where its base is, by its operation. -/
theorem saccTarget_eq {d v : Dword} {opc : BitVec 3} {ty : BitVec 4} {q : Nat} {es : List Nat}
    (h : ∀ f, regionOf d.toNat = .near f → ∃ g, regionOf (plus d (int32 q * typeWidth ty)).toNat = .near g) :
    saccTarget c d v opc ty q es =
      if opc.toNat ≤ 4 then
        es.mapM (fun (e : Nat) => engNat c (plus v (typeWidth ty * e)) (typeWidth ty)) >>= fun vs =>
          saccUpdate c (plus d (int32 q * typeWidth ty)) opc ty (saccFold opc ty vs)
      else es.forM (saccSwap c v (plus d (int32 q * typeWidth ty)) opc (typeWidth ty)) >>= fun _ => pure [] := by
  rw [saccTarget, if_neg]
  · rfl
  · cases hr : regionOf d.toNat with
    | near f =>
      obtain ⟨g, hg⟩ := h f hr
      simp [hg]
    | none | global | remote => simp [hr]

end

end Sys2Proof.Machine
end

section
/-! PROOFS. Scatter-accumulates: folds and exchanges of one target (R244, R245, R266). -/

namespace Sys2Proof.Machine

/-- A target of `w` bytes that a core may update: its bytes lie in a row from a key on, unmarked, and nothing is pending there. -/
def Updatable (s : State) (c : Nat) (t : Dword) (key w : Nat) : Prop :=
  (∀ i, i < w → s.keyOf c (addrPlus t i) true = .ok (key + i) ∧ s.badAt (key + i) 1 = false) ∧
    ∀ k ∈ s.cores, ∀ p ∈ k.2.ebuf, sameUnits key w p.1 = false

section
variable {s u : State} {c : Nat} {t : Dword} {key : Nat} {ty : BitVec 4} {opc : BitVec 3}

/-- The values of a window update their target; absent ones leave it (R245). -/
theorem saccUpdate_updates (h0 : Calm s c) (hu : Works s c u) (hbuf : (u.core c).ebuf = (s.core c).ebuf)
    (ht : Updatable s c t key (typeWidth ty)) (vs : List Nat) :
    ∃ evs v, Looks s c u v ∧ (saccUpdate c t opc ty (saccFold opc ty vs)).run u = (.ok evs, v.withMem (saccMem s.mem opc ty key vs)) := by
  unfold saccFold saccMem
  cases vs.filter (fun z => !isAbsent (kindOfType ty) z) with
  | nil => exact ⟨[], u, .refl hu, by rw [← hu.mem]; rfl⟩
  | cons z zs =>
    dsimp only
    rw [← saccFold_code opc ty z zs []]
    obtain ⟨v, hv, hrun⟩ := rmw_updates h0 hu hbuf ht.1 ht.2 fun o =>
      (saccStep opc ty o (zs.foldl (fun (a : Nat × List Nat) b => let (u, ev) := saccStep opc ty a.1 b; (u, a.2 ++ ev)) (z, [])).1).1
    exact ⟨_, v, hv, (Eng.run_bind_ok hrun).trans rfl⟩

/-- An exchange puts the old value of its target into a slot that the core sees (R245). -/
theorem rmw_swaps (h0 : Calm s c) (hu : Works s c u) (hbuf : (u.core c).ebuf = (s.core c).ebuf) {w : Nat} (ht : Updatable s c t key w)
    {slot : Dword} (hw : Writes s c slot w) (f : Nat → Nat)
    (hm : ∀ m, (∀ k, k < key ∨ key + w ≤ k → mget m k = mget s.mem k) → ∀ i, i < w → s.LeadsSame c m (addrPlus slot i)) :
    ∃ v : State, (rmw c t w f >>= fun old => engPut c slot (bytesOfNat w old)).run u =
        (.ok (), v.withMem (mwrite s.mem key (bytesOfNat w (f (natOfBytes (mread s.mem key w)))))) ∧
      Lands s (v.withMem (mwrite s.mem key (bytesOfNat w (f (natOfBytes (mread s.mem key w)))))) c slot
        (bytesOfNat w (natOfBytes (mread s.mem key w))) := by
  obtain ⟨x, hx, hrun⟩ := rmw_updates h0 hu hbuf ht.1 ht.2 f
  have hout : ∀ k, k < key ∨ key + w ≤ k →
      mget (mwrite s.mem key (bytesOfNat w (f (natOfBytes (mread s.mem key w))))) k = mget s.mem k := fun k hk =>
    mget_mwrite_out _ _ _ _ (by rwa [bytesOfNat_length])
  generalize natOfBytes (mread s.mem key w) = old at *
  generalize mwrite s.mem key (bytesOfNat w (f old)) = m at *
  have hlen : (bytesOfNat w old).length = w := bytesOfNat_length _ _
  obtain ⟨v, hrun', -, hsight⟩ := engPut_withMem h0 hx.1 (ea := slot) (bs := bytesOfNat w old) (m := m) (fun i hi => hm m hout i (hlen ▸ hi))
    (fun i hi => hw.1 i (hlen ▸ hi))
  refine ⟨v, (Eng.run_bind_ok hrun).trans hrun', fun i hi k hk => ?_⟩
  rw [hsight]
  exact State.puts_in (by rw [hlen]; exact writes_iff.mp hw) _ hi hk

end

/-- What an exchange of operation 5 or 6 puts into its target in place of a value (R245). -/
def saccExchange (opc : BitVec 3) (vb : List Byte) (w old : Nat) : Nat :=
  if opc = 5 then numAt vb 0 w else if old = numAt vb 0 w then numAt vb w w else old

theorem bytesOfNat_numAt {bs : List Byte} {i n : Nat} (h : i + n ≤ bs.length) : bytesOfNat n (numAt bs i n) = slice bs i n := by
  have hb := bytesOfNat_natOfBytes (slice bs i n)
  rwa [slice_length h] at hb

/-- Operation 5 puts the value of the slot into the target. -/
theorem saccExchange_swaps {vb : List Byte} {w : Nat} (h : w ≤ vb.length) (old : Nat) : bytesOfNat w (saccExchange 5 vb w old) = slice vb 0 w := by
  rw [saccExchange, if_pos rfl, bytesOfNat_numAt (by omega)]

/-- Operation 6 puts the second value of the slot into a target that holds the first. -/
theorem saccExchange_compares {vb : List Byte} {w : Nat} (h : w + w ≤ vb.length) (old key : Nat) (m : Mem) :
    mwrite m key (bytesOfNat w (saccExchange 6 vb w old)) =
      if numAt vb 0 w = old then mwrite m key (slice vb w w) else mwrite m key (bytesOfNat w old) := by
  rw [saccExchange, if_neg (by decide), ← bytesOfNat_numAt h]
  by_cases hold : numAt vb 0 w = old
  · rw [if_pos hold, if_pos hold.symm]
  · rw [if_neg hold, if_neg (Ne.symm hold)]

section
variable {s u : State} {c : Nat} {d x v : Dword} {opc : BitVec 3} {ty : BitVec 4} {n win q key : Nat} {xb vb : List Byte}
  (h0 : Calm s c) (hu : Works s c u) (hb : u.coreByte c = s.coreByte c) (hbuf : (u.core c).ebuf = (s.core c).ebuf)
  (hn : 0 < n) (hwin : n ≤ win) (hxb : xb.length = 4 * n) (hx : Sees s c x xb) (hq : ∀ i, i < n → numAt xb (4 * i) 4 = q) (hq' : q ≠ 2 ^ 31)
  (hv : Sees s c v vb) (hnear : ∀ f, regionOf d.toNat = .near f → ∃ g, regionOf (plus d (int32 q * typeWidth ty)).toNat = .near g)
  (ht : Updatable s c (plus d (int32 q * typeWidth ty)) key (typeWidth ty))
include h0 hu hb hbuf hn hwin hxb hx hq hq' hv hnear ht

/-- A window of operations 0 to 4 on one target (R245). -/
theorem runSacc_folds (hvb : vb.length = typeWidth ty * n) (hopc : opc.toNat ≤ 4) :
    ∃ evs w, Looks s c u w ∧ (runSacc c d x v opc ty n win).run u =
      (.ok evs, w.withMem (saccMem s.mem opc ty key ((List.range n).map (fun i => numAt vb (typeWidth ty * i) (typeWidth ty))))) := by
  obtain ⟨y, hy, hrun⟩ := runSacc_of_one_window (d := d) (v := v) (opc := opc) (ty := ty) h0 hn hwin hxb hx hq hq' hu hb
  obtain ⟨z, hvals, hz⟩ := Views.mapM (s := s) (c := c) (f := fun (e : Nat) => engNat c (plus v (typeWidth ty * e)) (typeWidth ty)) (List.range n)
    (fun e => numAt vb (typeWidth ty * e) (typeWidth ty)) (fun e he => by
      have he' := List.mem_range.mp he
      refine Views.numAt h0 (by push_cast; rfl) ?_ hv
      rw [hvb, ← Nat.mul_succ]
      exact Nat.mul_le_mul_left _ he') y hy.1 ((hu.coreByte_of_ebuf hy.1 hy.2.2).trans hb)
  obtain ⟨evs, w, hw, hrun'⟩ := saccUpdate_updates (opc := opc) h0 hz.1 (hz.2.2.trans (hy.2.2.trans hbuf)) ht
    ((List.range n).map (fun e => numAt vb (typeWidth ty * e) (typeWidth ty)))
  refine ⟨evs, w, (hy.trans hz).trans hw, hrun _ _ ?_⟩
  rw [saccTarget_eq hnear, if_pos hopc]
  exact (Eng.run_bind_ok hvals).trans hrun'

/-- An exchange of one entry with its target (R245). -/
theorem runSacc_swaps (hone : n = 1) (hopc : opc = 5 ∨ opc = 6) (hvb : vb.length = typeWidth ty * (if opc = 6 then 2 else 1))
    (hw : Writes s c v (typeWidth ty))
    (hm : ∀ m, (∀ k, k < key ∨ key + typeWidth ty ≤ k → mget m k = mget s.mem k) →
      ∀ i, i < typeWidth ty → s.LeadsSame c m (addrPlus v i)) :
    ∃ (z : State) (m : Mem), m = mwrite s.mem key (bytesOfNat (typeWidth ty)
        (saccExchange opc vb (typeWidth ty) (natOfBytes (mread s.mem key (typeWidth ty))))) ∧
      (runSacc c d x v opc ty n win).run u = (.ok [], z.withMem m) ∧
      Lands s (z.withMem m) c v (bytesOfNat (typeWidth ty) (natOfBytes (mread s.mem key (typeWidth ty)))) := by
  obtain ⟨y, hy, hrun⟩ := runSacc_of_one_window (d := d) (v := v) (opc := opc) (ty := ty) h0 hn hwin hxb hx hq hq' hu hb
  have hyb : y.coreByte c = s.coreByte c := (hu.coreByte_of_ebuf hy.1 hy.2.2).trans hb
  have hlt : ¬opc.toNat ≤ 4 := by
    rcases hopc with rfl | rfl <;> decide
  suffices h : ∃ z : State, (saccSwap c v (plus d (int32 q * typeWidth ty)) opc (typeWidth ty) 0).run y = (.ok (), z.withMem _) ∧
      Lands s (z.withMem (mwrite s.mem key (bytesOfNat (typeWidth ty)
        (saccExchange opc vb (typeWidth ty) (natOfBytes (mread s.mem key (typeWidth ty))))))) c v
        (bytesOfNat (typeWidth ty) (natOfBytes (mread s.mem key (typeWidth ty)))) by
    obtain ⟨z, hswap, hland⟩ := h
    refine ⟨z, _, rfl, hrun _ _ ?_, hland⟩
    rw [saccTarget_eq hnear, if_neg hlt, hone]
    exact (Eng.run_bind_ok ((Eng.run_bind_ok hswap).trans rfl)).trans rfl
  have hslot : plus v ((if opc = 5 then typeWidth ty else 2 * typeWidth ty : Nat) * (0 : Nat)) = v := by
    rw [Nat.cast_zero, mul_zero, plus_zero]
  have hfit : 0 + typeWidth ty ≤ vb.length := by
    rw [hvb]
    split <;> omega
  have hread : Views s c (engNat c v (typeWidth ty)) (numAt vb 0 (typeWidth ty)) := by
    have hr := Views.numAt (k := 0) h0 (by rfl) hfit hv
    rwa [plus_zero] at hr
  obtain ⟨y1, hrun1, hy1⟩ := hread y hy.1 hyb
  unfold saccSwap saccExchange
  dsimp only
  rw [hslot, Eng.run_bind_ok hrun1]
  by_cases h5 : opc = 5
  · rw [if_pos h5, if_pos h5]
    exact rmw_swaps h0 hy1.1 (hy1.2.2.trans (hy.2.2.trans hbuf)) ht hw _ hm
  · have h6 : opc = 6 := hopc.resolve_left h5
    rw [if_pos h6] at hvb
    have hy1b : y1.coreByte c = s.coreByte c := (hy.1.coreByte_of_ebuf hy1.1 hy1.2.2).trans hyb
    obtain ⟨y2, hrun2, hy2⟩ := Views.numAt (i := typeWidth ty) (n := typeWidth ty) h0 rfl (by rw [hvb]; omega) hv y1 hy1.1 hy1b
    rw [if_neg h5, if_neg h5, Eng.run_bind_ok hrun2]
    exact rmw_swaps h0 hy2.1 (hy2.2.2.trans (hy1.2.2.trans (hy.2.2.trans hbuf))) ht hw _ hm

end

end Sys2Proof.Machine
end

section
/-! PROOFS. Scatter-accumulates from their start on (R244, R245, R266). -/

namespace Sys2Proof.Machine

section
variable {s : State} {c : Nat} {e : Engine} {m : EngCmd} {r : List EngCmd} {d x v : Dword} {opc : BitVec 3} {ty : BitVec 4} {n win q key : Nat}
  {xb vb : List Byte}

theorem State.ebuf_starting : ((s.starting c e m r).core c).ebuf = (s.core c).ebuf := by
  rw [State.starting, State.core_modCore_self, CoreSt.ebuf_setEngine]
  split <;> rfl

/-- That a command's work is done is no matter of what its core sees. -/
theorem State.coreByte_worked (u : State) (evs : List Nat) : (u.modCore c (·.worked e m evs)).coreByte c = u.coreByte c := by
  funext key
  rw [State.coreByte, State.core_modCore_self, CoreSt.worked, CoreSt.ebuf_setEngine]
  rfl

variable (h : Starts s c e m r (.sacc d x v opc ty n win))
include h

theorem Starts.runCommand_sacc : runCommand c m = runSacc c d x v opc ty n win := by
  rw [runCommand, h.op_eq]

variable (hn : 0 < n) (hwin : n ≤ win) (hxb : xb.length = 4 * n) (hx : Sees s c x xb) (hq : ∀ i, i < n → numAt xb (4 * i) 4 = q) (hq' : q ≠ 2 ^ 31)
  (hv : Sees s c v vb) (hnear : ∀ f, regionOf d.toNat = .near f → ∃ g, regionOf (plus d (int32 q * typeWidth ty)).toNat = .near g)
  (ht : Updatable s c (plus d (int32 q * typeWidth ty)) key (typeWidth ty))
include hn hwin hxb hx hq hq' hv hnear ht

theorem Starts.sacc_folds (hvb : vb.length = typeWidth ty * n) (hopc : opc.toNat ≤ 4) :
    ∃ t evs, Machine.exec (.engineCommandStart c e) s = .next t ∧ ((t.core c).engine e).active = [{ m with events := evs }] ∧
      t.mem = saccMem s.mem opc ty key ((List.range n).map (fun i => numAt vb (typeWidth ty * i) (typeWidth ty))) := by
  obtain ⟨hw, hb, -⟩ := h.works
  obtain ⟨evs, w, -, hrun⟩ := runSacc_folds h.calm hw hb State.ebuf_starting hn hwin hxb hx hq hq' hv hnear ht hvb hopc
  rw [← h.runCommand_sacc] at hrun
  refine ⟨_, evs, h.exec_of_run hrun, ?_, rfl⟩
  rw [State.core_modCore_self, CoreSt.worked, CoreSt.engine_setEngine]

theorem Starts.sacc_swaps (hone : n = 1) (hopc : opc = 5 ∨ opc = 6) (hvb : vb.length = typeWidth ty * (if opc = 6 then 2 else 1))
    (hw : Writes s c v (typeWidth ty))
    (hm : ∀ m, (∀ k, k < key ∨ key + typeWidth ty ≤ k → mget m k = mget s.mem k) →
      ∀ i, i < typeWidth ty → s.LeadsSame c m (addrPlus v i)) :
    ∃ t, Machine.exec (.engineCommandStart c e) s = .next t ∧
      t.mem = mwrite s.mem key (bytesOfNat (typeWidth ty) (saccExchange opc vb (typeWidth ty) (natOfBytes (mread s.mem key (typeWidth ty))))) ∧
      Lands s t c v (bytesOfNat (typeWidth ty) (natOfBytes (mread s.mem key (typeWidth ty)))) := by
  obtain ⟨hwk, hb, -⟩ := h.works
  obtain ⟨z, m', hmem, hrun, hland⟩ := runSacc_swaps h.calm hwk hb State.ebuf_starting hn hwin hxb hx hq hq' hv hnear ht hone hopc hvb hw hm
  rw [← h.runCommand_sacc] at hrun
  refine ⟨_, h.exec_of_run hrun, hmem, fun i hi k hk => ?_⟩
  rw [State.coreByte_worked]
  exact hland i hi k hk

end

end Sys2Proof.Machine
end

section
/-! PROOFS. TLIST: the lists of tiles, in their order, then the padding (R324). -/

namespace Sys2Proof.Machine

section
variable {s : State} {c : Nat} {P : Sight → Prop} {bs : List Byte} {ea : Dword} (h0 : Calm s c) (hr : ∀ σ, P σ → Reads s c σ ea bs)
include h0 hr

/-- A number in a range that may be read. -/
theorem Does.numAt {i n : Nat} {k : Int} (hk : k = (i : Nat)) (hn : i + n ≤ bs.length) :
    Does s c (engNat c (plus ea k) n) P (fun a σ => a = Machine.numAt bs i n ∧ P σ) := by
  subst hk
  exact Does.nat h0 (slice_length hn) fun σ hσ => (hr σ hσ).slice hn

/-- The first number in a range that may be read. -/
theorem Does.numAt_zero {n : Nat} (hn : n ≤ bs.length) : Does s c (engNat c ea n) P (fun a σ => a = Machine.numAt bs 0 n ∧ P σ) := by
  have h := Does.numAt (n := n) h0 hr (i := 0) rfl (by omega)
  rwa [Nat.cast_zero, plus_zero] at h

end

/-- Replacements that do not meet may be made in either order. -/
theorem splice_comm (f : Nat → Byte) {o p : Nat} {a b : List Byte} (h : o + a.length ≤ p) :
    splice (splice f o a) p b = splice (splice f p b) o a := by
  funext i
  unfold splice
  by_cases h1 : o ≤ i ∧ i < o + a.length
  · rw [if_neg (by omega : ¬(p ≤ i ∧ i < p + b.length)), if_pos h1, if_pos h1]
  · rw [if_neg h1, if_neg h1]

theorem length_flatMap_bytesOfNat (k : Nat) (l : List Nat) : (l.flatMap (bytesOfNat k)).length = k * l.length := by
  simp [List.length_flatMap, bytesOfNat_length, Nat.mul_comm]

/-- The addresses of the two lists of a TLIST, as one area. -/
def tlAddr (comp re : Dword) (n i : Nat) : Nat := if i < 4 * n then addrPlus comp i else addrPlus re (i - 4 * n)

/-- The area of a TLIST with some entries in its lists. -/
def tlShown (f : Nat → Byte) (n : Nat) (A B : List Nat) : Nat → Byte :=
  splice (splice f 0 (A.flatMap (bytesOfNat 4))) (4 * n) (B.flatMap (bytesOfNat 8))

section
variable {f : Nat → Byte} {n : Nat} {A B : List Nat}

theorem tlShown_nil : tlShown f n [] [] = f := by
  funext i
  unfold tlShown
  rw [splice_out (by simp only [List.flatMap_nil, List.length_nil]; omega), splice_out (by simp only [List.flatMap_nil, List.length_nil]; omega)]

theorem tlShown_comp (h : A.length < n) (t : Nat) :
    splice (tlShown f n A B) (4 * A.length) (bytesOfNat 4 t) = tlShown f n (A ++ [t]) B := by
  have hlen := length_flatMap_bytesOfNat 4 A
  unfold tlShown
  rw [← splice_comm _ (by rw [bytesOfNat_length]; omega), List.flatMap_append, List.flatMap_singleton, ← splice_append, hlen, Nat.zero_add]

theorem tlShown_reuse (t : Nat) : splice (tlShown f n A B) (4 * n + 8 * B.length) (bytesOfNat 8 t) = tlShown f n A (B ++ [t]) := by
  have hlen := length_flatMap_bytesOfNat 8 B
  unfold tlShown
  rw [List.flatMap_append, List.flatMap_singleton, ← splice_append, hlen]

end

/-- The entry of a tile in a state array; 0 where the array is not valid. -/
def tlEntry (sb : List Byte) (valid : Bool) (t : Nat) : Nat := if valid then numAt sb (32 + 8 * t) 8 else 0

/-- The tiles to compute, from one on. -/
def tlComp (sb : List Byte) (valid : Bool) (l : List Nat) : List Nat := l.filter (fun t => tlEntry sb valid t / 2 ^ 31 % 2 == 0)

/-- The entry of a tile in the list of those to reuse: its displacement (R324). -/
def tlMoved (e t : Nat) : Nat :=
  t + ((BitVec.ofNat 12 e).signExtend 16).toNat * 2 ^ 32 + ((BitVec.ofNat 12 (e / 2 ^ 12)).signExtend 16).toNat * 2 ^ 48

/-- The tiles to reuse, from one on, with their displacements. -/
def tlReuse (sb : List Byte) (valid : Bool) (l : List Nat) : List Nat :=
  (l.filter (fun t => tlEntry sb valid t / 2 ^ 31 % 2 == 1)).map (fun t => tlMoved (tlEntry sb valid t) t)

theorem tlLists_cons_comp {sb : List Byte} {valid : Bool} {t : Nat} (h : tlEntry sb valid t / 2 ^ 31 % 2 = 0) (l : List Nat) :
    tlComp sb valid (t :: l) = t :: tlComp sb valid l ∧ tlReuse sb valid (t :: l) = tlReuse sb valid l := by
  refine ⟨List.filter_cons_of_pos (beq_iff_eq.mpr h), congrArg (List.map _) (List.filter_cons_of_neg ?_)⟩
  rw [h]
  decide

theorem tlLists_cons_reuse {sb : List Byte} {valid : Bool} {t : Nat} (h : tlEntry sb valid t / 2 ^ 31 % 2 = 1) (l : List Nat) :
    tlComp sb valid (t :: l) = tlComp sb valid l ∧ tlReuse sb valid (t :: l) = tlMoved (tlEntry sb valid t) t :: tlReuse sb valid l := by
  refine ⟨List.filter_cons_of_neg ?_, ?_⟩
  · rw [h]
    decide
  · exact congrArg (List.map _) (List.filter_cons_of_pos (p := fun t => tlEntry sb valid t / 2 ^ 31 % 2 == 1) (beq_iff_eq.mpr h))

theorem disp16_mod (d : Nat) : disp16 (d % 2 ^ 12) = ((BitVec.ofNat 12 d).signExtend 16).toNat := by
  have h : BitVec.ofNat 12 (d % 2 ^ 12) = BitVec.ofNat 12 d := by
    apply BitVec.eq_of_toNat_eq
    simp
  rw [disp16, h]
  rfl

theorem length_tlLists (sb : List Byte) (valid : Bool) (l : List Nat) : (tlComp sb valid l).length + (tlReuse sb valid l).length = l.length := by
  rw [tlComp, tlReuse, List.length_map, ← List.countP_eq_length_filter, ← List.countP_eq_length_filter,
    List.length_eq_countP_add_countP (fun t => tlEntry sb valid t / 2 ^ 31 % 2 == 0)]
  congr 1
  refine List.countP_congr fun t _ => ?_
  rcases Nat.mod_two_eq_zero_or_one (tlEntry sb valid t / 2 ^ 31) with h | h <;> simp

section
variable {s : State} {c : Nat} {comp st re : Dword} {sb : List Byte} {n : Nat} {valid : Bool}

theorem tlAddr_lo {i : Nat} (h : i < 4 * n) : tlAddr comp re n i = addrPlus comp i := if_pos h

theorem tlAddr_hi (i : Nat) : tlAddr comp re n (4 * n + i) = addrPlus re i := by
  rw [tlAddr, if_neg (by omega), Nat.add_sub_cancel_left]

theorem clear_tlAddr (hc : Writes s c comp (4 * n)) (hr : Writes s c re (8 * n))
    (hd : ∀ i j, i < 4 * n → j < 8 * n → s.keyOf c (addrPlus comp i) true ≠ s.keyOf c (addrPlus re j) true) :
    Clear s c (tlAddr comp re n) (12 * n) := by
  have hcase : ∀ i, i < 12 * n → i < 4 * n ∨ ∃ j, j < 8 * n ∧ i = 4 * n + j := fun i hi => by
    by_cases h : i < 4 * n
    · exact .inl h
    · exact .inr ⟨i - 4 * n, by omega, by omega⟩
  refine ⟨fun i hi => ?_, fun i j hi hj he => ?_⟩
  · rcases hcase i hi with h | ⟨k, hk, rfl⟩
    · rw [tlAddr_lo h]
      exact hc.1 i h
    · rw [tlAddr_hi]
      exact hr.1 k hk
  · rcases hcase i hi with h | ⟨k, hk, rfl⟩ <;> rcases hcase j hj with h' | ⟨k', hk', rfl⟩
    · rw [tlAddr_lo h, tlAddr_lo h'] at he
      exact hc.2 i j h h' he
    · rw [tlAddr_lo h, tlAddr_hi] at he
      exact absurd he (hd _ _ h hk')
    · rw [tlAddr_lo h', tlAddr_hi] at he
      exact absurd he.symm (hd _ _ h' hk)
    · rw [tlAddr_hi, tlAddr_hi] at he
      rw [hr.2 k k' hk hk' he]

variable (h0 : Calm s c) (hclear : Clear s c (tlAddr comp re n) (12 * n)) (hs : Sees s c st sb)
  (hc : Apart s c comp (4 * n) [(st, sb.length)]) (hr : Apart s c re (8 * n) [(st, sb.length)])

include hs hc hr in
theorem Shows.reads_tl {f : Nat → Byte} {σ : Sight} (h : Shows s c (tlAddr comp re n) (12 * n) f σ) : Reads s c σ st sb := by
  refine h.reads hs fun i hi key hk j hj => ?_
  by_cases h4 : i < 4 * n
  · rw [tlAddr_lo h4] at hk
    exact hc i h4 key hk (st, sb.length) (by simp) j hj
  · obtain ⟨k, rfl⟩ := Nat.exists_eq_add_of_le (Nat.le_of_not_lt h4)
    rw [tlAddr_hi] at hk
    exact hr k (by omega) key hk (st, sb.length) (by simp) j hj

variable {f : Nat → Byte} {A B : List Nat}

include h0 hclear in
/-- A tile enters the list of those to compute. -/
theorem Does.tlComp (hA : A.length < n) (t : Nat) : Does s c (engPut c (plus comp (4 * A.length)) (bytesOfNat 4 t))
    (Shows s c (tlAddr comp re n) (12 * n) (tlShown f n A B)) (fun _ => Shows s c (tlAddr comp re n) (12 * n) (tlShown f n (A ++ [t]) B)) := by
  have hdst : plus comp (4 * A.length) = plus comp ((4 * A.length : Nat) : Int) := by push_cast; rfl
  rw [hdst, ← tlShown_comp hA]
  refine Does.write h0 hclear (fun j hj => ?_) (by rw [bytesOfNat_length]; omega)
  rw [bytesOfNat_length] at hj
  rw [addrPlus_plus, tlAddr_lo (by omega)]

include h0 hclear in
/-- A tile enters the list of those to reuse. -/
theorem Does.tlReuse (hB : B.length < n) (t : Nat) : Does s c (engPut c (plus re (8 * B.length)) (bytesOfNat 8 t))
    (Shows s c (tlAddr comp re n) (12 * n) (tlShown f n A B)) (fun _ => Shows s c (tlAddr comp re n) (12 * n) (tlShown f n A (B ++ [t]))) := by
  have hdst : plus re (8 * B.length) = plus re ((8 * B.length : Nat) : Int) := by push_cast; rfl
  rw [hdst, ← tlShown_reuse]
  exact Does.write h0 hclear (fun j _ => by rw [addrPlus_plus, Nat.add_assoc, tlAddr_hi]) (by rw [bytesOfNat_length]; omega)

include h0 hclear in
/-- The padding of the list of tiles to compute. -/
theorem tlComp_padded (hA : A.length ≤ n) :
    Does s c ((List.range (n - A.length)).forM (fun (i : Nat) => engPut c (plus comp (4 * (A.length + i))) (bytesOfNat 4 (2 ^ 31))))
      (Shows s c (tlAddr comp re n) (12 * n) (tlShown f n A B))
      (fun _ => Shows s c (tlAddr comp re n) (12 * n) (tlShown f n (A ++ List.replicate (n - A.length) (2 ^ 31)) B)) := by
  refine (Does.forM_range (n - A.length)
    (fun i => Shows s c (tlAddr comp re n) (12 * n) (tlShown f n (A ++ List.replicate i (2 ^ 31)) B)) fun i hi => ?_).conseq
    (fun σ h => by rwa [List.replicate_zero, List.append_nil]) fun _ _ h => h
  have hlen : (A ++ List.replicate i (2 ^ 31)).length = A.length + i := by simp
  have hstep := Does.tlComp (A := A ++ List.replicate i (2 ^ 31)) (B := B) (f := f) h0 hclear (by omega) (2 ^ 31)
  rw [hlen, List.append_assoc, ← List.replicate_succ', Nat.cast_add] at hstep
  exact hstep

include h0 hclear in
/-- The padding of the list of tiles to reuse. -/
theorem tlReuse_padded (hB : B.length ≤ n) :
    Does s c ((List.range (n - B.length)).forM (fun (i : Nat) => engPut c (plus re (8 * (B.length + i))) (bytesOfNat 8 (2 ^ 31))))
      (Shows s c (tlAddr comp re n) (12 * n) (tlShown f n A B))
      (fun _ => Shows s c (tlAddr comp re n) (12 * n) (tlShown f n A (B ++ List.replicate (n - B.length) (2 ^ 31)))) := by
  refine (Does.forM_range (n - B.length)
    (fun i => Shows s c (tlAddr comp re n) (12 * n) (tlShown f n A (B ++ List.replicate i (2 ^ 31)))) fun i hi => ?_).conseq
    (fun σ h => by rwa [List.replicate_zero, List.append_nil]) fun _ _ h => h
  have hlen : (B ++ List.replicate i (2 ^ 31)).length = B.length + i := by simp
  have hstep := Does.tlReuse (A := A) (B := B ++ List.replicate i (2 ^ 31)) (f := f) h0 hclear (by omega) (2 ^ 31)
  rw [hlen, List.append_assoc, ← List.replicate_succ', Nat.cast_add] at hstep
  exact hstep

include h0 hs hc hr in
/-- The entry of a tile is read, where the array is valid, before what is done with it. -/
theorem Does.tlEntry {β : Type} (hlen : sb.length = 32 + (if valid then 8 * n else 0)) {t : Nat} (ht : t < n) {K : Nat → Eng β}
    {Q : β → Sight → Prop}
    (hK : Does s c (K (Machine.tlEntry sb valid t)) (Shows s c (tlAddr comp re n) (12 * n) f) Q) :
    Does s c (if valid = true then engNat c (plus st (32 + 8 * t)) 8 >>= K else Pure.pure 0 >>= K) (Shows s c (tlAddr comp re n) (12 * n) f) Q := by
  cases valid with
  | false => exact hK
  | true =>
    rw [if_pos rfl] at hlen
    rw [if_pos rfl]
    exact (Does.numAt h0 (fun σ hσ => Shows.reads_tl hs hc hr hσ) (by push_cast; rfl) (by omega)).bind_val hK

include h0 hclear hs hc hr in
/-- The tiles from one on enter their lists. -/
theorem tlistFrom_lists (hlen : sb.length = 32 + (if valid then 8 * n else 0)) (k t : Nat) (ht : t + k = n) (hAB : A.length + B.length = t) :
    Does s c (tlistFrom c comp st re valid k t A.length B.length) (Shows s c (tlAddr comp re n) (12 * n) (tlShown f n A B))
      (fun p σ => p = ((A ++ Machine.tlComp sb valid (List.range' t k)).length, (B ++ Machine.tlReuse sb valid (List.range' t k)).length) ∧
        Shows s c (tlAddr comp re n) (12 * n) (tlShown f n (A ++ Machine.tlComp sb valid (List.range' t k))
          (B ++ Machine.tlReuse sb valid (List.range' t k))) σ) := by
  induction k generalizing t A B with
  | zero =>
    simp only [List.range'_zero, Machine.tlComp, Machine.tlReuse, List.filter_nil, List.map_nil, List.append_nil]
    exact Does.pure _ fun _ h => ⟨rfl, h⟩
  | succ k ih =>
    have htn : t < n := by omega
    rw [tlistFrom]
    refine Does.tlEntry h0 hs hc hr hlen htn ?_
    rw [List.range'_succ]
    rcases Nat.mod_two_eq_zero_or_one (Machine.tlEntry sb valid t / 2 ^ 31) with he | he
    · obtain ⟨hcons, hskip⟩ := tlLists_cons_comp he (List.range' (t + 1) k)
      have hrec := ih (A := A ++ [t]) (B := B) (t + 1) (by omega) (by simp; omega)
      rw [List.length_append, List.append_assoc] at hrec
      simp only [he, if_true, hcons, hskip]
      exact Does.seq (Does.tlComp h0 hclear (by omega) t) hrec
    · obtain ⟨hskip, hcons⟩ := tlLists_cons_reuse he (List.range' (t + 1) k)
      have hrec := ih (A := A) (B := B ++ [tlMoved (Machine.tlEntry sb valid t) t]) (t + 1) (by omega) (by simp; omega)
      rw [List.length_append, List.append_assoc] at hrec
      simp only [he, Nat.one_ne_zero, if_false, hcons, hskip, disp16_mod]
      exact Does.seq (Does.tlReuse h0 hclear (by omega) _) hrec

include h0 hclear hs hc hr in
/-- TLIST (R324): the lists in the order of the tiles, then the padding. -/
theorem runTlist_lists (hlen : sb.length = 32 + (if valid then 8 * n else 0))
    (hn : n = numAt sb 16 8 % 2 ^ 8 * (numAt sb 16 8 / 2 ^ 8 % 2 ^ 8)) (hvalid : valid = (numAt sb 0 8 / 2 ^ 32 % 2 == 1)) {C R : List Nat}
    (hC : C = Machine.tlComp sb valid (List.range n)) (hR : R = Machine.tlReuse sb valid (List.range n)) :
    Does s c (runTlist c comp st re) (Shows s c (tlAddr comp re n) (12 * n) f) (fun _ => Shows s c (tlAddr comp re n) (12 * n)
      (tlShown f n (C ++ List.replicate (n - C.length) (2 ^ 31)) (R ++ List.replicate (n - R.length) (2 ^ 31)))) := by
  have hCR : C.length + R.length = n := by
    rw [hC, hR, length_tlLists, List.length_range]
  have hhead : 32 ≤ sb.length := by omega
  refine (Does.numAt_zero h0 (fun σ hσ => Shows.reads_tl hs hc hr hσ) (by omega)).bind_val ?_
  refine (Does.numAt (i := 16) h0 (fun σ hσ => Shows.reads_tl hs hc hr hσ) rfl (by omega)).bind_val ?_
  have hlists := tlistFrom_lists (A := []) (B := []) (f := f) h0 hclear hs hc hr hlen n 0 (by omega) rfl
  rw [← List.range_eq_range', List.nil_append, List.nil_append, ← hC, ← hR] at hlists
  rw [← hvalid, ← hn]
  rw [tlShown_nil] at hlists
  refine hlists.bind_val (Does.seq (tlComp_padded h0 hclear (by omega)) (tlReuse_padded h0 hclear (by omega)))

/-- Two full lists have landed, and nothing else has changed. -/
theorem Shows.lands_tl {t : State} (h : Shows s c (tlAddr comp re n) (12 * n) (tlShown f n A B) (t.coreByte c)) (hA : A.length = n)
    (hB : B.length = n) :
    Spares s t c [(comp, 4 * n), (re, 8 * n)] ∧ Lands s t c comp (A.flatMap (bytesOfNat 4)) ∧ Lands s t c re (B.flatMap (bytesOfNat 8)) := by
  have hA' : (A.flatMap (bytesOfNat 4)).length = 4 * n := by rw [length_flatMap_bytesOfNat, hA]
  have hB' : (B.flatMap (bytesOfNat 8)).length = 8 * n := by rw [length_flatMap_bytesOfNat, hB]
  refine ⟨fun key hk => h.2 key fun i hi => ?_, ?_, ?_⟩
  · by_cases h4 : i < 4 * n
    · rw [tlAddr_lo h4]
      exact hk (comp, 4 * n) (by simp) i h4
    · obtain ⟨j, rfl⟩ := Nat.exists_eq_add_of_le (Nat.le_of_not_lt h4)
      rw [tlAddr_hi]
      exact hk (re, 8 * n) (by simp) j (by omega)
  · refine h.lands (o := 0) (fun j hj => by rw [Nat.zero_add, tlAddr_lo (by omega)]) (by omega) fun j hj => ?_
    rw [tlShown, splice_out (by omega), splice_in hj]
  · exact h.lands (o := 4 * n) (fun j _ => by rw [tlAddr_hi]) (by omega) fun j hj => splice_in hj

end

end Sys2Proof.Machine
end

section
/-! PROOFS. CCVT: pixel by pixel, from the samples that stood before its writes (R317, R265). -/

namespace Sys2Proof.Machine

theorem natOfBytes_bytesOfNat_of_lt {n x : Nat} (h : x < 2 ^ (8 * n)) : natOfBytes (bytesOfNat n x) = x := by
  rw [natOfBytes_bytesOfNat, Nat.mod_eq_of_lt]
  rwa [Nat.pow_mul] at h

/-- The column of a frame that a pixel of the converted tiles is taken from. -/
def ccX (o : Dword) (ntx t p : Nat) : Nat := o.toNat % 2 ^ 16 + 8 * (t % ntx) + p % 8

/-- The row of a frame that a pixel of the converted tiles is taken from. -/
def ccY (o : Dword) (ntx t p : Nat) : Nat := o.toNat / 2 ^ 16 % 2 ^ 16 + 8 * (t / ntx) + p / 8

/-- The bytes of a sample. -/
def FrameRec.depth (F : FrameRec) : Nat := if F.bitDepth = 8 then 1 else 2

/-- The address of a pixel's luma sample. -/
def FrameRec.lumaAt (F : FrameRec) (o : Dword) (ntx t p : Nat) : Dword :=
  BitVec.ofNat 64 (F.yaddr + ccY o ntx t p * rowPitch F.width F.depth + ccX o ntx t p * F.depth)

/-- The address of a pixel's chroma sample: its first, or its second. -/
def FrameRec.chromaAt (F : FrameRec) (o : Dword) (ntx t p i : Nat) : Dword :=
  BitVec.ofNat 64 (F.uvaddr + ccY o ntx t p / 2 * rowPitch F.width F.depth + (ccX o ntx t p / 2 * 2 + i) * F.depth)

/-- A sample that stands at an address. -/
def SampleAt (s : State) (c : Nat) (ea : Dword) (b x : Nat) : Prop := x < 2 ^ (8 * b) ∧ Sees s c ea (bytesOfNat b x)

/-- The samples of the pixels that lie in the frame. -/
def Samples (s : State) (c : Nat) (F : FrameRec) (o : Dword) (ntx nty : Nat) (Y B R : Nat → Nat → Nat) : Prop :=
  ∀ t p, t < ntx * nty → p < 64 → ccX o ntx t p < F.width → ccY o ntx t p < F.height → SampleAt s c (F.lumaAt o ntx t p) F.depth (Y t p) ∧
    SampleAt s c (F.chromaAt o ntx t p 0) F.depth (B t p) ∧ SampleAt s c (F.chromaAt o ntx t p 1) F.depth (R t p)

/-- The bytes of a pixel of the converted tiles. -/
def ccBytes (S : CcSet) (ofmt : BitVec 2) (F : FrameRec) (o : Dword) (ntx : Nat) (Y B R : Nat → Nat → Nat) (t p : Nat) : List Byte :=
  if ccX o ntx t p < F.width ∧ ccY o ntx t p < F.height then (ccPixel S ofmt (2 ^ F.bitDepth - 1) (Y t p) (B t p) (R t p)).1 else ccOutside ofmt

/-- The bytes of the first pixels of the converted tiles. -/
def ccFirst (S : CcSet) (ofmt : BitVec 2) (F : FrameRec) (o : Dword) (ntx : Nat) (Y B R : Nat → Nat → Nat) (n : Nat) : List Byte :=
  (List.range n).flatMap (fun q => ccBytes S ofmt F o ntx Y B R (q / 64) (q % 64))

section
variable {S : CcSet} {ofmt : BitVec 2} {F : FrameRec} {o : Dword} {ntx nty : Nat} {Y B R : Nat → Nat → Nat}

theorem length_ccBytes (t p : Nat) : (ccBytes S ofmt F o ntx Y B R t p).length = 4 * typeWidth (ofmtType ofmt) := by
  unfold ccBytes
  split
  · rw [ccPixel, length_flatMap_bytesOfNat, Nat.mul_comm]
    rfl
  · simp [ccOutside, bytesOfNat_length]
    omega

theorem length_ccFirst (n : Nat) : (ccFirst S ofmt F o ntx Y B R n).length = 4 * typeWidth (ofmtType ofmt) * n := by
  simp [ccFirst, List.length_flatMap, length_ccBytes, Nat.mul_comm]

theorem ccFirst_succ (n : Nat) :
    ccFirst S ofmt F o ntx Y B R (n + 1) = ccFirst S ofmt F o ntx Y B R n ++ ccBytes S ofmt F o ntx Y B R (n / 64) (n % 64) := by
  rw [ccFirst, List.range_succ, List.flatMap_append, List.flatMap_singleton]
  rfl

theorem ccFirst_getD {n q j : Nat} (hq : q < n) (hj : j < 4 * typeWidth (ofmtType ofmt)) :
    (ccFirst S ofmt F o ntx Y B R n).getD (4 * typeWidth (ofmtType ofmt) * q + j) 0 = (ccBytes S ofmt F o ntx Y B R (q / 64) (q % 64)).getD j 0 := by
  induction n with
  | zero => exact absurd hq (Nat.not_lt_zero q)
  | succ n ih =>
    have hlen : (ccFirst S ofmt F o ntx Y B R n).length = _ := length_ccFirst n
    rw [ccFirst_succ]
    by_cases h : q = n
    · subst h
      rw [List.getD_append_right _ _ _ _ (by omega), hlen, Nat.add_sub_cancel_left]
    · have hm := Nat.mul_le_mul_left (4 * typeWidth (ofmtType ofmt)) (show q + 1 ≤ n by omega)
      rw [Nat.mul_succ] at hm
      rw [List.getD_append _ _ _ _ (by omega)]
      exact ih (by omega)

variable {s u : State} {c : Nat}

/-- A sample is read with its value. -/
theorem Does.sample (h0 : Calm s c) (hu : Works s c u) (hb : u.coreByte c = s.coreByte c) {ea : Dword} {b x : Nat} (h : SampleAt s c ea b x)
    {P : Sight → Prop} : Does s c (engNatIn (fun _ => u) c ea b) P (fun a σ => a = x ∧ P σ) := by
  have hr := Does.natIn (P := P) h0 (bytesOfNat_length b x) (pick := fun _ => u) (ea := ea) fun _ _ _ => ⟨hu, by rw [hb]; exact sees_iff.mp h.2⟩
  rwa [natOfBytes_bytesOfNat_of_lt h.1] at hr

/-- CCVT (R317), pixel by pixel. -/
theorem runCcvt_converts (h0 : Calm s c) {d fr : Dword} {cset : Nat} {fb : List Byte} (hfb : fb.length = 64) (hf : Sees s c fr fb)
    (hF : F = frameRec fb) (hS : S = s.ccsetOf c cset) (hw : Writes s c d (256 * typeWidth (ofmtType ofmt) * (ntx * nty)))
    (hsamples : Samples s c F o ntx nty Y B R) :
    Does s c (runCcvt c d fr o ntx nty cset ofmt) (fun σ => σ = s.coreByte c) (fun _ => Shows s c (addrPlus d)
      (256 * typeWidth (ofmtType ofmt) * (ntx * nty)) (splice (s.held c (addrPlus d)) 0 (ccFirst S ofmt F o ntx Y B R (64 * (ntx * nty))))) := by
  refine Does.get fun u hu hub => ?_
  have hset : u.ccsetOf c cset = S := by
    rw [hS, State.ccsetOf, State.ccsetOf, hu.context.1, hu.frame]
    rfl
  let I := fun q => Shows s c (addrPlus d) (256 * typeWidth (ofmtType ofmt) * (ntx * nty))
    (splice (s.held c (addrPlus d)) 0 (ccFirst S ofmt F o ntx Y B R q))
  have hstart : ∀ σ, σ = s.coreByte c → I 0 σ := by
    rintro _ rfl
    have hnil : splice (s.held c (addrPlus d)) 0 (ccFirst S ofmt F o ntx Y B R 0) = s.held c (addrPlus d) :=
      funext fun i => splice_out (by simp [ccFirst])
    show Shows s c (addrPlus d) _ (splice (s.held c (addrPlus d)) 0 (ccFirst S ofmt F o ntx Y B R 0)) _
    rw [hnil]
    exact shows_held s c (addrPlus d) _
  refine ((Does.readIn h0 hfb (bs := fb) (P := I 0) fun _ _ _ => ⟨hu, by rw [hub]; exact sees_iff.mp hf⟩).bind_val ?_).conseq hstart fun _ _ h => h
  rw [hset, ← hF]
  suffices hloop : Does s c _ (I 0) (fun _ => I (64 * (ntx * nty))) from hloop.bind fun _ => Does.pure _ fun _ h => h
  refine Does.mapM_range (ntx * nty) (fun t => I (64 * t)) fun t ht => ?_
  refine (Does.mapM_range 64 (fun p => I (64 * t + p)) fun p hp => ?_).bind fun _ => Does.pure _ fun _ h => h
  have hout : plus d (t * 256 * typeWidth (ofmtType ofmt) + p * 4 * typeWidth (ofmtType ofmt)) =
      plus d ((4 * typeWidth (ofmtType ofmt) * (64 * t + p) : Nat) : Int) := by
    congr 1
    push_cast
    ring
  have hwrite : Does s c (engPut c (plus d (t * 256 * typeWidth (ofmtType ofmt) + p * 4 * typeWidth (ofmtType ofmt)))
      (ccBytes S ofmt F o ntx Y B R t p)) (I (64 * t + p)) (fun _ => I (64 * t + p + 1)) := by
    have hq : (64 * t + p) / 64 = t ∧ (64 * t + p) % 64 = p := by omega
    have hfit : 64 * t + p + 1 ≤ 64 * (ntx * nty) := by omega
    have hsize : 4 * typeWidth (ofmtType ofmt) * (64 * t + p) + 4 * typeWidth (ofmtType ofmt) ≤
        256 * typeWidth (ofmtType ofmt) * (ntx * nty) := by
      have hm := Nat.mul_le_mul_left (4 * typeWidth (ofmtType ofmt)) hfit
      rw [Nat.mul_succ, ← Nat.mul_assoc] at hm
      rwa [show 4 * typeWidth (ofmtType ofmt) * 64 = 256 * typeWidth (ofmtType ofmt) by ring] at hm
    have hput := Does.write h0 (writes_iff.mp hw) (f := splice (s.held c (addrPlus d)) 0 (ccFirst S ofmt F o ntx Y B R (64 * t + p)))
      (bs := ccBytes S ofmt F o ntx Y B R t p) (fun j _ => addrPlus_plus d (4 * typeWidth (ofmtType ofmt) * (64 * t + p)) j)
      (by rw [length_ccBytes]; exact hsize)
    have hjoin := splice_append (s.held c (addrPlus d)) 0 (ccFirst S ofmt F o ntx Y B R (64 * t + p)) (ccBytes S ofmt F o ntx Y B R t p)
    rw [length_ccFirst, Nat.zero_add] at hjoin
    have hnext := ccFirst_succ (S := S) (ofmt := ofmt) (F := F) (o := o) (ntx := ntx) (Y := Y) (B := B) (R := R) (64 * t + p)
    rw [hq.1, hq.2] at hnext
    rw [hjoin, ← hnext, ← hout] at hput
    exact hput
  unfold ccBytes at hwrite
  show Does s c (if F.width ≤ ccX o ntx t p ∨ F.height ≤ ccY o ntx t p then _ else _) _ _
  split
  · next h =>
    rw [if_neg (by omega)] at hwrite
    exact Does.seq hwrite (Does.pure _ fun _ h => h)
  · next h =>
    obtain ⟨hy, hb, hr⟩ := hsamples t p ht hp (by omega) (by omega)
    rw [if_pos (by omega)] at hwrite
    refine (Does.sample h0 hu hub hy).bind_val ?_
    refine (Does.sample h0 hu hub hb).bind_val ?_
    refine (Does.sample h0 hu hub hr).bind_val ?_
    exact Does.seq hwrite (Does.pure _ fun _ h => h)

/-- A pixel of the converted tiles has landed. -/
theorem Shows.lands_pixel {d : Dword} {f : Nat → Byte} (h : Shows s c (addrPlus d) (256 * typeWidth (ofmtType ofmt) * (ntx * nty))
    (splice f 0 (ccFirst S ofmt F o ntx Y B R (64 * (ntx * nty)))) (u.coreByte c)) {t p : Nat} (ht : t < ntx * nty) (hp : p < 64) :
    Lands s u c (plus d (t * 256 * typeWidth (ofmtType ofmt) + p * 4 * typeWidth (ofmtType ofmt) : Nat)) (ccBytes S ofmt F o ntx Y B R t p) := by
  have hq : (64 * t + p) / 64 = t ∧ (64 * t + p) % 64 = p := by omega
  have hout : t * 256 * typeWidth (ofmtType ofmt) + p * 4 * typeWidth (ofmtType ofmt) = 4 * typeWidth (ofmtType ofmt) * (64 * t + p) := by ring
  have hm := Nat.mul_le_mul_left (4 * typeWidth (ofmtType ofmt)) (show 64 * t + p + 1 ≤ 64 * (ntx * nty) by omega)
  rw [Nat.mul_succ, ← Nat.mul_assoc, show 4 * typeWidth (ofmtType ofmt) * 64 = 256 * typeWidth (ofmtType ofmt) by ring] at hm
  rw [hout]
  refine h.lands (fun j _ => addrPlus_plus d _ j) (by rw [length_ccBytes]; exact hm) fun j hj => ?_
  rw [length_ccBytes] at hj
  have hin := splice_in (f := f) (o := 0) (bs := ccFirst S ofmt F o ntx Y B R (64 * (ntx * nty)))
    (i := 4 * typeWidth (ofmtType ofmt) * (64 * t + p) + j) (by
      rw [length_ccFirst, ← Nat.mul_assoc, show 4 * typeWidth (ofmtType ofmt) * 64 = 256 * typeWidth (ofmtType ofmt) by ring]
      omega)
  rw [Nat.zero_add] at hin
  rw [hin, ccFirst_getD (by omega) hj, hq.1, hq.2]

end

end Sys2Proof.Machine
end

section
/-! PROOFS. TOKZ: the dictionary is walked to the longest match (R318, R319). -/

namespace Sys2Proof.Machine

theorem natOfBytes_slice_one {bs : List Byte} {j : Nat} (h : j < bs.length) : natOfBytes (slice bs j 1) = (bs.getD j 0).toNat := by
  have h1 : slice bs j 1 = [bs.getD j 0] := by
    rw [slice, List.take_one_drop_eq_of_lt_length h, List.getD_eq_getElem _ _ h]
    rfl
  rw [h1]
  simp [natOfBytes]

/-- The low word of a node. -/
theorem natOfBytes_slice_bytesOfNat {x : Nat} (h : x < 2 ^ 64) : natOfBytes (slice (bytesOfNat 8 x) 0 4) = x % 2 ^ 32 := by
  have hlen : (bytesOfNat 8 x).length = 8 := bytesOfNat_length _ _
  have hall : numAt (bytesOfNat 8 x) 0 8 = x := by
    have hs := slice_all (bytesOfNat 8 x)
    rw [hlen] at hs
    rw [numAt, hs, natOfBytes_bytesOfNat_of_lt h]
  have hm := numAt_mod (bs := bytesOfNat 8 x) (i := 0) (a := 4) (b := 4) (by omega)
  rw [hall] at hm
  exact hm.symm

/-- The nodes and edges of a dictionary that core c may read, with their values. -/
def DictSeen (s : State) (c : Nat) (D : Dict) (node edge : Nat → Nat) : Prop :=
  (∀ k, k < D.nnodes → node k < 2 ^ 64 ∧ Sees s c (BitVec.ofNat 64 (D.node + 8 * k)) (bytesOfNat 8 (node k))) ∧
    ∀ k, k < D.nedges → edge k < 2 ^ 32 ∧ Sees s c (BitVec.ofNat 64 (D.edge + 4 * k)) (bytesOfNat 4 (edge k))

/-- What an edge leads to. -/
def edgeChild (D : Dict) (edge : Nat → Nat) (e : Nat) : Option Nat := if edge e / 2 ^ 8 < D.nnodes then some (edge e / 2 ^ 8) else none

theorem childOf_eq (D : Dict) (node edge : Nat → Nat) (b : Byte) (k : Nat) : childOf D node edge b k =
    (((List.range' (node k / 2 ^ 41) (node k / 2 ^ 32 % 2 ^ 9)).takeWhile (· < D.nedges)).find? (fun e => edge e % 2 ^ 8 == b.toNat)).bind
      (edgeChild D edge) := by
  have hr : (List.range (node k / 2 ^ 32 % 2 ^ 9)).map (node k / 2 ^ 41 + ·) = List.range' (node k / 2 ^ 41) (node k / 2 ^ 32 % 2 ^ 9) :=
    List.range'_eq_map_range.symm
  unfold childOf
  rw [hr]
  cases (((List.range' (node k / 2 ^ 41) (node k / 2 ^ 32 % 2 ^ 9)).takeWhile (· < D.nedges)).find? (fun e => edge e % 2 ^ 8 == b.toNat)) <;> rfl

section
variable {s u : State} {c : Nat} {D : Dict} {node edge : Nat → Nat} {P : Sight → Prop}
  (h0 : Calm s c) (hu : Works s c u) (hub : u.coreByte c = s.coreByte c) (hd : DictSeen s c D node edge)
include h0 hu hub

/-- Bytes are read as they stood in an earlier state. -/
theorem Does.natOld {ea : Dword} {bs : List Byte} {n : Nat} (hn : bs.length = n) (hs : Sees s c ea bs) :
    Does s c (engNatIn (fun _ => u) c ea n) P (fun a σ => a = natOfBytes bs ∧ P σ) :=
  Does.natIn h0 hn fun _ _ _ => ⟨hu, by rw [hub]; exact sees_iff.mp hs⟩

include hd

theorem findChild_finds (b n e : Nat) : Does s c (findChild (fun _ => u) c D b n e) P (fun a σ =>
    a = (((List.range' e n).takeWhile (· < D.nedges)).find? (fun e => edge e % 2 ^ 8 == b)).bind (edgeChild D edge) ∧ P σ) := by
  induction n generalizing e with
  | zero => exact Does.pure _ fun _ h => ⟨rfl, h⟩
  | succ n ih =>
    rw [findChild, List.range'_succ]
    split
    · next h =>
      rw [List.takeWhile_cons_of_neg (by simpa using h)]
      exact Does.pure _ fun _ h => ⟨rfl, h⟩
    · next h =>
      have hlt : e < D.nedges := Nat.lt_of_not_le h
      obtain ⟨hedge, hs⟩ := hd.2 e hlt
      rw [List.takeWhile_cons_of_pos (by simpa using hlt)]
      refine (Does.natOld h0 hu hub (bytesOfNat_length _ _) hs).bind_val ?_
      rw [natOfBytes_bytesOfNat_of_lt hedge]
      split
      · next hb =>
        rw [List.find?_cons_of_pos (by simpa using hb)]
        exact Does.pure _ fun _ h => ⟨rfl, h⟩
      · next hb =>
        rw [List.find?_cons_of_neg (by simpa using hb)]
        exact ih (e + 1)

end

/-! The longest match. -/

/-- The best id so far after one more byte (R319). -/
def bestId (D : Dict) (node edge : Nat → Nat) (text : List Byte) (best : Nat × Nat) (j : Nat) : Nat × Nat :=
  match nodeAfter D node edge (text.take (j + 1)) with
  | some k => if node k % 2 ^ 32 = 2 ^ 31 then best else (node k % 2 ^ 32, j + 1)
  | none => best

theorem longestId_eq (D : Dict) (node edge : Nat → Nat) (text : List Byte) :
    longestId D node edge text = (List.range' 0 (min 64 text.length)).foldl (bestId D node edge text) ((text.headD 0).toNat, 1) := by
  rw [← List.range_eq_range']
  rfl

section
variable {D : Dict} {node edge : Nat → Nat} {text : List Byte} {j k : Nat}

theorem nodeAfter_succ (h : j < text.length) :
    nodeAfter D node edge (text.take (j + 1)) = (nodeAfter D node edge (text.take j)).bind (childOf D node edge (text.getD j 0)) := by
  rw [List.take_add_one, List.getElem?_eq_getElem h, Option.toList_some, List.getD_eq_getElem _ _ h]
  exact List.foldl_concat ..

theorem childOf_lt {b : Byte} {i : Nat} (h : childOf D node edge b i = some k) : k < D.nnodes := by
  rw [childOf_eq] at h
  obtain ⟨e, -, he⟩ := Option.bind_eq_some_iff.mp h
  unfold edgeChild at he
  split at he
  · next hlt =>
    obtain rfl := Option.some.inj he
    exact hlt
  · cases he

/-- Where no node is reached, no longer beginning of the text has an id. -/
theorem foldl_bestId_of_none (n : Nat) (hj : j + n ≤ text.length) (h : nodeAfter D node edge (text.take j) = none) (best : Nat × Nat) :
    (List.range' j n).foldl (bestId D node edge text) best = best := by
  induction n generalizing j with
  | zero => rfl
  | succ n ih =>
    have hnext : nodeAfter D node edge (text.take (j + 1)) = none := by
      rw [nodeAfter_succ (by omega), h]
      rfl
    rw [List.range'_succ, List.foldl_cons, bestId, hnext]
    exact ih (by omega) hnext

variable {s u : State} {c : Nat} {P : Sight → Prop} (h0 : Calm s c) (hu : Works s c u) (hub : u.coreByte c = s.coreByte c)
  (hd : DictSeen s c D node edge)
include h0 hu hub hd

/-- The walk of a dictionary finds the longest beginning of the text that has an id (R319). -/
theorem longest_finds {ea : Dword} (hs : Sees s c ea text) (n : Nat) (hj : j + n ≤ text.length) (hk : k < D.nnodes)
    (hnode : nodeAfter D node edge (text.take j) = some k) (best : Nat × Nat) :
    Does s c (longest (fun _ => u) c D ea n k j best) P (fun a σ => a = (List.range' j n).foldl (bestId D node edge text) best ∧ P σ) := by
  induction n generalizing j k best with
  | zero => exact Does.pure _ fun _ h => ⟨rfl, h⟩
  | succ n ih =>
    have hone : j + 1 ≤ text.length := by omega
    obtain ⟨hlt, hns⟩ := hd.1 k hk
    have hnext : nodeAfter D node edge (text.take (j + 1)) = childOf D node edge (text.getD j 0) k := by
      rw [nodeAfter_succ hone, hnode]
      rfl
    rw [longest]
    refine (Does.natOld h0 hu hub (slice_length hone) (sees_iff.mpr ((sees_iff.mp hs).slice hone))).bind_val ?_
    rw [natOfBytes_slice_one hone]
    refine (Does.natOld h0 hu hub (bytesOfNat_length _ _) hns).bind_val ?_
    rw [natOfBytes_bytesOfNat_of_lt hlt]
    refine (findChild_finds h0 hu hub hd _ _ _).bind_val ?_
    rw [← childOf_eq, ← hnext]
    rw [List.range'_succ, List.foldl_cons]
    cases hchild : nodeAfter D node edge (text.take (j + 1)) with
    | none =>
      rw [bestId, hchild, foldl_bestId_of_none n (by omega) hchild]
      exact Does.pure _ fun _ h => ⟨rfl, h⟩
    | some i =>
      have hi : i < D.nnodes := childOf_lt (hnext.symm.trans hchild)
      obtain ⟨hlt', hns'⟩ := hd.1 i hi
      have hlow : Sees s c (BitVec.ofNat 64 (D.node + 8 * i)) (slice (bytesOfNat 8 (node i)) 0 4) := by
        have hsl := (sees_iff.mp hns').slice (i := 0) (n := 4) (by rw [bytesOfNat_length]; omega)
        rwa [Nat.cast_zero, plus_zero] at hsl
      refine (Does.natOld h0 hu hub (slice_length (by rw [bytesOfNat_length]; omega)) hlow).bind_val ?_
      rw [natOfBytes_slice_bytesOfNat hlt']
      have hrec := ih (j := j + 1) (k := i) (by omega) hi hchild
      rw [bestId, hchild]
      by_cases hid : node i % 2 ^ 32 = 2 ^ 31
      · simp only [hid, ne_eq, not_true, if_false, if_true]
        exact hrec _
      · simp only [hid, ne_eq, not_false_eq_true, if_true, if_false]
        exact hrec _

end

/-! The ids of a text. -/

theorem length_tokenized_le (D : Dict) (node edge : Nat → Nat) (cap : Nat) (text : List Byte) : (tokenized D node edge cap text).length ≤ cap := by
  induction cap generalizing text with
  | zero => exact le_rfl
  | succ cap ih =>
    rw [tokenized]
    split
    · exact Nat.zero_le _
    · exact Nat.succ_le_succ (ih _)

theorem slice_to_end (bs : List Byte) (i : Nat) : slice bs i (bs.length - i) = bs.drop i :=
  List.take_of_length_le (by rw [List.length_drop])

section
variable {D : Dict} {node edge : Nat → Nat} {s u : State} {c : Nat} (h0 : Calm s c)
include h0

/-- The ids of a text enter their place one by one (R319). -/
theorem tokens_writes (hu : Works s c u) (hub : u.coreByte c = s.coreByte c) (hd : DictSeen s c D node edge) (hn : D.nnodes ≠ 0)
    {out text : Dword} {tb : List Byte} (hs : Sees s c text tb) {N : Nat} (hw : Writes s c out (8 + 4 * N)) {f : Nat → Byte} (cap i : Nat)
    (ids : List Nat) (hcap : ids.length + cap ≤ N) {l : List (Nat × Nat)} (hl : l = tokenized D node edge cap (tb.drop i)) :
    Does s c (tokens (fun _ => u) c D out text tb.length cap i ids.length)
      (Shows s c (addrPlus out) (8 + 4 * N) (splice f 8 (ids.flatMap (bytesOfNat 4))))
      (fun p σ => p = (ids.length + l.length, i + (l.map (·.2)).sum) ∧
        Shows s c (addrPlus out) (8 + 4 * N) (splice f 8 ((ids ++ l.map (·.1)).flatMap (bytesOfNat 4))) σ) := by
  induction cap generalizing i ids l with
  | zero =>
    subst hl
    refine Does.pure _ fun _ h => ⟨rfl, ?_⟩
    rw [tokenized, List.map_nil, List.append_nil]
    exact h
  | succ cap ih =>
    subst hl
    rw [tokens, tokenized]
    by_cases hi : tb.length ≤ i
    · rw [if_pos hi, if_pos (List.drop_eq_nil_of_le hi)]
      refine Does.pure _ fun _ h => ⟨rfl, ?_⟩
      rw [List.map_nil, List.append_nil]
      exact h
    · have hlt : i < tb.length := Nat.lt_of_not_le hi
      have hne : tb.drop i ≠ [] := by
        rw [Ne, List.drop_eq_nil_iff]
        exact hi
      have hrest : Sees s c (plus text i) (tb.drop i) := by
        rw [← slice_to_end]
        exact sees_iff.mpr ((sees_iff.mp hs).slice (by omega))
      have hhead : tb.getD i 0 = (tb.drop i).headD 0 := by
        rw [List.drop_eq_getElem_cons hlt, List.headD_cons, List.getD_eq_getElem _ _ hlt]
      rw [if_neg hi, if_neg hne]
      refine (Does.natOld h0 hu hub (slice_length (bs := tb) hlt) (sees_iff.mpr ((sees_iff.mp hs).slice hlt))).bind_val ?_
      rw [natOfBytes_slice_one hlt, hhead]
      have hlong : Does s c (longest (fun _ => u) c D (plus text i) (min 64 (tb.length - i)) 0 0 (((tb.drop i).headD 0).toNat, 1))
          (Shows s c (addrPlus out) (8 + 4 * N) (splice f 8 (ids.flatMap (bytesOfNat 4)))) (fun a σ => a = longestId D node edge (tb.drop i) ∧
            Shows s c (addrPlus out) (8 + 4 * N) (splice f 8 (ids.flatMap (bytesOfNat 4))) σ) := by
        rw [longestId_eq, List.length_drop]
        exact longest_finds h0 hu hub hd hrest _ (by rw [List.length_drop]; omega) (Nat.pos_of_ne_zero hn) rfl _
      refine hlong.bind_val ?_
      generalize longestId D node edge (tb.drop i) = p
      have hput : Does s c (engPut c (plus out (8 + 4 * ids.length)) (bytesOfNat 4 p.1))
          (Shows s c (addrPlus out) (8 + 4 * N) (splice f 8 (ids.flatMap (bytesOfNat 4))))
          (fun _ => Shows s c (addrPlus out) (8 + 4 * N) (splice f 8 ((ids ++ [p.1]).flatMap (bytesOfNat 4)))) := by
        have hdst : plus out (8 + 4 * ids.length) = plus out ((8 + 4 * ids.length : Nat) : Int) := by push_cast; rfl
        have hjoin := splice_append f 8 (ids.flatMap (bytesOfNat 4)) (bytesOfNat 4 p.1)
        rw [length_flatMap_bytesOfNat] at hjoin
        rw [hdst, List.flatMap_append, List.flatMap_singleton, ← hjoin]
        exact Does.write h0 (writes_iff.mp hw) (fun j _ => addrPlus_plus out _ j) (by rw [bytesOfNat_length]; omega)
      have hrec := ih (i + p.2) (ids ++ [p.1]) (by rw [List.length_append, List.length_singleton]; omega) rfl
      rw [List.length_append, List.length_singleton, List.append_assoc] at hrec
      refine Does.seq hput (hrec.conseq (fun _ h => h) fun q σ h => ?_)
      rw [List.drop_drop, List.length_cons, List.map_cons, List.sum_cons, List.map_cons]
      exact ⟨by rw [h.1, Nat.add_assoc, Nat.add_assoc, Nat.add_comm 1], h.2⟩

/-- TOKZ (R319): the ids, and before them how many there are and how many bytes they stand for. -/
theorem runTokz_tokenizes {out text : Dword} {tb : List Byte} {dict cap : Nat} (hD : D = s.dictOf c dict) (hd : DictSeen s c D node edge)
    (hn : D.nnodes ≠ 0) (hs : Sees s c text tb) (hw : Writes s c out (8 + 4 * cap)) {l : List (Nat × Nat)} (hl : l = tokenized D node edge cap tb) :
    Does s c (runTokz c out text tb.length dict cap) (fun σ => σ = s.coreByte c) (fun _ => Shows s c (addrPlus out) (8 + 4 * cap)
      (splice (s.held c (addrPlus out)) 0
        (bytesOfNat 8 (l.length + (l.map (·.2)).sum * 2 ^ 32) ++ l.flatMap (fun p => bytesOfNat 4 p.1)))) := by
  refine Does.get fun u hu hub => ?_
  have hdict : u.dictOf c dict = D := by
    rw [hD, State.dictOf, State.dictOf, hu.context.1, hu.frame]
    rfl
  have hids := tokens_writes h0 hu hub hd hn hs hw (f := s.held c (addrPlus out)) cap 0 [] (by simp) (l := l) hl
  rw [hdict]
  refine (hids.bind_val ?_).conseq ?_ fun _ _ h => h
  · have hcomm := splice_comm (s.held c (addrPlus out)) (o := 0) (p := 8) (a := bytesOfNat 8 (l.length + (l.map (·.2)).sum * 2 ^ 32))
      (b := l.flatMap (fun p => bytesOfNat 4 p.1)) (by rw [bytesOfNat_length])
    have hjoin := splice_append (s.held c (addrPlus out)) 0 (bytesOfNat 8 (l.length + (l.map (·.2)).sum * 2 ^ 32))
      (l.flatMap (fun p => bytesOfNat 4 p.1))
    rw [bytesOfNat_length, Nat.zero_add] at hjoin
    rw [← hjoin, hcomm, List.nil_append, List.flatMap_map, List.length_nil, Nat.zero_add, Nat.zero_add]
    exact Does.write h0 (writes_iff.mp hw) (fun j _ => by rw [Nat.zero_add]) (by rw [bytesOfNat_length]; omega)
  · rintro _ rfl
    have hnil : splice (s.held c (addrPlus out)) 8 (([] : List Nat).flatMap (bytesOfNat 4)) = s.held c (addrPlus out) :=
      funext fun i => splice_out (by simp only [List.flatMap_nil, List.length_nil]; omega)
    rw [hnil]
    exact shows_held s c (addrPlus out) _

end

end Sys2Proof.Machine
end

section
/-! PROOFS. CMASK: the mask is formed from what stands before, and then written (R320 to R322). -/

namespace Sys2Proof.Machine

/-- Whether every tile of a layer is recomputed (R322). -/
def cmWhole (L : LayerDesc) (F : FrameRec) (force : Bool) (h : Nat) : Bool :=
  force || h / 2 ^ 32 % 2 == 0 || F.frame != (h % 2 ^ 32 + 1) % 2 ^ 32 || F.disc || F.corrupt || L.ntx != ceilDiv F.width (8 * L.s) ||
    L.nty != ceilDiv F.height (8 * L.s)

/-- The blocks of a tile of a layer over a frame. -/
def cmBlocks (L : LayerDesc) (F : FrameRec) (t : Nat) : List (Nat × Nat) :=
  tileBlocks L.s (ceilDiv F.width 8) (ceilDiv F.height 8) (t % L.ntx) (t / L.ntx)

/-- A vector, of its code. -/
def vecOf (v : Nat) : Int × Int := ((BitVec.ofNat 16 v).toInt, (BitVec.ofNat 16 (v / 2 ^ 16)).toInt)

/-- The new entry of a tile, from the vectors and residuals of the blocks and from the old entries (R322). -/
def cmEntry (L : LayerDesc) (F : FrameRec) (force : Bool) (h : Nat) (old : List Nat) (V E : Nat → Nat → Nat) (t : Nat) : Nat :=
  if cmWhole L F force h = true then computeEntry L.period 1
  else match tileMove L (t % L.ntx) (t / L.ntx) ((cmBlocks L F t).map (fun b => vecOf (V b.1 b.2))) with
    | .error r => computeEntry L.period r
    | .ok (dx, dy) => tileEntry L (t % L.ntx) (t / L.ntx) dx dy ((cmBlocks L F t).map (fun b => E b.1 b.2)) old

/-- The old entries of a state array. -/
def cmOld (sb : List Byte) (n : Nat) : List Nat := (List.range n).map (fun t => numAt sb (32 + 8 * t) 8)

/-- The address of a block's vector. -/
def FrameRec.vectorAt (F : FrameRec) (x y : Nat) : Dword := BitVec.ofNat 64 (F.mvaddr + 4 * (y * ceilDiv F.width 8 + x))

/-- The address of a block's residual. -/
def FrameRec.residualAt (F : FrameRec) (x y : Nat) : Dword := BitVec.ofNat 64 (F.resaddr + 2 * (y * ceilDiv F.width 8 + x))

/-- The vectors and residuals of the blocks of a frame. -/
def Blocks (s : State) (c : Nat) (F : FrameRec) (V E : Nat → Nat → Nat) : Prop :=
  ∀ x y, x < ceilDiv F.width 8 → y < ceilDiv F.height 8 → SampleAt s c (F.vectorAt x y) 4 (V x y) ∧ SampleAt s c (F.residualAt x y) 2 (E x y)

theorem lt_of_mem_tileBlocks {k bw bh tx ty : Nat} {b : Nat × Nat} (h : b ∈ tileBlocks k bw bh tx ty) : b.1 < bw ∧ b.2 < bh := by
  unfold tileBlocks at h
  obtain ⟨j, -, hj⟩ := List.mem_flatMap.mp h
  obtain ⟨i, -, hi⟩ := List.mem_filterMap.mp hj
  split at hi
  · next hlt =>
    obtain rfl := Option.some.inj hi
    exact hlt
  · cases hi

section
variable {s : State} {c : Nat} {fr la st : Dword} {fb lb sb : List Byte} {F : FrameRec} {L : LayerDesc} {force : Bool} {V E : Nat → Nat → Nat}
  {P : Sight → Prop}

/-- A block's value is read. -/
theorem Does.block (h0 : Calm s c) {ea : Dword} {b x : Nat} (h : SampleAt s c ea b x) :
    Does s c (engNat c ea b) (fun σ => σ = s.coreByte c) (fun a σ => a = x ∧ σ = s.coreByte c) := by
  have hr := Does.nat (P := fun σ => σ = s.coreByte c) h0 (bytesOfNat_length b x) (ea := ea) fun _ hσ => hσ ▸ sees_iff.mp h.2
  rwa [natOfBytes_bytesOfNat_of_lt h.1] at hr

/-- The new entry of a tile is formed from what stands before (R322). -/
theorem cmEntry_formed (h0 : Calm s c) (hB : Blocks s c F V E) (h : Nat) (old : List Nat) (t : Nat) :
    Does s c (if cmWhole L F force h = true then pure (computeEntry L.period 1)
      else do
        let blocks := tileBlocks L.s (ceilDiv F.width 8) (ceilDiv F.height 8) (t % L.ntx) (t / L.ntx)
        let vs ← blocks.mapM (fun (b : Nat × Nat) => engNat c (F.vectorAt b.1 b.2) 4)
        match tileMove L (t % L.ntx) (t / L.ntx) (vs.map vecOf) with
        | .error r => pure (computeEntry L.period r)
        | .ok (dx, dy) =>
          let es ← blocks.mapM (fun (b : Nat × Nat) => engNat c (F.residualAt b.1 b.2) 2)
          pure (tileEntry L (t % L.ntx) (t / L.ntx) dx dy es old))
      (fun σ => σ = s.coreByte c) (fun a σ => a = cmEntry L F force h old V E t ∧ σ = s.coreByte c) := by
  unfold cmEntry
  split
  · exact Does.pure _ fun _ h => ⟨rfl, h⟩
  · refine (Does.mapM_reads _ (fun b => V b.1 b.2) fun b hb => ?_).bind_val ?_
    · obtain ⟨hx, hy⟩ := lt_of_mem_tileBlocks hb
      exact Does.block h0 (hB _ _ hx hy).1
    · rw [List.map_map]
      show Does s c (match tileMove L (t % L.ntx) (t / L.ntx) ((cmBlocks L F t).map (fun b => vecOf (V b.1 b.2))) with
        | .error r => _
        | .ok (dx, dy) => _) _ _
      cases tileMove L (t % L.ntx) (t / L.ntx) ((cmBlocks L F t).map (fun b => vecOf (V b.1 b.2))) with
      | error r => exact Does.pure _ fun _ h => ⟨rfl, h⟩
      | ok v =>
        refine (Does.mapM_reads _ (fun b => E b.1 b.2) fun b hb => ?_).bind_val (Does.pure _ fun _ h => ⟨rfl, h⟩)
        obtain ⟨hx, hy⟩ := lt_of_mem_tileBlocks hb
        exact Does.block h0 (hB _ _ hx hy).2

/-- The parts of a state array after its first word (R321). -/
def cmRest (L : LayerDesc) (n : Nat) (en : Nat → Nat) : List Byte :=
  bytesOfNat 8 (((List.range n).map en).countP (fun e => e / 2 ^ 31 % 2 == 1) * 2 ^ 32 +
      (n - ((List.range n).map en).countP (fun e => e / 2 ^ 31 % 2 == 1))) ++
    bytesOfNat 8 (L.nty * 2 ^ 8 + L.ntx) ++ bytesOfNat 8 0 ++ (List.range n).flatMap (fun t => bytesOfNat 8 (en t))

theorem length_entries (n : Nat) (en : Nat → Nat) : ((List.range n).flatMap (fun t => bytesOfNat 8 (en t))).length = 8 * n := by
  simp [List.length_flatMap, bytesOfNat_length, Nat.mul_comm]

/-- Entries, and then the words before them, the first last. -/
theorem splice_words (f : Nat → Byte) {h a b c X : List Byte} (hh : h.length = 8) (ha : a.length = 8) (hb : b.length = 8) (hc : c.length = 8) :
    splice (splice (splice (splice (splice f 32 X) 8 a) 16 b) 24 c) 0 h = splice f 0 (h ++ (a ++ b ++ c ++ X)) := by
  have e1 := splice_append f 8 a b
  have e2 := splice_append f 8 (a ++ b) c
  have e3 := splice_append f 8 (a ++ b ++ c) X
  have e4 := splice_append f 0 h (a ++ b ++ c ++ X)
  simp only [List.length_append, hh, ha, hb, hc, Nat.zero_add, Nat.reduceAdd] at e1 e2 e3 e4
  rw [← splice_comm f (o := 8) (p := 32) (by omega), ← splice_comm _ (o := 16) (p := 32) (by omega), e1,
    ← splice_comm _ (o := 24) (p := 32) (by omega), e2, e3, ← splice_comm f (o := 0) (p := 8) (by omega), e4]

/-- The entries of a state array are written, then its words from the second on, then the first (R322). -/
theorem cmask_written (h0 : Calm s c) {n : Nat} (hw : Writes s c st (32 + 8 * n)) {f : Nat → Byte} (en : Nat → Nat) (h1 h2 h3 h4 : Nat) :
    Does s c ((List.range n).forM (fun (t : Nat) => engPut c (plus st (32 + 8 * t)) (bytesOfNat 8 (en t))) >>= fun _ =>
        engPut c (plus st 8) (bytesOfNat 8 h1) >>= fun _ => engPut c (plus st 16) (bytesOfNat 8 h2) >>= fun _ =>
        engPut c (plus st 24) (bytesOfNat 8 h3) >>= fun _ => engPut c st (bytesOfNat 8 h4))
      (Shows s c (addrPlus st) (32 + 8 * n) f)
      (fun _ => Shows s c (addrPlus st) (32 + 8 * n) (splice f 0 (bytesOfNat 8 h4 ++ (bytesOfNat 8 h1 ++ bytesOfNat 8 h2 ++ bytesOfNat 8 h3 ++
        (List.range n).flatMap (fun t => bytesOfNat 8 (en t)))))) := by
  have h8 : ∀ x, (bytesOfNat 8 x).length = 8 := fun x => bytesOfNat_length 8 x
  have hword : ∀ (g : Nat → Byte) (o x : Nat), o + 8 ≤ 32 + 8 * n → Does s c (engPut c (plus st (o : Nat)) (bytesOfNat 8 x))
      (Shows s c (addrPlus st) (32 + 8 * n) g) (fun _ => Shows s c (addrPlus st) (32 + 8 * n) (splice g o (bytesOfNat 8 x))) := fun g o x ho =>
    Does.write h0 (writes_iff.mp hw) (fun j _ => addrPlus_plus st o j) (by rw [h8]; exact ho)
  have hentries : Does s c ((List.range n).forM (fun (t : Nat) => engPut c (plus st (32 + 8 * t)) (bytesOfNat 8 (en t))))
      (Shows s c (addrPlus st) (32 + 8 * n) f) (fun _ => Shows s c (addrPlus st) (32 + 8 * n)
        (splice f 32 ((List.range n).flatMap (fun t => bytesOfNat 8 (en t))))) := by
    refine (Does.forM_range n (fun t => Shows s c (addrPlus st) (32 + 8 * n)
      (splice f 32 ((List.range t).flatMap (fun t => bytesOfNat 8 (en t))))) fun t ht => ?_).conseq (fun σ h => ?_) fun _ _ h => h
    · have hput := hword (splice f 32 ((List.range t).flatMap (fun t => bytesOfNat 8 (en t)))) (32 + 8 * t) (en t) (by omega)
      have hjoin := splice_append f 32 ((List.range t).flatMap (fun t => bytesOfNat 8 (en t))) (bytesOfNat 8 (en t))
      rw [length_entries] at hjoin
      rw [hjoin] at hput
      rw [List.range_succ, List.flatMap_append, List.flatMap_singleton]
      exact hput
    · have hnil : splice f 32 ((List.range 0).flatMap (fun t => bytesOfNat 8 (en t))) = f := funext fun i => splice_out (by simp; omega)
      rw [hnil]
      exact h
  refine Does.seq hentries ?_
  generalize (List.range n).flatMap (fun t => bytesOfNat 8 (en t)) = X
  refine Does.seq (hword _ 8 h1 (by omega)) ?_
  refine Does.seq (hword _ 16 h2 (by omega)) ?_
  refine Does.seq (hword _ 24 h3 (by omega)) ?_
  have hlast := hword (splice (splice (splice (splice f 32 X) 8 (bytesOfNat 8 h1)) 16 (bytesOfNat 8 h2)) 24 (bytesOfNat 8 h3)) 0 h4 (by omega)
  rw [Nat.cast_zero, plus_zero] at hlast
  have hjoin := splice_words f (h8 h4) (h8 h1) (h8 h2) (h8 h3) (X := X)
  rw [hjoin] at hlast
  exact hlast

/-- A state array whose descriptor is malformed becomes zeros (R320). -/
theorem runCmask_zeros (h0 : Calm s c) (hfb : fb.length = 64) (hf : Sees s c fr fb) (hlb : lb.length = 32) (hl : Sees s c la lb)
    (hmal : (layerDesc lb).malformed = true) (hw : Writes s c st 32) :
    Does s c (runCmask c st fr la force) (fun σ => σ = s.coreByte c)
      (fun _ => Shows s c (addrPlus st) 32 (splice (s.held c (addrPlus st)) 0 (List.replicate 32 0))) := by
  refine (Does.readSeen h0 hfb hf).bind_val ((Does.readSeen h0 hlb hl).bind_val ?_)
  simp only [hmal, if_true]
  exact Does.overwrite h0 hw List.length_replicate

/-- A mask (R320 to R322). -/
theorem runCmask_masks (h0 : Calm s c) (hfb : fb.length = 64) (hf : Sees s c fr fb) (hlb : lb.length = 32) (hl : Sees s c la lb)
    (hF : F = frameRec fb) (hL : L = layerDesc lb) (hmal : L.malformed = false) {n : Nat} (hn : n = L.ntx * L.nty)
    (hsb : sb.length = 32 + 8 * n) (hs : Sees s c st sb) (hw : Writes s c st (32 + 8 * n)) (hB : Blocks s c F V E) {en : Nat → Nat}
    (hen : en = cmEntry L F force (numAt sb 0 8) (cmOld sb n) V E) :
    Does s c (runCmask c st fr la force) (fun σ => σ = s.coreByte c) (fun _ => Shows s c (addrPlus st) (32 + 8 * n)
      (splice (s.held c (addrPlus st)) 0 (bytesOfNat 8 (2 ^ 32 + F.frame) ++ cmRest L n en))) := by
  refine (Does.readSeen h0 hfb hf).bind_val ((Does.readSeen h0 hlb hl).bind_val ?_)
  rw [← hF, ← hL]
  simp only [hmal, Bool.false_eq_true, if_false]
  have hreads : ∀ σ, σ = s.coreByte c → Reads s c σ st sb := fun _ hσ => hσ ▸ sees_iff.mp hs
  refine (Does.numAt_zero h0 hreads (by omega)).bind_val ?_
  rw [← hn]
  refine (Does.mapM_reads _ (fun t => numAt sb (32 + 8 * t) 8) fun t ht => ?_).bind_val ?_
  · have ht' := List.mem_range.mp ht
    exact Does.numAt h0 hreads (by push_cast; rfl) (by omega)
  · refine (Does.mapM_reads _ en fun t ht => ?_).bind_val ?_
    · rw [hen]
      exact cmEntry_formed h0 hB (numAt sb 0 8) (cmOld sb n) t
    · have hnew : (List.range n).flatMap (fun t => bytesOfNat 8 (((List.range n).map en).getD t 0)) =
          (List.range n).flatMap (fun t => bytesOfNat 8 (en t)) := by
        refine List.flatMap_congr fun t ht => ?_
        rw [List.getD_eq_getElem _ _ (by simpa using ht), List.getElem_map, List.getElem_range]
      unfold cmRest
      rw [← hnew, List.countP_eq_length_filter]
      refine (cmask_written h0 hw (fun t => ((List.range n).map en).getD t 0) _ _ _ _).conseq ?_ fun _ _ h => h
      rintro _ rfl
      exact shows_held s c (addrPlus st) _

end

end Sys2Proof.Machine
end

section
/-! PROOFS. CMASK: what an entry of the mask is (R322). -/

namespace Sys2Proof.Machine

theorem mem_tileBlocks {k bw bh tx ty : Nat} (hk : 0 < k) {x y : Nat} :
    (x, y) ∈ tileBlocks k bw bh tx ty ↔ x / k = tx ∧ y / k = ty ∧ x < bw ∧ y < bh := by
  unfold tileBlocks
  simp only [List.mem_flatMap, List.mem_filterMap, List.mem_range, Option.ite_none_right_eq_some, Option.some.injEq, Prod.mk.injEq]
  constructor
  · rintro ⟨j, hj, i, hi, ⟨hx, hy⟩, rfl, rfl⟩
    refine ⟨?_, ?_, hx, hy⟩
    · rw [Nat.mul_comm, Nat.mul_add_div hk, Nat.div_eq_of_lt hi, Nat.add_zero]
    · rw [Nat.mul_comm, Nat.mul_add_div hk, Nat.div_eq_of_lt hj, Nat.add_zero]
  · rintro ⟨rfl, rfl, hx, hy⟩
    have h1 : x / k * k + x % k = x := Nat.div_add_mod' x k
    have h2 : y / k * k + y % k = y := Nat.div_add_mod' y k
    exact ⟨y % k, Nat.mod_lt y hk, x % k, Nat.mod_lt x hk, ⟨by rwa [h1], by rwa [h2]⟩, h1, h2⟩

/-! Where a tile comes from. -/

/-- A vector is absent. -/
def VecAbsent (v : Int × Int) : Prop := v.1 = -32768 ∨ v.2 = -32768

section
variable {L : LayerDesc} {tx ty : Nat} {vs : List (Int × Int)}

/-- An absent vector, or two that differ, have a tile recomputed. -/
theorem tileMove_mixed {v : Int × Int} (hv : v ∈ vs) (h : VecAbsent v ∨ ∃ w ∈ vs, w ≠ v) : tileMove L tx ty vs = .error 2 := by
  cases vs with
  | nil => exact absurd hv List.not_mem_nil
  | cons a r =>
    unfold tileMove
    dsimp only
    rw [if_pos]
    rcases h with h | ⟨w, hw, hne⟩
    · rw [Bool.or_eq_true, List.any_eq_true]
      refine .inl ⟨v, hv, ?_⟩
      rcases h with h | h <;> simp [h]
    · by_contra hc
      rw [Bool.or_eq_true, not_or, List.any_eq_true (l := r)] at hc
      have hall : ∀ z ∈ a :: r, z = a := fun z hz => by
        rcases List.mem_cons.mp hz with rfl | hz
        · rfl
        · by_contra hza
          exact hc.2 ⟨z, hz, bne_iff_ne.mpr hza⟩
      exact hne ((hall w hw).trans (hall v hv).symm)

/-- Equal vectors say where a tile comes from. -/
theorem tileMove_uniform {p q : Int} (hne : vs ≠ []) (hall : ∀ v ∈ vs, v = (p, q)) (hp : p ≠ -32768) (hq : q ≠ -32768) :
    tileMove L tx ty vs = if p % (4 * L.s) ≠ 0 ∨ q % (4 * L.s) ≠ 0 then .error 3
      else if 8 * tx - p / (4 * L.s) < 0 ∨ 8 * (L.ntx : Int) < 8 * tx - p / (4 * L.s) + 8 ∨ 8 * ty - q / (4 * L.s) < 0 ∨
        8 * (L.nty : Int) < 8 * ty - q / (4 * L.s) + 8 then .error 4
      else .ok (p / (4 * L.s), q / (4 * L.s)) := by
  cases vs with
  | nil => exact absurd rfl hne
  | cons a r =>
    obtain rfl := hall a List.mem_cons_self
    have hno : ((((p, q) :: r).any (fun v => v.1 == -32768 || v.2 == -32768)) || r.any (· != (p, q))) = false := by
      rw [Bool.or_eq_false_iff, List.any_eq_false, List.any_eq_false]
      refine ⟨fun v hv => ?_, fun v hv => ?_⟩
      · rw [hall v hv]
        simp [hp, hq]
      · rw [hall v (List.mem_cons_of_mem _ hv)]
        simp
    unfold tileMove
    dsimp only
    rw [if_neg (by rw [hno]; exact Bool.false_ne_true)]

end

/-! What a tile that has come is. -/

theorem foldl_max_eq {l : List Nat} {a m : Nat} (hm : m ∈ l ∨ a = m) (ha : a ≤ m) (h : ∀ x ∈ l, x ≤ m) : l.foldl max a = m := by
  induction l generalizing a with
  | nil => exact hm.resolve_left List.not_mem_nil
  | cons x l ih =>
    have hx := h x List.mem_cons_self
    refine ih ?_ (max_le ha hx) fun y hy => h y (List.mem_cons_of_mem _ hy)
    rcases hm with hm | rfl
    · rcases List.mem_cons.mp hm with rfl | hm
      · exact .inr (max_eq_right ha)
      · exact .inl hm
    · exact .inr (max_eq_left hx)

theorem foldl_min_eq {l : List Nat} {a m : Nat} (hm : m ∈ l ∨ a = m) (ha : m ≤ a) (h : ∀ x ∈ l, m ≤ x) : l.foldl min a = m := by
  induction l generalizing a with
  | nil => exact hm.resolve_left List.not_mem_nil
  | cons x l ih =>
    have hx := h x List.mem_cons_self
    refine ih ?_ (le_min ha hx) fun y hy => h y (List.mem_cons_of_mem _ hy)
    rcases hm with hm | rfl
    · rcases List.mem_cons.mp hm with rfl | hm
      · exact .inr (min_eq_right ha)
      · exact .inl hm
    · exact .inr (min_eq_left hx)

theorem mem_coverTiles {ntx x y o : Nat} :
    o ∈ coverTiles ntx x y ↔ ∃ a b : Nat, a < 8 ∧ b < 8 ∧ o = (y + b) / 8 * ntx + (x + a) / 8 := by
  unfold coverTiles
  simp only [List.mem_flatMap, List.mem_map, List.mem_eraseDups, List.mem_cons, List.not_mem_nil, or_false]
  constructor
  · rintro ⟨ty, hty, tx, htx, rfl⟩
    rcases htx with rfl | rfl <;> rcases hty with rfl | rfl
    · exact ⟨0, 0, by omega, by omega, rfl⟩
    · exact ⟨0, 7, by omega, by omega, rfl⟩
    · exact ⟨7, 0, by omega, by omega, rfl⟩
    · exact ⟨7, 7, by omega, by omega, rfl⟩
  · rintro ⟨a, b, ha, hb, rfl⟩
    exact ⟨(y + b) / 8, by omega, (x + a) / 8, by omega, rfl⟩

/-- The region that a tile comes from lies in its layer (R322). -/
def Inside (L : LayerDesc) (t : Nat) (dx dy : Int) : Prop :=
  0 ≤ 8 * ((t % L.ntx : Nat) : Int) - dx ∧ 8 * ((t % L.ntx : Nat) : Int) - dx + 8 ≤ 8 * L.ntx ∧
    0 ≤ 8 * ((t / L.ntx : Nat) : Int) - dy ∧ 8 * ((t / L.ntx : Nat) : Int) - dy + 8 ≤ 8 * L.nty

/-- A tile comes from another by a displacement (R322). -/
def ComesFrom (L : LayerDesc) (t : Nat) (dx dy : Int) (o : Nat) : Prop :=
  ∃ a b : Nat, a < 8 ∧ b < 8 ∧
    o = (8 * ((t / L.ntx : Nat) : Int) - dy + b).toNat / 8 * L.ntx + (8 * ((t % L.ntx : Nat) : Int) - dx + a).toNat / 8

section
variable {L : LayerDesc} {t : Nat} {dx dy : Int}

theorem comesFrom_iff (h : Inside L t dx dy) {o : Nat} : ComesFrom L t dx dy o ↔
    o ∈ coverTiles L.ntx (8 * ((t % L.ntx : Nat) : Int) - dx).toNat (8 * ((t / L.ntx : Nat) : Int) - dy).toNat := by
  obtain ⟨h1, -, h3, -⟩ := h
  rw [mem_coverTiles]
  have hx : ∀ a : Nat, (8 * ((t % L.ntx : Nat) : Int) - dx + a).toNat = (8 * ((t % L.ntx : Nat) : Int) - dx).toNat + a := fun a => by omega
  have hy : ∀ b : Nat, (8 * ((t / L.ntx : Nat) : Int) - dy + b).toNat = (8 * ((t / L.ntx : Nat) : Int) - dy).toNat + b := fun b => by omega
  simp only [ComesFrom, hx, hy]

theorem ComesFrom.lt (h : Inside L t dx dy) {o : Nat} (ho : ComesFrom L t dx dy o) : o < L.ntx * L.nty := by
  obtain ⟨h1, h2, h3, h4⟩ := h
  obtain ⟨a, b, ha, hb, rfl⟩ := ho
  generalize 8 * ((t % L.ntx : Nat) : Int) - dx = X at *
  generalize 8 * ((t / L.ntx : Nat) : Int) - dy = Y at *
  have hx : (X + a).toNat / 8 < L.ntx := by omega
  have hy : (Y + b).toNat / 8 < L.nty := by omega
  calc (Y + b).toNat / 8 * L.ntx + (X + a).toNat / 8 < (Y + b).toNat / 8 * L.ntx + L.ntx := Nat.add_lt_add_left hx _
    _ = ((Y + b).toNat / 8 + 1) * L.ntx := (Nat.succ_mul _ _).symm
    _ ≤ L.nty * L.ntx := Nat.mul_le_mul_right _ hy
    _ = L.ntx * L.nty := Nat.mul_comm _ _

/-- The new entry of a tile that has come (R322). -/
theorem tileEntry_eq (h : Inside L t dx dy) {res : List Nat} {sb : List Byte} {e score cnt sc : Nat} (he : e ∈ res) (hle : ∀ x ∈ res, x ≤ e)
    (hscore : ∃ o, ComesFrom L t dx dy o ∧ entryScore (numAt sb (32 + 8 * o) 8) = score)
    (hscores : ∀ o, ComesFrom L t dx dy o → entryScore (numAt sb (32 + 8 * o) 8) ≤ score)
    (hcnt : ∃ o, ComesFrom L t dx dy o ∧ entryCnt (numAt sb (32 + 8 * o) 8) = cnt)
    (hcnts : ∀ o, ComesFrom L t dx dy o → cnt ≤ entryCnt (numAt sb (32 + 8 * o) 8))
    (hsc : sc = min (score + ceilDiv (L.gain * e) 16) (2 ^ 24 - 1)) :
    tileEntry L (t % L.ntx) (t / L.ntx) dx dy res (cmOld sb (L.ntx * L.nty)) =
      if L.thresh < e then computeEntry L.period 5
      else if L.bound < sc then computeEntry L.period 6
      else if cnt ≤ 1 then computeEntry L.period 7
      else reuseEntry (cnt - 1) sc dx dy := by
  have hold : ∀ o, ComesFrom L t dx dy o → (cmOld sb (L.ntx * L.nty)).getD o 0 = numAt sb (32 + 8 * o) 8 := fun o ho => by
    rw [cmOld, List.getD_eq_getElem _ _ (by simpa using ho.lt h), List.getElem_map, List.getElem_range]
  have hmax : res.foldl max 0 = e := foldl_max_eq (.inl he) (Nat.zero_le _) hle
  have hfrom : ∀ (g : Nat → Nat) (x : Nat), x ∈ ((coverTiles L.ntx (8 * ((t % L.ntx : Nat) : Int) - dx).toNat
      (8 * ((t / L.ntx : Nat) : Int) - dy).toNat).map (fun o => (cmOld sb (L.ntx * L.nty)).getD o 0)).map g ↔
      ∃ o, ComesFrom L t dx dy o ∧ g (numAt sb (32 + 8 * o) 8) = x := fun g x => by
    simp only [List.mem_map, exists_exists_and_eq_and, ← comesFrom_iff h]
    exact exists_congr fun o => and_congr_right fun ho => by rw [hold o ho]
  have hs := foldl_max_eq (a := 0) (.inl ((hfrom entryScore score).mpr hscore)) (Nat.zero_le _) fun x hx => by
    obtain ⟨o, ho, rfl⟩ := (hfrom entryScore x).mp hx
    exact hscores o ho
  have hlt : cnt ≤ 255 := by
    obtain ⟨o, -, rfl⟩ := hcnt
    unfold entryCnt
    omega
  have hc := foldl_min_eq (a := 255) (.inl ((hfrom entryCnt cnt).mpr hcnt)) hlt fun x hx => by
    obtain ⟨o, ho, rfl⟩ := (hfrom entryCnt x).mp hx
    exact hcnts o ho
  unfold tileEntry
  dsimp only
  rw [hmax, hs, hc, ← hsc]

end

end Sys2Proof.Machine
end

section
/-! PROOFS. CMASK: the new entry of a tile, by the vectors and residuals of its blocks (R322). -/

namespace Sys2Proof.Machine

/-- A block of a tile. -/
def OfTile (L : LayerDesc) (F : FrameRec) (t x y : Nat) : Prop :=
  x / L.s = t % L.ntx ∧ y / L.s = t / L.ntx ∧ x < ceilDiv F.width 8 ∧ y < ceilDiv F.height 8

theorem vecOf_inj {v w : Nat} (hv : v < 2 ^ 32) (hw : w < 2 ^ 32) (h : vecOf v = vecOf w) : v = w := by
  obtain ⟨h1, h2⟩ := Prod.mk.inj h
  have e1 := congrArg BitVec.toNat (BitVec.eq_of_toInt_eq h1)
  have e2 := congrArg BitVec.toNat (BitVec.eq_of_toInt_eq h2)
  simp only [BitVec.toNat_ofNat] at e1 e2
  omega

section
variable {L : LayerDesc} {F : FrameRec} {force : Bool} {h : Nat} {old : List Nat} {V E : Nat → Nat → Nat} {t : Nat}

theorem cmEntry_whole (hw : cmWhole L F force h = true) : cmEntry L F force h old V E t = computeEntry L.period 1 := by
  rw [cmEntry, if_pos hw]

variable (hS : 0 < L.s)

include hS in
theorem mem_cmBlocks {x y : Nat} : (x, y) ∈ cmBlocks L F t ↔ OfTile L F t x y := mem_tileBlocks hS

/-- In a layer of the frame's size each tile has a block. -/
theorem exists_ofTile (hS : 0 < L.s) (hw : ¬cmWhole L F force h = true) (ht : t < L.ntx * L.nty) : ∃ x y, OfTile L F t x y := by
  simp only [cmWhole, Bool.or_eq_true, bne_iff_ne, not_or, not_not] at hw
  obtain ⟨⟨-, hx⟩, hy⟩ := hw
  have hx0 : 0 < L.ntx := Nat.pos_of_ne_zero fun h0 => by rw [h0, Nat.zero_mul] at ht; exact Nat.not_lt_zero _ ht
  have hcover : ∀ {i n width : Nat}, n = ceilDiv width (8 * L.s) → i < n → i * L.s < ceilDiv width 8 := fun {i n width} hn hi => by
    unfold ceilDiv at *
    have h1 : (i + 1) * (8 * L.s) ≤ width + 8 * L.s - 1 := by
      rw [hn] at hi
      exact (Nat.le_div_iff_mul_le (by omega)).mp hi
    have h2 : (i + 1) * (8 * L.s) = 8 * (i * L.s) + 8 * L.s := by ring
    omega
  exact ⟨t % L.ntx * L.s, t / L.ntx * L.s, Nat.mul_div_cancel _ hS, Nat.mul_div_cancel _ hS, hcover hx (Nat.mod_lt t hx0),
    hcover hy (Nat.div_lt_of_lt_mul ht)⟩

variable (hw : ¬cmWhole L F force h = true)
include hS hw

theorem cmEntry_mixed (hV : ∀ x y, OfTile L F t x y → V x y < 2 ^ 32) {x y : Nat} (hxy : OfTile L F t x y)
    (hmix : VecAbsent (vecOf (V x y)) ∨ ∃ x' y', OfTile L F t x' y' ∧ V x' y' ≠ V x y) :
    cmEntry L F force h old V E t = computeEntry L.period 2 := by
  have hmem : vecOf (V x y) ∈ (cmBlocks L F t).map (fun b => vecOf (V b.1 b.2)) := List.mem_map.mpr ⟨(x, y), (mem_cmBlocks hS).mpr hxy, rfl⟩
  rw [cmEntry, if_neg hw, tileMove_mixed hmem]
  refine hmix.imp_right ?_
  rintro ⟨x', y', hxy', hne⟩
  exact ⟨_, List.mem_map.mpr ⟨(x', y'), (mem_cmBlocks hS).mpr hxy', rfl⟩, fun he => hne (vecOf_inj (hV _ _ hxy') (hV _ _ hxy) he)⟩

variable (ht : t < L.ntx * L.nty) {p q : Int} (hp : p ≠ -32768) (hq : q ≠ -32768) (hall : ∀ x y, OfTile L F t x y → vecOf (V x y) = (p, q))
include ht hp hq hall

/-- A tile whose blocks have one vector: its entry by where it comes from. -/
theorem cmEntry_uniform :
    (p % (4 * L.s) ≠ 0 ∨ q % (4 * L.s) ≠ 0 → cmEntry L F force h old V E t = computeEntry L.period 3) ∧
      (p % (4 * L.s) = 0 → q % (4 * L.s) = 0 →
        (¬Inside L t (p / (4 * L.s)) (q / (4 * L.s)) → cmEntry L F force h old V E t = computeEntry L.period 4) ∧
        (Inside L t (p / (4 * L.s)) (q / (4 * L.s)) → cmEntry L F force h old V E t =
          tileEntry L (t % L.ntx) (t / L.ntx) (p / (4 * L.s)) (q / (4 * L.s)) ((cmBlocks L F t).map (fun b => E b.1 b.2)) old)) := by
  have hne : (cmBlocks L F t).map (fun b => vecOf (V b.1 b.2)) ≠ [] := by
    obtain ⟨x, y, hxy⟩ := exists_ofTile hS hw ht
    exact List.ne_nil_of_mem (List.mem_map.mpr ⟨(x, y), (mem_cmBlocks hS).mpr hxy, rfl⟩)
  have hvecs : ∀ v ∈ (cmBlocks L F t).map (fun b => vecOf (V b.1 b.2)), v = (p, q) := fun v hv => by
    obtain ⟨b, hb, rfl⟩ := List.mem_map.mp hv
    exact hall _ _ ((mem_cmBlocks hS).mp hb)
  rw [cmEntry, if_neg hw, tileMove_uniform hne hvecs hp hq]
  refine ⟨fun h3 => by rw [if_pos h3], fun hp0 hq0 => ?_⟩
  rw [if_neg (by rw [hp0, hq0]; simp)]
  refine ⟨fun h4 => ?_, fun h5 => ?_⟩
  · rw [if_pos]
    unfold Inside at h4
    omega
  · obtain ⟨g1, g2, g3, g4⟩ := h5
    rw [if_neg (by omega)]

theorem cmEntry_uneven (hd : ¬(4 * (L.s : Int) ∣ p ∧ 4 * (L.s : Int) ∣ q)) : cmEntry L F force h old V E t = computeEntry L.period 3 := by
  refine (cmEntry_uniform hS hw ht hp hq hall).1 ?_
  rw [Int.dvd_iff_emod_eq_zero, Int.dvd_iff_emod_eq_zero] at hd
  tauto

variable {dx dy : Int} (hdx : p = 4 * L.s * dx) (hdy : q = 4 * L.s * dy)
include hdx hdy

theorem cmEntry_moved : (¬Inside L t dx dy → cmEntry L F force h old V E t = computeEntry L.period 4) ∧
    (Inside L t dx dy → cmEntry L F force h old V E t =
      tileEntry L (t % L.ntx) (t / L.ntx) dx dy ((cmBlocks L F t).map (fun b => E b.1 b.2)) old) := by
  have hne : 4 * (L.s : Int) ≠ 0 := by omega
  have hp0 : p % (4 * L.s) = 0 := by
    rw [hdx]
    exact Int.mul_emod_right _ _
  have hq0 : q % (4 * L.s) = 0 := by
    rw [hdy]
    exact Int.mul_emod_right _ _
  have hx : p / (4 * L.s) = dx := by
    rw [hdx]
    exact Int.mul_ediv_cancel_left _ hne
  have hy : q / (4 * L.s) = dy := by
    rw [hdy]
    exact Int.mul_ediv_cancel_left _ hne
  have hu := (cmEntry_uniform (E := E) (old := old) hS hw ht hp hq hall).2 hp0 hq0
  rwa [hx, hy] at hu

end

end Sys2Proof.Machine
end

section
/-! PROOFS. CMASK: the fields of descriptors and frame records that decide it (R311, R320, R322). -/

namespace Sys2Proof.Machine

theorem layerDesc_malformed_iff {lb : List Byte} (hlb : lb.length = 32) : (layerDesc lb).malformed = true ↔
    numAt lb 0 8 % 256 = 0 ∨ numAt lb 0 8 / 256 % 256 = 0 ∨ numAt lb 8 8 / 2 ^ 48 % 256 = 0 ∨ 6 < numAt lb 0 8 / 2 ^ 16 % 8 ∨
      2 ^ 19 ≤ numAt lb 0 8 ∨ 2 ^ 56 ≤ numAt lb 8 8 ∨ numAt lb 16 16 ≠ 0 := by
  have hsplit : numAt lb 16 16 = numAt lb 16 8 + 256 ^ 8 * numAt lb 24 8 := numAt_add (b := 8) (by omega)
  have hm : (layerDesc lb).malformed = (numAt lb 0 8 % 256 == 0 || numAt lb 0 8 / 256 % 256 == 0 || numAt lb 8 8 / 2 ^ 48 % 256 == 0 ||
    6 < numAt lb 0 8 / 2 ^ 16 % 8 || numAt lb 0 8 / 2 ^ 19 != 0 || numAt lb 8 8 / 2 ^ 56 != 0 || numAt lb 16 8 != 0 || numAt lb 24 8 != 0) := rfl
  rw [hm, hsplit]
  simp only [Bool.or_eq_true, beq_iff_eq, bne_iff_ne, decide_eq_true_eq]
  have h1 : numAt lb 0 8 / 2 ^ 19 ≠ 0 ↔ 2 ^ 19 ≤ numAt lb 0 8 := by omega
  have h2 : numAt lb 8 8 / 2 ^ 56 ≠ 0 ↔ 2 ^ 56 ≤ numAt lb 8 8 := by omega
  have h3 : numAt lb 16 8 + 256 ^ 8 * numAt lb 24 8 ≠ 0 ↔ numAt lb 16 8 ≠ 0 ∨ numAt lb 24 8 ≠ 0 := by omega
  rw [h1, h2, h3]
  simp only [or_assoc]

theorem layerDesc_s_pos (lb : List Byte) : 0 < (layerDesc lb).s := Nat.pos_of_ne_zero (by simp [layerDesc])

theorem cmWhole_iff {L : LayerDesc} {force : Bool} {fb : List Byte} {h : Nat} : cmWhole L (frameRec fb) force h = true ↔
    force = true ∨ h / 2 ^ 32 % 2 = 0 ∨ numAt fb 0 8 % 2 ^ 32 ≠ (h % 2 ^ 32 + 1) % 2 ^ 32 ∨ numAt fb 0 8 / 2 ^ 52 % 2 = 1 ∨
      numAt fb 0 8 / 2 ^ 50 % 2 = 1 ∨ L.ntx ≠ (numAt fb 16 8 % 2 ^ 16 + 8 * L.s - 1) / (8 * L.s) ∨
      L.nty ≠ (numAt fb 16 8 / 2 ^ 16 % 2 ^ 16 + 8 * L.s - 1) / (8 * L.s) := by
  have hm : cmWhole L (frameRec fb) force h = (force || h / 2 ^ 32 % 2 == 0 || numAt fb 0 8 % 2 ^ 32 != (h % 2 ^ 32 + 1) % 2 ^ 32 ||
    numAt fb 0 8 / 2 ^ 52 % 2 == 1 || numAt fb 0 8 / 2 ^ 50 % 2 == 1 || L.ntx != (numAt fb 16 8 % 2 ^ 16 + 8 * L.s - 1) / (8 * L.s) ||
    L.nty != (numAt fb 16 8 / 2 ^ 16 % 2 ^ 16 + 8 * L.s - 1) / (8 * L.s)) := rfl
  rw [hm]
  simp only [Bool.or_eq_true, beq_iff_eq, bne_iff_ne, or_assoc]

end Sys2Proof.Machine
end

section
/-! PROOFS. A core's engine writes enter the memory order (R263): what memory holds then, and that nothing else has a part in it. -/

namespace Sys2Proof.Machine

theorem keys_tset_congr {α : Type} {t t' : Tbl α} (h : t.map (·.1) = t'.map (·.1)) (k : Nat) (v v' : α) :
    (tset t k v).map (·.1) = (tset t' k v').map (·.1) := by
  induction t generalizing t' with
  | nil =>
    obtain rfl := List.map_eq_nil_iff.mp h.symm
    rfl
  | cons e t ih =>
    cases t' with
    | nil => cases h
    | cons e' t' =>
      obtain ⟨j, x⟩ := e
      obtain ⟨j', x'⟩ := e'
      obtain ⟨hj, ht⟩ := List.cons.inj h
      dsimp only at hj
      subst hj
      unfold tset
      split
      · exact congrArg (fun l => k :: j :: l) ht
      · split
        · exact congrArg (fun l => k :: l) ht
        · exact congrArg (fun l => j :: l) (ih ht)

/-- Two states have the same memory and the same pending engine writes, core by core. -/
structure SamePending (u v : State) : Prop where
  mem : u.mem = v.mem
  keys : u.cores.map (·.1) = v.cores.map (·.1)
  ebuf : ∀ d, (u.core d).ebuf = (v.core d).ebuf

section
variable {u v : State} (h : SamePending u v)
include h

theorem SamePending.withMem (m : Mem) : SamePending (u.withMem m) (v.withMem m) := ⟨rfl, h.keys, h.ebuf⟩

theorem SamePending.modCore (d : Nat) {f g : CoreSt → CoreSt} (hfg : (f (u.core d)).ebuf = (g (v.core d)).ebuf) :
    SamePending (u.modCore d f) (v.modCore d g) := by
  refine ⟨h.mem, keys_tset_congr h.keys _ _ _, fun e => ?_⟩
  by_cases he : e = d
  · subst he
    rw [State.core_modCore_self, State.core_modCore_self]
    exact hfg
  · rw [State.core_modCore_ne _ _ _ _ he, State.core_modCore_ne _ _ _ _ he]
    exact h.ebuf e

theorem SamePending.flush (key n : Nat) : SamePending (u.flush key n) (v.flush key n) := by
  unfold State.flush
  rw [h.keys]
  generalize v.cores.map (·.1) = l
  induction l generalizing u v with
  | nil => exact h
  | cons d l ih =>
    simp only [List.foldl_cons]
    refine ih ?_
    rw [h.ebuf d]
    split
    · exact h
    · rw [h.mem]
      exact (h.withMem _).modCore d (congrArg (List.filter _) (h.ebuf d))

theorem SamePending.write (key : Nat) (bs : List Byte) : SamePending (u.write key bs) (v.write key bs) := by
  have hf := h.flush key bs.length
  refine ⟨?_, hf.keys, hf.ebuf⟩
  rw [State.write, State.write, hf.mem]

theorem SamePending.foldl_write (l : List (Nat × Byte)) :
    SamePending (l.foldl (fun s e => s.write e.1 [e.2]) u) (l.foldl (fun s e => s.write e.1 [e.2]) v) := by
  induction l generalizing u v with
  | nil => exact h
  | cons e l ih => exact ih (h.write e.1 [e.2])

theorem SamePending.settle (c : Nat) : SamePending (u.settle c) (v.settle c) := by
  unfold State.settle
  rw [h.ebuf c]
  exact (h.modCore c rfl).foldl_write _

end

/-- A core with no pending engine writes gets none by what enters the memory order. -/
theorem State.flush_ebuf_nil {s : State} {c : Nat} (h : (s.core c).ebuf = []) (key n : Nat) : ((s.flush key n).core c).ebuf = [] := by
  refine List.foldlRecOn (motive := fun u : State => (u.core c).ebuf = []) _ _ h fun u hu d _ => ?_
  dsimp only
  split
  · exact hu
  · by_cases hd : c = d
    · subst hd
      rw [State.core_modCore_self]
      exact congrArg (List.filter _) hu
    · rw [State.core_modCore_ne _ _ _ _ hd]
      exact hu

theorem State.settle_ebuf (s : State) (c : Nat) : ((s.settle c).core c).ebuf = [] := by
  refine List.foldlRecOn (motive := fun u : State => (u.core c).ebuf = []) _ _ ?_ fun u hu e _ => State.flush_ebuf_nil hu e.1 1
  rw [State.core_modCore_self]

/-- Where no other core's engine writes are pending, a core's enter memory one by one. -/
theorem State.settle_mem {s : State} {c : Nat} (h : ∀ d, d ≠ c → (s.core d).ebuf = []) :
    (s.settle c).mem = (s.core c).ebuf.foldl (fun m p => mset m p.1 p.2) s.mem := by
  have hall : ∀ d, ((s.modCore c (fun k => { k with ebuf := [] })).core d).ebuf = [] := fun d => by
    by_cases hd : d = c
    · subst hd
      rw [State.core_modCore_self]
    · rw [State.core_modCore_ne _ _ _ _ hd]
      exact h d hd
  have hmem : (s.modCore c (fun k => { k with ebuf := [] })).mem = s.mem := rfl
  unfold State.settle
  rw [← hmem]
  generalize s.modCore c (fun k => { k with ebuf := [] }) = u at *
  clear hmem h
  generalize (s.core c).ebuf = l
  induction l generalizing u with
  | nil => rfl
  | cons e l ih =>
    have hnone : u.flush e.1 1 = u := State.flush_of_none fun d p hp => by
      rw [hall d] at hp
      cases hp
    have hw : u.write e.1 [e.2] = u.withMem (mset u.mem e.1 e.2) := by
      unfold State.write
      rw [show ([e.2] : List Byte).length = 1 from rfl, hnone]
      rfl
    rw [List.foldl_cons, List.foldl_cons, hw]
    exact ih _ hall

/-- Bytes that are written each once. -/
theorem mget_foldl_mset {l : Tbl Byte} (hn : (l.map (·.1)).Nodup) (m : Mem) (k : Nat) :
    mget (l.foldl (fun m p => mset m p.1 p.2) m) k = if thas l k = true then tget 0 l k else mget m k := by
  induction l generalizing m with
  | nil => rfl
  | cons e l ih =>
    obtain ⟨j, b⟩ := e
    obtain ⟨hj, hn⟩ := List.nodup_cons.mp hn
    unfold thas tget
    rw [List.foldl_cons, List.any_cons]
    by_cases he : j = k
    · subst he
      have hrest : ∀ p ∈ l, p.1 ≠ j := fun p hp hpj => hj (hpj ▸ List.mem_map.mpr ⟨p, hp, rfl⟩)
      rw [mget_foldl_mset_ne _ _ _ hrest, mget_mset_self, if_pos rfl, beq_self_eq_true, Bool.true_or, if_pos rfl]
    · rw [ih hn, mget_mset_ne _ _ _ _ (Ne.symm he), beq_eq_false_iff_ne.mpr he, Bool.false_or, if_neg he]
      rfl

end Sys2Proof.Machine
end

section
/-! PROOFS. A command completes: its release, its signal and its place in the engine; a COPYM presents its follow-on word first (R210, R232 to R236,
R239, R263). -/

namespace Sys2Proof.Machine

theorem tset_tset {α : Type} (t : Tbl α) (k : Nat) (a b : α) : tset (tset t k a) k b = tset t k b := by
  induction t with
  | nil => simp [tset]
  | cons e t ih =>
    obtain ⟨j, x⟩ := e
    by_cases h1 : k < j
    · simp [tset, h1]
    · by_cases h2 : k = j
      · subst h2
        simp [tset]
      · simp [tset, h1, h2, ih]

theorem State.settle_congr {u v : State} {c : Nat} (hb : (u.core c).ebuf = (v.core c).ebuf)
    (h : SamePending (u.modCore c (fun k => { k with ebuf := [] })) (v.modCore c (fun k => { k with ebuf := [] }))) :
    SamePending (u.settle c) (v.settle c) := by
  unfold State.settle
  rw [hb]
  exact h.foldl_write _

section
variable (s : State) (c : Nat) (m : EngCmd)

/-- A change of a core that leaves its pending writes is no matter of what they come to. -/
theorem State.settle_setCore {k : CoreSt} (hk : k.ebuf = (s.core c).ebuf) : ((s.setCore c k).settle c).mem = (s.settle c).mem := by
  have hcore : (s.setCore c k).core c = k := State.core_setCore_self _ _ _
  refine (State.settle_congr (u := s.setCore c k) (v := s) (by rw [hcore, hk]) ⟨rfl, ?_, fun d => ?_⟩).mem
  · show (tset (tset s.cores c k) c _).map (·.1) = _
    rw [tset_tset]
    exact keys_tset_congr rfl _ _ _
  · by_cases hd : d = c
    · subst hd
      rw [State.core_modCore_self, State.core_modCore_self]
    · rw [State.core_modCore_ne _ _ _ _ hd, State.core_modCore_ne _ _ _ _ hd, State.core_setCore_ne _ _ _ _ hd]

/-- A write-back cleans the lines of a stash, and marks lines at most (R232). -/
theorem State.writeBack_eq : ∃ l, s.writeBack c =
    ({ s with poison := l } : State).modCore c (fun k => { k with stash := k.stash.map (fun x => { x with dirty := false }) }) := by
  have hfold : ∃ l, (s.core c).stash.foldl (fun s x => s.leaveMark c x) s = { s with poison := l } := by
    refine List.foldlRecOn (motive := fun u : State => ∃ l, u = { s with poison := l }) _ _ ⟨s.poison, rfl⟩ ?_
    rintro _ ⟨l, rfl⟩ x _
    exact State.leaveMark_cases _ c x
  obtain ⟨l, hl⟩ := hfold
  exact ⟨l, by rw [State.writeBack, hl]⟩

theorem State.release_within (h : m.rel = false ∨ m.scope = 0) : s.release c m = s := by
  unfold State.release
  rw [if_neg]
  rcases h with h | h <;> simp [h]

/-- A release beyond the core: its writes enter the memory order, and its stash is clean (R234, R263). -/
theorem State.release_beyond (hr : m.rel = true) (hs : m.scope ≠ 0) : (s.release c m).mem = (s.settle c).mem ∧
    ((s.release c m).core c).ebuf = [] ∧ ∀ x ∈ ((s.release c m).core c).stash, x.dirty = false := by
  have hrel : s.release c m = (s.settle c).writeBack c := by
    unfold State.release
    rw [if_pos]
    simpa [hr] using hs
  obtain ⟨l, hl⟩ := (s.settle c).writeBack_eq c
  rw [hrel, hl]
  refine ⟨rfl, ?_, ?_⟩
  · rw [State.core_modCore_self]
    exact s.settle_ebuf c
  · rw [State.core_modCore_self]
    intro x hx
    obtain ⟨y, -, rfl⟩ := List.mem_map.mp hx
    rfl

theorem State.release_keeps : KeepsCore (s.core c) ((s.release c m).core c) := by
  unfold State.release
  split
  · obtain ⟨l, hl⟩ := (s.settle c).writeBack_eq c
    obtain ⟨b, hb⟩ := (MemOnly.settle s c).2 c
    rw [hl, State.core_modCore_self]
    have hcore : ({ s.settle c with poison := l } : State).core c = { s.core c with ebuf := b } := hb
    rw [hcore]
    exact ⟨_, _, _, rfl⟩
  · exact .refl _

end

section
variable {s : State} {c : Nat} {e : Engine} {m : EngCmd} {r : List EngCmd}

theorem CoreSt.signalOpt?_cases {k k' : CoreSt} {t : Option (BitVec 4)} (h : k.signalOpt? t = some k') : ∃ n, k' = { k with tk := n } := by
  cases t with
  | none => exact ⟨k.tk, (Option.some.inj h).symm⟩
  | some t => exact CoreSt.signal?_cases h

/-- A command whose work is done leaves its engine when its signal can be made (R39, R233). -/
theorem complete_of_done {k : CoreSt} (ha : ((s.core c).engine e).active = m :: r) (hd : (s.core c).commandDone m = true)
    (hu : s.unanswered c (.engine e) = false) (hr : s.replyMarked c (.engine e) = false) (hk : (s.core c).signalOpt? m.sig = some k)
    (hev : m.events = []) :
    exec (.engineCommandComplete c e) s = .next (((s.setCore c (k.finishEng e)).answer c (.engine e)).release c m) := by
  show execEngineCommandComplete c e s = _
  have hp : ∀ reg row a n p, m.op = .copym reg row a n p → m.presented = true := fun reg row a n p hop => by
    simp only [CoreSt.commandDone, hop, Bool.and_eq_true] at hd
    exact hd.1
  simp only [execEngineCommandComplete, ha, hu, hr, hd, hk, hev, State.countEvents_nil, Bool.false_eq_true, Bool.false_and, if_false, Bool.not_true]
  split
  · next hop hpres =>
    rw [hp _ _ _ _ _ hop] at hpres
    cases hpres
  · rfl

/-- What a command leaves whose work is done (R233 to R235, R263). -/
theorem completed {k : CoreSt} (ha : ((s.core c).engine e).active = m :: r) (hk : (s.core c).signalOpt? m.sig = some k) {t : State}
    (ht : t = ((s.setCore c (k.finishEng e)).answer c (.engine e)).release c m) :
    ((t.core c).engine e).active = r ∧ (t.core c).copies = (s.core c).copies - 1 ∧ (t.core c).tk = k.tk ∧
      (m.rel = true → m.scope ≠ 0 → t.mem = (s.settle c).mem ∧ (t.core c).ebuf = [] ∧ ∀ x ∈ (t.core c).stash, x.dirty = false) ∧
      (m.rel = false ∨ m.scope = 0 → t.mem = s.mem ∧ (t.core c).ebuf = (s.core c).ebuf) := by
  obtain ⟨n, rfl⟩ := CoreSt.signalOpt?_cases hk
  have hbuf : (({ s.core c with tk := n } : CoreSt).finishEng e).ebuf = (s.core c).ebuf := CoreSt.ebuf_setEngine _ e _
  have heng : (({ s.core c with tk := n } : CoreSt).finishEng e).engine e = { (s.core c).engine e with active := r } := by
    have h1 : ({ s.core c with tk := n } : CoreSt).engine e = (s.core c).engine e := by cases e <;> rfl
    have h2 : (({ s.core c with tk := n } : CoreSt).finishEng e).engine e =
        (({ s.core c with tk := n } : CoreSt).setEngine e
          { ({ s.core c with tk := n } : CoreSt).engine e with active := (({ s.core c with tk := n } : CoreSt).engine e).active.drop 1 }).engine e := by
      cases e <;> rfl
    rw [h2, CoreSt.engine_setEngine, h1, ha]
    rfl
  have htk : (({ s.core c with tk := n } : CoreSt).finishEng e).tk = n := by cases e <;> rfl
  have hcopies : (({ s.core c with tk := n } : CoreSt).finishEng e).copies = (s.core c).copies - 1 := rfl
  generalize ({ s.core c with tk := n } : CoreSt).finishEng e = k' at *
  have hcore : ((s.setCore c k').answer c (.engine e)).core c = k' := State.core_setCore_self _ _ _
  have hkeep := ((s.setCore c k').answer c (.engine e)).release_keeps c m
  rw [hcore, ← ht] at hkeep
  refine ⟨by rw [hkeep.engine e, heng], ?_, ?_, fun hr hs => ?_, fun h => ?_⟩
  · obtain ⟨_, _, _, hx⟩ := hkeep
    rw [hx]
    exact hcopies
  · obtain ⟨_, _, _, hx⟩ := hkeep
    rw [hx]
    exact htk
  · have hrel := ((s.setCore c k').answer c (.engine e)).release_beyond c m hr hs
    rw [← ht] at hrel
    refine ⟨hrel.1.trans ?_, hrel.2⟩
    have hsame : SamePending ((s.setCore c k').answer c (.engine e)) (s.setCore c k') := ⟨rfl, rfl, fun _ => rfl⟩
    exact (hsame.settle c).mem.trans (State.settle_setCore s c hbuf)
  · rw [State.release_within _ _ _ h] at ht
    rw [ht]
    exact ⟨rfl, by rw [hcore, hbuf]⟩

theorem complete_of_unanswered (ha : ((s.core c).engine e).active = m :: r) (hu : s.unanswered c (.engine e) = true) :
    exec (.engineCommandComplete c e) s = .next s := by
  show execEngineCommandComplete c e s = _
  simp only [execEngineCommandComplete, ha, hu, if_true]

/-! The follow-on word of a COPYM. -/

section
variable {reg row : Nat} {a n : Dword} {patch : Word} (ha : ((s.core c).engine e).active = m :: r) (hop : m.op = .copym reg row a n patch)
  (hp : m.presented = false) (hr : s.replyMarked c (.engine e) = false)
include ha hop hp hr

/-- The side port is full, or the count of matrix operations is: a follow-on word waits (R210). -/
theorem complete_of_side_busy (hbusy : (s.core c).side ≠ none ∨ (s.core c).tileops = 255) :
    exec (.engineCommandComplete c e) s = .next s := by
  have hcond : ((s.core c).side.isSome || (s.core c).tileops == 255) = true := by
    rw [Bool.or_eq_true, Option.isSome_iff_ne_none, beq_iff_eq]
    exact hbusy
  show execEngineCommandComplete c e s = _
  simp only [execEngineCommandComplete, ha, hop, hp, hr, hcond, Bool.false_and, Bool.false_eq_true, if_false, if_true, ite_self]

theorem complete_of_copym (hside : (s.core c).side = none) (htile : (s.core c).tileops ≠ 255) (hu : s.unanswered c (.engine e) = false) :
    exec (.engineCommandComplete c e) s = .next ((s.release c m).modCore c (fun k =>
      (k.setEngine e { k.engine e with active := { m with presented := true } :: r }).presentSide patch)) := by
  have hcond : ((s.core c).side.isSome || (s.core c).tileops == 255) = false := by
    rw [hside, Bool.or_eq_false_iff, beq_eq_false_iff_ne]
    exact ⟨rfl, htile⟩
  show execEngineCommandComplete c e s = _
  simp only [execEngineCommandComplete, ha, hop, hp, hr, hu, hcond, Bool.false_and, Bool.false_eq_true, if_false]

end

/-- A follow-on word goes to the side port where R206 allows it, and else raises an ILL in M (R206, R210). -/
theorem CoreSt.presentSide_cases (k : CoreSt) (patch : Word) {tp : BitVec 128}
    (htp : tp = patchTpl (tget 0 k.tpl (bits patch 5 6).toNat) (bits patch 11 5) (bits patch 16 16)) :
    (patchFaults (bits patch 11 5) (bits patch 16 16) ++ tplFaults k.demand tp = [] →
        k.presentSide patch = { k with side := some { tpl := tp, judged := false }, tileops := k.tileops + 1 }) ∧
      (patchFaults (bits patch 11 5) (bits patch 16 16) ++ tplFaults k.demand tp ≠ [] → ∃ i, k.presentSide patch = { k with mIll := some i }) := by
  subst htp
  unfold CoreSt.presentSide
  dsimp only
  refine ⟨fun h => ?_, fun h => ?_⟩
  · rw [h, worst_nil]
  · split
    · exact ⟨_, rfl⟩
    · next hw => exact absurd (worst_eq_none.mp hw) h

/-- What a COPYM leaves that presents its follow-on word (R210, R239). -/
theorem presented {patch : Word} {tp : BitVec 128} (hside : (s.core c).side = none)
    (htp : tp = patchTpl (tget 0 (s.core c).tpl (bits patch 5 6).toNat) (bits patch 11 5) (bits patch 16 16)) {t : State}
    (ht : t = (s.release c m).modCore c (fun k =>
      (k.setEngine e { k.engine e with active := { m with presented := true } :: r }).presentSide patch)) :
    ((t.core c).engine e).active = { m with presented := true } :: r ∧ (t.core c).copies = (s.core c).copies ∧
      (patchFaults (bits patch 11 5) (bits patch 16 16) ++ tplFaults (s.core c).demand tp = [] →
        (t.core c).side = some { tpl := tp, judged := false } ∧ (t.core c).tileops = (s.core c).tileops + 1 ∧ (t.core c).mIll = (s.core c).mIll) ∧
      (patchFaults (bits patch 11 5) (bits patch 16 16) ++ tplFaults (s.core c).demand tp ≠ [] → (t.core c).side = none ∧
        (t.core c).tileops = (s.core c).tileops ∧ (t.core c).mIll.isSome = true) := by
  obtain ⟨k, hk, hcore⟩ : ∃ k : CoreSt, ((k.engine e).active = { m with presented := true } :: r ∧ k.copies = (s.core c).copies ∧ k.side = none ∧
      k.tileops = (s.core c).tileops ∧ k.mIll = (s.core c).mIll ∧ k.tpl = (s.core c).tpl ∧ k.demand = (s.core c).demand) ∧
      t.core c = k.presentSide patch := by
    obtain ⟨b, h, l, hx⟩ := s.release_keeps c m
    refine ⟨_, ?_, by rw [ht, State.core_modCore_self]⟩
    rw [CoreSt.engine_setEngine, hx]
    refine ⟨rfl, ?_⟩
    rw [← hside]
    cases e <;> exact ⟨rfl, rfl, rfl, rfl, rfl, rfl⟩
  obtain ⟨hact, hcopies, hs, htile, hill, htpl, hdem⟩ := hk
  rw [← htpl] at htp
  have hcases := k.presentSide_cases patch htp
  have heng : (k.presentSide patch).engine e = k.engine e ∧ (k.presentSide patch).copies = k.copies := by
    by_cases hf : patchFaults (bits patch 11 5) (bits patch 16 16) ++ tplFaults k.demand tp = []
    · rw [hcases.1 hf]
      cases e <;> exact ⟨rfl, rfl⟩
    · obtain ⟨i, hi⟩ := hcases.2 hf
      rw [hi]
      cases e <;> exact ⟨rfl, rfl⟩
  rw [hcore, ← hdem]
  refine ⟨by rw [heng.1, hact], by rw [heng.2, hcopies], fun hf => ?_, fun hf => ?_⟩
  · rw [hcases.1 hf]
    exact ⟨rfl, congrArg (· + 1) htile, hill⟩
  · obtain ⟨i, hi⟩ := hcases.2 hf
    rw [hi]
    exact ⟨hs, htile, rfl⟩

end

end Sys2Proof.Machine
end

section
/-! PROOFS. Rows of a fetch, and commands that may not start (R233, R241). -/

namespace Sys2Proof.Machine

section
variable {s : State} {c : Nat} {m : EngCmd} {r : List EngCmd}

theorem start_of_not_ready {e : Engine} (hq : ((s.core c).engine e).queue = m :: r) (hr : s.engineReady c e m = false) :
    exec (.engineCommandStart c e) s = .next s := by
  show execEngineCommandStart c e s = _
  simp only [execEngineCommandStart, hq, hr, Bool.false_eq_true, if_false]

/-- The next row of a fetch enters fq while it has room (R241). -/
theorem rowFill_of_room {base stride : Dword} {rows : Nat} {bs : List Byte} (ha : (s.core c).sluiceE.active = m :: r)
    (hop : m.op = .tfetch base stride rows) (hlt : m.rowsDone < rows) (hfq : (s.core c).fq.length < 4)
    (hu : s.unanswered c (.engine .sluice) = false) (h0 : Calm s c) (hbs : bs.length = 256)
    (hs : Sees s c (base + BitVec.ofNat 64 m.rowsDone * stride) bs) :
    ∃ t, exec (.sluiceRowFill c) s = .next t ∧ (t.core c).fq = (s.core c).fq ++ [rowOfBytes bs] ∧
      (t.core c).sluiceE.active = [{ m with rowsDone := m.rowsDone + 1 }] ∧ t.mem = s.mem := by
  obtain ⟨v, hrun, hv, hkeep, -⟩ := engReadIn_reads h0 (pick := fun s => s) (Works.of_calm h0) fun u hu =>
    ⟨hu.1, by rw [(Works.of_calm h0).coreByte_of_ebuf hu.1 hu.2.2]; exact sees_iff.mp hs⟩
  rw [hbs] at hrun
  have hfull : (decide (rows ≤ m.rowsDone) || decide (4 ≤ (s.core c).fq.length) || s.unanswered c (.engine .sluice)) = false := by
    rw [hu, decide_eq_false (by omega), decide_eq_false (by omega)]
    rfl
  have hexec : ∃ t, exec (.sluiceRowFill c) s = .next t ∧ t.mem = v.mem ∧ (t.core c).fq = (v.core c).fq ++ [rowOfBytes bs] ∧
      (t.core c).sluiceE.active = [{ m with rowsDone := m.rowsDone + 1 }] := by
    refine ⟨v.modCore c (fun k =>
      { k with
        fq := k.fq ++ [rowOfBytes bs]
        fqAt := (k.fqAt ++ [base + BitVec.ofNat 64 m.rowsDone * stride]).drop (k.fqAt.length - 3)
        sluiceE := { k.sluiceE with active := [{ m with rowsDone := m.rowsDone + 1 }] } }), ?_, rfl, ?_, ?_⟩
    · show execSluiceRowFill c s = _
      simp only [execSluiceRowFill, ha, hop, hfull, Bool.false_eq_true, if_false, engRead, hrun]
    · rw [State.core_modCore_self]
    · rw [State.core_modCore_self]
  obtain ⟨t, hexec, hmem, htfq, hact⟩ := hexec
  refine ⟨t, hexec, ?_, hact, hmem.trans hv.mem⟩
  obtain ⟨_, _, _, hx⟩ := hkeep
  rw [htfq, hx]

/-- A destination that fails a check ends a copy (R122, R236, R294). -/
theorem runCopy_fails (h0 : Calm s c) {d a : Dword} {n i kd ad : Nat} {bs : List Byte} (hn : bs.length = n) (hs : Sees s c a bs) (hi : i < n)
    (hw : Writes s c d i) (hbad : s.keyOf c (addrPlus d i) true = .error (.fatal kd ad)) :
    Fails s c (runCopy c d a n false) (fun σ => σ = s.coreByte c) kd ad := by
  refine (Does.readSeen h0 hn hs).fails fun b u hu hb => ?_
  obtain ⟨rfl, -⟩ := hb
  exact Fails.put (P := fun _ => True) h0 (by omega) hw.1 hbad u hu trivial

theorem RowLanded.worked {k : CoreSt} {reg i owner : Nat} {bs : List Byte} (h : RowLanded k (.tile reg i) owner bs) (e : Engine) (m : EngCmd)
    (evs : List Nat) : RowLanded (k.worked e m evs) (.tile reg i) owner bs := by
  cases e <;> exact h

/-- A COPYM brings its rows (R239). -/
theorem Starts.copym_lands {e : Engine} {reg row : Nat} {a n : Dword} {patch : Word} {bs : List Byte}
    (h : Starts s c e m r (.copym reg row a n patch)) (hbs : 256 * (n.toNat / 256) ≤ bs.length) (hs : Sees s c a bs) :
    ∃ t, Ran s t c e m r [] ∧ ∀ i, i < n.toNat / 256 → RowLanded (t.core c) (.tile reg (row + i)) m.id (slice bs (256 * i) 256) := by
  obtain ⟨hw, hb, -⟩ := h.works
  obtain ⟨v, hrun, hv, heng, hrows⟩ := runCopym_lands (reg := reg) (row := row) (owner := m.id) h.calm hs (n.toNat / 256) 0 (by omega) hw hb
    (fun i hi => absurd hi (Nat.not_lt_zero i))
  have hcmd : (runCommand c m).run (s.starting c e m r) = (.ok [], v) := by
    rw [runCommand, h.op_eq]
    exact Eng.run_bind_ok hrun
  refine ⟨_, (h.ran_of_run hcmd hv (heng e)).1, fun i hi => ?_⟩
  rw [State.core_modCore_self]
  exact (hrows i (by omega)).worked e m []

/-- A scatter (R243). -/
theorem Starts.scat_lands {e : Engine} {d a x : Dword} {ty : BitVec 4} {u n : Nat} {xb ab : List Byte}
    (h : Starts s c e m r (.scat d a x ty u n)) (hxb : xb.length = 4 * n) (hx : Sees s c x xb) (hab : ab.length = u * n) (ha : Sees s c a ab)
    (hunits : ∀ i, i < n → numAt xb (4 * i) 4 ≠ 2 ^ 31 → Writes s c (scatTarget d xb u i) u ∧
      Apart s c (scatTarget d xb u i) u [(x, 4 * n), (a, u * n)] ∧
      ∀ j, j < n → numAt xb (4 * j) 4 ≠ 2 ^ 31 → j ≠ i → numAt xb (4 * j) 4 ≠ numAt xb (4 * i) 4 → ∀ p q, p < u → q < u →
        s.keyOf c (addrPlus (scatTarget d xb u i) p) true ≠ s.keyOf c (addrPlus (scatTarget d xb u j) q) true) :
    ∃ t, Ran s t c e m r [] ∧
      (∀ i, i < n → numAt xb (4 * i) 4 ≠ 2 ^ 31 → (∀ j, i < j → j < n → numAt xb (4 * j) 4 ≠ numAt xb (4 * i) 4) →
        Lands s t c (scatTarget d xb u i) (slice ab (u * i) u)) ∧
      Spares s t c ((List.range n).map (fun i => (scatTarget d xb u i, if numAt xb (4 * i) 4 = 2 ^ 31 then 0 else u))) := by
  obtain ⟨t, hran, hsight⟩ := h.ran_silent (by rw [runCommand, h.op_eq])
    (runScat_scatters h.calm hxb hx hab ha fun i hi hne => ⟨(hunits i hi hne).1, (hunits i hi hne).2.1⟩)
  refine ⟨t, hran, fun i hi hne hlast p hp key hk => ?_, fun key hkey => ?_⟩
  · obtain ⟨hw, -, hother⟩ := hunits i hi hne
    have hfit : u * i + u ≤ ab.length := by
      rw [hab, ← Nat.mul_succ]
      exact Nat.mul_le_mul_left u hi
    rw [slice_length hfit] at hp
    rw [hsight]
    exact State.scattered_last hab hi hne hw hother hlast hp hk
  · rw [hsight]
    refine State.scattered_of_untouched hab le_rfl fun j hj hne p hp => ?_
    exact hkey _ (List.mem_map.mpr ⟨j, List.mem_range.mpr hj, rfl⟩) p (by rw [if_neg hne]; exact hp)

end

end Sys2Proof.Machine
end

section
/-! PROOFS. CMASK from its start on (R320 to R322). -/

namespace Sys2Proof.Machine

theorem countP_reused (en : Nat → Nat) (n : Nat) :
    n - ((List.range n).map en).countP (fun e => e / 2 ^ 31 % 2 == 1) = (List.range n).countP (fun i => en i / 2 ^ 31 % 2 == 0) ∧
      ((List.range n).map en).countP (fun e => e / 2 ^ 31 % 2 == 1) = (List.range n).countP (fun i => en i / 2 ^ 31 % 2 == 1) := by
  have hmap : ((List.range n).map en).countP (fun e => e / 2 ^ 31 % 2 == 1) = (List.range n).countP (fun i => en i / 2 ^ 31 % 2 == 1) :=
    List.countP_map ..
  have hsum := List.length_eq_countP_add_countP (fun i => en i / 2 ^ 31 % 2 == 1) (l := List.range n)
  have hneg : (List.range n).countP (fun i => decide ¬(en i / 2 ^ 31 % 2 == 1) = true) = (List.range n).countP (fun i => en i / 2 ^ 31 % 2 == 0) := by
    refine List.countP_congr fun i _ => ?_
    rcases Nat.mod_two_eq_zero_or_one (en i / 2 ^ 31) with h | h <;> simp
  rw [List.length_range, hneg] at hsum
  exact ⟨by rw [hmap]; omega, hmap⟩

section
variable {s : State} {c : Nat} {e : Engine} {m : EngCmd} {r : List EngCmd} {fr la st : Dword} {force : Bool} {fb lb sb : List Byte}
  {V E : Nat → Nat → Nat}

theorem Starts.cmask_zeros (h : Starts s c e m r (.cmask st fr la force)) (hfb : fb.length = 64) (hf : Sees s c fr fb) (hlb : lb.length = 32)
    (hl : Sees s c la lb) (hmal : (layerDesc lb).malformed = true) (hw : Writes s c st 32) :
    ∃ t, Ran s t c e m r [] ∧ Lands s t c st (List.replicate 32 0) ∧ Spares s t c [(st, 32)] := by
  obtain ⟨t, hran, hshow⟩ := h.ran_silent (by rw [runCommand, h.op_eq]) (runCmask_zeros h.calm hfb hf hlb hl hmal hw)
  exact ⟨t, hran, hshow.lands_all List.length_replicate, hshow.spares⟩

/-- The state array that a mask leaves (R321, R322). -/
theorem Starts.cmask_masks (h : Starts s c e m r (.cmask st fr la force)) (hfb : fb.length = 64) (hf : Sees s c fr fb) (hlb : lb.length = 32)
    (hl : Sees s c la lb) {F : FrameRec} (hF : F = frameRec fb) {L : LayerDesc} (hL : L = layerDesc lb) (hmal : L.malformed = false)
    (hsb : sb.length = 32 + 8 * (L.ntx * L.nty)) (hs : Sees s c st sb) (hw : Writes s c st sb.length) (hB : Blocks s c F V E) {en : Nat → Nat}
    (hen : en = cmEntry L F force (numAt sb 0 8) (cmOld sb (L.ntx * L.nty)) V E) :
    ∃ t, Ran s t c e m r [] ∧ Spares s t c [(st, sb.length)] ∧
      Lands s t c st (bytesOfNat 8 (2 ^ 32 + F.frame) ++
        bytesOfNat 8 ((List.range (L.ntx * L.nty)).countP (fun i => en i / 2 ^ 31 % 2 == 1) * 2 ^ 32 +
          (List.range (L.ntx * L.nty)).countP (fun i => en i / 2 ^ 31 % 2 == 0)) ++ bytesOfNat 8 (L.nty * 256 + L.ntx) ++ List.replicate 8 0 ++
        (List.range (L.ntx * L.nty)).flatMap (fun i => bytesOfNat 8 (en i))) := by
  rw [hsb] at hw ⊢
  obtain ⟨t, hran, hshow⟩ := h.ran_silent (by rw [runCommand, h.op_eq]) (runCmask_masks h.calm hfb hf hlb hl hF hL hmal rfl hsb hs hw hB hen)
  obtain ⟨hcomp, hreuse⟩ := countP_reused en (L.ntx * L.nty)
  have hzero : bytesOfNat 8 0 = List.replicate 8 0 := rfl
  have hlist : bytesOfNat 8 (2 ^ 32 + F.frame) ++ cmRest L (L.ntx * L.nty) en = bytesOfNat 8 (2 ^ 32 + F.frame) ++
      bytesOfNat 8 ((List.range (L.ntx * L.nty)).countP (fun i => en i / 2 ^ 31 % 2 == 1) * 2 ^ 32 +
        (List.range (L.ntx * L.nty)).countP (fun i => en i / 2 ^ 31 % 2 == 0)) ++ bytesOfNat 8 (L.nty * 256 + L.ntx) ++ List.replicate 8 0 ++
      (List.range (L.ntx * L.nty)).flatMap (fun i => bytesOfNat 8 (en i)) := by
    unfold cmRest
    rw [hcomp, hreuse, hzero, show (2 : Nat) ^ 8 = 256 from rfl]
    simp only [List.append_assoc]
  rw [hlist] at hshow
  refine ⟨t, hran, hshow.spares, hshow.lands_all ?_⟩
  simp only [List.length_append, bytesOfNat_length, List.length_replicate, length_entries]

end

section
variable {L : LayerDesc} {F : FrameRec} {force : Bool} {h : Nat} {sb : List Byte} {V E : Nat → Nat → Nat} {t : Nat} {p q dx dy : Int}

/-- The new entry of a tile that has come whole from its layer (R322). -/
theorem cmEntry_come (hS : 0 < L.s) (hw : ¬cmWhole L F force h = true) (ht : t < L.ntx * L.nty) (hp : p ≠ -32768) (hq : q ≠ -32768)
    (hall : ∀ x y, OfTile L F t x y → vecOf (V x y) = (p, q)) (hdx : p = 4 * L.s * dx) (hdy : q = 4 * L.s * dy) (hin : Inside L t dx dy)
    {res score cnt sc : Nat} (hres : ∃ x y, OfTile L F t x y ∧ E x y = res) (hle : ∀ x y, OfTile L F t x y → E x y ≤ res)
    (hscore : ∃ o, ComesFrom L t dx dy o ∧ entryScore (numAt sb (32 + 8 * o) 8) = score)
    (hscores : ∀ o, ComesFrom L t dx dy o → entryScore (numAt sb (32 + 8 * o) 8) ≤ score)
    (hcnt : ∃ o, ComesFrom L t dx dy o ∧ entryCnt (numAt sb (32 + 8 * o) 8) = cnt)
    (hcnts : ∀ o, ComesFrom L t dx dy o → cnt ≤ entryCnt (numAt sb (32 + 8 * o) 8))
    (hsc : sc = min (score + ceilDiv (L.gain * res) 16) (2 ^ 24 - 1)) :
    cmEntry L F force h (cmOld sb (L.ntx * L.nty)) V E t =
      if L.thresh < res then computeEntry L.period 5
      else if L.bound < sc then computeEntry L.period 6
      else if cnt ≤ 1 then computeEntry L.period 7
      else reuseEntry (cnt - 1) sc dx dy := by
  rw [(cmEntry_moved hS hw ht hp hq hall hdx hdy).2 hin]
  refine tileEntry_eq hin ?_ ?_ hscore hscores hcnt hcnts hsc
  · obtain ⟨x, y, hxy, rfl⟩ := hres
    exact List.mem_map.mpr ⟨(x, y), (mem_cmBlocks hS).mpr hxy, rfl⟩
  · intro v hv
    obtain ⟨b, hb, rfl⟩ := List.mem_map.mp hv
    exact hle _ _ ((mem_cmBlocks hS).mp hb)

end

end Sys2Proof.Machine
end

section
/-! PROOFS. The commands of the engines (O31). -/

namespace Sys2Proof.Machine

/-- Settles O31: each command by what its work does to the core's sight, its completion by its release. -/
theorem enginesRunAndComplete : Obligations.EnginesRunAndComplete := by
  intro s c e m r
  refine ⟨?copy, ?fill, ?badRead, ?badWrite, ?copym, ?mcast, ?gath, ?scat, ?gathmc, ?sacc, ?saccStep, ?tlist, ?cmask, ?tokz, ?ccvt, ?notReady,
    ?settle, ?rowFill, ?complete, ?unanswered, ?present, ?sideBusy⟩
  case copy =>
    intro d a n bs h hn hs hw
    obtain ⟨t, hran, hshow⟩ := h.ran_silent (by rw [runCommand, h.op_eq]) (runCopy_copies h.calm hn hs hw)
    exact ⟨t, hran, hshow.lands_all hn, hshow.spares⟩
  case fill =>
    intro d a n h hw
    obtain ⟨t, hran, hshow⟩ := h.ran_silent (by rw [runCommand, h.op_eq]) (runCopy_fills h.calm hw)
    exact ⟨t, hran, hshow.spares, hshow.lands_all (by simp)⟩
  case badRead =>
    intro d a n bs kd ad h hn hs hbad
    have hread : Fails s c (engRead c a n.toNat) (fun σ => σ = s.coreByte c) kd ad :=
      Fails.read h.calm (fun _ hσ => hσ ▸ sees_iff.mp hs) hn hbad
    refine h.failed ?_
    rw [runCommand, h.op_eq]
    exact Fails.bind (Fails.bind hread _) _
  case badWrite =>
    intro d a n bs i kd ad h hn hs hi hw hbad
    refine ((h.failed ?_).imp fun t ht => ⟨ht.1, ht.2.1⟩)
    rw [runCommand, h.op_eq]
    exact Fails.bind (runCopy_fails h.calm hn hs hi hw hbad) _
  case copym =>
    intro reg row a n patch bs h hn hrow hbs hs
    exact h.copym_lands (by omega) hs
  case mcast =>
    intro off a n ts bs h hn hs hoff
    obtain ⟨t, hran, hsight⟩ := h.ran_silent (by rw [runCommand, h.op_eq]) (runMcast_spreads h.calm hn hs)
    refine ⟨t, hran, fun d hd i hi => ?_, fun key hkey => ?_⟩
    · rw [hsight]
      exact foldl_spadPuts_in ts _ (by omega) _ hd (by omega)
    · rw [hsight]
      exact foldl_spadPuts_out ts _ _ _ fun d hd i hi => hkey d hd i (by omega)
  case gath =>
    intro d a x ty u n xb us h hxb hx hus hunits hw _
    have hsource : ∀ i, i < n → (us.getD i []).length = u ∧ if numAt xb (4 * i) 4 = 2 ^ 31 then us.getD i [] = absentUnit ty u
        else Sees s c (plus a (int32 (numAt xb (4 * i) 4) * u)) (us.getD i []) := fun i hi => by
      obtain ⟨hu, hsrc⟩ := hunits i hi
      refine ⟨hu, ?_⟩
      split at hsrc
      · next hx => rwa [if_pos hx]
      · next hx =>
        rw [if_neg hx]
        exact hsrc.1
    obtain ⟨t, hran, hshow⟩ := h.ran_silent (by rw [runCommand, h.op_eq]) (runGath_gathers h.calm hxb hx hus hsource hw)
    have hlen := length_flatten_take (fun j hj => (hunits j (hus ▸ hj)).1) (Nat.le_of_eq rfl)
    rw [List.take_length, hus] at hlen
    exact ⟨t, hran, hshow.lands_all hlen, hshow.spares⟩
  case scat =>
    intro d a x ty u n xb ab h hxb hx hab ha hunits
    exact h.scat_lands hxb hx hab ha hunits
  case gathmc =>
    intro d a l ty u ntx nty lb ab h hlb hl hab ha hw hapart
    obtain ⟨t, hran, hshow⟩ := h.ran_silent (by rw [runCommand, h.op_eq]) (runGathmc_gathers h.calm hlb hl hab ha hw hapart)
    refine ⟨t, hran, ?_⟩
    rintro i _ hi rfl hq hlt hlast p hp
    have hfit := unit_fits (u := u) hlt hp
    have hlen := mcUnit_length_le (ty := ty) hab (mcX lb ntx i p) (mcY lb ntx i p)
    exact hshow.lands (bs := mcUnit ab ty u ntx nty (mcX lb ntx i p) (mcY lb ntx i p)) (fun j _ => addrPlus_plus d _ j)
      (by omega) fun b hb => mcEntries_last hab _ hi hq hlt hlast hp hb
  case sacc =>
    intro d x v opc ty n win xb vb q key h hn hwin hxb hx hq hq' hvb hv hnear hkeys _ _ hpend _ hm
    have ht : Updatable s c (plus d (int32 q * typeWidth ty)) key (typeWidth ty) := ⟨hkeys, hpend⟩
    refine ⟨fun hopc => ?_, fun h5 hone hw => ?_, fun h6 hone hw => ?_⟩
    · have h6 : opc ≠ 6 := by
        rintro rfl
        exact absurd hopc (by decide)
      rw [if_neg h6, Nat.mul_one] at hvb
      exact h.sacc_folds hn hwin hxb hx hq hq' hv hnear ht hvb hopc
    · subst h5
      obtain ⟨t, hexec, hmem, hland⟩ := h.sacc_swaps hn hwin hxb hx hq hq' hv hnear ht hone (.inl rfl) (by rw [hvb, hone, Nat.mul_one]) hw
        (hm (by decide))
      rw [saccExchange_swaps (by rw [hvb, hone, if_neg (by decide)]; omega)] at hmem
      exact ⟨t, hexec, hmem, hland⟩
    · subst h6
      obtain ⟨t, hexec, hmem, hland⟩ := h.sacc_swaps hn hwin hxb hx hq hq' hv hnear ht hone (.inr rfl) (by rw [hvb, hone, Nat.mul_one]) hw
        (hm (by decide))
      exact ⟨t, hexec, hland, hmem.trans (saccExchange_compares (by rw [hvb, hone, if_pos rfl]; omega) _ _ _)⟩
  case saccStep =>
    intro opc ty a b
    refine ⟨?_, ?_, ?_, ?_, ?_⟩ <;> rintro rfl <;> rfl
  case tlist =>
    intro comp st re sb h2 n valid h hs hh2 hn hvalid hlen hwc hwr hac har hd
    subst hh2
    have hclear := clear_tlAddr hwc hwr hd
    obtain ⟨t, hran, hshow⟩ := h.ran_silent (by rw [runCommand, h.op_eq])
      ((runTlist_lists h.calm hclear hs hac har hlen hn hvalid rfl rfl).conseq (fun σ hσ => hσ ▸ shows_held s c _ _) fun _ _ h => h)
    have hlists := length_tlLists sb valid (List.range n)
    rw [List.length_range] at hlists
    obtain ⟨hspare, hcomp, hre⟩ := hshow.lands_tl (by simp; omega) (by simp; omega)
    exact ⟨t, hran, hspare, hcomp, hre⟩
  case cmask =>
    intro st fr la force fb lb sb V E h hfb hf hlb hl
    refine ⟨fun hmal hw => h.cmask_zeros hfb hf hlb hl ((layerDesc_malformed_iff hlb).mpr hmal) hw, fun hmal hsb hs hw _ hblocks => ?_⟩
    have hgood : (layerDesc lb).malformed = false := Bool.eq_false_iff.mpr fun hm => hmal ((layerDesc_malformed_iff hlb).mp hm)
    have hB : Blocks s c (frameRec fb) V E := fun x y hx hy => by
      obtain ⟨hV, hE, hseen⟩ := hblocks x y hx hy
      obtain ⟨hsV, hsE, -⟩ := hseen _ _ rfl rfl
      exact ⟨⟨hV, hsV⟩, hE, hsE⟩
    have hVlt : ∀ t x y, OfTile (layerDesc lb) (frameRec fb) t x y → V x y < 2 ^ 32 := fun t x y hxy => by
      obtain ⟨-, -, hx, hy⟩ := hxy
      exact (hblocks x y hx hy).1
    obtain ⟨t, hran, hspare, hland⟩ := h.cmask_masks hfb hf hlb hl rfl rfl hgood hsb hs hw hB rfl
    refine ⟨t, _, hran, hspare, hland, fun i hi => ⟨fun hwh => cmEntry_whole (cmWhole_iff.mpr hwh), fun hwh hmix => ?_,
      fun hwh p q hp hq hall => ?_⟩⟩
    · obtain ⟨x, y, hxy, hmix⟩ := hmix
      have hwhole : ¬cmWhole (layerDesc lb) (frameRec fb) force (numAt sb 0 8) = true := mt cmWhole_iff.mp hwh
      exact cmEntry_mixed (layerDesc_s_pos lb) hwhole (hVlt i) hxy (or_assoc.mpr hmix)
    · have hvec : ∀ x y, OfTile (layerDesc lb) (frameRec fb) i x y → vecOf (V x y) = (p, q) := fun x y hxy => Prod.ext (hall x y hxy).1 (hall x y hxy).2
      have hS := layerDesc_s_pos lb
      have hwhole : ¬cmWhole (layerDesc lb) (frameRec fb) force (numAt sb 0 8) = true := mt cmWhole_iff.mp hwh
      refine ⟨cmEntry_uneven hS hwhole hi hp hq hvec, fun dx dy hdx hdy => ⟨(cmEntry_moved hS hwhole hi hp hq hvec hdx hdy).1, ?_⟩⟩
      intro hin res score cnt sc from_ oldE hres hle hscore hscores hcnt hcnts hsc
      exact cmEntry_come hS hwhole hi hp hq hvec hdx hdy hin hres hle hscore hscores hcnt hcnts hsc
  case tokz =>
    intro out text len dict cap D tb node edge h hD hn htb hs hnodes hedges hw _
    obtain ⟨t, hran, hshow⟩ := h.ran_silent (by rw [runCommand, h.op_eq, htb])
      (runTokz_tokenizes h.calm hD ⟨hnodes, hedges⟩ hn hs hw rfl)
    have hcap := length_tokenized_le D node edge cap tb
    refine ⟨t, hran, hshow.lands (o := 0) (fun j _ => by rw [Nat.zero_add]) ?_ fun j hj => splice_in hj⟩
    have hids : ((tokenized D node edge cap tb).flatMap (fun p => bytesOfNat 4 p.1)).length = 4 * (tokenized D node edge cap tb).length := by
      simp [List.length_flatMap, bytesOfNat_length, Nat.mul_comm]
    rw [List.length_append, bytesOfNat_length, hids]
    omega
  case ccvt =>
    intro d fr o ntx nty cset ofmt fb F Y B R h hfb hf hF _
    dsimp only
    intro hw _ hsamples
    have hseen : Samples s c F o ntx nty Y B R := fun t p ht hp hx hy => by
      obtain ⟨⟨hY, hB, hR⟩, hsY, hsB, hsR, -⟩ := hsamples t p ht hp hx hy
      exact ⟨⟨hY, hsY⟩, ⟨hB, hsB⟩, hR, hsR⟩
    obtain ⟨u, evs, hran, hshow⟩ := h.ran (by
      rw [runCommand, h.op_eq]
      exact runCcvt_converts h.calm hfb hf hF rfl hw hseen)
    exact ⟨u, evs, hran, fun t p ht hp => hshow.lands_pixel ht hp⟩
  case notReady => exact start_of_not_ready
  case settle =>
    intro hn hothers k
    rw [State.settle_mem hothers, mget_foldl_mset hn]
  case rowFill =>
    intro base stride rows bs ha hop hlt hfq hu h0 hbs hs
    exact rowFill_of_room ha hop hlt hfq hu h0 hbs hs
  case complete =>
    intro k ha hd hu hr hk hev
    exact ⟨_, complete_of_done ha hd hu hr hk hev, completed ha hk rfl⟩
  case unanswered => exact complete_of_unanswered
  case present =>
    intro reg row a n patch tp ha hop hp hside htile hu hr htp
    exact ⟨_, complete_of_copym ha hop hp hr hside htile hu, presented hside htp rfl⟩
  case sideBusy =>
    intro reg row a n patch ha hop hp hbusy hr
    exact complete_of_side_busy ha hop hp hr hbusy

end Sys2Proof.Machine
end

section
/-! PROOFS. What X's and A's arithmetic leaves as it was: of the state outside its core everything, of its core all but what its operands name
(R41, R97, R101 to R107, R117 to R120). -/

namespace Sys2Proof.Machine

/-! What issuing an instruction whose effect is on its own core can change. -/

/-- A core whose tokens have moved, and of whose strand `t` the place. -/
def Passed (t : Strand) (k k' : CoreSt) : Prop := ∃ n st, WentOn (k.strand t) st ∧ k' = { k.setStrand t st with tk := n }

theorem WentOn.refl (t : StrandSt) : WentOn t t := rfl

theorem WentOn.advance (t : StrandSt) (next : BitVec 32) (words : Nat) : WentOn t (t.advance next words) := rfl

theorem Passed.refl (t : Strand) (k : CoreSt) : Passed t k k := ⟨k.tk, k.strand t, .refl _, by cases t <;> rfl⟩

theorem SameOutside.refl (s : State) : SameOutside s s := ⟨rfl, fun _ _ => rfl, rfl⟩

theorem SameOutside.setCore (s : State) (k : CoreSt) : SameOutside s (s.setCore s.cx.core k) :=
  ⟨rfl, fun _ hc => s.core_setCore_ne _ _ _ hc, rfl⟩

theorem SameOutside.trans {s t u : State} (h : SameOutside s t) (g : SameOutside t u) : SameOutside s u := by
  obtain ⟨ht, hc, hm⟩ := h
  obtain ⟨hu, hd, hn⟩ := g
  have hx : t.cx = s.cx := by rw [ht]
  exact ⟨by rw [hu, ht], fun c h => (hd c (hx ▸ h)).trans (hc c h), hn.trans hm⟩

/-- A change of the traps and the fatal error of one task is seen in no core and in nothing else of a task. -/
theorem SameOutside.modTaskOf (s : State) (c : Nat) {f : Task → Task}
    (hf : ∀ g, { f g with traps := [], fatal := none } = { g with traps := [], fatal := none }) : SameOutside s (s.modTaskOf c f) := by
  unfold State.modTaskOf
  split
  · refine ⟨rfl, fun _ _ => rfl, ?_⟩
    rw [State.modTask, List.map_map]
    refine List.map_congr_left fun g _ => ?_
    dsimp only [Function.comp]
    split
    · exact hf g
    · rfl
  · exact .refl s

/-- A trap of the strand that issues: its program counter moves, its task records the trap. -/
theorem raiseTrap_changes (s : State) (pc : BitVec 32) (cls cause code : Nat) (next : BitVec 32) (words : Nat) (mods : Mods) (due : Bool) :
    SameOutside s (raiseTrap s s.cx.core s.cx.strand pc cls cause code next words mods due) ∧
      Passed s.cx.strand s.cxCore ((raiseTrap s s.cx.core s.cx.strand pc cls cause code next words mods due).core s.cx.core) := by
  refine ⟨(SameOutside.setCore s _).trans (.modTaskOf _ _ fun _ => rfl), s.cxCore.tk, { s.cxStrand with pc := pc }, rfl, ?_⟩
  rw [raiseTrap, State.core_modTaskOf, State.core_modCore_self, State.cxStrand, State.cxCore]
  cases s.cx.strand <;> rfl

theorem retire_changes (s : State) : SameOutside s (retire s) ∧ Passed s.cx.strand s.cxCore ((retire s).core s.cx.core) := by
  obtain ⟨u, hu, h⟩ := retire_cases s
  have hcx : u.cx = s.cx := hu ▸ rfl
  have hcore : u.core s.cx.core = s.cxCore.setStrand s.cx.strand ((s.cxCore.strand s.cx.strand).advance s.cx.next s.cx.words) := by
    rw [hu, State.modCxStrand, State.modCx, State.core_modCore_self]
    rfl
  have hsu : SameOutside s u := hu ▸ SameOutside.setCore s _
  have passed : ∀ n, Passed s.cx.strand s.cxCore { u.core s.cx.core with tk := n } := fun n =>
    ⟨n, _, .advance _ s.cx.next s.cx.words, by rw [hcore]⟩
  rcases h with h | ⟨n, h⟩ <;> rw [h]
  · exact ⟨hsu, passed (u.core s.cx.core).tk⟩
  · refine ⟨hsu.trans (.setCore u _), ?_⟩
    have hu : u.cxCore = u.core s.cx.core := by rw [State.cxCore, hcx]
    rw [hcx, hu, State.core_setCore_self]
    exact passed n

theorem Passed.trans {t : Strand} {k k' k'' : CoreSt} (h : Passed t k k') (g : Passed t k' k'') : Passed t k k'' := by
  obtain ⟨n, st, hst, rfl⟩ := h
  obtain ⟨m, st', hst', rfl⟩ := g
  refine ⟨m, st', ?_, by cases t <;> rfl⟩
  have hst'' : WentOn st st' := by cases t <;> exact hst'
  unfold WentOn at *
  rw [hst'', hst]

theorem Passed.tokens (t : Strand) (k : CoreSt) (n : Vector (BitVec 8) 16) : Passed t k { k with tk := n } :=
  ⟨n, k.strand t, .refl _, by cases t <;> rfl⟩

/-- Taking the token of a TK moves tokens of the core that issues, and nothing else. -/
theorem takeWait_changes {s u : State} (h : takeWait s = .ok u) :
    u.cx = s.cx ∧ SameOutside s u ∧ ∃ n, u.cxCore = { s.cxCore with tk := n } := by
  obtain ⟨n, rfl | rfl⟩ := takeWait_core h
  · exact ⟨rfl, .refl _, u.cxCore.tk, rfl⟩
  · exact ⟨rfl, .setCore _ _, n, s.cxCore_setCore _⟩

/-- What becomes of an effect on the core that issues, by what the effect comes to. -/
theorem conclude_changes {s s' : State} {r : Try State} (h : conclude s r = .next s') :
    SameOutside s s' ∧ Passed s.cx.strand s.cxCore (s'.core s.cx.core) ∨ ∃ v, r = .ok v ∧ s' = retire v := by
  unfold conclude at h
  split at h
  · next v =>
    cases h
    split
    · exact .inl ⟨.refl s, .refl _ _⟩
    · exact .inr ⟨v, rfl, rfl⟩
  · cases h
    exact .inl ⟨.refl s, .refl _ _⟩
  · cases h
    exact .inl (raiseTrap_changes s _ _ _ _ _ _ _ _)
  · cases h
    left
    cases hw : takeWait s with
    | error e => exact raiseTrap_changes s _ _ _ _ _ _ _ _
    | ok u =>
      obtain ⟨hcx, hsu, n, hn⟩ := takeWait_changes hw
      obtain ⟨hs, hp⟩ := raiseTrap_changes u s.cx.pc _ 0 _ s.cx.next s.cx.words s.cx.mods false
      rw [hcx, hn] at hp
      rw [hcx] at hs
      exact ⟨hsu.trans hs, (Passed.tokens _ _ n).trans hp⟩
  · cases h
    refine .inl ⟨.modTaskOf _ _ fun g => ?_, ?_⟩
    · split <;> rfl
    · rw [raiseFatal, State.core_modTaskOf]
      exact .refl _ _

/-- An instruction whose effect is on its own core: outside that core it only records a trap or a fatal error, and the core is what its effect
leaves, or what it was, but for tokens and the place of the strand. -/
theorem issueCore_changes {s s' : State} {faults : List IllCause} {body : CoreSt → Try CoreSt} (h : issueCore s faults body = .next s') :
    SameOutside s s' ∧ ∃ n k, (k = s.cxCore ∨ faults = [] ∧ body { s.cxCore with tk := n } = .ok k) ∧ Passed s.cx.strand k (s'.core s.cx.core) := by
  have keeps : SameOutside s s' ∧ Passed s.cx.strand s.cxCore (s'.core s.cx.core) →
      SameOutside s s' ∧ ∃ n k, (k = s.cxCore ∨ faults = [] ∧ body { s.cxCore with tk := n } = .ok k) ∧ Passed s.cx.strand k (s'.core s.cx.core) :=
    fun ⟨hs, hp⟩ => ⟨hs, s.cxCore.tk, _, .inl rfl, hp⟩
  rcases issue_cases s faults (fun s => (body s.cxCore).map (fun k => s.setCore s.cx.core k)) with ⟨c, -, hi⟩ | ⟨hf, hi⟩
  · cases (hi.symm.trans h)
    exact keeps (raiseTrap_changes s _ _ _ _ _ _ _ _)
  · rcases conclude_changes (hi.symm.trans h) with hk | ⟨v, hv, rfl⟩
    · exact keeps hk
    · cases hw : takeWait s with
      | error e => rw [hw] at hv; cases hv
      | ok u =>
        obtain ⟨hcx, hsu, n, hn⟩ := takeWait_changes hw
        rw [hw] at hv
        replace hv : (body u.cxCore).map (fun k => u.setCore u.cx.core k) = .ok v := hv
        cases hb : body u.cxCore with
        | error e => rw [hb] at hv; cases hv
        | ok k =>
          rw [hb] at hv
          cases hv
          obtain ⟨hs, hp⟩ := retire_changes (u.setCore u.cx.core k)
          rw [State.cxCore_setCore, State.setCore_cx, hcx] at hp
          refine ⟨(hsu.trans (.setCore u k)).trans hs, n, k, .inr ⟨(List.append_eq_nil_iff.mp (worst_eq_none.mp hf)).1, hn ▸ hb⟩, ?_⟩
          rwa [hcx]

/-- The same, by what the effect moves of its core. -/
theorem issueCore_moves {s s' : State} {faults : List IllCause} {body : CoreSt → Try CoreSt} {P : CoreSt → CoreSt → Prop}
    (h : issueCore s faults body = .next s') (hrefl : ∀ k, P k k) (hb : faults = [] → ∀ k k', body k = .ok k' → P k k') :
    SameOutside s s' ∧ ∃ n k, P { s.cxCore with tk := n } k ∧ Passed s.cx.strand k (s'.core s.cx.core) := by
  obtain ⟨hs, n, k, hk, hp⟩ := issueCore_changes h
  refine ⟨hs, ?_⟩
  rcases hk with rfl | ⟨hf, hk⟩
  · exact ⟨s.cxCore.tk, _, hrefl _, hp⟩
  · exact ⟨n, k, hb hf _ _ hk, hp⟩

/-! X. -/

/-- The physical registers that a destination of X writes. -/
def XDst (t : StrandSt) (d : BitVec 6) (j : Nat) : Prop := d.toNat < 32 ∧ j = physG t d.toNat

/-- The physical registers that a destination pair of X writes (R56, R75). -/
def XPairDst (t : StrandSt) (d : BitVec 6) (j : Nat) : Prop := d.toNat < 31 ∧ (j = physG t d.toNat ∨ j = physG t (d.toNat + 1))

theorem CoreSt.gAt_setG_ne (k : CoreSt) (j n : Nat) (v : Word) (h : n ≠ j) : (k.setG j v).gAt n = k.gAt n := by
  unfold CoreSt.setG
  split
  · simp [CoreSt.gAt, h.symm]
  · rfl

theorem CoreSt.setG_changes (k : CoreSt) (n : Nat) (v : Word) : k.setG n v = { k with g := (k.setG n v).g } := by
  unfold CoreSt.setG
  split <;> rfl

theorem readX_changes {k k' : CoreSt} {c : BitVec 6} {v : Word} (h : readX k c = .ok (v, k')) : ∃ ax vx, k' = { k with ax := ax, vx := vx } := by
  unfold readX at h
  dsimp only at h
  repeat' split at h
  all_goals cases h <;> exact ⟨_, _, rfl⟩

theorem writeX_changes {k k' : CoreSt} {d : BitVec 6} {v : Word} (h : writeX k d v = .ok k') :
    (∃ g xa xv, k' = { k with g := g, xa := xa, xv := xv }) ∧ ∀ j, ¬XDst k.x d j → k'.gAt j = k.gAt j := by
  unfold writeX at h
  dsimp only at h
  split at h
  · next hd =>
    cases h
    exact ⟨⟨_, _, _, CoreSt.setG_changes _ _ _⟩, fun j hj => CoreSt.gAt_setG_ne _ _ _ _ fun e => hj ⟨hd, e⟩⟩
  · repeat' split at h
    all_goals cases h <;> exact ⟨⟨_, _, _, rfl⟩, fun _ _ => rfl⟩

/-- What X's word operands may change of its core: g registers that are the destination's, and queues. -/
def XMoves (d : BitVec 6) (k k' : CoreSt) : Prop :=
  (∃ g ax xa xv vx, k' = { k with g := g, ax := ax, xa := xa, xv := xv, vx := vx }) ∧ ∀ j, ¬XDst k.x d j → k'.gAt j = k.gAt j

/-- A read of X, and what comes after it. -/
theorem readX_bind {k k' : CoreSt} {c : BitVec 6} {f : Word × CoreSt → Try CoreSt} (h : readX k c >>= f = .ok k') :
    ∃ v ax vx, f (v, { k with ax := ax, vx := vx }) = .ok k' := by
  cases hc : readX k c with
  | error e => rw [hc] at h; cases h
  | ok p =>
    obtain ⟨v, k1⟩ := p
    rw [hc] at h
    obtain ⟨ax, vx, rfl⟩ := readX_changes hc
    exact ⟨v, ax, vx, h⟩

theorem writeX_moves {k k' : CoreSt} {d : BitVec 6} {v : Word} (h : writeX k d v = .ok k') : XMoves d k k' := by
  obtain ⟨⟨g, xa, xv, rfl⟩, hg⟩ := writeX_changes h
  exact ⟨⟨g, _, xa, xv, _, rfl⟩, hg⟩

/-- Entries popped before a result is written. -/
theorem XMoves.after_read {d : BitVec 6} {k k' : CoreSt} {ax : Vector (List (Option Word)) 4} {vx : List Word}
    (h : XMoves d { k with ax := ax, vx := vx } k') : XMoves d k k' := by
  obtain ⟨⟨g, ax', xa, xv, vx', rfl⟩, hg⟩ := h
  exact ⟨⟨g, ax', xa, xv, vx', rfl⟩, hg⟩

/-- What an X instruction of one source leaves of its core. -/
theorem xUnaryBody_moves {d a : BitVec 6} {f : CoreSt → Word → Word} {k k' : CoreSt}
    (h : (do let (va, k) ← readX k a; writeX k d (f k va) : Try CoreSt) = .ok k') : XMoves d k k' := by
  obtain ⟨_, _, _, h⟩ := readX_bind h
  exact (writeX_moves h).after_read

/-- What an X instruction of two sources leaves of its core. -/
theorem xBinaryBody_moves {d a b : BitVec 6} {f : CoreSt → Word → Word → Word} {k k' : CoreSt}
    (h : (do let (va, k) ← readX k a; let (vb, k) ← readX k b; writeX k d (f k va vb) : Try CoreSt) = .ok k') : XMoves d k k' := by
  obtain ⟨v, _, _, h⟩ := readX_bind h
  exact (xUnaryBody_moves (f := fun k => f k v) h).after_read

/-- X's arithmetic on words writes D alone (R101 to R107). -/
theorem exec_xWord {i : Instr} {d a b : BitVec 6} {imm : BitVec 8} {w : BitVec 32} {z : BitVec 1} {pos wm1 : BitVec 5} {n : BitVec 2}
    (h : i ∈ [.add d a b, .sub d a b, .mul d a b, .mulh d a b, .mulhz d a b, .div d a b, .divz d a b, .rem d a b, .remz d a b, .and_ d a b,
      .or_ d a b, .xor d a b, .andn d a b, .shl d a b, .shr d a b, .sra d a b, .min d a b, .max d a b, .minz d a b, .maxz d a b, .addi d a imm,
      .clz d a, .popc d a, .extb z d a, .exth z d a, .bfx z d a pos wm1, .bfi d a b pos wm1, .sel n d a b, .mov d a, .li d w]) (s : State) :
    ∃ faults body, exec i s = issueCore s faults body ∧ ∀ k k', body k = .ok k' → XMoves d k k' := by
  have unary : ∀ {r f}, exec i s = r → r = xUnary d a f s →
      ∃ faults body, exec i s = issueCore s faults body ∧ ∀ k k', body k = .ok k' → XMoves d k k' :=
    fun {_ f} e er => ⟨_, _, e.trans er, fun _ _ => xUnaryBody_moves (f := fun _ => f)⟩
  have binary : ∀ {r f}, exec i s = r → r = xBinary d a b f s →
      ∃ faults body, exec i s = issueCore s faults body ∧ ∀ k k', body k = .ok k' → XMoves d k k' :=
    fun {_ f} e er => ⟨_, _, show _ = xBinaryWith [] d a b f s from e.trans er, fun _ _ => xBinaryBody_moves (f := fun _ => f)⟩
  simp only [List.mem_cons, List.not_mem_nil, or_false] at h
  rcases h with rfl | rfl | rfl | rfl | rfl | rfl | rfl | rfl | rfl | rfl | rfl | rfl | rfl | rfl | rfl | rfl | rfl | rfl | rfl | rfl | rfl | rfl |
    rfl | rfl | rfl | rfl | rfl | rfl | rfl | rfl
  · exact binary (r := execAdd d a b s) rfl rfl
  · exact binary (r := execSub d a b s) rfl rfl
  · exact binary (r := execMul d a b s) rfl rfl
  · exact binary (r := execMulh d a b s) rfl rfl
  · exact binary (r := execMulhz d a b s) rfl rfl
  · exact binary (r := execDiv d a b s) rfl rfl
  · exact binary (r := execDivz d a b s) rfl rfl
  · exact binary (r := execRem d a b s) rfl rfl
  · exact binary (r := execRemz d a b s) rfl rfl
  · exact binary (r := execAnd d a b s) rfl rfl
  · exact binary (r := execOr d a b s) rfl rfl
  · exact binary (r := execXor d a b s) rfl rfl
  · exact binary (r := execAndn d a b s) rfl rfl
  · exact binary (r := execShl d a b s) rfl rfl
  · exact binary (r := execShr d a b s) rfl rfl
  · exact binary (r := execSra d a b s) rfl rfl
  · exact binary (r := execMin d a b s) rfl rfl
  · exact binary (r := execMax d a b s) rfl rfl
  · exact binary (r := execMinz d a b s) rfl rfl
  · exact binary (r := execMaxz d a b s) rfl rfl
  · exact unary (r := execAddi d a imm s) rfl rfl
  · exact unary (r := execClz d a s) rfl rfl
  · exact unary (r := execPopc d a s) rfl rfl
  · exact unary (r := execExtb z d a s) rfl rfl
  · exact unary (r := execExth z d a s) rfl rfl
  · exact ⟨_, _, show _ = execBfx z d a pos wm1 s from rfl, fun _ _ =>
      xUnaryBody_moves (f := fun _ v => fieldOf (z == 1) v pos.toNat (wm1.toNat + 1))⟩
  · exact ⟨_, _, show _ = xBinaryWith (fault? (32 < pos.toNat + wm1.toNat + 1) .otherUse) d a b (fun x y => insertField x y pos.toNat (wm1.toNat + 1)) s
      from rfl, fun _ _ => xBinaryBody_moves (f := fun _ x y => insertField x y pos.toNat (wm1.toNat + 1))⟩
  · exact ⟨_, _, show _ = execSel n d a b s from rfl, fun _ _ => xBinaryBody_moves (f := fun k va vb => if k.x.pAt (4 + n.toNat) then va else vb)⟩
  · exact unary (r := execMov d a s) rfl rfl
  · exact ⟨_, _, show _ = execLi d w s from rfl, fun _ _ => writeX_moves⟩

/-! Pairs. -/

theorem xPairOk_lt {d : BitVec 6} (h : xPairOk d = true) (hd : d.toNat ≠ 56) : d.toNat < 31 := by
  simp only [xPairOk, Bool.or_eq_true, Bool.and_eq_true, decide_eq_true_eq, beq_iff_eq] at h
  omega

theorem pairFaults_eq_nil {l : List (BitVec 6)} (h : pairFaults l = []) : ∀ a ∈ l, xPairOk a = true := by
  rw [pairFaults, fault?_eq_nil, List.any_eq_false] at h
  simpa using h

/-- What X's pair operands may change of its core. -/
def XPairMoves (d : BitVec 6) (k k' : CoreSt) : Prop :=
  (∃ g ax vx, k' = { k with g := g, ax := ax, vx := vx }) ∧ ∀ j, ¬XPairDst k.x d j → k'.gAt j = k.gAt j

theorem writePair_moves (k : CoreSt) {d : BitVec 6} (v : Dword) (hd : xPairOk d = true) : XPairMoves d k (writePair k d v) := by
  unfold writePair
  dsimp only
  split
  · exact ⟨⟨_, _, _, rfl⟩, fun _ _ => rfl⟩
  · next h56 =>
    refine ⟨⟨_, _, _, by rw [CoreSt.setG_changes, CoreSt.setG_changes k]⟩, fun j hj => ?_⟩
    rw [CoreSt.gAt_setG_ne _ _ _ _ fun e => hj ⟨xPairOk_lt hd h56, .inr e⟩, CoreSt.gAt_setG_ne _ _ _ _ fun e => hj ⟨xPairOk_lt hd h56, .inl e⟩]

theorem xPairShiftBody_moves {d a b : BitVec 6} {f : Dword → Word → Dword} {k k' : CoreSt} (hd : xPairOk d = true)
    (h : (do let (n, k) ← readX k b; .ok (writePair k d (f (readPair k a) n)) : Try CoreSt) = .ok k') : XPairMoves d k k' := by
  obtain ⟨n, ax, vx, h⟩ := readX_bind h
  obtain ⟨⟨g, ax', vx', hw⟩, hg⟩ := writePair_moves { k with ax := ax, vx := vx } (f (readPair { k with ax := ax, vx := vx } a) n) hd
  cases h
  exact ⟨⟨g, ax', vx', hw⟩, hg⟩

/-- X's arithmetic on pairs writes the pair D alone (R107). -/
theorem exec_xPair {i : Instr} {d a b : BitVec 6} {w : BitVec 32}
    (h : i ∈ [.add64 d a b, .sub64 d a b, .shl64 d a b, .shr64 d a b, .sra64 d a b, .mov64 d a, .li64 d w]) (s : State) :
    ∃ faults body, exec i s = issueCore s faults body ∧ (faults = [] → ∀ k k', body k = .ok k' → XPairMoves d k k') := by
  have pair : ∀ {r l} {f : CoreSt → Dword}, exec i s = r → r = issueCore s (pairFaults (d :: l)) (fun k => .ok (writePair k d (f k))) →
      ∃ faults body, exec i s = issueCore s faults body ∧ (faults = [] → ∀ k k', body k = .ok k' → XPairMoves d k k') :=
    fun e er => ⟨_, _, e.trans er, fun hf k k' hk => by
      cases hk
      exact writePair_moves _ _ (pairFaults_eq_nil hf d (by simp))⟩
  have shift : ∀ {r f}, exec i s = r → r = xPairShift d a b f s →
      ∃ faults body, exec i s = issueCore s faults body ∧ (faults = [] → ∀ k k', body k = .ok k' → XPairMoves d k k') :=
    fun e er => ⟨_, _, e.trans er, fun hf k k' => xPairShiftBody_moves (pairFaults_eq_nil (List.append_eq_nil_iff.mp hf).1 d (by simp))⟩
  simp only [List.mem_cons, List.not_mem_nil, or_false] at h
  rcases h with rfl | rfl | rfl | rfl | rfl | rfl | rfl
  · exact pair (r := execAdd64 d a b s) rfl (by unfold execAdd64 xPairBinary; rfl)
  · exact pair (r := execSub64 d a b s) rfl (by unfold execSub64 xPairBinary; rfl)
  · exact shift (r := execShl64 d a b s) rfl rfl
  · exact shift (r := execShr64 d a b s) rfl rfl
  · exact shift (r := execSra64 d a b s) rfl rfl
  · exact pair (r := execMov64 d a s) rfl rfl
  · exact pair (r := execLi64 d w s) (f := fun _ => w.signExtend 64) rfl rfl

/-! Compares. -/

theorem StrandSt.setP_changes (t : StrandSt) (n : Nat) (b : Bool) : t.setP n b = { t with p := (t.setP n b).p } := by
  unfold StrandSt.setP
  split <;> rfl

theorem StrandSt.pAt_setP_ne (t : StrandSt) {n j : Nat} (b : Bool) (h : j ≠ n) : (t.setP n b).pAt j = t.pAt j := by
  unfold StrandSt.setP
  split
  · simp [StrandSt.pAt, h.symm]
  · rfl

/-- What a compare of X may change of its core: a predicate, and the queues that it pops. -/
def XCompares (n : Nat) (k k' : CoreSt) : Prop :=
  (∃ p ax vx, k' = { k with x := { k.x with p := p }, ax := ax, vx := vx }) ∧ ∀ j, j ≠ n → k'.x.pAt j = k.x.pAt j

theorem setXp_compares (k : CoreSt) (n : Nat) (b : Bool) : XCompares n k (k.setXp n b) :=
  ⟨⟨_, _, _, by rw [CoreSt.setXp, StrandSt.setP_changes]⟩, fun _ hj => StrandSt.pAt_setP_ne _ _ hj⟩

theorem xCmpBody_compares {a b : BitVec 6} {n : Nat} {f : Word → Word → Bool} {k k' : CoreSt}
    (h : (do let (va, k) ← readX k a; let (vb, k) ← readX k b; .ok (k.setXp n (f va vb)) : Try CoreSt) = .ok k') : XCompares n k k' := by
  obtain ⟨va, ax, vx, h⟩ := readX_bind h
  obtain ⟨vb, ax', vx', h⟩ := readX_bind h
  obtain ⟨⟨p, _, _, hw⟩, hp⟩ := setXp_compares { k with ax := ax', vx := vx' } n (f va vb)
  cases h
  exact ⟨⟨p, _, _, hw⟩, hp⟩

/-- Settles O12: what issuing changes, and of the core what the body of each instruction changes. -/
theorem xFrame : Obligations.XFrame := by
  intro s s' d a b imm w z pos wm1 n cond pred i hx hi
  refine ⟨fun h => ?words, fun h => ?pairs, fun h => ?compares, fun h => ?nop⟩
  case words =>
    obtain ⟨faults, body, he, hb⟩ := exec_xWord h s
    obtain ⟨hs, tk, k, ⟨⟨g, ax, xa, xv, vx, rfl⟩, hg⟩, m, st, hst, hk⟩ :=
      issueCore_moves (he.symm.trans hi) (P := XMoves d) (fun _ => ⟨⟨_, _, _, _, _, rfl⟩, fun _ _ => rfl⟩) (fun _ => hb)
    rw [hx] at hst hk
    refine ⟨hs, _, rfl, ?_⟩
    rw [hk]
    exact ⟨rfl, hst, fun j _ hj => hg j hj⟩
  case pairs =>
    obtain ⟨faults, body, he, hb⟩ := exec_xPair h s
    obtain ⟨hs, tk, k, ⟨⟨g, ax, vx, rfl⟩, hg⟩, m, st, hst, hk⟩ :=
      issueCore_moves (he.symm.trans hi) (P := XPairMoves d) (fun _ => ⟨⟨_, _, _, rfl⟩, fun _ _ => rfl⟩) hb
    rw [hx] at hst hk
    refine ⟨hs, _, rfl, ?_⟩
    rw [hk]
    exact ⟨rfl, hst, fun j _ hj => hg j hj⟩
  case compares =>
    have he : ∃ faults body, exec i s = issueCore s faults body ∧ ∀ k k', body k = .ok k' → XCompares pred.toNat k k' := by
      simp only [List.mem_cons, List.not_mem_nil, or_false] at h
      rcases h with rfl | rfl
      · exact ⟨_, _, rfl, fun _ _ => xCmpBody_compares⟩
      · refine ⟨_, _, show _ = execCmp64 z cond pred a b s from rfl, fun k k' hk => ?_⟩
        cases hk
        exact setXp_compares _ _ _
    obtain ⟨faults, body, he, hb⟩ := he
    obtain ⟨hs, tk, k, ⟨⟨p, ax, vx, rfl⟩, hp⟩, m, st, hst, hk⟩ :=
      issueCore_moves (he.symm.trans hi) (P := XCompares pred.toNat) (fun _ => ⟨⟨_, _, _, rfl⟩, fun _ _ => rfl⟩) (fun _ => hb)
    rw [hx] at hst hk
    have hpst : st.p = p := by rw [hst]; rfl
    refine ⟨hs, _, rfl, ?_⟩
    rw [hk]
    subst hpst
    refine ⟨rfl, hst, fun j hj => ?_⟩
    exact hp j hj
  case nop =>
    subst h
    obtain ⟨hs, tk, k, rfl, m, st, hst, hk⟩ :=
      issueCore_moves (show issueCore s [] .ok = .next s' from hi) (P := fun k k' => k' = k) (fun _ => rfl) (fun _ _ _ hk => by cases hk; rfl)
    rw [hx] at hst hk
    refine ⟨hs, _, rfl, ?_⟩
    rw [hk]
    exact ⟨rfl, hst⟩

/-! A. -/

/-- The physical registers that a destination of A writes. -/
def ADst (t : StrandSt) (d : BitVec 6) (j : Nat) : Prop := d.toNat < 16 ∧ j = physA t d.toNat

/-- What A's operands may change of its core: a registers that are the destination's, and queues. -/
def AMoves (d : BitVec 6) (k k' : CoreSt) : Prop :=
  (∃ ar ax xa, k' = { k with ar := ar, ax := ax, xa := xa }) ∧ ∀ j, ¬ADst k.a d j → k'.aAt j = k.aAt j

theorem CoreSt.setA_changes (k : CoreSt) (n : Nat) (v : Dword) : k.setA n v = { k with ar := (k.setA n v).ar } := by
  unfold CoreSt.setA
  split <;> rfl

theorem CoreSt.axPush_changes (k : CoreSt) (q : Nat) (l : List (Option Word)) : k.axPush q l = { k with ax := (k.axPush q l).ax } := by
  unfold CoreSt.axPush
  split <;> rfl

theorem axPush_moves (k : CoreSt) (d : BitVec 6) (q : Nat) (l : List (Option Word)) : AMoves d k (k.axPush q l) := by
  rw [CoreSt.axPush_changes]
  exact ⟨⟨_, _, _, rfl⟩, fun _ _ => rfl⟩

theorem readA_changes {k k' : CoreSt} {c : BitVec 6} {v : Dword} (h : readA k c = .ok (v, k')) : ∃ xa, k' = { k with xa := xa } := by
  unfold readA at h
  dsimp only at h
  repeat' split at h
  all_goals cases h <;> exact ⟨_, rfl⟩

theorem writeA_moves {k k' : CoreSt} {d : BitVec 6} {v : Dword} (h : writeA k d v = .ok k') : AMoves d k k' := by
  unfold writeA at h
  dsimp only at h
  split at h
  · next hd =>
    split at h <;> cases h
    exact ⟨⟨_, _, _, CoreSt.setA_changes _ _ _⟩, fun j hj => CoreSt.aAt_setA_ne _ _ _ _ fun e => hj ⟨hd, e⟩⟩
  · repeat' split at h
    all_goals cases h
    · exact ⟨⟨_, _, _, rfl⟩, fun _ _ => rfl⟩
    · exact axPush_moves _ _ _ _

/-- A read of A, and what comes after it. -/
theorem readA_bind {k k' : CoreSt} {c : BitVec 6} {f : Dword × CoreSt → Try CoreSt} (h : readA k c >>= f = .ok k') :
    ∃ v xa, f (v, { k with xa := xa }) = .ok k' := by
  cases hc : readA k c with
  | error e => rw [hc] at h; cases h
  | ok p =>
    obtain ⟨v, k1⟩ := p
    rw [hc] at h
    obtain ⟨xa, rfl⟩ := readA_changes hc
    exact ⟨v, xa, h⟩

/-- Entries popped before a result is written. -/
theorem AMoves.after_read {d : BitVec 6} {k k' : CoreSt} {xa : Vector (List Word) 2} (h : AMoves d { k with xa := xa } k') : AMoves d k k' := by
  obtain ⟨⟨ar, ax, xa', rfl⟩, hg⟩ := h
  exact ⟨⟨ar, ax, xa', rfl⟩, hg⟩

/-- What an A instruction of one source leaves of its core. -/
theorem aUnaryBody_moves {d a : BitVec 6} {f : Dword → Dword} {k k' : CoreSt}
    (h : (do let (va, k) ← readA k a; writeA k d (f va) : Try CoreSt) = .ok k') : AMoves d k k' := by
  obtain ⟨_, _, h⟩ := readA_bind h
  exact (writeA_moves h).after_read

/-- What an A instruction of two sources leaves of its core. -/
theorem aBinaryBody_moves {d a b : BitVec 6} {f : Dword → Dword → Dword} {k k' : CoreSt}
    (h : (do let (va, k) ← readA k a; let (vb, k) ← readA k b; writeA k d (f va vb) : Try CoreSt) = .ok k') : AMoves d k k' := by
  obtain ⟨_, _, h⟩ := readA_bind h
  exact (aUnaryBody_moves h).after_read

/-- A's arithmetic and moves write D alone (R117 to R120). -/
theorem exec_aWord {i : Instr} {d a b : BitVec 6} {imm : BitVec 8} {w : BitVec 32} {coord : BitVec 9}
    (h : i ∈ [.aadd d a b, .asub d a b, .aaddi d a imm, .amuli d a imm, .ashl d a imm, .ashr d a imm, .aand d a b, .amov d a, .ali d w, .alih d w,
      .apop d a, .apush d a, .acoord d a coord]) (s : State) :
    ∃ faults body, exec i s = issueA s faults body ∧ ∀ k k', body k = .ok k' → AMoves d k k' := by
  have unary : ∀ {r extra f}, exec i s = r → r = aUnaryWith extra d a f s →
      ∃ faults body, exec i s = issueA s faults body ∧ ∀ k k', body k = .ok k' → AMoves d k k' :=
    fun e er => ⟨_, _, e.trans er, fun _ _ => aUnaryBody_moves⟩
  have binary : ∀ {r f}, exec i s = r → r = aBinary d a b f s →
      ∃ faults body, exec i s = issueA s faults body ∧ ∀ k k', body k = .ok k' → AMoves d k k' :=
    fun e er => ⟨_, _, e.trans er, fun _ _ => aBinaryBody_moves⟩
  simp only [List.mem_cons, List.not_mem_nil, or_false] at h
  rcases h with rfl | rfl | rfl | rfl | rfl | rfl | rfl | rfl | rfl | rfl | rfl | rfl | rfl
  · exact binary (r := execAadd d a b s) rfl rfl
  · exact binary (r := execAsub d a b s) rfl rfl
  · exact unary (r := execAaddi d a imm s) rfl rfl
  · exact unary (r := execAmuli d a imm s) rfl rfl
  · exact unary (r := execAshl d a imm s) rfl rfl
  · exact unary (r := execAshr d a imm s) rfl rfl
  · exact binary (r := execAand d a b s) rfl rfl
  · exact unary (r := execAmov d a s) rfl rfl
  · exact ⟨_, _, show _ = execAli d w s from rfl, fun _ _ => writeA_moves⟩
  · exact ⟨_, _, show _ = execAlih d w s from rfl, fun _ _ => aUnaryBody_moves (f := fun v => w ++ v.setWidth 32)⟩
  · exact ⟨_, _, show _ = execApop d a s from rfl, fun _ _ => aBinaryBody_moves (f := fun lo hi => hi.setWidth 32 ++ lo.setWidth 32)⟩
  · refine ⟨_, _, show _ = execApush d a s from rfl, fun k k' hk => ?_⟩
    obtain ⟨v, xa, hk⟩ := readA_bind hk
    cases hroom : ({ k with xa := xa } : CoreSt).axRoom (d.toNat - 35) 2 with
    | false =>
      simp only [hroom] at hk
      cases hk
    | true =>
      simp only [hroom] at hk
      cases hk
      exact (axPush_moves _ _ _ _).after_read
  · exact ⟨_, _, show _ = execAcoord d a coord s from rfl, fun _ _ =>
      aUnaryBody_moves (f := fun v => BitVec.ofNat 64 (remoteBase ((coreOfCoord coord).getD 0)) + v)⟩

/-- What a compare of A may change of its core: a predicate, and the queues that it pops. -/
def ACompares (n : Nat) (k k' : CoreSt) : Prop :=
  (∃ p xa, k' = { k with a := { k.a with p := p }, xa := xa }) ∧ ∀ j, j ≠ n → k'.a.pAt j = k.a.pAt j

theorem aCmpBody_compares {a b : BitVec 6} {n : Nat} {f : Dword → Dword → Bool} {k k' : CoreSt}
    (h : (do let (va, k) ← readA k a; let (vb, k) ← readA k b; .ok { k with a := k.a.setP n (f va vb) } : Try CoreSt) = .ok k') :
    ACompares n k k' := by
  obtain ⟨va, xa, h⟩ := readA_bind h
  obtain ⟨vb, xa', h⟩ := readA_bind h
  cases h
  exact ⟨⟨_, _, by dsimp only; rw [StrandSt.setP_changes]⟩, fun _ hj => StrandSt.pAt_setP_ne _ _ hj⟩

/-- Settles O16: what issuing changes, and of the core what the body of each instruction changes. -/
theorem aFrame : Obligations.AFrame := by
  intro s s' d a b imm w z coord cond pred i hx hi
  refine ⟨fun h => ?words, fun h => ?compare, fun h => ?nop⟩
  case words =>
    obtain ⟨faults, body, he, hb⟩ := exec_aWord h s
    unfold issueA at he
    obtain ⟨hs, tk, k, ⟨⟨ar, ax, xa, rfl⟩, hg⟩, m, st, hst, hk⟩ :=
      issueCore_moves (he.symm.trans hi) (P := AMoves d) (fun _ => ⟨⟨_, _, _, rfl⟩, fun _ _ => rfl⟩) (fun _ => hb)
    rw [hx] at hst hk
    refine ⟨hs, _, rfl, ?_⟩
    rw [hk]
    exact ⟨rfl, hst, fun j _ hj => hg j hj⟩
  case compare =>
    subst h
    have he : execAcmp z cond pred a b s = .next s' := hi
    unfold execAcmp issueA at he
    obtain ⟨hs, tk, k, ⟨⟨p, xa, rfl⟩, hp⟩, m, st, hst, hk⟩ :=
      issueCore_moves he (P := ACompares pred.toNat) (fun _ => ⟨⟨_, _, rfl⟩, fun _ _ => rfl⟩) (fun _ _ _ => aCmpBody_compares)
    rw [hx] at hst hk
    have hpst : st.p = p := by rw [hst]; rfl
    refine ⟨hs, _, rfl, ?_⟩
    rw [hk]
    subst hpst
    exact ⟨rfl, hst, fun j hj => hp j hj⟩
  case nop =>
    subst h
    have he : execNopA s = .next s' := hi
    unfold execNopA issueA at he
    obtain ⟨hs, tk, k, rfl, m, st, hst, hk⟩ := issueCore_moves he (P := fun k k' => k' = k) (fun _ => rfl) (fun _ _ _ hk => by cases hk; rfl)
    rw [hx] at hst hk
    refine ⟨hs, _, rfl, ?_⟩
    rw [hk]
    exact ⟨rfl, hst⟩

end Sys2Proof.Machine
end

section
/-! PROOFS. The turn of a strand, and the instruction that it runs (R40 to R43, R52, R61, R68, R175, R201). -/

namespace Sys2Proof.Machine

/-! The turn of a strand that is free to walk on. -/

section
variable {s : State} {c : Nat} {t : Strand}

/-- A strand at its word has nothing to do before it walks on: the turn looks at its block. -/
theorem AtWord.passes (h : AtWord s c t) : ((s.core c).strand t).sigDue = [] ∧ (s.core c).instanceDone = false ∧ s.strandStill c t = false ∧
    (s.core c).numDue t = false ∧ (t == .m && (s.core c).mIll.isSome) = false ∧ ((s.core c).strand t).atEnd = false ∧
    (t == .x && strands.all (fun u => ((s.core c).strand u).atBar)) = false ∧ ((s.core c).strand t).atBar = false ∧
    (t == .a && (s.core c).fe.isSome) = false ∧ (s.core c).holdsHere t = false := by
  obtain ⟨hsig, hdone, hstill, hnum, hill, hend, hbar, hfe, hhold⟩ := h
  refine ⟨hsig, hdone, hstill, hnum, ?_, hend, ?_, hbar, ?_, hhold⟩
  · cases t <;> simp [hill]
  · cases t <;> simp [strands, hbar]
  · cases t <;> simp [hfe]

theorem AtWord.waits (h : AtWord s c t) (hb : ¬HasBlock s c t) : strandTurn s c t = .idle s := by
  obtain ⟨hsig, hdone, hstill, hnum, hill, hend, hbars, hbar, hfe, hhold⟩ := h.passes
  have hb' : (((s.core c).strand t).fetched != some ((s.core c).textIdx ((s.core c).strand t).pc / 8)) = true := bne_iff_ne.mpr hb
  simp [strandTurn, hsig, hdone, hstill, hnum, hill, hend, hbars, hbar, hfe, hhold, hb']

/-- A strand that is free to walk on does what its walk comes to. -/
theorem MayWalk.turn (h : MayWalk s c t) :
    (((s.core c).applySlip t).walk t = .stall → strandTurn s c t = .idle s) ∧
    (∀ n, ((s.core c).applySlip t).walk t = .skip n →
      strandTurn s c t = .run .skippedWordsWalk { s with cx := turnCx c t ((s.core c).strand t).pc .brokenWord }) ∧
    (∀ e pc, ((s.core c).applySlip t).walk t = .ill e pc → strandTurn s c t = .run .notAnInstruction { s with cx := turnCx c t pc e }) ∧
    (∀ i pc head n m, ((s.core c).applySlip t).walk t = .exec i pc head n m → strandTurn s c t = .run i (issuing s s.turns c t pc head n m i)) := by
  obtain ⟨hw, hb⟩ := h
  obtain ⟨hsig, hdone, hstill, hnum, hill, hend, hbars, hbar, hfe, hhold⟩ := hw.passes
  have hb' : (((s.core c).strand t).fetched != some ((s.core c).textIdx ((s.core c).strand t).pc / 8)) = false := bne_eq_false_iff_eq.mpr hb
  refine ⟨fun hw => ?_, fun n hw => ?_, fun e pc hw => ?_, fun i pc head n m hw => ?_⟩ <;>
    simp [strandTurn, issuing, hsig, hdone, hstill, hnum, hill, hend, hbars, hbar, hfe, hhold, hb', hw]

end

/-! The step that a turn is. -/

section
variable {s : State} {c : Nat} {t : Strand} {r : List Turn}

theorem step_turn {u : Turn} (hs : s.turns = u :: r) : step s = runTurn u { s with turns := r } := by
  rw [step, takeTurn, hs]

theorem step_idle {v : State} (hs : s.turns = .strand c t :: r) (hc : c < 256) (h : strandTurn { s with turns := r } c t = .idle v) :
    step s = .next v := by
  rw [step_turn hs, runTurn, if_pos hc, h]

theorem step_run {i : Instr} {u : State} (hs : s.turns = .strand c t :: r) (hc : c < 256) (h : strandTurn { s with turns := r } c t = .run i u) :
    step s = if { s with turns := r }.yields c t i u then .next { s with turns := r }
      else exec i (u.withLate (t == Strand.m && { s with turns := r }.twinTakes c)) := by
  rw [step_turn hs, runTurn, if_pos hc, h]

end

/-! The walk at a head that stands alone. -/

theorem CoreSt.applySlip_cases (k : CoreSt) (t : Strand) : ∃ n d, k.applySlip t = { k with slipw := n, slipwDue := d } := by
  unfold CoreSt.applySlip
  split <;> exact ⟨_, _, rfl⟩

@[simp] theorem CoreSt.applySlip_strand (k : CoreSt) (t u : Strand) : (k.applySlip t).strand u = k.strand u := by
  obtain ⟨n, d, h⟩ := k.applySlip_cases t
  rw [h]
  cases u <;> rfl

/-- The text, the blocks and the loops are read past a pending SLIPW. -/
theorem CoreSt.applySlip_text (k : CoreSt) (t : Strand) :
    (∀ idx, (k.applySlip t).slot idx = k.slot idx) ∧ (∀ idx, (k.applySlip t).block idx = k.block idx) ∧
    (∀ pc, (k.applySlip t).textIdx pc = k.textIdx pc) ∧ (∀ idx, (k.applySlip t).textAddr idx = k.textAddr idx) ∧
    (∀ st, (k.applySlip t).suppressed st = k.suppressed st) ∧ ∀ st, (k.applySlip t).atKernel st = k.atKernel st := by
  obtain ⟨n, d, h⟩ := k.applySlip_cases t
  rw [h]
  exact ⟨fun _ => rfl, fun _ => rfl, fun _ => rfl, fun _ => rfl, fun _ => rfl, fun _ => rfl⟩

/-- No run of modifiers begins at a head. -/
theorem prefixRun_head {k : CoreSt} {idx : Nat} {w : Word} {pre : Bool} (h : k.slot idx = some (w, .head pre)) :
    prefixRun ((k.block idx).drop (idx % 8)) = [] := by
  have hd : (k.block idx).drop (idx % 8) = (w, .head pre) :: (k.block idx).drop (idx % 8 + 1) := by
    obtain ⟨hlt, hget⟩ := List.getElem?_eq_some_iff.mp h
    rw [List.drop_eq_getElem_cons hlt, hget]
  rw [hd]
  rfl

theorem headWords_eq (w : Word) (pre : Bool) : headWords (some (w, .head pre)) = if selOf w = 1 then 2 else 1 := rfl

/-- The walk at a head that may run is its instruction (R68). -/
theorem walk_head {k : CoreSt} {t : Strand} {w : Word} {i : Instr} (hs : k.slot (k.textIdx (k.strand t).pc) = some (w, .head false))
    (hslip : k.slipOk (k.strand t) (if selOf w = 1 then 2 else 1) = true) (hsup : k.suppressed (k.strand t) = false)
    (ho : ownsTag t (tagOf w) = true) (hd : decodeHead w ((k.slot (k.textIdx (k.strand t).pc + 1)).elim 0 (·.1)) = .ok i) :
    k.walk t = .exec i (k.strand t).pc (k.textAddr (k.textIdx (k.strand t).pc)) (if selOf w = 1 then 2 else 1) Mods.none := by
  have hw : headWalk k t (k.textIdx (k.strand t).pc) w (k.strand t).pc (headWords (some (w, .head false))) Mods.none =
      .exec i (k.strand t).pc (k.textAddr (k.textIdx (k.strand t).pc)) (if selOf w = 1 then 2 else 1) Mods.none := by
    rw [headWalk, if_pos ho, hd, headWords_eq]
  have hslip' : k.slipOk (k.strand t) (max (headWords (some (w, .head false))) 1) = true := by
    rw [headWords_eq, max_eq_left (by split <;> decide)]
    exact hslip
  unfold CoreSt.walk
  simp [hs, prefixRun_head hs, hslip', hsup, hw, misplacedWalk]

/-! What gives way in a cycle (R61, R175). -/

section
variable {s : State} {c : Nat}

theorem outranked_of_none {t : Strand} {i : Instr} {u : State} (h : awaited i u.cx.mods = []) : s.outranked c t i u = false := by
  simp [State.outranked, h]

theorem weirYields_of_core (h : c < 128) (r : Res) : s.weirYields c r = false := by
  simp [State.weirYields, Nat.not_le.mpr h]

theorem weirMoves_of_pairs {u v : State} (h : v.pairs = u.pairs) (p : Nat) : weirMoves u v p = [] := by
  have hp : v.pair p = u.pair p := by simp [State.pair, h]
  simp [weirMoves, hp]

theorem weirYields_of_pairs {v : State} (h : v.pairs = s.pairs) : s.weirYields c (.next v) = false := by
  simp [State.weirYields, weirMoves_of_pairs h]

theorem mem_weirMoves {u v : State} {p n : Nat} {b : Bool} (hn : n < 4) (hu : (u.pair p).twFull.getD n false = !b)
    (hv : (v.pair p).twFull.getD n false = b) : (n, b) ∈ weirMoves u v p := by
  refine List.mem_map.mpr ⟨n, List.mem_filter.mpr ⟨List.mem_range.mpr hn, ?_⟩, by rw [hv]⟩
  rw [hu, hv]
  cases b <;> rfl

/-- A strand that comes to a step which needs no token, and is not passing words, does it in this cycle. -/
theorem soon_of_turn {d : Nat} {t : Strand} {j : Instr} {w : State} (h : strandTurn s d t = .run j w) (hj : j ≠ .skippedWordsWalk)
    (ha : awaited j w.cx.mods = []) : s.soon d t = some (j, w, exec j w) := by
  rw [State.soon, strandSoon_of_turn h hj]
  simp [outranked_of_none ha]

/-- Passing words leaves every pair as it was. -/
theorem skippedWordsWalk_pairs {w x : State} (h : exec .skippedWordsWalk w = .next x) : x.pairs = w.pairs := by
  have he : execSkippedWordsWalk w = .next x := h
  cases he
  rfl

end

/-- Settles O3: the turn of a strand that is free to walk on is what its walk comes to; at a head that may run that is its instruction. -/
theorem stepRunsTheInstructionAtThePc : Obligations.StepRunsTheInstructionAtThePc := by
  intro s c t r hs hc hm
  have hm' : MayWalk { s with turns := r } c t := hm
  have runs : ∀ i pc head n m, ((s.core c).applySlip t).walk t = .exec i pc head n m → ∀ u, u = issuing s r c t pc head n m i →
      step s = if { s with turns := r }.yields c t i u then .next { s with turns := r }
        else exec i (u.withLate (t == Strand.m && { s with turns := r }.twinTakes c)) := by
    rintro i pc head n m hw u rfl
    obtain ⟨-, -, -, hexec⟩ := hm'.turn
    exact step_run hs hc (hexec i pc head n m hw)
  refine ⟨?head, runs, ?keeps, ?weir, ?late, ?first, ?takes⟩
  case head =>
    rintro w i hslot ⟨hslip, hsup⟩ ho hd u rfl
    obtain ⟨hs1, -, hi1, ha1, hu1, -⟩ := (s.core c).applySlip_text t
    refine runs i _ _ _ _ ?_ _ rfl
    have hw := walk_head (k := (s.core c).applySlip t) (t := t) (w := w) (i := i)
    rw [CoreSt.applySlip_strand, hi1, hs1, hs1, hu1, ha1] at hw
    exact hw hslot hslip hsup ho hd
  case keeps =>
    intro i u ha h
    rw [State.yields, outranked_of_none ha, Bool.false_or]
    rcases h with h | h | ⟨v, hv, hp⟩
    · simp [h]
    · simp [weirYields_of_core h]
    · rw [hv, weirYields_of_pairs (s := { s with turns := r }) hp, Bool.and_false]
  case weir =>
    rintro i u v w j rfl hlo hv hj ha x hx n hn b hb hvb hxb
    have hp : pairOf c = c - 128 := by unfold pairOf; omega
    have htwin : twinOf c = c - 128 := if_neg (by omega)
    have hne : j ≠ .skippedWordsWalk := by
      rintro rfl
      have hpairs : x.pair (c - 128) = s.pair (c - 128) := by
        rw [State.pair, skippedWordsWalk_pairs hx, (strandTurn_run hj).2.2.1]
        rfl
      rw [hpairs, hb] at hxb
      cases b <;> cases hxb
    have huser : exec j w ∈ { s with turns := r }.weirUsers (twinOf c) := by
      rw [htwin, State.weirUsers, soon_of_turn hj hne ha]
      exact List.mem_cons_self
    have hmv : (n, b) ∈ weirMoves { s with turns := r } v (pairOf c) := hp ▸ mem_weirMoves hn hb hvb
    have hmx : (n, b) ∈ weirMoves { s with turns := r } x (pairOf c) := hp ▸ mem_weirMoves hn hb hxb
    have hy : { s with turns := r }.weirYields c (.next v) = true := by
      simp only [State.weirYields, Bool.and_eq_true, decide_eq_true_eq, Bool.not_eq_true', List.isEmpty_eq_false_iff, List.any_eq_true]
      exact ⟨hlo, List.ne_nil_of_mem hmv, _, huser, by rw [hx]; exact List.any_eq_true.mpr ⟨_, hmx, List.contains_iff_mem.mpr hmv⟩⟩
    rw [State.yields, hv, hy]
    simp
  case late =>
    rintro v b rfl
    exact ⟨rfl, rfl, rfl⟩
  case first =>
    rintro (h | h)
    · simp [State.twinTakes, Nat.not_le.mpr h]
    · simp [State.twinTakes, h]
  case takes =>
    intro j w x hlo hfree hj hne ha hx hh
    simp [State.twinTakes, hlo, hfree, soon_of_turn hj hne ha, hx, hh]

end Sys2Proof.Machine
end

section
/-! PROOFS. Every other turn: of a strand at a word that it does not run, of an agent, of L2, of the order and of the clock (R39 to R43, R52, R95, R128,
R175, R201). -/

namespace Sys2Proof.Machine

/-! Turns of strands. -/

/-- A step that waits for no token and moves no row of the weir gives way to nothing. -/
theorem yields_of_pairs {s u v : State} {c : Nat} {t : Strand} {i : Instr} (ha : awaited i u.cx.mods = []) (hx : exec i u = .next v)
    (hp : v.pairs = s.pairs) : ¬s.yields c t i u = true := by
  rw [State.yields, outranked_of_none ha, hx, weirYields_of_pairs hp, Bool.and_false, Bool.or_self]
  exact Bool.false_ne_true

/-- Words that are passed give way to nothing. -/
theorem skippedWordsWalk_yields {s u : State} (c : Nat) (t : Strand) (hm : u.cx.mods = Mods.none) (hp : u.pairs = s.pairs) :
    ¬s.yields c t .skippedWordsWalk u = true := by
  obtain ⟨k, hk⟩ : ∃ k, exec .skippedWordsWalk u = .next (u.setCore u.cx.core k) := ⟨_, show execSkippedWordsWalk u = _ from rfl⟩
  exact yields_of_pairs (by rw [hm]; rfl) hk hp

theorem exec_notAnInstruction (u : State) : exec .notAnInstruction u = .next (raiseIll u u.cx.cause) := rfl

@[simp] theorem raiseTrap_pairs (s : State) (c : Nat) (t : Strand) (pc : BitVec 32) (cls cause code : Nat) (next : BitVec 32) (words : Nat)
    (mods : Mods) (due : Bool) : (raiseTrap s c t pc cls cause code next words mods due).pairs = s.pairs := by
  rw [raiseTrap, State.modTaskOf_pairs, State.modCore_pairs]

/-! The clock. -/

theorem State.leaves_cycle (s : State) (o : Outstanding) : (s.leaves o).cycle = s.cycle := by
  unfold State.leaves
  split
  · split <;> rfl
  · rfl

theorem State.tick_cycle (s : State) : s.tick.cycle = s.cycle + 1 := by
  have go : ∀ (l : List Outstanding) (s : State), (l.foldl State.leaves s).cycle = s.cycle := by
    intro l
    induction l with
    | nil => exact fun _ => rfl
    | cons o r ih => exact fun s => (ih _).trans (s.leaves_cycle o)
  unfold State.tick State.drainLimit
  dsimp only
  split
  · exact go _ _
  · rfl

/-! Addresses, which no list of turns has a part in. -/

section
variable (s : State) (r : List Turn)

theorem State.walkPages_turns (p va : Nat) : State.walkPages { s with turns := r } p va = s.walkPages p va := by
  unfold State.walkPages
  rw [show State.pte { s with turns := r } = s.pte from rfl, show State.part { s with turns := r } = s.part from rfl,
    show State.pageOk { s with turns := r } = s.pageOk from rfl]

theorem State.keyOf_turns (c ea : Nat) (w : Bool) : State.keyOf { s with turns := r } c ea w = s.keyOf c ea w := by
  have hcore : State.core { s with turns := r } = s.core := rfl
  have hleaf : State.coreLeaf { s with turns := r } c ea = s.coreLeaf c ea := by
    unfold State.coreLeaf
    rw [State.walkPages_turns, hcore]
  unfold State.keyOf
  rw [hleaf, hcore, show State.useLeaf { s with turns := r } = s.useLeaf from rfl, show State.spadOf { s with turns := r } = s.spadOf from rfl]

theorem State.pinsLine_turns (c line : Nat) : State.pinsLine { s with turns := r } c line = s.pinsLine c line := by
  unfold State.pinsLine
  simp only [State.keyOf_turns]
  rfl

end

/-! Agents. -/

/-- What has no words is no instruction of the text (R66). -/
theorem wellFormed_of_no_words (i : Instr) (h : (encode i).isEmpty = true) : WellFormed i = false := by
  cases i <;> (cases h <;> rfl)

/-- The instructions of the text are no steps of agents. -/
theorem isAgentStep_of_wellFormed {i : Instr} (h : WellFormed i = true) : isAgentStep i = false := by
  have hw : (encode i).isEmpty = false := by
    cases he : (encode i).isEmpty with
    | false => rfl
    | true => exact absurd ((wellFormed_of_no_words i he).symm.trans h) Bool.false_ne_true
  simp [isAgentStep, hw]

theorem agentsOf_ne_nil (s : State) : agentsOf s ≠ [] := by
  simp [agentsOf]

/-- With no turn listed the next is one of the model's own order (log entry 1). -/
theorem step_of_no_turns {s : State} (h : s.turns = []) : ∃ t ∈ agentsOf s, step s = runTurn t { s with rr := s.rr + 1 } := by
  have hlt : s.rr % (agentsOf s).length < (agentsOf s).length := Nat.mod_lt _ (List.length_pos_iff.mpr (agentsOf_ne_nil s))
  refine ⟨_, List.getElem_mem hlt, ?_⟩
  rw [step, takeTurn, h]
  simp [List.getElem?_eq_getElem hlt]

theorem agentYields_cases {s : State} {i : Instr} (h : s.agentYields i = true) :
    (∃ p, i = .licenceGrant p) ∨ ∃ c, 128 ≤ c ∧ (i = .mmaExecute c ∨ i = .mxposeExecute c ∨ i = .mdrainExecute c) := by
  have weir : ∀ {c r}, s.weirYields c r = true → 128 ≤ c := fun {c r} hy => by
    simp only [State.weirYields, Bool.and_eq_true, decide_eq_true_eq] at hy
    exact hy.1
  unfold State.agentYields at h
  split at h
  · next c => exact .inr ⟨c, weir h, .inl rfl⟩
  · next c => exact .inr ⟨c, weir h, .inr (.inl rfl)⟩
  · next c => exact .inr ⟨c, weir h, .inr (.inr rfl)⟩
  · next p => exact .inl ⟨p, rfl⟩
  · cases h

theorem agentLate_cases {s : State} {i : Instr} (h : s.agentLate i = true) :
    (∃ c, i = .fullEmptyPerform c) ∨ (∃ c d tag, i = .headerUncorrectable c d (.reply tag)) ∨ ∃ c, 128 ≤ c ∧ i = .sidePortCommand c := by
  unfold State.agentLate at h
  split at h
  · next c => exact .inl ⟨c, rfl⟩
  · next c d tag => exact .inr (.inl ⟨c, d, tag, rfl⟩)
  · next c =>
    simp only [State.twinTakes, Bool.and_eq_true, decide_eq_true_eq] at h
    exact .inr (.inr ⟨c, h.1.1, rfl⟩)
  · cases h

/-- Settles O4: each turn by the branch of the turn that it takes. -/
theorem stepOfEveryOtherTurn : Obligations.StepOfEveryOtherTurn := by
  refine ⟨fun s c t r hs hc => ⟨?noBlock, ?stall, ?skip, ?ill, ?owes, ?still⟩,
    fun s r => ⟨?agent, ?yields, ?late, ?local_, ?noStep, ?noCore, ?settle, ?evict, ?tick, step_of_no_turns, fun _ => isAgentStep_of_wellFormed⟩⟩
  case noBlock => exact fun hw hb => step_idle hs hc (AtWord.waits (s := { s with turns := r }) hw hb)
  case stall =>
    intro hm hw
    have hm' : MayWalk { s with turns := r } c t := hm
    exact step_idle hs hc (hm'.turn.1 hw)
  case skip =>
    intro n hm hw
    have hm' : MayWalk { s with turns := r } c t := hm
    obtain ⟨-, hskip, -, -⟩ := hm'.turn
    refine (step_run hs hc (hskip n hw)).trans (if_neg ?_)
    exact skippedWordsWalk_yields c t rfl rfl
  case ill =>
    intro e pc hm hw
    have hm' : MayWalk { s with turns := r } c t := hm
    obtain ⟨-, -, hill, -⟩ := hm'.turn
    refine (step_run hs hc (hill e pc hw)).trans (if_neg ?_)
    exact (yields_of_pairs rfl (exec_notAnInstruction _) (raiseTrap_pairs _ _ _ _ _ _ _ _ _ _ _))
  case owes =>
    rintro l rfl hl
    refine step_idle hs hc ?_
    have hne : (!((s.core c).strand t).sigDue.isEmpty) = true := by simp [hl]
    exact if_pos hne
  case still =>
    intro hsig hdone hstill
    refine step_idle hs hc ?_
    have h1 : ((State.core { s with turns := r } c).strand t).sigDue = [] := hsig
    have h2 : (State.core { s with turns := r } c).instanceDone = false := hdone
    have h3 : State.strandStill { s with turns := r } c t = true := hstill
    simp [strandTurn, h1, h2, h3]
  case agent =>
    intro i hs hi
    rw [step_turn hs, runTurn, hi]
    rfl
  case yields => exact fun i => agentYields_cases
  case late => exact fun i => agentLate_cases
  case local_ =>
    intro c d q ls j w x hfe hl hd hat hnone hj hne ha hx ho
    simp [State.agentLate, State.feYields, hfe, hl, hd, hat, hnone, soon_of_turn hj hne ha, hx, ho]
  case noStep =>
    intro i hs hi
    rw [step_turn hs, runTurn, hi]
    rfl
  case noCore =>
    intro c t hs hc
    rw [step_turn hs, runTurn, if_neg (Nat.not_lt.mpr hc)]
  case settle => exact fun c hs => step_turn hs
  case evict =>
    intro line hs
    rw [step_turn hs, runTurn]
    simp only [State.pinsLine_turns]
    split <;> rfl
  case tick => exact fun hs => ⟨step_turn hs, State.tick_cycle _⟩

end Sys2Proof.Machine
end

section
/-! PROOFS. Branches, calls and returns: how a word of every strand issues, and where a strand lands (R45 to R49, R69, R130 to R132). -/

namespace Sys2Proof.Machine

/-! Words of every strand: none takes a modifier (R80). -/

theorem State.setCore_setCore (s : State) (c : Nat) (k k' : CoreSt) : (s.setCore c k).setCore c k' = s.setCore c k' := by
  simp only [State.setCore, tset_tset]

@[simp] theorem State.cxCore_modCxStrand (s : State) (f : StrandSt → StrandSt) :
    (s.modCxStrand f).cxCore = s.cxCore.setStrand s.cx.strand (f s.cxStrand) := State.core_modCore_self _ _ _

@[simp] theorem State.cxStrand_modCxStrand (s : State) (f : StrandSt → StrandSt) : (s.modCxStrand f).cxStrand = f s.cxStrand := by
  rw [State.cxStrand, State.cxCore_modCxStrand]
  exact CoreSt.strand_setStrand _ _ _

@[simp] theorem State.cxCore_goto (s : State) (a : BitVec 32) : (s.goto a).cxCore = s.cxCore := rfl

@[simp] theorem State.cxStrand_goto (s : State) (a : BitVec 32) : (s.goto a).cxStrand = s.cxStrand := rfl

theorem worst_of_all {l : List IllCause} {c : IllCause} (hne : l ≠ []) (h : ∀ e ∈ l, e = c) : worst l = some c := by
  induction l with
  | nil => exact absurd rfl hne
  | cons e r ih =>
    obtain ⟨rfl, hr⟩ := List.forall_mem_cons.mp h
    cases r with
    | nil => rfl
    | cons f r =>
      rw [worst, ih (by simp) hr]
      simp

theorem mem_fault? {b : Bool} {c e : IllCause} (h : e ∈ fault? b c) : e = c := by
  cases b with
  | false => cases h
  | true => exact List.mem_singleton.mp h

theorem rsFault_of_none {s : State} (h : s.cx.mods = Mods.none) : rsFault s = placeFaults s := by
  simp [rsFault, h, Mods.none]

theorem placeFaults_nil {s : State} (h : s.cx.misplaced = false) : placeFaults s = [] := by
  rw [placeFaults, h, fault?_false]

section
variable {s v : State} {faults : List IllCause} {body : State → Try State}

/-- A word whose faults are all of the execution model, and that has one, raises cause 13 (R95). -/
theorem issue_execModel (hm : s.cx.mods = Mods.none) (hf : ∀ e ∈ faults, e = .execModel) (h : s.cx.misplaced = true ∨ faults ≠ []) :
    issue s faults body = .next (raiseIll s .execModel) := by
  refine issue_ill (worst_of_all (fun he => ?_) fun e he => ?_)
  · obtain ⟨hnil, hplace⟩ := List.append_eq_nil_iff.mp he
    rcases h with h | h
    · rw [rsFault_of_none hm, placeFaults, h] at hplace
      cases hplace
    · exact h hnil
  · rcases List.mem_append.mp he with he | he
    · exact hf e he
    · rw [rsFault_of_none hm] at he
      exact mem_fault? he

theorem admits_of_none (hm : s.cx.mods = Mods.none) (hp : s.cx.misplaced = false) : Admits s s :=
  ⟨by rw [rsFault_of_none hm, placeFaults_nil hp], takeWait_none (by rw [hm]; rfl)⟩

theorem sigStuck_of_none (hm : v.cx.mods = Mods.none) : v.sigStuck = false := by
  rw [State.sigStuck, hm]
  rfl

theorem ready_of_none (hm : s.cx.mods = Mods.none) (hp : s.cx.misplaced = false) : Ready s s := ⟨admits_of_none hm hp, sigStuck_of_none hm⟩

theorem retire_of_none (hm : v.cx.mods = Mods.none) : retire v = v.modCxStrand (fun t => t.advance v.cx.next v.cx.words) := by
  have hs : (v.modCxStrand (fun t => t.advance v.cx.next v.cx.words)).cx.mods.sig = none := by
    rw [show (v.modCxStrand (fun t => t.advance v.cx.next v.cx.words)).cx = v.cx from rfl, hm]
    rfl
  unfold retire
  simp only [hs]

/-- A word of every strand with no fault takes its effect and retires. -/
theorem issue_plain (hm : s.cx.mods = Mods.none) (hp : s.cx.misplaced = false) (hf : faults = []) (hb : body s = .ok v)
    (hv : v.cx.mods = Mods.none) : issue s faults body = .next (v.modCxStrand (fun t => t.advance v.cx.next v.cx.words)) := by
  rw [issue_ok hf (admits_of_none hm hp) hb (sigStuck_of_none hv), retire_of_none hv]

/-- An instruction whose effect is not yet possible waits. -/
theorem issue_stall {u : State} (hf : faults = []) (hr : Admits s u) (hb : body u = .error .stall) : issue s faults body = .next s := by
  obtain ⟨hr, hw⟩ := hr
  rw [issue, hf, hr, hw]
  show conclude s (body u) = _
  rw [hb]
  rfl

end

/-! Landings (R69). -/

theorem CoreSt.badLanding_none {k : CoreSt} {a : BitVec 32} (h : k.slot (k.textIdx a) = none) : k.badLanding a = true := by
  simp [CoreSt.badLanding, h]

theorem CoreSt.badLanding_iff {k : CoreSt} {a : BitVec 32} {w : Word} {m : WordClass} (h : k.slot (k.textIdx a) = some (w, m)) :
    k.badLanding a = true ↔ m = .payload ∨ m = .head true := by
  cases m <;> simp [CoreSt.badLanding, h]

/-- A landing is judged by the text alone. -/
theorem CoreSt.badLanding_congr {k k' : CoreSt} (ht : k'.text = k.text) (hb : k'.tbase = k.tbase) (a : BitVec 32) :
    k'.badLanding a = k.badLanding a := by
  simp only [CoreSt.badLanding, CoreSt.slot, CoreSt.block, CoreSt.textIdx, ht, hb]

/-- A fault moves no strand, so no landing is judged after it. -/
theorem landed_raiseIll (s : State) (taken atEnd : Bool) (c : IllCause) : landed s taken atEnd (.next (raiseIll s c)) = .next (raiseIll s c) := by
  have hw : (((raiseIll s c).core s.cx.core).strand s.cx.strand).walked = ((s.core s.cx.core).strand s.cx.strand).walked := by
    rw [raiseIll, raiseTrap, State.core_modTaskOf, State.core_modCore_self, CoreSt.strand_setStrand]
  simp [landed, hw]

/-- A branch that is not taken goes on in sequence. -/
theorem landed_of_not_taken (s : State) (atEnd : Bool) (v : State) : landed s false atEnd (.next v) = .next v := rfl

/-- The state in which the strand that issues in `s` has gone out of sequence to `a`, from `v`, which holds its effect; `e` says whether it stands
at a body's end. -/
def State.wentTo (s v : State) (a : BitVec 32) (e : Bool) : State :=
  v.setCore s.cx.core ((v.core s.cx.core).setStrand s.cx.strand
    { ((v.core s.cx.core).strand s.cx.strand).advance a s.cx.words with atEnd := e })

section
variable {s v : State} {a : BitVec 32}

theorem State.wentTo_core (s v : State) (a : BitVec 32) (e : Bool) : (s.wentTo v a e).core s.cx.core =
    (v.core s.cx.core).setStrand s.cx.strand { ((v.core s.cx.core).strand s.cx.strand).advance a s.cx.words with atEnd := e } :=
  State.core_setCore_self _ _ _

theorem State.wentTo_strand (s v : State) (a : BitVec 32) (e : Bool) : ((s.wentTo v a e).core s.cx.core).strand s.cx.strand =
    { ((v.core s.cx.core).strand s.cx.strand).advance a s.cx.words with atEnd := e } := by
  rw [State.wentTo_core, CoreSt.strand_setStrand]

theorem State.wentTo_other (s v : State) (a : BitVec 32) (e : Bool) {y : Strand} (hy : y ≠ s.cx.strand) :
    ((s.wentTo v a e).core s.cx.core).strand y = (v.core s.cx.core).strand y := by
  rw [State.wentTo_core, CoreSt.strand_setStrand_ne _ _ _ _ hy]

/-- A strand that is taken out of sequence stands at its target; a bad landing is raised there (R69). -/
theorem landed_taken (hw : 0 < s.cx.words) (hcx : v.cx = { s.cx with next := a })
    (hwalked : ((v.core s.cx.core).strand s.cx.strand).walked = s.cxStrand.walked) (ht : (v.core s.cx.core).text = s.cxCore.text)
    (hb : (v.core s.cx.core).tbase = s.cxCore.tbase) (atEnd : Bool) :
    ∃ e, (atEnd = false → e = false) ∧ landed s true atEnd (.next (v.modCxStrand (fun t => t.advance v.cx.next v.cx.words))) =
      .next (if s.cxCore.badLanding a = true then raiseTrap (s.wentTo v a e) s.cx.core s.cx.strand a 0 3 0 a 0 else s.wentTo v a e) := by
  have hgone : v.modCxStrand (fun t => t.advance v.cx.next v.cx.words) =
      v.setCore s.cx.core ((v.core s.cx.core).setStrand s.cx.strand (((v.core s.cx.core).strand s.cx.strand).advance a s.cx.words)) := by
    rw [State.modCxStrand, State.modCx, State.modCore, hcx]
  have hmoved : ((((v.core s.cx.core).strand s.cx.strand).advance a s.cx.words).walked == ((s.core s.cx.core).strand s.cx.strand).walked) = false := by
    have : (((v.core s.cx.core).strand s.cx.strand).advance a s.cx.words).walked = s.cxStrand.walked + s.cx.words := by
      rw [← hwalked]
      rfl
    rw [this, beq_eq_false_iff_ne, State.cxStrand, State.cxCore]
    omega
  refine ⟨atEnd && ((v.core s.cx.core).strand s.cx.strand).loops.head?.elim false (fun l => l.last == a), fun h => by rw [h, Bool.false_and], ?_⟩
  have hland : ∀ st, ((v.core s.cx.core).setStrand s.cx.strand st).badLanding a = s.cxCore.badLanding a := fun st =>
    CoreSt.badLanding_congr (by rw [CoreSt.setStrand_text, ht]) (by rw [CoreSt.setStrand_tbase, hb]) a
  rw [hgone]
  simp only [landed, State.core_setCore_self, CoreSt.strand_setStrand, hmoved, Bool.not_true, Bool.or_self, Bool.false_eq_true, if_false,
    State.modCore, State.setCore_setCore, CoreSt.setStrand_setStrand]
  have hpc : (((v.core s.cx.core).strand s.cx.strand).advance a s.cx.words).pc = a := rfl
  rw [hpc, hland]
  split <;> rfl

/-- An instruction takes its strand to `a`, where a bad landing is raised, and leaves memory as it was. -/
def GoesTo (s : State) (i : Instr) (a : BitVec 32) (P : State → Prop) : Prop :=
  ∃ t, exec i s = .next (if s.cxCore.badLanding a = true then raiseTrap t s.cx.core s.cx.strand a 0 3 0 a 0 else t) ∧ t.cxStrand.pc = a ∧
    t.mem = s.mem ∧ P t

theorem goesTo_of_issue {i : Instr} {faults : List IllCause} {body : State → Try State} {P : State → Prop} {atEnd : Bool}
    (he : exec i s = landed s true atEnd (issue s faults body)) (hm : s.cx.mods = Mods.none) (hp : s.cx.misplaced = false) (hw : 0 < s.cx.words)
    (hf : faults = []) (hb : body s = .ok v) (hcx : v.cx = { s.cx with next := a }) (hmem : v.mem = s.mem)
    (hwalked : ((v.core s.cx.core).strand s.cx.strand).walked = s.cxStrand.walked) (ht : (v.core s.cx.core).text = s.cxCore.text)
    (htb : (v.core s.cx.core).tbase = s.cxCore.tbase) (hP : ∀ (t : State) (e : Bool), (atEnd = false → e = false) → t.cx.strand = s.cx.strand →
      (∀ y, y ≠ s.cx.strand → t.cxCore.strand y = (v.core s.cx.core).strand y) →
      t.cxStrand = { ((v.core s.cx.core).strand s.cx.strand).advance a s.cx.words with atEnd := e } → P t) : GoesTo s i a P := by
  obtain ⟨e, hae, hl⟩ := landed_taken hw hcx hwalked ht htb atEnd
  have hx : (s.wentTo v a e).cx = { s.cx with next := a } := hcx
  have hcore : (s.wentTo v a e).cxCore = (s.wentTo v a e).core s.cx.core := by rw [State.cxCore, hx]
  have hstrand : (s.wentTo v a e).cxStrand = { ((v.core s.cx.core).strand s.cx.strand).advance a s.cx.words with atEnd := e } := by
    rw [State.cxStrand, hcore, hx, State.wentTo_strand]
  refine ⟨s.wentTo v a e, ?_, ?_, hmem, hP _ e hae (by rw [hx]) (fun y hy => ?_) hstrand⟩
  · rw [he, issue_plain hm hp hf hb (by rw [hcx]; exact hm), hl]
  · rw [hstrand]
    rfl
  · rw [hcore, State.wentTo_other _ _ _ _ hy]

end

/-! Outcome queues (R45). -/

/-- Two cores differ in their strands alone. -/
def OnlyStrands (k k' : CoreSt) : Prop := ∃ x a v m, k' = { k with x := x, a := a, v := v, m := m }

theorem OnlyStrands.refl (k : CoreSt) : OnlyStrands k k := ⟨_, _, _, _, rfl⟩

theorem OnlyStrands.setStrand (k : CoreSt) (t : Strand) (st : StrandSt) : OnlyStrands k (k.setStrand t st) := by
  cases t <;> exact ⟨_, _, _, _, rfl⟩

theorem OnlyStrands.trans {k k' k'' : CoreSt} (h : OnlyStrands k k') (g : OnlyStrands k' k'') : OnlyStrands k k'' := by
  obtain ⟨_, _, _, _, rfl⟩ := h
  obtain ⟨_, _, _, _, rfl⟩ := g
  exact ⟨_, _, _, _, rfl⟩

theorem OnlyStrands.text {k k' : CoreSt} (h : OnlyStrands k k') : k'.text = k.text := by
  obtain ⟨_, _, _, _, rfl⟩ := h
  rfl

theorem OnlyStrands.tbase {k k' : CoreSt} (h : OnlyStrands k k') : k'.tbase = k.tbase := by
  obtain ⟨_, _, _, _, rfl⟩ := h
  rfl

section
variable {k : CoreSt} {t : Strand} {b : Bool}

theorem CoreSt.pushOutcome_room (h : ∀ y, y ≠ t → (k.strand y).outq.length < 32) : ∃ k', k.pushOutcome t b = .ok k' ∧ OnlyStrands k k' ∧
    k'.strand t = k.strand t ∧ ∀ y, y ≠ t → k'.strand y = { k.strand y with outq := (k.strand y).outq ++ [b] } := by
  have hall : (othersOf t).all (fun u => (k.strand u).outq.length < 32) = true := by
    rw [List.all_eq_true]
    intro y hy
    simpa using h y (by simpa using (List.mem_filter.mp hy).2)
  refine ⟨_, if_pos hall, ?_, ?_, fun y hy => ?_⟩
  · cases t <;> exact ⟨_, _, _, _, rfl⟩
  · cases t <;> rfl
  · cases t <;> cases y <;> first | rfl | exact absurd rfl hy

theorem CoreSt.pushOutcome_full (h : ∃ y, y ≠ t ∧ 32 ≤ (k.strand y).outq.length) : k.pushOutcome t b = .error .stall := by
  obtain ⟨y, hy, hlen⟩ := h
  refine if_neg fun hall => ?_
  have hmem : y ∈ othersOf t := List.mem_filter.mpr ⟨by cases y <;> decide, by simpa using hy⟩
  have := List.all_eq_true.mp hall y hmem
  simp only [decide_eq_true_eq] at this
  omega

theorem CoreSt.popOutcome_cons {q : List Bool} (h : (k.strand t).outq = b :: q) :
    k.popOutcome t = .ok (b, k.setStrand t { k.strand t with outq := q }) := by
  rw [CoreSt.popOutcome, h]

theorem CoreSt.popOutcome_nil (h : (k.strand t).outq = []) : k.popOutcome t = .error .stall := by
  rw [CoreSt.popOutcome, h]

end

/-! J, CALL and RET. -/

section
variable {s : State} {off : BitVec 16}

theorem branchFaults_nil {call : Bool} (h : s.cxCore.branchOk call (s.cxCore.textIdx s.cx.head) (s.cxCore.textIdx (targetOf s off)) = true) :
    branchFaults s call off = [] := by
  simp [branchFaults, h]

theorem branchFaults_ne_nil {call : Bool} (h : s.cxCore.branchOk call (s.cxCore.textIdx s.cx.head) (s.cxCore.textIdx (targetOf s off)) = false) :
    branchFaults s call off ≠ [] := by
  simp [branchFaults, h]

theorem mem_branchFaults {call : Bool} {e : IllCause} (h : e ∈ branchFaults s call off) : e = .execModel := mem_fault? h

/-- The faults of each branch word are of the execution model: one with any of them, or out of place, raises cause 13. -/
theorem execJ_ill (hm : s.cx.mods = Mods.none) (h : s.cx.misplaced = true ∨ branchFaults s false off ≠ []) :
    execJ off s = .next (raiseIll s .execModel) := by
  rw [execJ, issue_execModel hm (fun _ => mem_branchFaults) h, landed_raiseIll]

theorem execCall_ill (hm : s.cx.mods = Mods.none)
    (h : s.cx.misplaced = true ∨ branchFaults s true off ++ fault? (8 ≤ s.cxStrand.ret.length) .execModel ≠ []) :
    execCall off s = .next (raiseIll s .execModel) := by
  rw [execCall, issue_execModel hm (fun e he => (List.mem_append.mp he).elim mem_branchFaults mem_fault?) h, landed_raiseIll]

theorem execRet_ill (hm : s.cx.mods = Mods.none) (h : s.cx.misplaced = true ∨ fault? s.cxStrand.ret.isEmpty .execModel ≠ []) :
    execRet s = .next (raiseIll s .execModel) := by
  rw [execRet, issue_execModel hm (fun _ => mem_fault?) h, landed_raiseIll]

theorem execEnd_ill (hm : s.cx.mods = Mods.none) (h : s.cx.misplaced = true ∨
    fault? (!s.cxStrand.loops.isEmpty || !s.cxStrand.ret.isEmpty || s.cxStrand.phase == .kernel) .execModel ≠ []) :
    execEnd s = .next (raiseIll s .execModel) := by
  rw [execEnd, issue_execModel hm (fun _ => mem_fault?) h]

theorem execBr_ill {decA inv : BitVec 1} {pred : BitVec 2} (hm : s.cx.mods = Mods.none)
    (h : s.cx.misplaced = true ∨ branchFaults s false off ≠ []) : execBr decA inv pred off s = .next (raiseIll s .execModel) := by
  unfold execBr
  split
  · exact issue_execModel hm (fun _ => mem_branchFaults) h
  · rw [issue_execModel hm (fun _ => mem_branchFaults) h, landed_raiseIll]

end

/-! Each word where it may stand. -/

section
variable {s : State} {off : BitVec 16} (hm : s.cx.mods = Mods.none) (hp : s.cx.misplaced = false)
include hm hp

theorem execJ_goes (hw : 0 < s.cx.words)
    (h : s.cxCore.branchOk false (s.cxCore.textIdx s.cx.head) (s.cxCore.textIdx (targetOf s off)) = true) : GoesTo s (.j off) (targetOf s off)
      (fun t => t.cxStrand.atEnd = false ∧ t.cxStrand.walked = s.cxStrand.walked + s.cx.words ∧ t.cxStrand.ret = s.cxStrand.ret ∧
        t.cxStrand.loops = s.cxStrand.loops) := by
  refine goesTo_of_issue (v := s.goto (targetOf s off)) (show _ = execJ off s from rfl) hm hp hw (branchFaults_nil h) rfl rfl rfl rfl rfl rfl
    fun t e he _ _ hst => ?_
  rw [hst, he rfl]
  exact ⟨rfl, rfl, rfl, rfl⟩

theorem execCall_goes (hw : 0 < s.cx.words) (hlen : s.cxStrand.ret.length < 8)
    (h : s.cxCore.branchOk true (s.cxCore.textIdx s.cx.head) (s.cxCore.textIdx (targetOf s off)) = true) : GoesTo s (.call off) (targetOf s off)
      (fun t => t.cxStrand.ret = (s.cx.head + 4) :: s.cxStrand.ret) := by
  have hf : branchFaults s true off ++ fault? (8 ≤ s.cxStrand.ret.length) .execModel = [] := by
    rw [branchFaults_nil h, decide_eq_false (by omega)]
    rfl
  have hcore : ((s.modCxStrand (fun t => { t with ret := (s.cx.head + 4) :: t.ret })).goto (targetOf s off)).core s.cx.core =
      s.cxCore.setStrand s.cx.strand { s.cxStrand with ret := (s.cx.head + 4) :: s.cxStrand.ret } := by
    rw [State.core_goto, State.modCxStrand, State.modCx, State.core_modCore_self]
    rfl
  refine goesTo_of_issue (show _ = execCall off s from rfl) hm hp hw hf rfl rfl rfl (by rw [hcore, CoreSt.strand_setStrand])
    (by rw [hcore, CoreSt.setStrand_text]) (by rw [hcore, CoreSt.setStrand_tbase]) fun t e _ _ _ hst => ?_
  rw [hst, hcore, CoreSt.strand_setStrand]
  rfl

theorem execRet_goes (hw : 0 < s.cx.words) {a : BitVec 32} {r : List (BitVec 32)} (h : s.cxStrand.ret = a :: r) :
    GoesTo s .ret a (fun t => t.cxStrand.ret = r) := by
  have hf : fault? s.cxStrand.ret.isEmpty .execModel = [] := by
    rw [h]
    rfl
  have hcore : ((s.modCxStrand (fun t => { t with ret := t.ret.drop 1 })).goto a).core s.cx.core =
      s.cxCore.setStrand s.cx.strand { s.cxStrand with ret := s.cxStrand.ret.drop 1 } := by
    rw [State.core_goto, State.modCxStrand, State.modCx, State.core_modCore_self]
    rfl
  refine goesTo_of_issue (v := (s.modCxStrand (fun t => { t with ret := t.ret.drop 1 })).goto a) (show _ = execRet s from rfl) hm hp hw hf
    (by rw [h]; rfl) rfl rfl (by rw [hcore, CoreSt.strand_setStrand]) (by rw [hcore, CoreSt.setStrand_text]) (by rw [hcore, CoreSt.setStrand_tbase])
    fun t e _ _ _ hst => ?_
  rw [hst, hcore, CoreSt.strand_setStrand, h]
  rfl

/-- A BR that has learned its outcome, which leaves its core as `k`, goes to its target or on (R45, R130). -/
theorem execBr_goes {decA inv : BitVec 1} {pred : BitVec 2} {b : Bool} {k : CoreSt} (hw : 0 < s.cx.words)
    (h : s.cxCore.branchOk false (s.cxCore.textIdx s.cx.head) (s.cxCore.textIdx (targetOf s off)) = true)
    (hd : s.cxCore.decide s.cx.strand decA inv pred = .ok (b, k)) (hk : OnlyStrands s.cxCore k)
    (hwalked : (k.strand s.cx.strand).walked = s.cxStrand.walked) {P : State → Prop}
    (hP : ∀ t : State, t.cx.strand = s.cx.strand → (∀ y, (t.cxCore.strand y).outq = (k.strand y).outq) → P t) :
    (b = true → GoesTo s (.br decA inv pred off) (targetOf s off) P) ∧
      (b = false → ∃ t, exec (.br decA inv pred off) s = .next t ∧ t.cxStrand.pc = s.cx.next ∧ t.mem = s.mem ∧ P t) := by
  have hbr : exec (.br decA inv pred off) s = landed s b false (issue s (branchFaults s false off) (fun u =>
      .ok ((u.setCore s.cx.core k).goto (if b then targetOf s off else s.cx.next)))) := by
    rw [show exec (.br decA inv pred off) s = execBr decA inv pred off s from rfl, execBr, hd]
  have hcore : ∀ a, ((s.setCore s.cx.core k).goto a).core s.cx.core = k := fun a => by rw [State.core_goto, State.core_setCore_self]
  refine ⟨?taken, ?passed⟩
  case taken =>
    rintro rfl
    refine goesTo_of_issue hbr hm hp hw (branchFaults_nil h) rfl rfl rfl (by rw [hcore]; exact hwalked) (by rw [hcore]; exact hk.text)
      (by rw [hcore]; exact hk.tbase) fun t e _ hx hother hst => hP t hx fun y => ?_
    by_cases hy : y = s.cx.strand
    · subst hy
      rw [← hx]
      refine (congrArg StrandSt.outq hst).trans ?_
      rw [hcore, hx]
      rfl
    · rw [hother y hy, hcore]
  case passed =>
    rintro rfl
    have hgone : (((s.setCore s.cx.core k).goto s.cx.next).modCxStrand (fun t => t.advance s.cx.next s.cx.words)).cxCore =
        k.setStrand s.cx.strand ((k.strand s.cx.strand).advance s.cx.next s.cx.words) := by
      rw [State.cxCore_modCxStrand, State.cxStrand_goto, State.cxCore_goto, State.cxStrand, State.cxCore_setCore]
      rfl
    refine ⟨((s.setCore s.cx.core k).goto s.cx.next).modCxStrand (fun t => t.advance s.cx.next s.cx.words), ?_, ?_, rfl, hP _ rfl fun y => ?_⟩
    · rw [hbr, issue_plain (v := (s.setCore s.cx.core k).goto s.cx.next) hm hp (branchFaults_nil h) rfl hm, landed_of_not_taken]
      rfl
    · rw [State.cxStrand, hgone]
      exact congrArg StrandSt.pc (CoreSt.strand_setStrand _ _ _)
    · rw [hgone]
      by_cases hy : y = s.cx.strand
      · rw [hy, CoreSt.strand_setStrand]
        rfl
      · rw [CoreSt.strand_setStrand_ne _ _ _ _ hy]

theorem execBr_waits {decA inv : BitVec 1} {pred : BitVec 2} {e : Stop}
    (h : s.cxCore.branchOk false (s.cxCore.textIdx s.cx.head) (s.cxCore.textIdx (targetOf s off)) = true)
    (hd : s.cxCore.decide s.cx.strand decA inv pred = .error e) : exec (.br decA inv pred off) s = .next s := by
  rw [show exec (.br decA inv pred off) s = execBr decA inv pred off s from rfl, execBr, hd]
  exact issue_stall (branchFaults_nil h) (admits_of_none hm hp) rfl

/-- END where it may stand moves the strand on to the kernel, or stops it (R49, R132). -/
theorem execEnd_goes (hl : s.cxStrand.loops = []) (hr : s.cxStrand.ret = []) :
    (s.cxStrand.phase = .prologue → ∃ t, exec .end_ s = .next t ∧ t.cxStrand.pc = s.cxCore.kernel ∧ t.cxStrand.phase = .kernel ∧ t.mem = s.mem) ∧
    (s.cxStrand.phase = .epilogue → ∃ t, exec .end_ s = .next t ∧ t.cxStrand.phase = .stopped ∧ t.mem = s.mem) := by
  have hend : exec .end_ s = execEnd s := rfl
  have gone : ∀ (f : StrandSt → StrandSt) (a : BitVec 32), (((s.modCxStrand f).goto a).modCxStrand (fun t => t.advance a s.cx.words)).cxStrand =
      (f s.cxStrand).advance a s.cx.words := fun f a => by
    rw [State.cxStrand_modCxStrand, State.cxStrand_goto, State.cxStrand_modCxStrand]
  refine ⟨fun hph => ?_, fun hph => ?_⟩
  · rw [hend, execEnd, hl, hr, hph]
    refine ⟨_, issue_plain hm hp rfl rfl hm, ?_, ?_, rfl⟩ <;> exact (congrArg _ (gone _ _)).trans rfl
  · rw [hend, execEnd, hl, hr, hph]
    refine ⟨_, issue_plain hm hp rfl rfl hm, ?_, rfl⟩
    exact (congrArg _ (gone _ _)).trans rfl

end

/-- Settles O45: each word by its faults and by where it goes. -/
theorem branchesCallsAndReturns : Obligations.BranchesCallsAndReturns := by
  intro s off decA inv pred hm hw
  refine ⟨fun hp i hi => ?misplaced, fun hp => ?placed⟩
  case misplaced =>
    simp only [List.mem_cons, List.not_mem_nil, or_false] at hi
    rcases hi with rfl | rfl | rfl | rfl | rfl
    · exact execJ_ill hm (.inl hp)
    · exact execBr_ill hm (.inl hp)
    · exact execCall_ill hm (.inl hp)
    · exact execRet_ill hm (.inl hp)
    · exact execEnd_ill hm (.inl hp)
  case placed =>
    intro target plain goes
    refine ⟨fun a w => ⟨CoreSt.badLanding_none, fun m => CoreSt.badLanding_iff⟩, execJ_goes hm hp hw, fun h => ?notPlain,
      fun h d hd => ⟨?decider, ?others⟩,
      execCall_goes hm hp hw, fun h => ?badCall, fun a r => execRet_goes hm hp hw, fun h => ?noReturn, fun hl hr => ?end_⟩
    case notPlain => exact ⟨execJ_ill hm (.inr (branchFaults_ne_nil h)), execBr_ill hm (.inr (branchFaults_ne_nil h))⟩
    case decider =>
      rintro hx
      have hdecide : s.cxCore.decide s.cx.strand decA inv pred = (s.cxCore.pushOutcome d ((s.cxCore.strand d).pAt (4 + pred.toNat) != (inv == 1))).map
          (fun k => ((s.cxCore.strand d).pAt (4 + pred.toNat) != (inv == 1), k)) := by
        rw [CoreSt.decide, ← hd, hx]
        simp
      refine ⟨fun hfull => execBr_waits hm hp h (by rw [hdecide, CoreSt.pushOutcome_full hfull]; rfl), ?_⟩
      rintro b rfl hroom
      obtain ⟨k, hpush, hk, hself, hother⟩ := CoreSt.pushOutcome_room (b := (s.cxCore.strand d).pAt (4 + pred.toNat) != (inv == 1)) hroom
      refine execBr_goes hm hp hw h (by rw [hdecide, hpush]; rfl) hk (by rw [hx, hself, State.cxStrand, hx]) fun t _ ht y hy => ?_
      rw [ht, hother y hy]
    case others =>
      intro hx
      have hdecide : s.cxCore.decide s.cx.strand decA inv pred = s.cxCore.popOutcome s.cx.strand := by
        rw [CoreSt.decide, ← hd]
        simp [hx]
      refine ⟨fun hq => execBr_waits hm hp h (by rw [hdecide, CoreSt.popOutcome_nil hq]), fun q => ?_⟩
      have goesOn : ∀ b, s.cxStrand.outq = b :: q → _ := fun b hq => execBr_goes hm hp hw h (by rw [hdecide, CoreSt.popOutcome_cons hq])
        (OnlyStrands.setStrand _ _ _) (by rw [CoreSt.strand_setStrand]; rfl) (P := fun t => t.cxStrand.outq = q)
        fun t hx ht => by rw [State.cxStrand, ht, hx, CoreSt.strand_setStrand]
      exact ⟨fun hq => (goesOn true hq).1 rfl, fun hq => by
        obtain ⟨t, he, hpc, hmem, hout⟩ := (goesOn false hq).2 rfl
        exact ⟨t, he, hpc, hout, hmem⟩⟩
    case badCall =>
      refine execCall_ill hm (.inr fun hnil => ?_)
      obtain ⟨hb, hlen⟩ := List.append_eq_nil_iff.mp hnil
      rcases h with h | h
      · simp [h] at hlen
      · exact branchFaults_ne_nil h hb
    case noReturn => exact execRet_ill hm (.inr (by rw [h]; decide))
    case end_ =>
      obtain ⟨hpro, hepi⟩ := execEnd_goes hm hp hl hr
      exact ⟨hpro, hepi, fun hk => execEnd_ill hm (.inr (by rw [hk]; simp))⟩

end Sys2Proof.Machine
end

section
/-! PROOFS. Loops: how a strand enters one, what the end of an iteration does, and STAGE markers (R51 to R57, R69). -/

namespace Sys2Proof.Machine

/-! Predicates of stages. -/

theorem StrandSt.pAt_setP_self (t : StrandSt) {n : Nat} (b : Bool) (h : n < 8) : (t.setP n b).pAt n = b := by
  simp [StrandSt.setP, StrandSt.pAt, h]

/-- p0 to p3 are the predicates of the innermost level. -/
theorem StrandSt.pAt_setPreds (t : StrandSt) {j : Nat} (h : j < 4) : t.setPreds.pAt j = t.loops.head?.elim false (fun l => l.pred j) := by
  unfold StrandSt.setPreds
  simp only [List.foldl_cons, List.foldl_nil]
  obtain rfl | rfl | rfl | rfl : j = 0 ∨ j = 1 ∨ j = 2 ∨ j = 3 := by omega
  · rw [StrandSt.pAt_setP_ne _ _ (by decide), StrandSt.pAt_setP_ne _ _ (by decide), StrandSt.pAt_setP_ne _ _ (by decide),
      StrandSt.pAt_setP_self _ _ (by decide)]
  · rw [StrandSt.pAt_setP_ne _ _ (by decide), StrandSt.pAt_setP_ne _ _ (by decide), StrandSt.pAt_setP_self _ _ (by decide)]
  · rw [StrandSt.pAt_setP_ne _ _ (by decide), StrandSt.pAt_setP_self _ _ (by decide)]
  · rw [StrandSt.pAt_setP_self _ _ (by decide)]

theorem StrandSt.setPreds_changes (t : StrandSt) : t.setPreds = { t with p := t.setPreds.p } := by
  unfold StrandSt.setPreds
  simp only [List.foldl_cons, List.foldl_nil]
  rw [StrandSt.setP_changes, StrandSt.setP_changes (StrandSt.setP _ 1 _), StrandSt.setP_changes (StrandSt.setP _ 0 _), StrandSt.setP_changes t]

theorem Level.live_iff (l : Level) : l.live = true ↔ ∃ st, st < 4 ∧ l.pred st = true := by
  simp only [Level.live, List.any_eq_true, List.mem_cons, List.not_mem_nil, or_false]
  constructor
  · rintro ⟨st, h, hp⟩
    exact ⟨st, by omega, hp⟩
  · rintro ⟨st, h, hp⟩
    exact ⟨st, by omega, hp⟩

theorem Level.pred_known {l : Level} {n : Nat} (h : l.trip = .known n) (st : Nat) :
    l.pred st = decide (st < l.stages ∧ st ≤ l.i ∧ l.i - st < n) := by
  simp [Level.pred, h, Bool.decide_and]

theorem Level.pred_popped {l : Level} {recent : List Bool} (h : l.trip = .popped recent) (st : Nat) :
    l.pred st = (decide (st < l.stages) && recent.getD st false) := by
  simp only [Level.pred, h]

/-- A level of a known count has an iteration in some stage until its last stage has run the last one. -/
theorem Level.live_known {l : Level} {n : Nat} (h : l.trip = .known n) (h1 : 1 ≤ l.stages) (h4 : l.stages ≤ 4) :
    l.live = true ↔ 0 < n ∧ l.i + 1 < n + l.stages := by
  rw [Level.live_iff]
  simp only [Level.pred_known h, decide_eq_true_eq]
  constructor
  · rintro ⟨st, h⟩
    omega
  · rintro ⟨hn, hi⟩
    exact ⟨min (l.stages - 1) l.i, by omega⟩

/-- A level that has popped a 1 has an iteration in its first stage. -/
theorem Level.live_popped {l : Level} {recent : List Bool} (h : l.trip = .popped (true :: recent)) (h1 : 1 ≤ l.stages) : l.live = true := by
  rw [Level.live_iff]
  exact ⟨0, by decide, by simp [Level.pred_popped h, Nat.lt_of_lt_of_le Nat.zero_lt_one h1]⟩

/-! The end of an iteration. -/

/-- A level one iteration on (R52, R56). -/
def Level.onward (l : Level) (demand : Nat) : Level := { l.rotate demand with i := l.i + 1 }

/-- X counts the iterations of the outermost loop (R36, R52). -/
def CoreSt.counted (k : CoreSt) (t : Strand) (l : Level) : CoreSt :=
  if t == .x && l.outermost then { k with iteridx := k.iteridx + 1 } else k

/-- A strand goes back to the first word of the body of its innermost level, now `l` (R52). -/
def CoreSt.backTo (k : CoreSt) (t : Strand) (l : Level) (r : List Level) : CoreSt :=
  k.setStrand t ({ k.strand t with loops := l :: r, pc := l.first, atEnd := false }.setPreds)

theorem CoreSt.counted_changes (k : CoreSt) (t : Strand) (l : Level) :
    k.counted t l = { k with iteridx := if t = .x ∧ l.outermost = true then k.iteridx + 1 else k.iteridx } := by
  unfold CoreSt.counted
  by_cases h : t = .x ∧ l.outermost = true
  · simp [h]
  · rw [if_neg h, if_neg (by simpa using h)]

@[simp] theorem CoreSt.counted_strand (k : CoreSt) (t y : Strand) (l : Level) : (k.counted t l).strand y = k.strand y := by
  rw [CoreSt.counted_changes]
  cases y <;> rfl

theorem CoreSt.holdAfter_none {k : CoreSt} (h : k.hold = .none) (t : Strand) (l : Level) : k.holdAfter t l = k := by
  simp [CoreSt.holdAfter, h]

section
variable {k k1 : CoreSt} {t : Strand} {l l1 : Level} {r : List Level}

theorem OnlyStrands.hold (h : OnlyStrands k k1) : k1.hold = k.hold := by
  obtain ⟨_, _, _, _, rfl⟩ := h
  rfl

theorem OnlyStrands.demand (h : OnlyStrands k k1) : k1.demand = k.demand := by
  obtain ⟨_, _, _, _, rfl⟩ := h
  rfl

theorem OnlyStrands.epilogue (h : OnlyStrands k k1) : k1.epilogue = k.epilogue := by
  obtain ⟨_, _, _, _, rfl⟩ := h
  rfl

theorem OnlyStrands.iteridx (h : OnlyStrands k k1) : k1.iteridx = k.iteridx := by
  obtain ⟨_, _, _, _, rfl⟩ := h
  rfl

/-- A strand that leaves a loop: only its own state changes. -/
theorem CoreSt.leaveLoop_strand (k : CoreSt) (t : Strand) (l : Level) (r : List Level) : ∃ st, k.leaveLoop t l r = k.setStrand t st ∧ st.loops = r ∧
    (l.outermost = true → st.pc = k.epilogue ∧ st.phase = .epilogue) ∧
    (l.outermost = false → st.pc = (k.strand t).pc ∧ st.phase = (k.strand t).phase) := by
  refine ⟨_, rfl, ?_, fun ho => ?_, fun ho => ?_⟩
  · dsimp only
    split <;> rw [StrandSt.setPreds_changes]
  · rw [if_pos ho]
    exact ⟨rfl, rfl⟩
  · rw [if_neg (by simp [ho]), StrandSt.setPreds_changes]
    exact ⟨rfl, rfl⟩

theorem CoreSt.endIteration_dead (he : (k.strand t).atEnd = true) (hl : (k.strand t).loops = l :: r) (hd : l.dead = true) :
    k.endIteration t = some (k.leaveLoop t l r, false) := by
  unfold CoreSt.endIteration
  rw [he, hl]
  exact if_pos hd

theorem CoreSt.endIteration_waits {e : Stop} (he : (k.strand t).atEnd = true) (hl : (k.strand t).loops = l :: r) (hd : l.dead = false)
    (hn : k.nextTrip t l = .error e) : k.endIteration t = none := by
  unfold CoreSt.endIteration
  rw [he, hl]
  simp only [hd, hn]
  rfl

/-- Outside a pre-emption the end of an iteration goes back while some stage has one left, and leaves the loop otherwise. -/
theorem CoreSt.endIteration_next (he : (k.strand t).atEnd = true) (hl : (k.strand t).loops = l :: r) (hd : l.dead = false)
    (hn : k.nextTrip t l = .ok (l1, k1)) (hf : l1.first = l.first) (hk : OnlyStrands k k1) (hh : k.hold = .none) :
    ((l1.onward k.demand).live = true → k.endIteration t = some ((k1.counted t l).backTo t (l1.onward k.demand) r, k.badLanding l.first)) ∧
    ((l1.onward k.demand).live = false → k.endIteration t = some ((k1.counted t l).leaveLoop t l r, false)) := by
  have hc : (k1.counted t l).hold = .none := by
    rw [CoreSt.counted_changes]
    exact hk.hold.trans hh
  have hbad : (k1.counted t l).badLanding l.first = k.badLanding l.first := by
    rw [CoreSt.counted_changes]
    exact CoreSt.badLanding_congr hk.text hk.tbase _
  have hend : k.endIteration t = if (l1.onward k1.demand).live then
      some (((k1.counted t l).setStrand t
        ({ (k1.counted t l).strand t with loops := l1.onward k1.demand :: r, pc := l.first, atEnd := false }.setPreds)).holdAfter t l, (k1.counted t l).badLanding l.first)
      else some (((k1.counted t l).leaveLoop t l r).holdAfter t l, false) := by
    unfold CoreSt.endIteration
    rw [he, hl]
    simp only [hd, hn]
    rfl
  rw [hk.demand] at hend
  refine ⟨fun hlive => ?_, fun hlive => ?_⟩
  · rw [hend, if_pos hlive, CoreSt.holdAfter_none (by rw [CoreSt.setStrand_hold]; exact hc), hbad, ← hf]
    rfl
  · obtain ⟨st, hst, -⟩ := (k1.counted t l).leaveLoop_strand t l r
    rw [hend, if_neg (by simp [hlive]), CoreSt.holdAfter_none (by rw [hst, CoreSt.setStrand_hold]; exact hc)]

end

/-! What a strand learns of its trip count (R53). -/

section
variable {k k1 : CoreSt} {t : Strand} {l : Level}

theorem CoreSt.nextTrip_known {n : Nat} (ht : l.trip = .known n) (hp : l.pushes = false) : k.nextTrip t l = .ok (l, k) := by
  simp [CoreSt.nextTrip, ht, hp]

theorem CoreSt.nextTrip_pushes {n : Nat} (ht : l.trip = .known n) (hp : l.pushes = true) :
    k.nextTrip t l = (k.pushOutcome t (Decidable.decide (l.i + 1 < n))).map (fun k => ({ l with pushes := Decidable.decide (l.i + 1 < n) }, k)) := by
  simp [CoreSt.nextTrip, ht, hp]

theorem CoreSt.nextTrip_popped {recent : List Bool} (ht : l.trip = .popped (true :: recent)) :
    k.nextTrip t l = (k.popOutcome t).map (fun b => ({ l with trip := .popped (b.1 :: true :: recent.take 2) }, b.2)) := by
  simp [CoreSt.nextTrip, ht]

end

/-! LOOP_ITERATION_END. -/

/-- The strand goes back to the first word of its innermost body, where a bad landing is raised, its bases one down (R52, R56, R69). -/
def GoesBack (s : State) (l : Level) (r : List Level) (rest : State → Level → Prop) : Prop :=
  ∃ t l', exec .loopIterationEnd s =
      .next (if s.cxCore.badLanding l.first = true then raiseTrap t s.cx.core s.cx.strand l.first 0 3 0 l.first 0 else t) ∧
    t.cxStrand.pc = l.first ∧ t.cxStrand.loops = l' :: r ∧ t.cxStrand.atEnd = false ∧ t.mem = s.mem ∧ rest t l' ∧
    l' = { l with
      i := l.i + 1
      gBase := (l.gBase + 7) % 8
      aBase := (l.aBase + 3) % 4
      tBase := if 8 < s.cxCore.demand then (l.tBase + (s.cxCore.demand - 8) - 1) % (s.cxCore.demand - 8) else 0
      trip := l'.trip
      pushes := l'.pushes }

/-- The strand leaves its innermost loop, from the outermost one to the epilogue, the other strands of its core as in `k` (R49, R52). -/
def Leaves (s : State) (l : Level) (r : List Level) (k : CoreSt) : Prop :=
  ∃ t, exec .loopIterationEnd s = .next t ∧ t.cxStrand.loops = r ∧ t.mem = s.mem ∧
    (l.outermost = true → t.cxStrand.pc = s.cxCore.epilogue ∧ t.cxStrand.phase = .epilogue) ∧
    (l.outermost = false → t.cxStrand.pc = (k.strand s.cx.strand).pc ∧ t.cxStrand.phase = (k.strand s.cx.strand).phase) ∧
    t.cxCore.iteridx = k.iteridx ∧ ∀ y, y ≠ s.cx.strand → t.cxCore.strand y = k.strand y

section
variable {s : State} {l l1 : Level} {r : List Level} {k k1 : CoreSt}

theorem execLoopIterationEnd_some {b : Bool} (h : s.cxCore.endIteration s.cx.strand = some (k, b)) : exec .loopIterationEnd s =
    .next (if b = true then raiseTrap (s.setCore s.cx.core k) s.cx.core s.cx.strand (k.strand s.cx.strand).pc 0 3 0 (k.strand s.cx.strand).pc 0
      else s.setCore s.cx.core k) := by
  rw [show exec .loopIterationEnd s = execLoopIterationEnd s from rfl, execLoopIterationEnd, show s.core s.cx.core = s.cxCore from rfl, h]

theorem execLoopIterationEnd_none (h : s.cxCore.endIteration s.cx.strand = none) : exec .loopIterationEnd s = .next s := by
  rw [show exec .loopIterationEnd s = execLoopIterationEnd s from rfl, execLoopIterationEnd, show s.core s.cx.core = s.cxCore from rfl, h]

theorem leaves_of_endIteration (hk : k.epilogue = s.cxCore.epilogue)
    (h : s.cxCore.endIteration s.cx.strand = some (k.leaveLoop s.cx.strand l r, false)) :
    Leaves s l r k := by
  obtain ⟨st, hst, hloops, hout, hin⟩ := k.leaveLoop_strand s.cx.strand l r
  have hcore : (s.setCore s.cx.core (k.setStrand s.cx.strand st)).cxCore = k.setStrand s.cx.strand st := State.core_setCore_self _ _ _
  have hstrand : (s.setCore s.cx.core (k.setStrand s.cx.strand st)).cxStrand = st := by
    rw [State.cxStrand, hcore]
    exact CoreSt.strand_setStrand _ _ _
  rw [hst] at h
  rw [hk] at hout
  refine ⟨_, execLoopIterationEnd_some h, ?_⟩
  simp only [Bool.false_eq_true, if_false, hstrand, hcore]
  exact ⟨hloops, rfl, hout, hin, CoreSt.setStrand_iteridx _ _ _, fun y hy => CoreSt.strand_setStrand_ne _ _ _ _ hy⟩

/-- Outside a pre-emption the end of an iteration goes back while some stage has one left, and leaves the loop otherwise. -/
theorem iterationEnd_of_next (he : s.cxStrand.atEnd = true) (hl : s.cxStrand.loops = l :: r) (hd : l.dead = false)
    (hn : s.cxCore.nextTrip s.cx.strand l = .ok (l1, k1)) (hl1 : l1 = { l with trip := l1.trip, pushes := l1.pushes })
    (hk : OnlyStrands s.cxCore k1) (hh : s.cxCore.hold = .none) :
    ((l1.onward s.cxCore.demand).live = true → ∀ rest : State → Level → Prop,
      (∀ t : State, t.cxCore.iteridx = (k1.counted s.cx.strand l).iteridx → (∀ j, j < 4 → t.cxStrand.pAt j = (l1.onward s.cxCore.demand).pred j) →
        t.cxStrand.outq = (k1.strand s.cx.strand).outq → (∀ y, y ≠ s.cx.strand → t.cxCore.strand y = k1.strand y) →
        rest t (l1.onward s.cxCore.demand)) → GoesBack s l r rest) ∧
    ((l1.onward s.cxCore.demand).live = false → Leaves s l r (k1.counted s.cx.strand l)) := by
  have hf : l1.first = l.first := by rw [hl1]
  obtain ⟨hback, hleave⟩ := CoreSt.endIteration_next he hl hd hn hf hk hh
  refine ⟨fun hlive rest hrest => ?_, fun hlive => leaves_of_endIteration ?_ (hleave hlive)⟩
  · generalize hl' : l1.onward s.cxCore.demand = l' at *
    generalize hK : (k1.counted s.cx.strand l).backTo s.cx.strand l' r = K at hback
    have hfirst : l'.first = l.first := by
      rw [← hl', ← hf]
      rfl
    have hcore : (s.setCore s.cx.core K).cxCore = K := State.core_setCore_self _ _ _
    have hst : K.strand s.cx.strand = { k1.strand s.cx.strand with loops := l' :: r, pc := l.first, atEnd := false }.setPreds := by
      rw [← hK, CoreSt.backTo, CoreSt.strand_setStrand, CoreSt.counted_strand, hfirst]
    have hstrand : (s.setCore s.cx.core K).cxStrand = K.strand s.cx.strand := by
      rw [State.cxStrand, hcore]
      rfl
    have hch := StrandSt.setPreds_changes { k1.strand s.cx.strand with loops := l' :: r, pc := l.first, atEnd := false }
    rw [← hst] at hch
    have hpc : (K.strand s.cx.strand).pc = l.first := by rw [hch]
    refine ⟨s.setCore s.cx.core K, l', ?_, ?_, ?_, ?_, rfl, hrest _ ?_ ?_ ?_ ?_, ?_⟩
    · rw [execLoopIterationEnd_some (hback hlive), hpc]
    · rw [hstrand, hpc]
    · rw [hstrand, hch]
    · rw [hstrand, hch]
    · rw [hcore, ← hK]
      exact CoreSt.setStrand_iteridx _ _ _
    · intro j hj
      rw [hstrand, hst, StrandSt.pAt_setPreds _ hj]
      rfl
    · rw [hstrand, hch]
    · intro y hy
      rw [hcore, ← hK, CoreSt.backTo, CoreSt.strand_setStrand_ne _ _ _ _ hy, CoreSt.counted_strand]
    · rw [← hl', hl1]
      rfl
  · rw [CoreSt.counted_changes]
    exact hk.epilogue

theorem Level.onward_live_known {n : Nat} (ht : l.trip = .known n) (h1 : 1 ≤ l.stages) (h4 : l.stages ≤ 4) (demand : Nat) :
    (l.onward demand).live = true ↔ 0 < n ∧ l.i + 2 < n + l.stages :=
  Level.live_known (l := l.onward demand) ht h1 h4

/-- The end of an iteration of a loop whose count is known, and told to nobody. -/
theorem iterationEnd_known {n : Nat} (he : s.cxStrand.atEnd = true) (hl : s.cxStrand.loops = l :: r) (hd : l.dead = false) (ht : l.trip = .known n)
    (hp : l.pushes = false) (hh : s.cxCore.hold = .none) (h1 : 1 ≤ l.stages) (h4 : l.stages ≤ 4) :
    (0 < n → l.i + 2 < n + l.stages → GoesBack s l r (fun t l' => l'.trip = l.trip ∧ l'.pushes = false ∧
      (∀ j, j < 4 → t.cxStrand.pAt j = decide (j < l.stages ∧ j ≤ l.i + 1 ∧ l.i + 1 - j < n)) ∧
      t.cxCore.iteridx = if s.cx.strand = .x ∧ l.outermost = true then s.cxCore.iteridx + 1 else s.cxCore.iteridx)) ∧
    (n = 0 ∨ n + l.stages ≤ l.i + 2 → Leaves s l r (s.cxCore.counted s.cx.strand l)) := by
  obtain ⟨hback, hleave⟩ := iterationEnd_of_next he hl hd (CoreSt.nextTrip_known ht hp) rfl (OnlyStrands.refl _) hh
  have hlive := Level.onward_live_known ht h1 h4 s.cxCore.demand
  refine ⟨fun hn hi => hback (hlive.mpr ⟨hn, hi⟩) _ fun t hit hpred _ _ => ⟨rfl, hp, fun j hj => ?_, ?_⟩, fun h => hleave ?_⟩
  · rw [hpred j hj]
    exact Level.pred_known (l := l.onward s.cxCore.demand) ht j
  · rw [hit, CoreSt.counted_changes]
  · rw [← Bool.not_eq_true, hlive]
    omega

/-- The end of an iteration of a follower that has yet to learn whether there is another. -/
theorem iterationEnd_popped {recent : List Bool} (he : s.cxStrand.atEnd = true) (hl : s.cxStrand.loops = l :: r) (hd : l.dead = false)
    (ht : l.trip = .popped (true :: recent)) (hh : s.cxCore.hold = .none) (h1 : 1 ≤ l.stages) :
    (s.cxStrand.outq = [] → exec .loopIterationEnd s = .next s) ∧
    (∀ q, s.cxStrand.outq = true :: q → GoesBack s l r (fun t l' => t.cxStrand.outq = q ∧ t.cxStrand.pAt 0 = true ∧
      l'.trip = .popped (true :: true :: recent.take 2) ∧ l'.pushes = l.pushes)) := by
  refine ⟨fun hq => execLoopIterationEnd_none (CoreSt.endIteration_waits he hl hd (e := .stall) ?_), fun q hq => ?_⟩
  · rw [CoreSt.nextTrip_popped ht, CoreSt.popOutcome_nil hq]
    rfl
  · have hn : s.cxCore.nextTrip s.cx.strand l = .ok ({ l with trip := .popped (true :: true :: recent.take 2) },
        s.cxCore.setStrand s.cx.strand { s.cxStrand with outq := q }) := by
      rw [CoreSt.nextTrip_popped ht, CoreSt.popOutcome_cons hq]
      rfl
    refine (iterationEnd_of_next he hl hd hn rfl (OnlyStrands.setStrand _ _ _) hh).1 (Level.live_popped rfl h1) _
      fun t _ hpred hout _ => ⟨?_, ?_, rfl, rfl⟩
    · rw [hout, CoreSt.strand_setStrand]
    · rw [hpred 0 (by decide), Level.pred_popped rfl]
      exact (Bool.and_eq_true _ _).mpr ⟨decide_eq_true h1, rfl⟩

/-- The end of an iteration of X where the other strands are told whether there is another. -/
theorem iterationEnd_told {n : Nat} (hx : s.cx.strand = .x) (he : s.cxStrand.atEnd = true) (hl : s.cxStrand.loops = l :: r) (hd : l.dead = false)
    (ht : l.trip = .known n) (hp : l.pushes = true) (hh : s.cxCore.hold = .none) (h1 : 1 ≤ l.stages) (h4 : l.stages ≤ 4) (h0 : 0 < n) :
    ((∀ y, y ≠ .x → (s.cxCore.strand y).outq.length < 32) →
      let told := fun (t : State) => ∀ y, y ≠ .x → (t.cxCore.strand y).outq = (s.cxCore.strand y).outq ++ [decide (l.i + 1 < n)]
      (l.i + 2 < n + l.stages → GoesBack s l r (fun t l' => told t ∧ l'.trip = l.trip ∧ l'.pushes = decide (l.i + 1 < n))) ∧
      (n + l.stages ≤ l.i + 2 → ∃ t, exec .loopIterationEnd s = .next t ∧ t.mem = s.mem ∧ told t ∧ t.cxStrand.loops = r)) ∧
    ((∃ y, y ≠ .x ∧ 32 ≤ (s.cxCore.strand y).outq.length) → exec .loopIterationEnd s = .next s) := by
  have hpush := CoreSt.nextTrip_pushes (k := s.cxCore) (t := s.cx.strand) ht hp
  refine ⟨fun hroom => ?_, fun hfull => execLoopIterationEnd_none (CoreSt.endIteration_waits he hl hd (e := .stall) ?_)⟩
  · obtain ⟨k1, hk1, hk, -, hother⟩ := CoreSt.pushOutcome_room (t := .x) (b := decide (l.i + 1 < n)) hroom
    rw [← hx] at hk1
    rw [hk1] at hpush
    obtain ⟨hback, hleave⟩ := iterationEnd_of_next he hl hd hpush rfl hk hh
    have hlive := Level.onward_live_known (l := { l with pushes := decide (l.i + 1 < n) }) ht h1 h4 s.cxCore.demand
    refine ⟨fun hi => hback (hlive.mpr ⟨h0, hi⟩) _ fun t _ _ _ ho => ⟨fun y hy => ?_, rfl, rfl⟩, fun hi => ?_⟩
    · rw [ho y (by rwa [hx]), hother y hy]
    · obtain ⟨t, ht', hloops, hmem, -, -, -, ho⟩ := hleave (by rw [← Bool.not_eq_true, hlive]; dsimp only; omega)
      refine ⟨t, ht', hmem, fun y hy => ?_, hloops⟩
      rw [ho y (by rwa [hx]), CoreSt.counted_strand, hother y hy]
  · rw [hpush, hx, CoreSt.pushOutcome_full hfull]
    rfl

/-- A loop of no iteration is left at the end of its body (R52). -/
theorem iterationEnd_dead (he : s.cxStrand.atEnd = true) (hl : s.cxStrand.loops = l :: r) (hd : l.dead = true) : Leaves s l r s.cxCore :=
  leaves_of_endIteration rfl (CoreSt.endIteration_dead he hl hd)

/-- The body of a loop of no iteration is walked as suppressed (R52). -/
theorem suppressed_of_dead (hl : s.cxStrand.loops = l :: r) (hd : l.dead = true) (hret : s.cxStrand.ret.length = l.retDepth)
    (hin : l.holds s.cxStrand.pc = true) : s.cxCore.suppressed s.cxStrand = true := by
  rw [CoreSt.suppressed, hl]
  simp [hret, hin, hd]

/-! STAGE. -/

theorem execStage_marks (hm : s.cx.mods = Mods.none) (hp : s.cx.misplaced = false) {st : BitVec 2} {b : Nat × Nat} {w : Word} {c : WordClass}
    (hb : s.cxCore.innermost (s.cxCore.textIdx s.cx.head) = some b) (hw : s.cxCore.slot (b.1 - 2) = some (w, c)) :
    (st.toNat ≤ (bits w 26 2).toNat → exec (.stage st) s = .next (After s s.cxCore)) ∧
    ((bits w 26 2).toNat < st.toNat → exec (.stage st) s = .next (raiseIll s .execModel)) := by
  have hex : exec (.stage st) s = issueCore s (fault? (decide ((bits w 26 2).toNat < st.toNat)) .execModel) .ok := by
    rw [show exec (.stage st) s = execStage st s from rfl, execStage]
    simp only [hb, hw, Option.elim]
  refine ⟨fun h => ?_, fun h => ?_⟩
  · rw [hex]
    exact issueCore_ok (by rw [decide_eq_false (by omega), fault?_false]) (ready_of_none hm hp) rfl rfl
  · rw [hex, decide_eq_true h]
    exact issue_execModel hm (fun _ => mem_fault?) (.inr (by decide))

theorem execStage_ill (hm : s.cx.mods = Mods.none) {st : BitVec 2}
    (h : s.cxCore.innermost (s.cxCore.textIdx s.cx.head) = none ∨ s.cx.misplaced = true) :
    exec (.stage st) s = .next (raiseIll s .execModel) := by
  rw [show exec (.stage st) s = execStage st s from rfl, execStage]
  refine issue_execModel hm (fun _ => mem_fault?) (h.symm.imp_right fun h => ?_)
  simp [h]

end

/-! LOOP. -/

/-- The level that a LOOP at `head` opens (R51, R52). -/
def Level.opened (head : BitVec 32) (klen : BitVec 14) (sm1 : BitVec 2) (rot : BitVec 1) (tr : Trip) (pushes : Bool) (st : StrandSt) : Level :=
  let l : Level :=
    { first := head + 8, last := head + 8 + BitVec.ofNat 32 (4 * klen.toNat), stages := sm1.toNat + 1, i := 0, trip := tr, pushes := pushes,
      rot := rot = 1, gBase := 0, aBase := 0, tBase := 0, retDepth := st.ret.length,
      outermost := st.phase == .kernel && st.loops.isEmpty, dead := false }
  { l with dead := !l.live }

section
variable {head : BitVec 32} {klen : BitVec 14} {sm1 : BitVec 2} {rot : BitVec 1} {tr : Trip} {pushes : Bool} {st : StrandSt}

theorem Level.opened_dead : (Level.opened head klen sm1 rot tr pushes st).dead = !(Level.opened head klen sm1 rot tr pushes st).live := rfl

theorem Level.opened_known {n : Nat} (ht : tr = .known n) : (Level.opened head klen sm1 rot tr pushes st).pred 0 = decide (0 < n) ∧
    ((Level.opened head klen sm1 rot tr pushes st).dead = true ↔ n = 0) := by
  generalize hl : Level.opened head klen sm1 rot tr pushes st = l
  have hst : l.stages = sm1.toNat + 1 := by rw [← hl]; rfl
  have hi : l.i = 0 := by rw [← hl]; rfl
  have htrip : l.trip = .known n := by rw [← hl, ← ht]; rfl
  have hdead : l.dead = !l.live := by rw [← hl]; rfl
  have hlive := Level.live_known htrip (by omega) (by have := sm1.isLt; omega)
  refine ⟨by rw [Level.pred_known htrip, hi, hst]; simp, ?_⟩
  rw [hdead, Bool.not_eq_true', ← Bool.not_eq_true, hlive]
  omega

theorem Level.opened_popped {b : Bool} (ht : tr = .popped [b]) : (Level.opened head klen sm1 rot tr pushes st).pred 0 = b ∧
    (Level.opened head klen sm1 rot tr pushes st).dead = !b := by
  generalize hl : Level.opened head klen sm1 rot tr pushes st = l
  have hst : l.stages = sm1.toNat + 1 := by rw [← hl]; rfl
  have htrip : l.trip = .popped [b] := by rw [← hl, ← ht]; rfl
  have hdead : l.dead = !l.live := by rw [← hl]; rfl
  have hpred0 : l.pred 0 = b := by rw [Level.pred_popped htrip, hst]; simp
  refine ⟨hpred0, ?_⟩
  have hlive : l.live = b := by simp [Level.live, hpred0, Level.pred_popped htrip]
  rw [hdead, hlive]

/-- No stage but the first has an iteration as a loop is entered. -/
theorem Level.opened_later {j : Nat} (hj : 0 < j) (ht : (∃ n, tr = .known n) ∨ ∃ b, tr = .popped [b]) :
    (Level.opened head klen sm1 rot tr pushes st).pred j = false := by
  obtain ⟨i, rfl⟩ := Nat.exists_eq_succ_of_ne_zero hj.ne'
  obtain ⟨n, rfl⟩ | ⟨b, rfl⟩ := ht
  · rw [Level.pred_known rfl, decide_eq_false_iff_not]
    rintro ⟨-, h, -⟩
    exact absurd h (Nat.not_succ_le_zero i)
  · rw [Level.pred_popped rfl]
    simp

end

section
variable {k k' : CoreSt} {t : Strand} {trip : BitVec 32} {tsrc : BitVec 2} {tr : Trip} {pushes : Bool}

theorem OnlyStrands.tk (h : OnlyStrands k k') : k'.tk = k.tk := by
  obtain ⟨_, _, _, _, rfl⟩ := h
  rfl

theorem CoreSt.pushOutcome_ok {b : Bool} (h : k.pushOutcome t b = .ok k') : OnlyStrands k k' ∧ k'.strand t = k.strand t ∧
    ∀ y, y ≠ t → k'.strand y = { k.strand y with outq := (k.strand y).outq ++ [b] } := by
  by_cases hroom : ∀ y, y ≠ t → (k.strand y).outq.length < 32
  · obtain ⟨k1, hk1, hk⟩ := CoreSt.pushOutcome_room (b := b) hroom
    obtain rfl := Except.ok.inj (hk1.symm.trans h)
    exact hk
  · push Not at hroom
    rw [CoreSt.pushOutcome_full hroom] at h
    cases h

theorem CoreSt.popOutcome_ok {b : Bool} (h : k.popOutcome t = .ok (b, k')) :
    ∃ q, (k.strand t).outq = b :: q ∧ k' = k.setStrand t { k.strand t with outq := q } := by
  cases hq : (k.strand t).outq with
  | nil =>
    rw [CoreSt.popOutcome_nil hq] at h
    cases h
  | cons c q =>
    rw [CoreSt.popOutcome_cons hq] at h
    cases h
    exact ⟨q, rfl, rfl⟩

theorem CoreSt.enterTrip_x (h : 2 ≤ tsrc.toNat) : k.enterTrip .x trip tsrc =
    (k.pushOutcome .x (0 < (k.gAt (physG k.x (bits trip 0 5).toNat)).toNat)).map (fun k' => (Trip.known (k.gAt (physG k.x (bits trip 0 5).toNat)).toNat,
      Decidable.decide (0 < (k.gAt (physG k.x (bits trip 0 5).toNat)).toNat), k')) := by
  obtain ⟨n, hn⟩ := Nat.exists_eq_add_of_le' h
  unfold CoreSt.enterTrip
  rw [hn]
  rfl

theorem CoreSt.enterTrip_follower (h : 2 ≤ tsrc.toNat) (ht : t ≠ .x) :
    k.enterTrip t trip tsrc = (k.popOutcome t).map (fun r => (.popped [r.1], false, r.2)) := by
  obtain ⟨n, hn⟩ := Nat.exists_eq_add_of_le' h
  unfold CoreSt.enterTrip
  rw [hn]
  cases t with
  | x => exact absurd rfl ht
  | _ => rfl

/-- What a strand that enters a LOOP knows of its trip count, and what becomes of the outcome queues (R51, R53). -/
theorem CoreSt.enterTrip_ok (h : k.enterTrip t trip tsrc = .ok (tr, pushes, k')) : ((∃ n, tr = .known n) ∨ ∃ b, tr = .popped [b]) ∧
    k'.tk = k.tk ∧ k'.strand t = { k.strand t with outq := (k'.strand t).outq } ∧
    (tsrc = 0 → tr = .known trip.toNat) ∧ (tsrc = 1 → tr = .known ((k.kAt (bits trip 0 4).toNat).toNat % 2 ^ 32)) ∧
    (tsrc = 2 → t = .x → tr = .known (k.gAt (physG k.x (bits trip 0 5).toNat)).toNat ∧
      ∀ y, y ≠ .x → (k'.strand y).outq = (k.strand y).outq ++ [Decidable.decide (0 < (k.gAt (physG k.x (bits trip 0 5).toNat)).toNat)]) ∧
    (tsrc = 2 → t ≠ .x → ∃ b, (k.strand t).outq = b :: (k'.strand t).outq ∧ tr = .popped [b]) := by
  obtain h0 | h1 | h2 : tsrc = 0 ∨ tsrc = 1 ∨ 2 ≤ tsrc.toNat := by
    have := tsrc.isLt
    rw [← BitVec.toNat_inj, ← BitVec.toNat_inj]
    simp
    omega
  case inl =>
    subst h0
    cases h
    exact ⟨.inl ⟨_, rfl⟩, rfl, rfl, fun _ => rfl, nofun, nofun, nofun⟩
  case inr.inl =>
    subst h1
    cases h
    exact ⟨.inl ⟨_, rfl⟩, rfl, rfl, nofun, fun _ => by rw [BitVec.toNat_setWidth], nofun, nofun⟩
  case inr.inr =>
    have h01 : tsrc ≠ 0 ∧ tsrc ≠ 1 := ⟨by rintro rfl; exact absurd h2 (by decide), by rintro rfl; exact absurd h2 (by decide)⟩
    by_cases ht : t = .x
    · subst ht
      rw [CoreSt.enterTrip_x h2] at h
      cases hp : k.pushOutcome .x (0 < (k.gAt (physG k.x (bits trip 0 5).toNat)).toNat) with
      | error e =>
        rw [hp] at h
        cases h
      | ok k1 =>
        rw [hp] at h
        cases h
        obtain ⟨hk, hself, hother⟩ := CoreSt.pushOutcome_ok hp
        exact ⟨.inl ⟨_, rfl⟩, hk.tk, by rw [hself], fun h => absurd h h01.1, fun h => absurd h h01.2, fun _ _ => ⟨rfl, fun y hy => by rw [hother y hy]⟩,
          fun _ h => absurd rfl h⟩
    · rw [CoreSt.enterTrip_follower h2 ht] at h
      cases hp : k.popOutcome t with
      | error e =>
        rw [hp] at h
        cases h
      | ok b =>
        rw [hp] at h
        cases h
        obtain ⟨q, hq, hk⟩ := CoreSt.popOutcome_ok hp
        have hself : b.2.strand t = { k.strand t with outq := q } := by rw [hk, CoreSt.strand_setStrand]
        exact ⟨.inr ⟨_, rfl⟩, by rw [hk, CoreSt.setStrand_tk], by rw [hself], fun h => absurd h h01.1, fun h => absurd h h01.2, fun _ h => absurd h ht,
          fun _ _ => ⟨b.1, by rw [hself, hq], rfl⟩⟩

end

theorem after_of_none {s : State} (hm : s.cx.mods = Mods.none) (k : CoreSt) :
    After s k = (s.setCore s.cx.core k).modCxStrand (fun t => t.advance s.cx.next s.cx.words) := retire_of_none (v := s.setCore s.cx.core k) hm

theorem execLoop_opens {s : State} {trip : BitVec 32} {rot : BitVec 1} {tsrc sm1 : BitVec 2} {klen : BitVec 14} {tr : Trip} {pushes : Bool} {k : CoreSt}
    (hm : s.cx.mods = Mods.none) (hp : s.cx.misplaced = false) (hf : loopFaults s.cxCore s.cxStrand s.cx.head tsrc klen = [])
    (h : s.cxCore.enterTrip s.cx.strand trip tsrc = .ok (tr, pushes, k)) : ∃ t, exec (.loop trip rot tsrc sm1 klen) s = .next t ∧
      t.cxStrand.loops = Level.opened s.cx.head klen sm1 rot tr pushes s.cxStrand :: s.cxStrand.loops ∧ t.cxStrand.pc = s.cx.next ∧ t.mem = s.mem ∧
      t.cxStrand.outq = (k.strand s.cx.strand).outq ∧ (∀ y, y ≠ s.cx.strand → t.cxCore.strand y = k.strand y) ∧
      ∀ j, j < 4 → t.cxStrand.pAt j = (Level.opened s.cx.head klen sm1 rot tr pushes s.cxStrand).pred j := by
  obtain ⟨-, htk, hst, -⟩ := CoreSt.enterTrip_ok h
  generalize hl : Level.opened s.cx.head klen sm1 rot tr pushes s.cxStrand = l
  generalize hu : { k.strand s.cx.strand with loops := l :: s.cxStrand.loops } = u
  have hbody : s.cxCore.enterTrip s.cx.strand trip tsrc >>= (fun (tr, pushes, k) =>
      .ok (k.setStrand s.cx.strand ({ k.strand s.cx.strand with
        loops := Level.opened s.cx.head klen sm1 rot tr pushes (k.strand s.cx.strand) :: (k.strand s.cx.strand).loops }.setPreds))) =
      .ok (k.setStrand s.cx.strand u.setPreds) := by
    rw [h, ← hu, ← hl]
    show Except.ok _ = _
    rw [hst]
    rfl
  have hgone : (After s (k.setStrand s.cx.strand u.setPreds)).cxCore = k.setStrand s.cx.strand (u.setPreds.advance s.cx.next s.cx.words) := by
    rw [after_of_none hm, State.cxCore_modCxStrand, State.cxStrand, State.cxCore_setCore]
    show (k.setStrand s.cx.strand u.setPreds).setStrand s.cx.strand (((k.setStrand s.cx.strand u.setPreds).strand s.cx.strand).advance _ _) = _
    rw [CoreSt.strand_setStrand, CoreSt.setStrand_setStrand]
  have hown : (After s (k.setStrand s.cx.strand u.setPreds)).cxStrand = u.setPreds.advance s.cx.next s.cx.words := by
    rw [State.cxStrand, hgone, after_of_none hm]
    exact CoreSt.strand_setStrand _ _ _
  have hch := StrandSt.setPreds_changes u
  refine ⟨After s (k.setStrand s.cx.strand u.setPreds), ?_, ?_, ?_, ?_, ?_, fun y hy => ?_, fun j hj => ?_⟩
  · refine (show exec (.loop trip rot tsrc sm1 klen) s = execLoop trip rot tsrc sm1 klen s from rfl).trans ?_
    rw [execLoop]
    exact issueCore_ok hf (ready_of_none hm hp) hbody (by rw [CoreSt.setStrand_tk, htk])
  · rw [hown, hch, ← hu]
    rfl
  · rw [hown]
    rfl
  · rw [after_of_none hm]
    rfl
  · rw [hown, hch, ← hu]
    rfl
  · rw [hgone, CoreSt.strand_setStrand_ne _ _ _ _ hy]
  · rw [hown]
    refine (StrandSt.pAt_setPreds u hj).trans ?_
    rw [← hu]
    rfl

/-- Settles O44: LOOP opens its level, the end of an iteration by what the strand knows of its trip count, and STAGE markers. -/
theorem loopsRunTheirIterations : Obligations.LoopsRunTheirIterations := by
  intro s trip rot tsrc sm1 st klen
  refine ⟨fun hm hp hf tr pushes k h => ?loop, fun l r n he hl hd ht hpu hh h1 h4 => ?known,
    fun l r recent he hl hd ht hh h1 => iterationEnd_popped he hl hd ht hh h1,
    fun l r n hx he hl hd ht hpu hh h1 h4 h0 => iterationEnd_told hx he hl hd ht hpu hh h1 h4 h0, fun l r hl hd => ?dead,
    fun hm hp b w c hb hw => execStage_marks hm hp hb hw, fun hm h => execStage_ill hm h⟩
  case loop =>
    obtain ⟨htr, -, -, h0, h1, h2x, h2f⟩ := CoreSt.enterTrip_ok h
    obtain ⟨t, hex, hloops, hpc, hmem, hout, hother, hpred⟩ := execLoop_opens (rot := rot) (sm1 := sm1) hm hp hf h
    refine ⟨t, _, hex, hloops, rfl, rfl, rfl, rfl, rfl, ?_, rfl, rfl, rfl, hpc, hmem, h0, h1, fun h2 hx => ?_,
      fun h2 hx => ?_, fun n hn => ?_, fun b hb => ?_,
      fun j hj hj4 => ?_⟩
    · exact decide_eq_true_iff
    · obtain ⟨hn, ho⟩ := h2x h2 hx
      exact ⟨hn, fun y hy => by rw [hother y (by rwa [hx]), ho y hy]⟩
    · rw [hout]
      exact h2f h2 hx
    · rw [hpred 0 (by decide)]
      exact Level.opened_known hn
    · rw [hpred 0 (by decide)]
      exact Level.opened_popped hb
    · rw [hpred j hj4, Level.opened_later hj htr]
  case known =>
    obtain ⟨hback, hleave⟩ := iterationEnd_known he hl hd ht hpu hh h1 h4
    refine ⟨hback, fun h => ?_⟩
    obtain ⟨t, hex, hloops, hmem, hout, hin, hit, -⟩ := hleave h
    rw [CoreSt.counted_strand] at hin
    exact ⟨t, hex, hloops, hmem, hout, hin, by rw [hit, CoreSt.counted_changes]⟩
  case dead =>
    refine ⟨suppressed_of_dead hl hd, fun he => ?_⟩
    obtain ⟨t, hex, hloops, hmem, hout, hin, hit, ho⟩ := iterationEnd_dead he hl hd
    exact ⟨t, hex, hloops, hmem, hit, ho, hout, fun h => (hin h).1⟩

end Sys2Proof.Machine
end

section
/-! PROOFS. The words of M: templates, the commands that enter the matrix queue, and the licence (R200 to R208, R217, R218). -/

namespace Sys2Proof.Machine

/-! What retirement leaves of the core that issues. -/

theorem retire_cx (s : State) : (retire s).cx = s.cx := by
  obtain ⟨h, -⟩ := (retire_changes s).1
  rw [h]

theorem retire_mem (s : State) : (retire s).mem = s.mem := by
  obtain ⟨h, -⟩ := (retire_changes s).1
  rw [h]

theorem retire_cxCore (s : State) : Passed s.cx.strand s.cxCore (retire s).cxCore := by
  show Passed _ _ ((retire s).core (retire s).cx.core)
  rw [retire_cx]
  exact (retire_changes s).2

theorem retire_cxStrand_pc (s : State) : (retire s).cxStrand.pc = s.cx.next := by
  rw [State.cxStrand, State.cxCore, retire_cx]
  exact retire_pc s

section
variable {t : Strand} {k k' : CoreSt}

theorem Passed.mq (h : Passed t k k') : k'.mq = k.mq := by
  obtain ⟨n, st, -, rfl⟩ := h
  exact CoreSt.setStrand_mq _ _ _

theorem Passed.tileops (h : Passed t k k') : k'.tileops = k.tileops := by
  obtain ⟨n, st, -, rfl⟩ := h
  exact CoreSt.setStrand_tileops _ _ _

theorem Passed.busy (h : Passed t k k') : k'.busy = k.busy := by
  obtain ⟨n, st, -, rfl⟩ := h
  exact CoreSt.setStrand_busy _ _ _

theorem Passed.owed (h : Passed t k k') : k'.owed = k.owed := by
  obtain ⟨n, st, -, rfl⟩ := h
  exact CoreSt.setStrand_owed _ _ _

theorem Passed.wentOn (h : Passed t k k') : WentOn (k.strand t) (k'.strand t) := by
  obtain ⟨n, st, hst, rfl⟩ := h
  cases t <;> exact hst

theorem WentOn.pAt {u v : StrandSt} (h : WentOn u v) (n : Nat) : v.pAt n = u.pAt n := by
  rw [h]
  rfl

end

/-! The commands that enter the matrix queue. -/

theorem CoreSt.setBusy_rowBusy (l : List RowName) (id : Nat) (k : CoreSt) : ∀ r, r ∈ l ∨ k.rowBusy r = true →
    (l.foldl (fun k r => k.setBusy r id) k).rowBusy r = true := by
  induction l generalizing k with
  | nil => exact fun r h => h.resolve_left List.not_mem_nil
  | cons n l ih =>
    refine fun r h => ih _ r ?_
    rw [List.mem_cons] at h
    have hn : (k.setBusy n id).rowBusy r = (k.rowBusy r || n == r) := by simp [CoreSt.rowBusy, CoreSt.setBusy]
    rw [hn, Bool.or_eq_true, beq_iff_eq]
    tauto

/-- What a command that enters the queue changes of its core: the queue, the tile operations, its rows, which are busy (R208). -/
theorem CoreSt.enterMat_changes (k : CoreSt) (op : MatOp) (areg breg : Nat) (sig : Option (BitVec 4)) : ∃ (m : MatCmd) (b : List Busy),
    k.enterMat op areg breg sig = { k with mq := k.mq ++ [m], tileops := k.tileops + 1, nextId := k.nextId + 1, busy := b } ∧
    m.op = op ∧ m.sig = sig ∧ m.executed = false ∧ ∀ r ∈ m.destRows, (k.enterMat op areg breg sig).rowBusy r = true := by
  unfold CoreSt.enterMat
  extract_lets m k'
  obtain ⟨b, hb⟩ := CoreSt.foldl_setBusy m.destRows m.id k'
  exact ⟨m, b, hb, rfl, rfl, rfl, fun r hr => CoreSt.setBusy_rowBusy _ _ _ r (.inl hr)⟩

/-- A command of M enters the matrix queue and retires, its signal deferred to its completion (R208). -/
theorem issue_enters {s u : State} {faults : List IllCause} {body : State → Try State} {f : CoreSt → CoreSt} {op : MatOp} {areg breg n : Nat}
    (hf : faults = []) (hr : Ready s u) (hb : body u = .ok (u.modCx f).deferSig)
    (hk : f u.cxCore = { u.cxCore.enterMat op areg breg u.cx.mods.sig with mqAt := n }) :
    ∃ t m, issue s faults body = .next t ∧ t.cxCore.mq = u.cxCore.mq ++ [m] ∧ m.op = op ∧ m.sig = s.cx.mods.sig ∧ m.executed = false ∧
      t.cxCore.tileops = u.cxCore.tileops + 1 ∧ t.cxStrand.pc = s.cx.next ∧ t.mem = s.mem ∧ ∀ r ∈ m.destRows, t.cxCore.rowBusy r = true := by
  obtain ⟨m, b, hm, hop, hsig, hex, hbusy⟩ := u.cxCore.enterMat_changes op areg breg u.cx.mods.sig
  have hcx := takeWait_cx hr.1.2
  have hcore : (u.modCx f).deferSig.cxCore = { u.cxCore.enterMat op areg breg u.cx.mods.sig with mqAt := n } :=
    (State.core_modCore_self _ _ _).trans hk
  have hp := retire_cxCore (u.modCx f).deferSig
  refine ⟨_, m, issue_ok hf hr.1 hb (sigStuck_deferSig _), ?_, hop, hsig.trans (by rw [hcx]), hex, ?_, ?_, ?_, fun r hr => ?_⟩
  · rw [hp.mq, hcore, hm]
  · rw [hp.tileops, hcore, hm]
  · rw [retire_cxStrand_pc, ← hcx]
    rfl
  · rw [retire_mem]
    exact (SameLicence.takeWait hr.1.2).2.1
  · rw [CoreSt.rowBusy, hp.busy, hcore]
    exact hbusy r hr

section
variable {s u : State}

theorem execNopM_passes (hr : Ready s u) : exec .nopM s = .next (After u u.cxCore) :=
  (show exec .nopM s = execNopM s from rfl).trans (issueCore_ok rfl hr rfl rfl)

/-! TPLLD. -/

theorem execTplld_loads (hr : Ready s u) {tpl : BitVec 6} {row : BitVec 3} {seg : BitVec 4} (hb : u.cxCore.rowBusy (.operand row.toNat) = false) :
    exec (.tplld tpl row seg) s = .next (After u
      { u.cxCore with tpl := tset u.cxCore.tpl tpl.toNat ((u.cxCore.row (.operand row.toNat)).extractLsb' (128 * seg.toNat) 128) }) := by
  refine (show exec (.tplld tpl row seg) s = execTplld tpl row seg s from rfl).trans (issueCore_ok rfl hr ?_ rfl)
  rw [hb]
  rfl

theorem execTplld_waits (hr : Ready s u) {tpl : BitVec 6} {row : BitVec 3} {seg : BitVec 4} (hb : u.cxCore.rowBusy (.operand row.toNat) = true) :
    exec (.tplld tpl row seg) s = .next s := by
  refine (show exec (.tplld tpl row seg) s = execTplld tpl row seg s from rfl).trans (issueCore_stall rfl hr.1 ?_)
  rw [hb]
  rfl

/-! MX. -/

section
variable {tpl : BitVec 6} {fsel : BitVec 5} {val : BitVec 16}

/-- An MX with no fault is decided by the licence (R203, R208). -/
theorem execMx_legal (hp : placeFaults s = []) (hf : mxFaults s fsel val (mxForm s.cxCore tpl fsel val) = []) : exec (.mx tpl fsel val) s =
    if s.holdsLic s.cx.core then
      issue s [] (fun v => do
        need v.cxCore.mqRoom
        .ok ((v.modCx (fun k => { k.enterTpl (mxForm s.cxCore tpl fsel val) v.cx.mods.sat v.cx.mods.sig with mqAt := v.cycle + 1 })).deferSig))
    else if !s.cxCore.owed then .next (raiseFatal s s.cx.core kNoLicence 0)
    else if s.mayTakeLic s.cx.core then .next (s.takeLic s.cx.core)
    else .next (s.waitLic s.cx.core) := by
  refine (show exec (.mx tpl fsel val) s = execMx tpl fsel val s from rfl).trans ?_
  rw [execMx]
  simp only [hf, hp, List.append_nil, worst_nil]

theorem execMx_ill (hp : placeFaults s = []) (hf : mxFaults s fsel val (mxForm s.cxCore tpl fsel val) ≠ []) :
    ∃ e, worst (mxFaults s fsel val (mxForm s.cxCore tpl fsel val)) = some e ∧ exec (.mx tpl fsel val) s = .next (raiseIll s e) := by
  cases hw : worst (mxFaults s fsel val (mxForm s.cxCore tpl fsel val)) with
  | none => exact absurd (worst_eq_none.mp hw) hf
  | some e =>
    refine ⟨e, rfl, (show exec (.mx tpl fsel val) s = execMx tpl fsel val s from rfl).trans ?_⟩
    rw [execMx]
    simp only [hp, List.append_nil, hw]

theorem execMx_enters (hr : Ready s u) (hf : mxFaults s fsel val (mxForm s.cxCore tpl fsel val) = []) (hp : placeFaults s = [])
    (hl : s.holdsLic s.cx.core = true) (hroom : u.cxCore.mqRoom = true) : ∃ t m, exec (.mx tpl fsel val) s = .next t ∧
      t.cxCore.mq = u.cxCore.mq ++ [m] ∧ m.op = .tpl (mxForm s.cxCore tpl fsel val) s.cx.mods.sat ∧ m.sig = s.cx.mods.sig ∧ m.executed = false ∧
      t.cxCore.tileops = u.cxCore.tileops + 1 ∧ t.cxStrand.pc = s.cx.next ∧ t.mem = s.mem := by
  rw [execMx_legal hp hf, if_pos hl, ← takeWait_cx hr.1.2]
  obtain ⟨t, m, he, hmq, hop, hsig, hex, htile, hpc, hmem, -⟩ := issue_enters (faults := []) (op := .tpl (mxForm s.cxCore tpl fsel val) u.cx.mods.sat)
    (body := fun v => do
        need v.cxCore.mqRoom
        .ok ((v.modCx (fun k => { k.enterTpl (mxForm s.cxCore tpl fsel val) v.cx.mods.sat v.cx.mods.sig with mqAt := v.cycle + 1 })).deferSig))
    rfl hr (by rw [hroom]; rfl) rfl
  rw [← takeWait_cx hr.1.2] at hsig hpc
  exact ⟨t, m, he, hmq, hop, hsig, hex, htile, hpc, hmem⟩

theorem execMx_waits (hr : Ready s u) (hf : mxFaults s fsel val (mxForm s.cxCore tpl fsel val) = []) (hp : placeFaults s = [])
    (hl : s.holdsLic s.cx.core = true) (hroom : u.cxCore.mqRoom = false) : exec (.mx tpl fsel val) s = .next s := by
  rw [execMx_legal hp hf, if_pos hl]
  refine issue_stall rfl hr.1 ?_
  rw [hroom]
  rfl

end

/-! MZERO and MDRAIN. -/

theorem enterOwn_enters (hr : Ready s u) {faults : List IllCause} {op : CoreSt → MatOp} (hf : faults = []) (hroom : u.cxCore.mqRoom = true) :
    ∃ t m, enterOwn faults op s = .next t ∧ t.cxCore.mq = u.cxCore.mq ++ [m] ∧ m.op = op u.cxCore ∧ m.sig = s.cx.mods.sig ∧ m.executed = false ∧
      t.cxCore.tileops = u.cxCore.tileops + 1 ∧ t.cxStrand.pc = s.cx.next ∧ t.mem = s.mem ∧ ∀ r ∈ m.destRows, t.cxCore.rowBusy r = true :=
  issue_enters hf hr (by rw [hroom]; rfl) rfl

/-- The rows that a drain into a tile register writes (R215, R219). -/
theorem MatCmd.mem_destRows_drain {m : MatCmd} {f : Drain} {dreg : Nat} {mode : BitVec 3} {sat : Bool} (h : m.op = .drain f dreg mode sat)
    (hk : f.dkind = 0) {i : Nat} (hi : i ≤ f.nrm1.toNat) : RowName.tile dreg (f.drow0.toNat + i) ∈ m.destRows := by
  rw [MatCmd.destRows, h]
  simp only [hk, if_true]
  exact List.mem_map.mpr ⟨i, List.mem_range.mpr (Nat.lt_succ_of_le hi), rfl⟩

/-! The licence. -/

theorem State.holdsLic_congr {t : State} (h : t.pairs = s.pairs) (c : Nat) : t.holdsLic c = s.holdsLic c := by
  simp only [State.holdsLic, State.pair, h]

theorem State.mayTakeLic_iff (s : State) (c : Nat) : s.mayTakeLic c = true ↔ (s.pair (pairOf c)).holder = some c ∨
    (s.pair (pairOf c)).holder = none ∧ twinOf c ∉ s.licAsked (pairOf c) ∧ s.cx.late = false := by
  unfold State.mayTakeLic
  dsimp only
  split
  · next h => simp [h]
  · next h => simp [h]

/-- A request that meets no free licence stands from then on (R201). -/
theorem State.waitLic_asks (s : State) (c : Nat) (h : (s.pair (pairOf c)).holder ≠ none ∨ twinOf c ∈ s.licAsked (pairOf c)) :
    c ∈ ((s.waitLic c).pair (pairOf c)).pending := by
  unfold State.waitLic
  dsimp only
  by_cases hp : c ∈ (s.pair (pairOf c)).pending
  · simp [hp]
  · rw [if_neg, State.pair_setPair_self]
    · simp
    · rcases h with h | h <;> simp_all

theorem State.waitLic_changes (s : State) (c : Nat) : ∃ p, s.waitLic c = { s with pairs := p } := by
  unfold State.waitLic
  dsimp only
  split
  · exact ⟨s.pairs, rfl⟩
  · exact ⟨_, rfl⟩

theorem State.holdsLic_dropLic (s : State) (c : Nat) : (s.dropLic c).holdsLic c = false := by
  rw [State.holdsLic, State.dropLic, State.pair_setPair_self]
  cases h : (s.pair (pairOf c)).holder with
  | none => simp
  | some d =>
    by_cases hd : d = c <;> simp [hd]

theorem licFaults_nil (h : s.cxCore.lic = true) : licFaults s = [] := by
  rw [licFaults, h]
  rfl

/-- Without the licence declared, each word of M that speaks of it is illegal (R202). -/
theorem issue_noLic {faults : List IllCause} {body : State → Try State} (hr : rsFault s = []) (hf : ∀ e ∈ faults, e = .otherUse) (hne : faults ≠ []) :
    issue s faults body = .next (raiseIll s .otherUse) :=
  issue_ill (by rw [hr, List.append_nil]; exact worst_of_all hne hf)

theorem acqWaits_iff (s : State) : acqWaits s = true ↔ s.cxCore.lic = true ∧ rsFault s = [] ∧ ∃ u, takeWait s = .ok u ∧ u.sigStuck = false := by
  unfold acqWaits licFaults
  cases hl : s.cxCore.lic <;> cases ht : takeWait s <;> simp [fault?]

/-- An MLIC.ACQ that lacks more than the licence, or that may take it, issues like any word. -/
theorem execMlicAcq_issues (h : acqWaits s = false ∨ s.mayTakeLic s.cx.core = true) :
    exec .mlicAcq s = issue s (licFaults s) (fun v => .ok (v.takeLic s.cx.core)) := by
  refine (show exec .mlicAcq s = execMlicAcq s from rfl).trans ?_
  rw [execMlicAcq]
  refine if_neg ?_
  rcases h with h | h <;> simp [h]

/-- One that lacks the licence alone waits for it (R200, R201). -/
theorem execMlicAcq_waits (hw : acqWaits s = true) (h : s.mayTakeLic s.cx.core = false) : exec .mlicAcq s = .next (s.waitLic s.cx.core) := by
  refine (show exec .mlicAcq s = execMlicAcq s from rfl).trans ?_
  rw [execMlicAcq]
  exact if_pos (by simp [hw, h])

theorem State.takeLic_sigStuck (u : State) : (u.takeLic u.cx.core).sigStuck = u.sigStuck := by
  have hk : (u.takeLic u.cx.core).cxCore = { u.cxCore with owed := false } := u.takeLic_core u.cx.core
  exact sigStuck_congr rfl (by rw [hk])

/-- What an MLIC.TRY does: it takes a licence that may be taken, and says so in p4 (R200). -/
def State.tryLic (u : State) (c : Nat) : State :=
  (if u.mayTakeLic c then u.takeLic c else u).modCore c (fun k => { k with m := k.m.setP 4 (u.mayTakeLic c) })

theorem execMlicTry_issues (s : State) : exec .mlicTry s = issue s (licFaults s) (fun v => .ok (v.tryLic s.cx.core)) := rfl

theorem State.tryLic_cx (u : State) (c : Nat) : (u.tryLic c).cx = u.cx := by
  unfold State.tryLic
  split <;> rfl

theorem State.tryLic_core (u : State) (c : Nat) : ∃ b, (u.tryLic c).core c = { u.core c with owed := b, m := (u.core c).m.setP 4 (u.mayTakeLic c) } := by
  unfold State.tryLic
  split
  · exact ⟨false, by rw [State.core_modCore_self, State.takeLic_core]⟩
  · exact ⟨(u.core c).owed, by rw [State.core_modCore_self]⟩

theorem State.tryLic_cxCore (u : State) : (u.tryLic u.cx.core).cxCore = (u.tryLic u.cx.core).core u.cx.core := by rw [State.cxCore, State.tryLic_cx]

theorem State.tryLic_sigStuck (u : State) : (u.tryLic u.cx.core).sigStuck = u.sigStuck := by
  obtain ⟨b, hb⟩ := u.tryLic_core u.cx.core
  refine sigStuck_congr (by rw [State.tryLic_cx]) ?_
  rw [State.tryLic_cxCore, hb]
  rfl

theorem State.tryLic_mem (u : State) (c : Nat) : (u.tryLic c).mem = u.mem := by
  unfold State.tryLic
  split <;> rfl

theorem State.tryLic_holdsLic (u : State) (c : Nat) : (u.tryLic c).holdsLic c = (u.mayTakeLic c || u.holdsLic c) := by
  have hmod : (u.tryLic c).holdsLic c = (if u.mayTakeLic c = true then u.takeLic c else u).holdsLic c := State.holdsLic_congr rfl c
  rw [hmod]
  cases h : u.mayTakeLic c with
  | true =>
    rw [if_pos rfl, State.holdsLic_takeLic]
    rfl
  | false =>
    rw [if_neg (by decide)]
    rfl

/-- While its token or the room for its signal is missing, a word of M asks for no licence (R39, R62). -/
theorem licence_unasked (hr : rsFault s = []) (hl : s.cxCore.lic = true)
    (h : takeWait s = .error .stall ∨ ∃ u, takeWait s = .ok u ∧ u.sigStuck = true) : exec .mlicAcq s = .next s ∧ exec .mlicTry s = .next s := by
  have hw : acqWaits s = false := by
    rw [← Bool.not_eq_true, acqWaits_iff]
    rintro ⟨-, -, u, hu, hs⟩
    rcases h with h | ⟨v, hv, hv'⟩
    · cases h.symm.trans hu
    · cases hv.symm.trans hu
      cases hv'.symm.trans hs
  rw [execMlicAcq_issues (.inl hw), execMlicTry_issues]
  rcases h with h | ⟨u, hu, hs⟩
  · have stalls : ∀ body, issue s (licFaults s) body = .next s := fun body => by
      rw [issue, licFaults_nil hl, hr, h]
      rfl
    exact ⟨stalls _, stalls _⟩
  · have hcx := takeWait_cx hu
    refine ⟨issue_sigStuck (v := u.takeLic u.cx.core) (licFaults_nil hl) hr ?_ (by rw [State.takeLic_sigStuck, hs]),
      issue_sigStuck (v := u.tryLic u.cx.core) (licFaults_nil hl) hr ?_ (by rw [State.tryLic_sigStuck, hs])⟩
    · rw [hu, hcx]
      rfl
    · rw [hu, hcx]
      rfl

theorem execMlicAcq_acquires (hr : Ready s u) (hl : s.cxCore.lic = true) (hm : s.mayTakeLic s.cx.core = true) :
    ∃ t, exec .mlicAcq s = .next t ∧ t.holdsLic s.cx.core = true ∧ t.cxStrand.pc = s.cx.next ∧ t.mem = s.mem := by
  have hcx := takeWait_cx hr.1.2
  refine ⟨_, (execMlicAcq_issues (.inr hm)).trans (issue_ok (v := u.takeLic s.cx.core) (licFaults_nil hl) hr.1 rfl ?_), ?_, ?_, ?_⟩
  · rw [← hcx, State.takeLic_sigStuck, hr.2]
  · rw [State.holdsLic_congr (SameLicence.retire _).1, State.holdsLic_takeLic]
  · rw [retire_cxStrand_pc, ← hcx]
    rfl
  · rw [retire_mem]
    exact (SameLicence.takeWait hr.1.2).2.1

theorem execMlicTry_answers (hr : Ready s u) (hm : s.cx.strand = .m) (hl : s.cxCore.lic = true) : ∃ t, exec .mlicTry s = .next t ∧
    t.cxStrand.pAt 4 = u.mayTakeLic s.cx.core ∧ t.cxStrand.pc = s.cx.next ∧
    t.holdsLic s.cx.core = (u.mayTakeLic s.cx.core || s.holdsLic s.cx.core) ∧ t.mem = s.mem := by
  have hcx := takeWait_cx hr.1.2
  have hsame := SameLicence.takeWait hr.1.2
  rw [execMlicTry_issues, ← hcx]
  refine ⟨_, issue_ok (v := u.tryLic u.cx.core) (licFaults_nil hl) hr.1 (by rw [hcx]) (by rw [State.tryLic_sigStuck, hr.2]), ?_, ?_, ?_, ?_⟩
  · obtain ⟨b, hb⟩ := u.tryLic_core u.cx.core
    have hst := (retire_cxCore (u.tryLic u.cx.core)).wentOn.pAt 4
    rw [State.tryLic_cxCore, State.tryLic_cx, hb, hcx, hm] at hst
    rw [State.cxStrand, retire_cx, State.tryLic_cx, hcx, hm, hst]
    exact StrandSt.pAt_setP_self _ _ (by decide)
  · rw [retire_cxStrand_pc, State.tryLic_cx]
  · rw [State.holdsLic_congr (SameLicence.retire _).1, State.tryLic_holdsLic, State.holdsLic_congr (s := s) hsame.1]
  · rw [retire_mem, State.tryLic_mem, hsame.2.1]

theorem execMlicRel_releases (hr : Ready s u) (hl : s.cxCore.lic = true) (hd : s.licDue s.cx.core = true)
    (hq : u.cxCore.mq.any (fun m => m.op.isMx) = false) : ∃ t, exec .mlicRel s = .next t ∧ t.holdsLic s.cx.core = false ∧ t.cxCore.owed = false ∧
      t.cxStrand.pc = s.cx.next ∧ t.mem = s.mem := by
  have hcx := takeWait_cx hr.1.2
  generalize hv : (u.dropLic u.cx.core).modCore u.cx.core (fun k => { k with owed := false }) = v
  have hvcx : v.cx = u.cx := by rw [← hv]; rfl
  have hvcore : v.cxCore = { u.cxCore with owed := false } := by
    rw [State.cxCore, hvcx, ← hv]
    exact State.core_modCore_self _ _ _
  have hbody : (do
      need (!(u.core s.cx.core).mq.any (fun m => m.op.isMx))
      .ok ((u.dropLic s.cx.core).modCore s.cx.core (fun k => { k with owed := false })) : Try State) = .ok v := by
    have hq' : (u.core s.cx.core).mq.any (fun m => m.op.isMx) = false := by rw [← hcx]; exact hq
    rw [hq', ← hv, hcx]
    rfl
  have hf : licFaults s ++ fault? (!s.licDue s.cx.core) .otherUse = [] := by
    rw [licFaults_nil hl, hd]
    rfl
  refine ⟨retire v, (show exec .mlicRel s = execMlicRel s from rfl).trans (issue_ok hf hr.1 hbody ?_), ?_, ?_, ?_, ?_⟩
  · rw [sigStuck_congr (u := u) (by rw [hvcx]) (by rw [hvcore]), hr.2]
  · have hpairs : v.pairs = (u.dropLic u.cx.core).pairs := by rw [← hv]; rfl
    rw [State.holdsLic_congr (SameLicence.retire v).1, State.holdsLic_congr hpairs, ← hcx, State.holdsLic_dropLic]
  · rw [(retire_cxCore v).owed, hvcore]
  · rw [retire_cxStrand_pc, hvcx, hcx]
  · rw [retire_mem, ← hv]
    exact (SameLicence.takeWait hr.1.2).2.1

theorem execMlicRel_ill (hr : rsFault s = []) (h : s.cxCore.lic = false ∨ s.licDue s.cx.core = false) :
    exec .mlicRel s = .next (raiseIll s .otherUse) := by
  refine (show exec .mlicRel s = execMlicRel s from rfl).trans (issue_noLic hr (fun e he => (List.mem_append.mp he).elim mem_fault? mem_fault?) ?_)
  rcases h with h | h <;> simp [licFaults, h, fault?]

theorem licence_undeclared (hr : rsFault s = []) (hl : s.cxCore.lic = false) :
    exec .mlicAcq s = .next (raiseIll s .otherUse) ∧ exec .mlicTry s = .next (raiseIll s .otherUse) := by
  have hne : licFaults s ≠ [] := by simp [licFaults, hl, fault?]
  have hw : acqWaits s = false := by
    rw [← Bool.not_eq_true, acqWaits_iff, hl]
    exact fun h => nomatch h.1
  rw [execMlicAcq_issues (.inl hw), execMlicTry_issues]
  exact ⟨issue_noLic hr (fun _ => mem_fault?) hne, issue_noLic hr (fun _ => mem_fault?) hne⟩

end

/-- Settles O40: each word of M, by what it waits for and what it enters or takes. -/
theorem matrixWordsOfM : Obligations.MatrixWordsOfM := by
  refine ⟨fun s tpl fsel val hp hf => ⟨fun hl ho => ?unlicensed, fun hl ho => ?owed⟩, fun s ht hr hl => licence_unasked hr hl (.inl ht),
    fun s u hu hs hr hl => licence_unasked hr hl (.inr ⟨u, hu, hs⟩), fun s u tpl row seg fsel val acc f hr hm => ?_⟩
  case unlicensed =>
    rw [execMx_legal (placeFaults_nil hp) hf, if_neg (by simp [hl]), if_pos (by simp [ho])]
    rfl
  case owed =>
    rw [execMx_legal (placeFaults_nil hp) hf, if_neg (by simp [hl]), if_neg (by simp [ho])]
    split <;> rfl
  have hplace : placeFaults s = [] := (List.append_eq_nil_iff.mp hr.1.1).1
  refine ⟨execNopM_passes hr, execTplld_loads hr, execTplld_waits hr, execMx_ill hplace,
    fun hf => ⟨fun hl => execMx_enters hr hf hplace hl, fun hl => execMx_waits hr hf hplace hl⟩, fun hroom => ?zero, fun hroom hf => ?drain,
    fun hl => ⟨execMlicAcq_acquires hr hl, s.mayTakeLic_iff _, fun h => ?asks, execMlicTry_answers hr hm hl, execMlicRel_releases hr hl,
      fun hd => execMlicRel_ill hr.1.1 (.inr hd)⟩, fun hl => ?undeclared⟩
  case zero =>
    obtain ⟨t, m, he, hmq, hop, hsig, hex, htile, hpc, hmem, -⟩ := enterOwn_enters (faults := []) (op := fun _ => .zero acc) hr rfl hroom
    exact ⟨t, m, he, hmq, hop, hsig, hex, htile, hpc, hmem⟩
  case drain =>
    obtain ⟨t, m, he, hmq, hop, hsig, hex, htile, hpc, hmem, hbusy⟩ := enterOwn_enters
      (op := fun k => .drain f (physT k.m k.demand f.dreg.toNat) s.cx.mods.mode s.cx.mods.sat) hr hf hroom
    exact ⟨t, m, he, hmq, hop, hsig, hex, htile, hpc, hmem, fun hk i hi => hbusy _ (MatCmd.mem_destRows_drain hop hk hi)⟩
  case asks =>
    have hw := (acqWaits_iff s).mpr ⟨hl, hr.1.1, u, hr.1.2, hr.2⟩
    obtain ⟨p, hp⟩ := s.waitLic_changes s.cx.core
    exact ⟨_, execMlicAcq_waits hw h, by rw [hp], by rw [hp], s.waitLic_asks _⟩
  case undeclared =>
    obtain ⟨hacq, htry⟩ := licence_undeclared hr.1.1 hl
    exact ⟨hacq, htry, execMlicRel_ill hr.1.1 (.inl hl)⟩

end Sys2Proof.Machine
end

section
/-! PROOFS. How a core gives up its context: its engine writes enter memory, its stash is clean, its licence is free (R202, R232, R263, R267). -/

namespace Sys2Proof.Machine

/-- What the end of some contexts leaves: the tasks, the issue register and every core but for its pending writes and its stash; a licence that was
free, and a core whose writes had all entered memory, stay so. -/
structure State.Releases (s t : State) : Prop where
  tasks : t.tasks = s.tasks
  cx : t.cx = s.cx
  core : ∀ d, ∃ b l, t.core d = { s.core d with ebuf := b, stash := l }
  licence : ∀ d, s.holdsLic d = false → t.holdsLic d = false
  settled : ∀ d, (s.core d).ebuf = [] → (t.core d).ebuf = []

section
variable {s t u : State}

theorem State.Releases.refl (s : State) : s.Releases s := ⟨rfl, rfl, fun _ => ⟨_, _, rfl⟩, fun _ h => h, fun _ h => h⟩

theorem State.Releases.trans (h : s.Releases t) (g : t.Releases u) : s.Releases u := by
  refine ⟨g.tasks.trans h.tasks, g.cx.trans h.cx, fun d => ?_, fun d hd => g.licence d (h.licence d hd), fun d hd => g.settled d (h.settled d hd)⟩
  obtain ⟨b, l, ht⟩ := h.core d
  obtain ⟨b', l', hu⟩ := g.core d
  exact ⟨b', l', by rw [hu, ht]⟩

theorem State.Releases.foldl (l : List Nat) (f : State → Nat → State) (h : ∀ (v : State) c, v.Releases (f v c)) (s : State) : s.Releases (l.foldl f s) :=
  List.foldlRecOn (motive := fun v : State => s.Releases v) l f (.refl s) fun v hv c _ => hv.trans (h v c)

theorem MemOnly.releases (h : MemOnly s t) (hb : ∀ d, (s.core d).ebuf = [] → (t.core d).ebuf = []) : s.Releases t := by
  obtain ⟨ht, hk⟩ := h
  refine ⟨by rw [ht], by rw [ht], fun d => ?_, fun d hd => ?_, hb⟩
  · obtain ⟨b, hb⟩ := hk d
    exact ⟨b, (s.core d).stash, hb⟩
  · rw [State.holdsLic_congr (s := s) (by rw [ht]), hd]

end

/-- A settled core stays so while the writes of another enter memory. -/
theorem State.settle_ebuf_nil {s : State} {d : Nat} (h : (s.core d).ebuf = []) (c : Nat) : ((s.settle c).core d).ebuf = [] := by
  by_cases hd : d = c
  · subst hd
    exact s.settle_ebuf d
  · refine List.foldlRecOn (motive := fun u : State => (u.core d).ebuf = []) _ _ ?_ fun u hu e _ => State.flush_ebuf_nil hu e.1 1
    rw [State.core_modCore_ne _ _ _ _ hd]
    exact h

theorem State.Releases.settle (s : State) (c : Nat) : s.Releases (s.settle c) :=
  (MemOnly.settle s c).releases fun _ h => State.settle_ebuf_nil h c

/-- Where a core's writes have all entered memory, there is nothing to settle. -/
theorem State.settle_mem_of_nil {s : State} {c : Nat} (h : (s.core c).ebuf = []) : (s.settle c).mem = s.mem := by
  unfold State.settle
  rw [h]
  rfl

theorem State.Releases.writeBack (s : State) (c : Nat) : s.Releases (s.writeBack c) := by
  obtain ⟨l, h⟩ := s.writeBack_eq c
  rw [h]
  have hcore : ∀ d, ∃ st, (({ s with poison := l } : State).modCore c
      (fun k => { k with stash := k.stash.map (fun x => { x with dirty := false }) })).core d = { s.core d with stash := st } := fun d => by
    by_cases hd : d = c
    · subst hd
      exact ⟨_, State.core_modCore_self _ _ _⟩
    · exact ⟨(s.core d).stash, State.core_modCore_ne _ _ _ _ hd⟩
  refine ⟨rfl, rfl, fun d => ?_, fun d hd => hd, fun d hd => ?_⟩
  · obtain ⟨st, hst⟩ := hcore d
    exact ⟨(s.core d).ebuf, st, hst⟩
  · obtain ⟨st, hst⟩ := hcore d
    rw [hst]
    exact hd

theorem State.holdsLic_dropLic_of (s : State) (c d : Nat) (h : s.holdsLic d = false) : (s.dropLic c).holdsLic d = false := by
  by_cases hd : pairOf d = pairOf c
  · rw [State.holdsLic, beq_eq_false_iff_ne] at h ⊢
    rw [State.dropLic, hd, State.pair_setPair_self]
    rw [hd] at h
    dsimp only
    split
    · simp
    · exact h
  · rw [State.holdsLic, State.dropLic, State.pair_setPair_ne _ _ _ _ hd]
    exact h

theorem State.Releases.dropLic (s : State) (c : Nat) : s.Releases (s.dropLic c) :=
  ⟨rfl, rfl, fun _ => ⟨_, _, rfl⟩, s.holdsLic_dropLic_of c, fun _ h => h⟩

theorem State.Releases.releaseCore (s : State) (c : Nat) : s.Releases (s.releaseCore c) :=
  (((State.Releases.settle s c).trans (.writeBack _ c)).trans (.dropLic _ c)).trans ⟨rfl, rfl, fun _ => ⟨_, _, rfl⟩, fun _ h => h, fun _ h => h⟩

theorem State.releaseCore_mem (s : State) (c : Nat) : (s.releaseCore c).mem = (s.settle c).mem := by
  obtain ⟨l, h⟩ := (s.settle c).writeBack_eq c
  rw [State.releaseCore, h]
  rfl

theorem State.releaseCore_ebuf (s : State) (c : Nat) : ((s.releaseCore c).core c).ebuf = [] :=
  ((State.Releases.writeBack _ c).trans (.dropLic _ c)).settled c (s.settle_ebuf c)

theorem State.releaseCore_holdsLic (s : State) (c : Nat) : (s.releaseCore c).holdsLic c = false := State.holdsLic_dropLic _ c

/-- What each of some cores comes to in its own turn holds of each in the end, where the others' turns keep it. -/
theorem foldl_forall_mem {P : State → Nat → Prop} {f : State → Nat → State} (l : List Nat) (hself : ∀ v c, P (f v c) c)
    (hkeep : ∀ v c d, P v d → P (f v c) d) (s : State) : ∀ c ∈ l, P (l.foldl f s) c := by
  induction l generalizing s with
  | nil => exact fun c hc => absurd hc List.not_mem_nil
  | cons a l ih =>
    intro c hc
    rcases List.mem_cons.mp hc with rfl | hc
    · exact List.foldlRecOn (motive := fun v : State => P v c) l f (hself s c) fun v hv d _ => hkeep v d c hv
    · exact ih _ c hc

/-! A core is free. -/

/-- What freeing some cores leaves: the tasks, the issue register, and each core that was free. -/
structure State.Frees (s t : State) : Prop where
  tasks : t.tasks = s.tasks
  cx : t.cx = s.cx
  free : ∀ d, (s.core d).resident = false → (t.core d).resident = false

theorem State.freeCore_core (s : State) (c : Nat) : ((s.freeCore c).core c).resident = false := by
  rw [State.freeCore, State.core_setCore_self]
  rfl

theorem State.Frees.freeCore (s : State) (c : Nat) : s.Frees (s.freeCore c) := by
  have hr := State.Releases.releaseCore s c
  refine ⟨hr.tasks, hr.cx, fun d hd => ?_⟩
  by_cases hdc : d = c
  · subst hdc
    exact s.freeCore_core d
  · obtain ⟨b, l, hcore⟩ := hr.core d
    rw [State.freeCore, State.core_setCore_ne _ _ _ _ hdc]
    exact (congrArg CoreSt.resident hcore).trans hd

theorem State.clearWeir_changes (s : State) (l : List Nat) : ∃ p, s.clearWeir l = { s with pairs := p } := by
  refine List.foldlRecOn (motive := fun u : State => ∃ p, u = { s with pairs := p }) _ _ ⟨s.pairs, rfl⟩ ?_
  rintro _ ⟨p, rfl⟩ c _
  dsimp only
  split
  · exact ⟨_, rfl⟩
  · exact ⟨p, rfl⟩

theorem State.Frees.freeGang (s : State) (l : List Nat) : s.Frees (s.freeGang l) := by
  obtain ⟨p, hp⟩ := s.clearWeir_changes l
  have hc : s.Frees (s.clearWeir l) := by
    rw [hp]
    exact ⟨rfl, rfl, fun _ h => h⟩
  refine List.foldlRecOn (motive := fun u : State => s.Frees u) l _ hc fun u hu c _ => ?_
  have hf := State.Frees.freeCore u c
  exact ⟨hf.tasks.trans hu.tasks, hf.cx.trans hu.cx, fun d hd => hf.free d (hu.free d hd)⟩

theorem State.freeGang_core (s : State) (l : List Nat) : ∀ c ∈ l, ((s.freeGang l).core c).resident = false :=
  foldl_forall_mem (P := fun v c => (v.core c).resident = false) l State.freeCore_core (fun v c d h => (State.Frees.freeCore v c).free d h) _

/-- What is found under a key goes by the tasks alone. -/
theorem State.task?_congr {s t : State} (h : t.tasks = s.tasks) (p i : Nat) : t.task? p i = s.task? p i := by
  rw [State.task?, h]
  rfl

end Sys2Proof.Machine
end

section
/-! PROOFS. A gang that was asked to hold: its images, its save and its limit (R57, R203, R263, R288, R290). -/

namespace Sys2Proof.Machine

/-! Tasks by their key. -/

theorem State.taskKey?_modTask {s u : State} {key : Nat} {t : Task} (h : s.taskKey? key = some t) (hu : u.tasks = s.tasks) (f : Task → Task)
    (hf : KeepsKey f) : (u.modTask t.part t.id f).taskKey? key = some (f t) := by
  obtain ⟨-, hp, hi⟩ := State.task?_some h
  rw [State.taskKey?, ← hp, ← hi, State.task?_modTask _ _ _ _ hf, State.task?_congr hu, hp, hi]
  exact congrArg (Option.map f) h

/-! Images. -/

theorem spadKey_add (c i : Nat) : spadKey c i = spadKey c 0 + i := by
  unfold spadKey
  omega

theorem State.settled_mem {s : State} {l : List Nat} (h : ∀ c ∈ l, (s.core c).ebuf = []) : (l.foldl State.releaseCore s).mem = s.mem := by
  induction l generalizing s with
  | nil => rfl
  | cons c l ih =>
    obtain ⟨hc, hl⟩ := List.forall_mem_cons.mp h
    rw [List.foldl_cons, ih fun d hd => (State.Releases.releaseCore s c).settled d (hl d hd), State.releaseCore_mem, State.settle_mem_of_nil hc]

/-- The bytes of an image's scratchpad are those of memory there. -/
theorem State.mem_spadBytes (s : State) (t : Task) (c : Nat) {i : Nat} (hi : i < 2 ^ 19) (b : Byte) :
    (i, b) ∈ (s.imageOf t c).spadBytes ↔ (spadKey c i, b) ∈ s.mem := by
  have hkey := spadKey_add c i
  have hend := spadKey_add c (2 ^ 19)
  rw [State.imageOf, List.mem_map]
  constructor
  · rintro ⟨⟨j, x⟩, he, hij⟩
    obtain ⟨hmem, hin⟩ := List.mem_filter.mp he
    obtain ⟨rfl, rfl⟩ := Prod.mk.inj hij
    simp only [Bool.and_eq_true, decide_eq_true_eq] at hin
    rwa [hkey, Nat.add_sub_cancel' hin.1]
  · intro h
    refine ⟨(spadKey c i, b), List.mem_filter.mpr ⟨h, ?_⟩, ?_⟩
    · simp only [Bool.and_eq_true, decide_eq_true_eq]
      omega
    · rw [hkey, Nat.add_sub_cancel_left]

section
variable {s : State} {key : Nat} {t : Task} (hk : s.taskKey? key = some t)
include hk

/-- A hold that every member has reached is saved (R203, R290). -/
theorem execHoldReached_saves (hr : t.phase = .running) {n : Nat} (hp : t.preemptAt = some n) (hh : t.halted = false) (hd : s.holdDone t = true)
    (hq : ∀ c ∈ t.cores, (s.core c).quiet = true) : exec (.holdReached key) s =
      .next ((t.cores.foldl State.releaseCore (s.takeImages t).1).modTask t.part t.id
        (fun g => { g with saving := true, images := some (s.takeImages t).2, atBoundary := false, preemptAt := none })) := by
  refine (show exec (.holdReached key) s = execHoldReached key s from rfl).trans ?_
  rw [execHoldReached, hk]
  refine if_pos ?_
  simp [hr, hp, hh, hd]
  exact hq

theorem execSaveComplete_frees (hr : t.phase = .running) (hs : t.saving = true) (hf : t.fatal = none) : exec (.saveComplete key) s =
    .next ((s.freeGang t.cores).modTask t.part t.id (fun t =>
        { t with phase := .saved, running := false, saving := false, preemptFor := none, cores := [], awaits := .nothing,
                 boundary := if t.recd.restart then t.images else t.boundary, atBoundary := t.recd.restart,
                 boundGrotto := if t.recd.restart then t.inGrotto else t.boundGrotto })) := by
  refine (show exec (.saveComplete key) s = execSaveComplete key s from rfl).trans ?_
  rw [execSaveComplete, hk]
  exact if_pos (by simp [hr, hs, hf])

theorem execIterationLimitExpiry_some {n : Nat} (hp : t.preemptAt = some n) : exec (.iterationLimitExpiry key) s =
    if t.phase == .running && t.fatal.isNone && n + t.recd.ilimit * 1024 ≤ s.cycle && (!s.holdDone t || t.cores.any (s.arrayStarves t)) then
      .next (s.modTask t.part t.id (fun t => { t with fatal := some (kLimit, 0) }))
    else .next s := by
  refine (show exec (.iterationLimitExpiry key) s = execIterationLimitExpiry key s from rfl).trans ?_
  rw [execIterationLimitExpiry, hk]
  simp only [hp]

end

/-! The array of a gang of one core that waits for a row. -/

/-- A command that the array has taken and that still lacks rows of A from an empty queue. -/
theorem CoreSt.mem_dryQueues {k : CoreSt} {m : MatCmd} {w : BitVec 128} {sat : Bool} {q : Option Nat} (hm : k.mq.head? = some m) (ho : m.op = .tpl w sat)
    (hs : m.started = true) (hg : m.gotA.length < tM w)
    (h : tAKind w = 1 ∧ k.fq = [] ∧ q = none ∨ tAKind w = 2 ∧ k.li.toList.getD (tAIdx w) [] = [] ∧ q = some (tAIdx w)) : q ∈ k.dryQueues := by
  unfold CoreSt.dryQueues
  simp only [hm, ho]
  rw [if_pos ⟨hs, hg⟩, List.mem_append]
  left
  rcases h with ⟨hkind, hfq, rfl⟩ | ⟨hkind, hli, rfl⟩
  · rw [if_pos ⟨hkind, by rw [hfq]; rfl⟩]
    exact List.mem_singleton.mpr rfl
  · rw [if_neg (by omega), if_pos ⟨hkind, by rw [hli]; rfl⟩]
    exact List.mem_singleton.mpr rfl

/-- An array that waits for a row that cannot come has no hope. -/
theorem State.arrayHopes_dry {s : State} {t : Task} {given : List Nat} {c : Nat} {m : MatCmd} {w : BitVec 128} {sat : Bool} {q : Option Nat}
    (hm : s.headCmd c = some m) (ho : m.op = .tpl w sat) (hs : m.started = true) (hx : m.executed = false) (hq : q ∈ (s.core c).dryQueues)
    (hf : s.mayFill t given c q = false) : s.arrayHopes t given c = false := by
  have hall : (s.core c).dryQueues.all (s.mayFill t given c) = false := List.all_eq_false.mpr ⟨q, hq, by simp [hf]⟩
  unfold State.arrayHopes
  simp only [hm, hx, ho, hs, hall]
  rfl

theorem State.arrayStarves_alone {s : State} {t : Task} {c : Nat} {m : MatCmd} {w : BitVec 128} {sat : Bool} {q : Option Nat} (hc : t.cores = [c])
    (hm : s.headCmd c = some m) (ho : m.op = .tpl w sat) (hs : m.started = true) (hx : m.executed = false) (hstop : s.arrayStopped c = true)
    (hq : q ∈ (s.core c).dryQueues) (hf : s.mayFill t [c] c q = false) : s.arrayStarves t c = true := by
  have hall : t.cores.filter (fun d => (s.headCmd d).isSome && s.arrayStopped d) = [c] := by simp [hc, hm, hstop]
  have hstarve : s.starving t t.cores.length [c] = [c] := by
    rw [hc]
    show [c].filter (fun d => !s.arrayHopes t [c] d) = [c]
    simp [State.arrayHopes_dry hm ho hs hx hq hf]
  unfold State.arrayStarves
  rw [hall, hstarve]
  simp only [Bool.and_eq_true, List.any_eq_true]
  exact ⟨by simp, q, hq, by simp [hf]⟩

/-- What a member's image holds of its core (R203, R290). -/
theorem State.imageOf_of_core {s u : State} {t : Task} {c : Nat} (h : MemOnly s u) : (u.imageOf t c).core = c ∧
    (u.imageOf t c).st.owed = ((s.core c).owed || s.holdsLic c) ∧ (u.imageOf t c).st.g = (s.core c).g ∧ (u.imageOf t c).st.ar = (s.core c).ar ∧
    (u.imageOf t c).st.tile = (s.core c).tile ∧ (u.imageOf t c).st.acc = (s.core c).acc ∧ (u.imageOf t c).st.x = (s.core c).x ∧
    (u.imageOf t c).st.a = (s.core c).a ∧ (u.imageOf t c).st.v = (s.core c).v ∧ (u.imageOf t c).st.m = (s.core c).m := by
  obtain ⟨hu, hcore⟩ := h
  obtain ⟨b, hb⟩ := hcore c
  have howed : (u.imageOf t c).st.owed = ((u.core c).owed || u.holdsLic c) := rfl
  have hlic : u.holdsLic c = s.holdsLic c := State.holdsLic_congr (by rw [hu]) c
  rw [howed, hlic, State.imageOf, hb]
  exact ⟨rfl, rfl, rfl, rfl, rfl, rfl, rfl, rfl, rfl, rfl⟩

/-- Settles O49: the hold's images, the save's end, and the limit with the array that waits in vain. -/
theorem holdsAndSaves : Obligations.HoldsAndSaves := by
  intro s key t hk hr
  refine ⟨fun n hp hh hd hq _ => ?held, fun hs hf => ?saved, fun n hp hf hn hlate => ?expired, fun n hp hd hs => ?met,
    fun c m w sat hc hm ho hs hx hstop hg h => ?starves, fun n hp hn => ?early⟩
  case held =>
    have hsettled : MemOnly s (t.cores.foldl State.settle s) := MemOnly.foldl _ _ MemOnly.settle s
    have hempty : ∀ c ∈ t.cores, ((t.cores.foldl State.settle s).core c).ebuf = [] :=
      foldl_forall_mem (P := fun v c => (v.core c).ebuf = []) t.cores State.settle_ebuf (fun v c d h => State.settle_ebuf_nil h c) s
    have hfree : ∀ c ∈ t.cores, (t.cores.foldl State.releaseCore (t.cores.foldl State.settle s)).holdsLic c = false :=
      foldl_forall_mem (P := fun v c => v.holdsLic c = false) t.cores State.releaseCore_holdsLic
        (fun v c d h => (State.Releases.releaseCore v c).licence d h) _
    have hrel := State.Releases.foldl t.cores State.releaseCore State.Releases.releaseCore (t.cores.foldl State.settle s)
    have hmem := State.settled_mem hempty
    refine ⟨_, _, (s.takeImages t).2, execHoldReached_saves hk hr hp hh hd hq,
      State.taskKey?_modTask hk (hrel.tasks.trans hsettled.tasks) _ (fun _ => ⟨rfl, rfl⟩), rfl, rfl, rfl, List.length_map _,
      fun c hc => ⟨?_, hrel.settled c (hempty c hc)⟩,
      hmem, fun r c hc => ⟨(t.cores.foldl State.settle s).imageOf t c, ?_, ?_⟩⟩
    · exact (State.holdsLic_congr (s := t.cores.foldl State.releaseCore (t.cores.foldl State.settle s)) rfl c).trans (hfree c hc)
    · show (t.cores.map _)[r]? = _
      rw [List.getElem?_map, hc]
      rfl
    · obtain ⟨hcore, howed, hg, har, htile, hacc, hx, ha, hv, hm⟩ := State.imageOf_of_core (t := t) (c := c) hsettled
      refine ⟨hcore, howed, hg, har, htile, hacc, hx, ha, hv, hm, fun i hi b => ?_⟩
      rw [State.mem_spadBytes _ _ _ hi b, ← hmem]
      rfl
  case saved =>
    refine ⟨_, _, execSaveComplete_frees hk hr hs hf, State.taskKey?_modTask hk (State.Frees.freeGang s t.cores).tasks _ (fun _ => ⟨rfl, rfl⟩), rfl, rfl,
      rfl, rfl, fun hres => if_pos hres, s.freeGang_core t.cores⟩
  case expired =>
    refine ⟨_, _, (execIterationLimitExpiry_some hk hp).trans (if_pos ?_), State.taskKey?_modTask hk rfl _ (fun _ => ⟨rfl, rfl⟩), rfl, rfl, rfl⟩
    rcases hlate with hlate | hlate
    · simp [hr, hf, hn, hlate]
    · simp only [hr, hf, hn, Bool.and_eq_true, Bool.or_eq_true, List.any_eq_true]
      exact ⟨by simp, .inr hlate⟩
  case met =>
    refine (execIterationLimitExpiry_some hk hp).trans (if_neg ?_)
    have hnone : t.cores.any (s.arrayStarves t) = false := List.any_eq_false.mpr fun c hc => by simp [hs c hc]
    simp [hd, hnone]
  case starves =>
    rcases h with ⟨hkind, hfq, hact, hqueue⟩ | ⟨hkind, hli, hpeer⟩
    · exact State.arrayStarves_alone hc hm ho hs hx hstop (CoreSt.mem_dryQueues hm ho hs hg (.inl ⟨hkind, hfq, rfl⟩))
        (by simp [State.mayFill, hact, hqueue])
    · refine State.arrayStarves_alone hc hm ho hs hx hstop (CoreSt.mem_dryQueues hm ho hs hg (.inr ⟨hkind, hli, rfl⟩)) ?_
      simp [State.mayFill, hc, hpeer]
  case early =>
    refine (execIterationLimitExpiry_some hk hp).trans (if_neg ?_)
    simp [Nat.not_le.mpr hn]

end Sys2Proof.Machine
end

section
/-! PROOFS. Barriers: a strand comes to its BAR, its core arrives, and the cores of a phase pass (R58, R133, R274). -/

namespace Sys2Proof.Machine

/-! BAR. -/

theorem coordFaults_nil {c : BitVec 9} {h : Nat} (hc : coreOfCoord c = some h) : coordFaults c = [] := by
  unfold coreOfCoord at hc
  dsimp only at hc
  split at hc
  · next hz =>
    have h3 : c.toNat / 128 ≠ 3 := by omega
    have h0 : c.toNat / 128 ≠ 0 := by omega
    simp [coordFaults, h3, h0]
  · cases hc

section
variable {s : State} {cnt : BitVec 8} {slot : BitVec 3} {coord : BitVec 9} {h : Nat}

theorem execBar_misplaced (hc : coreOfCoord coord = some h) (hp : s.cx.misplaced = true) :
    exec (.bar cnt slot coord) s = .next (raiseIll s .execModel) := by
  refine (show exec (.bar cnt slot coord) s = execBar cnt slot coord s from rfl).trans ?_
  rw [execBar, coordFaults_nil hc, placeFaults, hp]
  rfl

theorem execBar_stands (hc : coreOfCoord coord = some h) (hp : s.cx.misplaced = false) :
    exec (.bar cnt slot coord) s = .next (s.modCxStrand (fun t => { t with atBar := true })) := by
  refine (show exec (.bar cnt slot coord) s = execBar cnt slot coord s from rfl).trans ?_
  rw [execBar, coordFaults_nil hc, placeFaults_nil hp]
  rfl

end

/-! A core passes. -/

/-- A strand of a released core walks past the BAR where it stands at one (R58). -/
def StrandSt.passed (st : StrandSt) : StrandSt := if st.atBar then { st with atBar := false }.advance (st.pc + 8) 2 else st

theorem StrandSt.passed_passed (st : StrandSt) : st.passed.passed = st.passed := by
  unfold StrandSt.passed
  cases h : st.atBar with
  | true => rfl
  | false => simp [h]

theorem CoreSt.passBar_eq (k : CoreSt) : k.passBar = { k with x := k.x.passed, a := k.a.passed, v := k.v.passed, m := k.m.passed } := by
  have step : ∀ (k : CoreSt) (t : Strand), (if (k.strand t).atBar = true then
      k.setStrand t ({ k.strand t with atBar := false }.advance ((k.strand t).pc + 8) 2) else k) = k.setStrand t (k.strand t).passed := fun k t => by
    unfold StrandSt.passed
    split
    · rfl
    · rw [CoreSt.setStrand_strand]
  unfold CoreSt.passBar
  simp only [step]
  rfl

theorem CoreSt.passBar_strand (k : CoreSt) (y : Strand) : k.passBar.strand y = (k.strand y).passed := by
  rw [CoreSt.passBar_eq]
  cases y <;> rfl

theorem CoreSt.passBar_passBar (k : CoreSt) : k.passBar.passBar = k.passBar := by
  simp only [CoreSt.passBar_eq, StrandSt.passed_passed]

theorem CoreSt.passBar_bars (k : CoreSt) : k.passBar.bars = k.bars := by rw [CoreSt.passBar_eq]

/-! The cores of a phase are released. -/

/-- What a release looks at and changes: a core, and its arrivals that are under way. -/
def State.barView (s : State) (d : Nat) : CoreSt × List Outstanding := (s.core d, s.asked d .bar)

/-- No reply to any of some requests can have come (R334, R335). -/
def Outstanding.anyLost (l : List Outstanding) : Bool := l.any (fun o => !o.sent || o.lost)

/-- A core and its arrivals after a release: the host keeps the result where the packet that tells it is lost, else the core passes (R274). -/
def releasedView (v : CoreSt × List Outstanding) : CoreSt × List Outstanding :=
  if Outstanding.anyLost v.2 then (v.1, v.2.map (fun o => { o with result := some [] })) else (v.1.passBar, [])

theorem Outstanding.anyLost_recorded (l : List Outstanding) :
    Outstanding.anyLost (l.map (fun o => { o with result := some [] })) = Outstanding.anyLost l := by
  rw [Outstanding.anyLost, List.any_map]
  rfl

theorem releasedView_lost {v : CoreSt × List Outstanding} (h : Outstanding.anyLost v.2 = true) :
    releasedView v = (v.1, v.2.map (fun o => { o with result := some [] })) := if_pos h

theorem releasedView_kept {v : CoreSt × List Outstanding} (h : Outstanding.anyLost v.2 = false) : releasedView v = (v.1.passBar, []) :=
  if_neg (by simp [h])

theorem releasedView_idem (v : CoreSt × List Outstanding) : releasedView (releasedView v) = releasedView v := by
  cases h : Outstanding.anyLost v.2 with
  | true =>
    rw [releasedView_lost h, releasedView_lost ((Outstanding.anyLost_recorded v.2).trans h), List.map_map]
    rfl
  | false =>
    rw [releasedView_kept h, releasedView_kept rfl, CoreSt.passBar_passBar]

section
variable (s : State) (c d : Nat)

theorem State.unanswered_eq (w : Req) : s.unanswered c w = Outstanding.anyLost (s.asked c w) := rfl

theorem State.asked_answer_self (w : Req) : (s.answer c w).asked c w = [] := by
  rw [State.asked, State.answer, List.filter_filter, List.filter_eq_nil_iff]
  intro o _
  simp

theorem State.asked_answer_ne (w : Req) (h : d ≠ c) : (s.answer c w).asked d w = s.asked d w := by
  rw [State.asked, State.answer, List.filter_filter, State.asked]
  refine List.filter_congr fun o _ => ?_
  by_cases ho : o.core = d
  · simp [ho, h]
  · simp [ho]

theorem State.asked_record (w : Req) : (s.record c w []).asked d w =
    if d = c then (s.asked d w).map (fun o => { o with result := some [] }) else s.asked d w := by
  have hp : ((fun o : Outstanding => o.core == d && o.what == w) ∘ fun o => if o.core = c ∧ o.what = w then { o with result := some [] } else o) =
      fun o => o.core == d && o.what == w := by
    funext o
    simp only [Function.comp_apply]
    split <;> rfl
  rw [State.asked, State.record, List.filter_map, hp]
  split
  · next h =>
    refine List.map_congr_left fun o ho => if_pos ?_
    simpa [h] using (List.mem_filter.mp ho).2
  · next h =>
    refine (List.map_congr_left fun o ho => if_neg ?_).trans (List.map_id _)
    have hd : o.core = d ∧ o.what = w := by simpa using (List.mem_filter.mp ho).2
    rintro ⟨hc, -⟩
    exact h (hd.1.symm.trans hc)

theorem State.release1_barView : (s.release1 c).barView d = if d = c then releasedView (s.barView d) else s.barView d := by
  unfold State.release1 State.barView releasedView
  rw [← State.unanswered_eq]
  by_cases hd : d = c
  · subst hd
    cases hu : s.unanswered d .bar with
    | true =>
      simp only [if_true, State.asked_record]
      rfl
    | false =>
      simp only [Bool.false_eq_true, if_false, if_true, State.asked_answer_self, State.core_answer, State.core_modCore_self]
  · rw [if_neg hd]
    cases hu : s.unanswered c .bar with
    | true =>
      simp only [if_true, State.asked_record, if_neg hd]
      rfl
    | false =>
      simp only [Bool.false_eq_true, if_false, State.asked_answer_ne _ _ _ _ hd, State.core_answer, State.core_modCore_ne _ _ _ _ hd]
      rfl

theorem State.release1_mem : (s.release1 c).mem = s.mem := by
  unfold State.release1
  split <;> rfl

theorem State.foldl_release1_barView (l : List Nat) :
    (l.foldl State.release1 s).barView d = if d ∈ l then releasedView (s.barView d) else s.barView d := by
  induction l generalizing s with
  | nil => rfl
  | cons c l ih =>
    rw [List.foldl_cons, ih, State.release1_barView]
    by_cases hdc : d = c
    · subst hdc
      simp [releasedView_idem]
    · simp [hdc]

theorem State.foldl_release1_mem (l : List Nat) : (l.foldl State.release1 s).mem = s.mem :=
  List.foldlRecOn (motive := fun u : State => u.mem = s.mem) l _ rfl fun u hu c _ => (u.release1_mem c).trans hu

end

/-- A released core: it passes, or its release is kept for it. -/
theorem State.released_of_view {s t : State} {d : Nat} (h : t.barView d = releasedView (s.barView d)) :
    (s.unanswered d .bar = false → t.core d = (s.core d).passBar ∧ t.asked d .bar = []) ∧
    (s.unanswered d .bar = true → t.core d = s.core d ∧ t.recorded d .bar = some []) := by
  refine ⟨fun hu => ?_, fun hu => ?_⟩
  · rw [releasedView_kept (by rw [State.barView, ← State.unanswered_eq, hu])] at h
    exact Prod.mk.inj h
  · rw [releasedView_lost (by rw [State.barView, ← State.unanswered_eq, hu])] at h
    obtain ⟨hcore, hasked⟩ := Prod.mk.inj h
    refine ⟨hcore, ?_⟩
    rw [State.recorded, hasked]
    cases hl : s.asked d .bar with
    | nil =>
      rw [State.unanswered_eq, hl] at hu
      cases hu
    | cons o l =>
      rw [State.barView, hl]
      rfl

/-! BAR_ARRIVAL. -/

/-- The slot of a barrier after an arrival that it counts (R58). -/
def BarSlot.arrived (b : BarSlot) (n rank : Nat) : BarSlot :=
  if !(b.count + 1 < n) then { count := 0, expect := 0, phase := !b.phase, ranks := [] }
  else { b with count := b.count + 1, expect := n, ranks := b.ranks ++ [rank] }

/-- The state in which an arrival has been counted at the host `h`. -/
def State.arrivedAt (s : State) (h : Nat) (slot : BitVec 3) (n : Nat) : State :=
  s.modCore h (fun k => { k with bars := k.bars.set slot.toNat (((s.core h).bars.get slot.toFin).arrived n s.cxCore.rank) slot.isLt })

/-- An arrival that is refused raises ILL with cause 13 in X (R58). -/
def State.barRefused (s : State) : State := raiseTrap (s.answer s.cx.core .bar) s.cx.core .x s.cxCore.x.pc 0 13 0 s.cxCore.x.pc 0

section
variable {s : State}

theorem execBarArrival_early (h : strands.all (fun t => (s.cxCore.strand t).atBar) = false ∨ s.cxCore.allPerformed = false) :
    exec .barArrival s = .next s := by
  refine (show exec .barArrival s = execBarArrival s from rfl).trans ?_
  rw [execBarArrival]
  refine if_pos ?_
  rw [← State.cxCore]
  rcases h with h | h <;> rw [h] <;> simp

section
variable {slot : BitVec 3} {coord : BitVec 9} {n : Nat} (hall : strands.all (fun t => (s.cxCore.strand t).atBar) = true)
  (hp : s.cxCore.allPerformed = true) (hat : s.cxCore.barAt = some (n, slot, coord))
include hall hp hat

theorem execBarArrival_noHost (hc : coreOfCoord coord = none) : exec .barArrival s = .next s.barRefused := by
  refine (show exec .barArrival s = execBarArrival s from rfl).trans ?_
  rw [execBarArrival, ← State.cxCore]
  simp only [hall, hp, hat, hc]
  rfl

/-- An arrival at its host, in the order of its tests. -/
theorem execBarArrival_host {h : Nat} (hc : coreOfCoord coord = some h) : exec .barArrival s =
    if (s.recorded s.cx.core .bar).isSome = true then .next (s.release1 s.cx.core)
    else if h ≠ s.cx.core ∧ (!s.inGang s.cx.core h) = true then .next s.barRefused
    else if ((s.core h).bars.get slot.toFin).ranks.contains s.cxCore.rank = true then .next s
    else if h ≠ s.cx.core ∧ (s.asked s.cx.core .bar).isEmpty = true then .next (s.request s.cx.core .bar)
    else if s.unanswered s.cx.core .bar = true then .next s
    else if 0 < ((s.core h).bars.get slot.toFin).count ∧ ((s.core h).bars.get slot.toFin).expect ≠ n then .next s.barRefused
    else .next (if (!decide (((s.core h).bars.get slot.toFin).count + 1 < n)) = true then
      ((((s.core h).bars.get slot.toFin).ranks.filterMap (s.coreOfRank s.cx.core)) ++ [s.cx.core]).foldl State.release1 (s.arrivedAt h slot n)
      else s.arrivedAt h slot n) := by
  refine (show exec .barArrival s = execBarArrival s from rfl).trans ?_
  rw [execBarArrival, ← State.cxCore]
  simp only [hall, hp, hat, hc]
  rfl

end

theorem CoreSt.barAt_of_decode {k : CoreSt} {w p : Word} {c : WordClass} {cnt : BitVec 8} {slot : BitVec 3} {coord : BitVec 9}
    (hw : k.slot (k.textIdx k.x.pc) = some (w, c)) (hp : p = (k.slot (k.textIdx k.x.pc + 1)).elim 0 (·.1))
    (hd : decodeHead w p = .ok (.bar cnt slot coord)) : k.barAt = some (cnt.toNat + 1, slot, coord) := by
  rw [hp] at hd
  simp only [CoreSt.barAt, hw, hd]

/-! The state after an arrival that is counted. -/

section
variable (s : State) (h : Nat) (slot : BitVec 3) (n d : Nat)

theorem State.arrivedAt_core : ∃ b, (s.arrivedAt h slot n).core d = { s.core d with bars := b } ∧
    (d = h → b.get slot.toFin = ((s.core h).bars.get slot.toFin).arrived n s.cxCore.rank) ∧ (d ≠ h → b = (s.core d).bars) := by
  by_cases hd : d = h
  · subst hd
    refine ⟨_, State.core_modCore_self _ _ _, fun _ => ?_, fun hne => absurd rfl hne⟩
    rw [Vector.get_eq_getElem]
    exact Vector.getElem_set_self _
  · exact ⟨(s.core d).bars, State.core_modCore_ne _ _ _ _ hd, fun he => absurd he hd, fun _ => rfl⟩

theorem State.arrivedAt_slot : ((s.arrivedAt h slot n).core h).bars.get slot.toFin = ((s.core h).bars.get slot.toFin).arrived n s.cxCore.rank := by
  obtain ⟨b, hb, hslot, -⟩ := s.arrivedAt_core h slot n h
  rw [hb]
  exact hslot rfl

theorem State.arrivedAt_strand (y : Strand) : ((s.arrivedAt h slot n).core d).strand y = (s.core d).strand y := by
  obtain ⟨b, hb, -⟩ := s.arrivedAt_core h slot n d
  rw [hb]
  cases y <;> rfl

theorem State.arrivedAt_core_ne (hd : d ≠ h) : (s.arrivedAt h slot n).core d = s.core d := State.core_modCore_ne _ _ _ _ hd

end

theorem BarSlot.arrived_more {b : BarSlot} {cnt rank : Nat} (h : b.count < cnt) :
    b.arrived (cnt + 1) rank = { b with count := b.count + 1, expect := cnt + 1, ranks := b.ranks ++ [rank] } :=
  if_neg (by simp [h])

theorem BarSlot.arrived_last {b : BarSlot} {cnt rank : Nat} (h : cnt ≤ b.count) :
    b.arrived (cnt + 1) rank = { count := 0, expect := 0, phase := !b.phase, ranks := [] } :=
  if_pos (by simp [Nat.not_lt.mpr h])

section
variable {slot : BitVec 3} {n h : Nat}

/-- What becomes of the cores of a phase whose last core has arrived (R58, R274). -/
theorem State.released_all (s : State) (h : Nat) (slot : BitVec 3) (n : Nat) (l : List Nat) (d : Nat) :
    let t := l.foldl State.release1 (s.arrivedAt h slot n)
    (t.core h).bars.get slot.toFin = ((s.core h).bars.get slot.toFin).arrived n s.cxCore.rank ∧ t.mem = s.mem ∧
    (d ∈ l → (s.unanswered d .bar = false → t.asked d .bar = [] ∧ ∀ y, (t.core d).strand y = ((s.core d).strand y).passed) ∧
      (s.unanswered d .bar = true → t.recorded d .bar = some [] ∧ ∀ y, (t.core d).strand y = (s.core d).strand y)) ∧
    (d ∉ l → d ≠ h → t.core d = s.core d) := by
  intro t
  have hview : ∀ e, t.barView e = if e ∈ l then releasedView ((s.arrivedAt h slot n).barView e) else (s.arrivedAt h slot n).barView e :=
    fun e => State.foldl_release1_barView _ e l
  refine ⟨?_, State.foldl_release1_mem _ l, fun hd => ?_, fun hd hne => ?_⟩
  · rw [← s.arrivedAt_slot]
    have hh := hview h
    split at hh
    · obtain ⟨hpass, hkeep⟩ := State.released_of_view hh
      cases hu : (s.arrivedAt h slot n).unanswered h .bar with
      | false => rw [(hpass hu).1, CoreSt.passBar_bars]
      | true => rw [(hkeep hu).1]
    · rw [(Prod.mk.inj hh).1]
  · obtain ⟨hpass, hkeep⟩ := State.released_of_view ((hview d).trans (if_pos hd))
    refine ⟨fun hu => ?_, fun hu => ?_⟩
    · obtain ⟨hcore, hasked⟩ := hpass hu
      exact ⟨hasked, fun y => by rw [hcore, CoreSt.passBar_strand, s.arrivedAt_strand]⟩
    · obtain ⟨hcore, hrec⟩ := hkeep hu
      exact ⟨hrec, fun y => by rw [hcore, s.arrivedAt_strand]⟩
  · rw [(Prod.mk.inj ((hview d).trans (if_neg hd))).1, s.arrivedAt_core_ne h slot n d hne]

end

/-- A core whose release was lost and comes again passes (R274). -/
theorem State.release1_passes {s : State} (hall : strands.all (fun t => (s.cxCore.strand t).atBar) = true) (hu : s.unanswered s.cx.core .bar = false) :
    (s.release1 s.cx.core).asked s.cx.core .bar = [] ∧ (s.release1 s.cx.core).mem = s.mem ∧
    ∀ y, (s.release1 s.cx.core).cxCore.strand y = { s.cxCore.strand y with atBar := false }.advance ((s.cxCore.strand y).pc + 8) 2 := by
  have hcx : (s.release1 s.cx.core).cx = s.cx := by
    unfold State.release1
    split <;> rfl
  obtain ⟨hcore, hasked⟩ := (State.released_of_view ((s.release1_barView s.cx.core s.cx.core).trans (if_pos rfl))).1 hu
  refine ⟨hasked, s.release1_mem _, fun y => ?_⟩
  have hy : (s.cxCore.strand y).atBar = true := List.all_eq_true.mp hall y (by cases y <;> decide)
  rw [State.cxCore, hcx, hcore, CoreSt.passBar_strand]
  exact if_pos hy

/-- The barrier's part of O46: an arrival by what its core stands at, its host and the slot there. -/
theorem barArrival_clauses {s : State} {cnt : BitVec 8} {slot : BitVec 3} {coord : BitVec 9}
    (hall : strands.all (fun t => (s.cxCore.strand t).atBar) = true) (hp : s.cxCore.allPerformed = true)
    (hat : s.cxCore.barAt = some (cnt.toNat + 1, slot, coord)) :
    (coreOfCoord coord = none ∨
        (s.recorded s.cx.core .bar = none ∧ ∃ h, coreOfCoord coord = some h ∧ h ≠ s.cx.core ∧ s.inGang s.cx.core h = false) →
      exec .barArrival s = .next s.barRefused) ∧
    ((coreOfCoord coord).isSome = true → (s.recorded s.cx.core .bar).isSome = true → s.unanswered s.cx.core .bar = false →
      ∃ t, exec .barArrival s = .next t ∧ t.asked s.cx.core .bar = [] ∧ t.mem = s.mem ∧ ∀ y, t.cxCore.strand y =
        { s.cxCore.strand y with atBar := false }.advance ((s.cxCore.strand y).pc + 8) 2) ∧
    ∀ h b, coreOfCoord coord = some h → h = s.cx.core ∨ s.inGang s.cx.core h = true → b = (s.core h).bars.get slot.toFin →
      s.recorded s.cx.core .bar = none →
      (s.cxCore.rank ∈ b.ranks → exec .barArrival s = .next s) ∧
      (s.cxCore.rank ∉ b.ranks → h ≠ s.cx.core →
        (s.asked s.cx.core .bar = [] → exec .barArrival s = .next (s.request s.cx.core .bar)) ∧
        (s.asked s.cx.core .bar ≠ [] → s.unanswered s.cx.core .bar = true → exec .barArrival s = .next s)) ∧
      (s.cxCore.rank ∉ b.ranks → h = s.cx.core ∨ s.asked s.cx.core .bar ≠ [] → s.unanswered s.cx.core .bar = false →
        (0 < b.count → b.expect ≠ cnt.toNat + 1 → exec .barArrival s = .next s.barRefused) ∧
        (b.count < cnt.toNat → (0 < b.count → b.expect = cnt.toNat + 1) → exec .barArrival s = .next (s.arrivedAt h slot (cnt.toNat + 1))) ∧
        (cnt.toNat ≤ b.count → (0 < b.count → b.expect = cnt.toNat + 1) → exec .barArrival s =
          .next (((b.ranks.filterMap (s.coreOfRank s.cx.core)) ++ [s.cx.core]).foldl State.release1 (s.arrivedAt h slot (cnt.toNat + 1))))) := by
  have host := fun {h} => execBarArrival_host (h := h) hall hp hat
  refine ⟨?refused, ?again, ?arrives⟩
  case refused =>
    rintro (hc | ⟨hrec, h, hc, hne, hg⟩)
    · exact execBarArrival_noHost hall hp hat hc
    · rw [host hc, if_neg (by simp [hrec]), if_pos ⟨hne, by simp [hg]⟩]
  case again =>
    intro hc hrec hu
    obtain ⟨h, hc⟩ := Option.isSome_iff_exists.mp hc
    obtain ⟨hasked, hmem, hstrand⟩ := State.release1_passes hall hu
    exact ⟨_, (host hc).trans (if_pos hrec), hasked, hmem, hstrand⟩
  case arrives =>
    rintro h b hc hg rfl hrec
    have hgang : ¬(h ≠ s.cx.core ∧ (!s.inGang s.cx.core h) = true) := by
      rintro ⟨hne, hno⟩
      rw [hg.resolve_left hne] at hno
      cases hno
    rw [host hc, if_neg (by simp [hrec]), if_neg hgang]
    refine ⟨fun hr => if_pos (List.contains_iff_mem.mpr hr), fun hr hne => ⟨fun ha => ?_, fun ha hu => ?_⟩, fun hr ha hu => ?_⟩
    · rw [if_neg (by simpa using hr), if_pos ⟨hne, by rw [ha]; rfl⟩]
    · rw [if_neg (by simpa using hr), if_neg (by simp [ha]), if_pos hu]
    · have hsent : ¬(h ≠ s.cx.core ∧ (s.asked s.cx.core .bar).isEmpty = true) := by
        rintro ⟨hne, hempty⟩
        exact ha.resolve_left hne (List.isEmpty_iff.mp hempty)
      rw [if_neg (by simpa using hr), if_neg hsent, if_neg (by simp [hu])]
      refine ⟨fun h0 he => if_pos ⟨h0, he⟩, fun hlt he => ?_, fun hle he => ?_⟩
      · rw [if_neg (fun hbad => hbad.2 (he hbad.1)), if_neg (by simp [hlt])]
      · rw [if_neg (fun hbad => hbad.2 (he hbad.1)), if_pos (by simp [hle])]

end

end Sys2Proof.Machine
end

section
/-! PROOFS. What a strand's turn does at its boundaries: words that it skips, faults that are due, windows of events, and the end of a member
(R42, R50, R95, R164, R165, R202, R210, R232, R292). -/

namespace Sys2Proof.Machine

/-! Skipped words (R42). -/

theorem WentOn.trans {t u v : StrandSt} (h : WentOn t u) (g : WentOn u v) : WentOn t v := by
  unfold WentOn at *
  rw [g, h]

section
variable {k : CoreSt} {t : Strand} {n : Nat}

theorem headWalk_skip {idx : Nat} {w : Word} {runPc : BitVec 32} {words : Nat} {mods : Mods} (h : headWalk k t idx w runPc words mods = .skip n) :
    n = words := by
  unfold headWalk at h
  split at h
  · split at h <;> cases h
  · cases h
    rfl

theorem misplacedWalk_ne_skip (pc : BitVec 32) (w : Walk) : misplacedWalk pc w ≠ .skip n := by
  unfold misplacedWalk
  split
  · nofun
  · split <;> nofun
  · next h _ => exact h n

theorem walkRun_skip {run rest : List Word} {h : Nat} (hr : rest ≠ []) (hw : walkRun k t run rest h = .skip n) : 0 < n := by
  have hpos : 0 < rest.length := List.length_pos_of_ne_nil hr
  unfold walkRun at hw
  extract_lets runPc hd at hw
  clear_value hd
  split at hw
  · split at hw
    · have := headWalk_skip hw
      omega
    · cases hw
  · split at hw
    · cases hw
    · split at hw
      · cases hw
      · split at hw
        · cases hw
        · split at hw
          · cases hw
          · cases hw
            exact Nat.one_pos

/-- The run of modifiers that begins at one is not empty. -/
theorem prefixRun_modifier {idx : Nat} {w : Word} (h : k.slot idx = some (w, .modifier)) : prefixRun ((k.block idx).drop (idx % 8)) ≠ [] := by
  obtain ⟨hlt, he⟩ := List.getElem?_eq_some_iff.mp h
  rw [List.drop_eq_getElem_cons hlt, he]
  simp [prefixRun]

theorem headWords_pos (w : Word) (b : Bool) : 0 < headWords (some (w, .head b)) := by
  unfold headWords
  split
  · split <;> decide
  · next h => exact absurd rfl (h w b)

/-- What a strand skips is at least one word. -/
theorem CoreSt.walk_skip (h : k.walk t = .skip n) : 0 < n := by
  unfold CoreSt.walk at h
  dsimp only at h
  generalize hidx : k.textIdx (k.strand t).pc = idx at h
  cases hslot : k.slot idx with
  | none =>
    simp only [hslot] at h
    cases h
  | some x =>
    obtain ⟨w, cls⟩ := x
    simp only [hslot] at h
    generalize hrest : prefixRun (List.drop (idx % 8) (k.block idx)) = rest at h
    generalize (if (Decidable.decide ((idx + rest.length) % 8 = 0) && Decidable.decide (idx % 8 ≠ 0)) = true then none
      else k.slot (idx + rest.length)) = hd at h
    split at h
    · cases h
    · cases cls with
      | payload => cases h
      | broken c => cases h
      | head pre =>
        have hwords := headWords_pos w pre
        dsimp only at h
        split at h
        · split at h
          · cases h
          · cases h
            exact hwords
        · split at h
          · exact absurd h (misplacedWalk_ne_skip _ _)
          · have := headWalk_skip h
            omega
      | modifier =>
        have hne : rest ≠ [] := hrest ▸ prefixRun_modifier hslot
        have hpos := List.length_pos_of_ne_nil hne
        dsimp only at h
        split at h
        · split at h
          · cases h
          · obtain rfl := Walk.skip.inj h
            omega
        · split at h
          · exact absurd h (misplacedWalk_ne_skip _ _)
          · exact walkRun_skip hne h

end

theorem CoreSt.setStrand_textIdx (k : CoreSt) (t : Strand) (st : StrandSt) (a : BitVec 32) : (k.setStrand t st).textIdx a = k.textIdx a := by
  cases t <;> rfl

/-- Where a strand that may pass `left` words of block `blk` has come to: it has passed those, or its block, or stands at a word that it does not
skip. -/
def SkippedTo (left blk : Nat) (k : CoreSt) (t : Strand) (st : StrandSt) : Prop :=
  WentOn (k.strand t) st ∧ st.walked ≤ (k.strand t).walked + left ∧
    (st.atEnd = true ∨ k.textIdx st.pc / 8 ≠ blk ∨ ∀ n, (k.setStrand t st).walk t = .skip n → (k.strand t).walked + left < st.walked + n)

theorem SkippedTo.stays {left blk : Nat} {k : CoreSt} {t : Strand}
    (h : (k.strand t).atEnd = true ∨ k.textIdx (k.strand t).pc / 8 ≠ blk ∨ ∀ n, k.walk t = .skip n → left < n) : SkippedTo left blk k t (k.strand t) := by
  refine ⟨.refl _, Nat.le_add_right _ _, h.imp_right (Or.imp_right fun h n hn => ?_)⟩
  rw [CoreSt.setStrand_strand] at hn
  exact Nat.add_lt_add_left (h n hn) _

theorem SkippedTo.passes {left blk n : Nat} {k : CoreSt} {t : Strand} {u st : StrandSt} (hn : n ≤ left) (hu : WentOn (k.strand t) u)
    (hw : u.walked = (k.strand t).walked + n) (h : SkippedTo (left - n) blk (k.setStrand t u) t st) : SkippedTo left blk k t st := by
  obtain ⟨hst, hle, hend⟩ := h
  rw [CoreSt.strand_setStrand] at hst hle hend
  refine ⟨hu.trans hst, by omega, hend.imp_right (Or.imp (fun h => ?_) fun h m hm => ?_)⟩
  · rwa [CoreSt.setStrand_textIdx] at h
  · have := h m (by rwa [CoreSt.setStrand_setStrand])
    omega

/-- What a strand skips in one step (R42). -/
theorem skipSome_walks (fuel left blk : Nat) (k : CoreSt) (t : Strand) (hf : left ≤ fuel) :
    ∃ st, skipSome fuel left blk k t = k.setStrand t st ∧ SkippedTo left blk k t st := by
  induction fuel generalizing left k with
  | zero => exact ⟨_, (CoreSt.setStrand_strand k t).symm, .stays (.inr (.inr fun n hn => by have := CoreSt.walk_skip hn; omega))⟩
  | succ fuel ih =>
    have here : ((k.strand t).atEnd = true ∨ k.textIdx (k.strand t).pc / 8 ≠ blk ∨ ∀ n, k.walk t = .skip n → left < n) →
        ∃ st, k = k.setStrand t st ∧ SkippedTo left blk k t st := fun h => ⟨_, (CoreSt.setStrand_strand k t).symm, .stays h⟩
    unfold skipSome
    dsimp only
    split
    · next h =>
      rw [Bool.or_eq_true, decide_eq_true_eq] at h
      exact here (h.imp_right .inl)
    · split
      · next n hn =>
        split
        · next hle =>
          have hpos := CoreSt.walk_skip hn
          obtain ⟨st, hs, hto⟩ := ih (left - n) (k.setStrand t ((k.strand t).advance ((k.strand t).pc + BitVec.ofNat 32 (4 * n)) n)) (by omega)
          exact ⟨st, by rw [hs, CoreSt.setStrand_setStrand], .passes hle (.advance _ _ _) rfl hto⟩
        · next hgt =>
          refine here (.inr (.inr fun m hm => ?_))
          obtain rfl := Walk.skip.inj (hn.symm.trans hm)
          omega
      · next hno => exact here (.inr (.inr fun n hn => absurd hn (hno n)))

theorem execSkippedWordsWalk_walks (s : State) : ∃ t, exec .skippedWordsWalk s = .next t ∧ t.mem = s.mem ∧ t.tasks = s.tasks ∧
    (∀ y, y ≠ s.cx.strand → t.cxCore.strand y = s.cxCore.strand y) ∧ WentOn (s.cxStrand) t.cxStrand ∧ t.cxStrand.walked ≤ s.cxStrand.walked + 8 ∧
    (∀ c, c ≠ s.cx.core → t.core c = s.core c) ∧
    (t.cxStrand.atEnd = true ∨ s.cxCore.textIdx t.cxStrand.pc / 8 ≠ s.cxCore.textIdx s.cxStrand.pc / 8 ∨
      ∀ n, t.cxCore.walk s.cx.strand = .skip n → s.cxStrand.walked + 8 < t.cxStrand.walked + n) := by
  obtain ⟨st, hs, hto⟩ := skipSome_walks 8 8 ((s.cxCore.applySlip s.cx.strand).textIdx ((s.cxCore.applySlip s.cx.strand).strand s.cx.strand).pc / 8)
    (s.cxCore.applySlip s.cx.strand) s.cx.strand le_rfl
  obtain ⟨hw, hle, hend⟩ := hto
  obtain ⟨-, -, hidx, -⟩ := s.cxCore.applySlip_text s.cx.strand
  rw [CoreSt.applySlip_strand] at hw hle hend
  rw [hidx, hidx] at hend
  have hcore : (s.setCore s.cx.core ((s.cxCore.applySlip s.cx.strand).setStrand s.cx.strand st)).cxCore =
      (s.cxCore.applySlip s.cx.strand).setStrand s.cx.strand st := State.core_setCore_self _ _ _
  have hstrand : (s.setCore s.cx.core ((s.cxCore.applySlip s.cx.strand).setStrand s.cx.strand st)).cxStrand = st := by
    rw [State.cxStrand, hcore]
    exact CoreSt.strand_setStrand _ _ _
  refine ⟨s.setCore s.cx.core ((s.cxCore.applySlip s.cx.strand).setStrand s.cx.strand st), ?_, rfl, rfl, fun y hy => ?_, ?_, ?_,
    fun c hc => State.core_setCore_ne _ _ _ _ hc, ?_⟩
  · refine (show exec .skippedWordsWalk s = execSkippedWordsWalk s from rfl).trans ?_
    rw [execSkippedWordsWalk, hs]
  · rw [hcore, CoreSt.strand_setStrand_ne _ _ _ _ hy, CoreSt.applySlip_strand]
  · rw [hstrand]
    exact hw
  · rw [hstrand]
    exact hle
  · rw [hstrand, hcore]
    exact hend

/-! Traps that are due. -/

/-- A trap is recorded with the gang of its core, and moves its strand alone. -/
theorem raiseTrap_records (s : State) (c : Nat) (t : Strand) (pc : BitVec 32) (cls cause code : Nat) (next : BitVec 32) (words : Nat) (mods : Mods)
    (due : Bool) : (raiseTrap s c t pc cls cause code next words mods due).core c = (s.core c).setStrand t { (s.core c).strand t with pc := pc } ∧
    ∀ g, s.taskOf c = some g → (raiseTrap s c t pc cls cause code next words mods due).taskOf c = some { g with
      traps := g.traps ++ [{ core := c, strand := t, cls := cls, cause := cause, code := code, next := next, words := words, wait := mods.wait,
                             sig := mods.sig, due := due }] } := by
  have hcore : (s.modCore c (fun k => k.setStrand t { k.strand t with pc := pc })).core c =
      (s.core c).setStrand t { (s.core c).strand t with pc := pc } := State.core_modCore_self _ _ _
  refine ⟨by rw [raiseTrap, State.core_modTaskOf, hcore], fun g hg => ?_⟩
  have hsame : SameTask s (s.modCore c (fun k => k.setStrand t { k.strand t with pc := pc })) c :=
    .of_core rfl rfl (by rw [hcore, CoreSt.setStrand_resident]) (by rw [hcore, CoreSt.setStrand_part]) (by rw [hcore, CoreSt.setStrand_task])
  refine (State.taskOf_modTaskOf _ _ _ ?_).trans ?_
  · exact fun _ => ⟨rfl, rfl⟩
  · rw [hsame.2, hg]
    rfl

theorem raiseTrap_outside (s : State) (t : Strand) (pc : BitVec 32) (cls cause code : Nat) (next : BitVec 32) (words : Nat) (mods : Mods) (due : Bool) :
    SameOutside s (raiseTrap s s.cx.core t pc cls cause code next words mods due) := (SameOutside.setCore s _).trans (.modTaskOf _ _ fun _ => rfl)

/-- A trap that is due is raised, what it is due for stays until it is reported (R292). -/
theorem raiseTrap_due {s : State} {t : Strand} {cls cause code : Nat} {u : State}
    (hu : u = raiseTrap s s.cx.core t (s.cxCore.strand t).pc cls cause code (s.cxCore.strand t).pc 0 (due := true)) :
    (u.cxCore.mIll = s.cxCore.mIll ∧ u.cxCore.nev = s.cxCore.nev) ∧ SameOutside s u ∧ ∀ g, s.taskOf s.cx.core = some g →
      ∃ g', u.taskOf s.cx.core = some g' ∧
        g'.traps = g.traps ++ [{ core := s.cx.core, strand := t, cls := cls, cause := cause, code := code, next := (s.cxCore.strand t).pc, words := 0,
                                 wait := none, sig := none, due := true }] := by
  obtain ⟨hcore, htask⟩ := raiseTrap_records s s.cx.core t (s.cxCore.strand t).pc cls cause code (s.cxCore.strand t).pc 0 Mods.none true
  have hout := raiseTrap_outside s t (s.cxCore.strand t).pc cls cause code (s.cxCore.strand t).pc 0 Mods.none true
  rw [← hu] at hcore htask hout
  have hk : u.cxCore = (s.core s.cx.core).setStrand t { (s.core s.cx.core).strand t with pc := (s.cxCore.strand t).pc } := by
    rw [State.cxCore, hout.1]
    exact hcore
  refine ⟨?_, hout, fun g hg => ⟨_, htask g hg, rfl⟩⟩
  rw [hk, CoreSt.setStrand_mIll, CoreSt.setStrand_nev]
  exact ⟨rfl, rfl⟩

section
variable {s : State}

theorem execIllAtNextBoundary_raises {c : IllCause} (h : s.cxCore.mIll = some c) : exec .illAtNextBoundary s =
    .next (raiseTrap s s.cx.core .m (s.cxCore.strand .m).pc 0 c.code 0 (s.cxCore.strand .m).pc 0 (due := true)) := by
  refine (show exec .illAtNextBoundary s = execIllAtNextBoundary s from rfl).trans ?_
  rw [execIllAtNextBoundary, h]
  rfl

theorem execNumTrap_raises {c src : Nat} (h : s.cxCore.nev.due.find? (fun d => nevStrand d.2 == s.cx.strand) = some (c, src)) : exec .numTrap s =
    .next (raiseTrap s s.cx.core s.cx.strand (s.cxCore.strand s.cx.strand).pc 1 0 (c + 16 * src) (s.cxCore.strand s.cx.strand).pc 0 (due := true)) := by
  refine (show exec .numTrap s = execNumTrap s from rfl).trans ?_
  rw [execNumTrap]
  simp only [h]

/-! The window of events (R164). -/

theorem execNevWindowEnd_ends {c : Nat} (hr : (s.core c).resident = true) (h0 : (s.core c).nev.window ≠ 0)
    (he : (s.core c).nev.window ≤ (s.core c).nev.elapsed) :
    exec (.nevWindowEnd c) s = .next (s.setCore c { s.core c with nev := (s.core c).nev.endWindow }) := by
  refine (show exec (.nevWindowEnd c) s = execNevWindowEnd c s from rfl).trans ?_
  rw [execNevWindowEnd, if_pos hr, Nev.expire, if_pos ⟨h0, he⟩]

end

/-! The end of a member (R50). -/

theorem State.taskOf_congr {s t : State} {c : Nat} (ht : t.tasks = s.tasks) (hr : (t.core c).resident = (s.core c).resident)
    (hp : (t.core c).part = (s.core c).part) (hk : (t.core c).task = (s.core c).task) : t.taskOf c = s.taskOf c := by
  simp only [State.taskOf, State.task?, hr, hp, hk, ht]

theorem State.task?_of_taskOf {s : State} {c : Nat} {g : Task} (h : s.taskOf c = some g) : s.task? g.part g.id = some g := by
  unfold State.taskOf at h
  split at h
  · obtain ⟨-, hp, hi⟩ := State.task?_some h
    rw [hp, hi]
    exact h
  · cases h

theorem State.clearWeir_holdsLic (s : State) (l : List Nat) (c : Nat) : (s.clearWeir l).holdsLic c = s.holdsLic c := by
  refine List.foldlRecOn (motive := fun u : State => u.holdsLic c = s.holdsLic c) l _ rfl fun u hu d _ => ?_
  dsimp only
  split
  · rw [← hu]
    by_cases hd : pairOf c = pairOf d
    · rw [State.holdsLic, State.holdsLic, hd, State.pair_setPair_self]
    · rw [State.holdsLic, State.holdsLic, State.pair_setPair_ne _ _ _ _ hd]
  · exact hu

/-- A core that the end of its member has left (R202, R225, R232). -/
def State.instanceLeft (s : State) (c : Nat) : State :=
  let s := (s.releaseCore c).modCore c CoreSt.finish
  if s.inGang c (twinOf c) && (s.core (twinOf c)).finished then s.clearWeir [c, twinOf c] else s

/-- What the end of a member leaves of the state. -/
theorem State.instanceLeft_facts (s : State) (c : Nat) : (s.instanceLeft c).cx = s.cx ∧ (s.instanceLeft c).tasks = s.tasks ∧
    (s.instanceLeft c).mem = (s.settle c).mem ∧ (s.instanceLeft c).holdsLic c = false ∧
    (∃ l, (s.instanceLeft c).core c = { s.core c with ebuf := [], stash := l }.finish) ∧
    ∀ d, d ≠ c → ((s.instanceLeft c).core d).finished = (s.core d).finished := by
  have hrel := State.Releases.releaseCore s c
  have hleft : ∃ p, s.instanceLeft c = { (s.releaseCore c).modCore c CoreSt.finish with pairs := p } := by
    unfold State.instanceLeft
    dsimp only
    split
    · exact State.clearWeir_changes _ _
    · exact ⟨_, rfl⟩
  have hlic : (s.instanceLeft c).holdsLic c = ((s.releaseCore c).modCore c CoreSt.finish).holdsLic c := by
    unfold State.instanceLeft
    dsimp only
    split
    · exact State.clearWeir_holdsLic _ _ _
    · rfl
  obtain ⟨p, hp⟩ := hleft
  have hcore : ∀ d, (s.instanceLeft c).core d = ((s.releaseCore c).modCore c CoreSt.finish).core d := fun d => by
    rw [hp]
    rfl
  refine ⟨by rw [hp]; exact hrel.cx, by rw [hp]; exact hrel.tasks, by rw [hp]; exact s.releaseCore_mem c, ?_, ?_, fun d hd => ?_⟩
  · rw [hlic]
    exact s.releaseCore_holdsLic c
  · obtain ⟨b, l, hb⟩ := hrel.core c
    have hnil : b = [] := by
      have := s.releaseCore_ebuf c
      rwa [hb] at this
    exact ⟨l, by rw [hcore, State.core_modCore_self, hb, hnil]⟩
  · obtain ⟨b, l, hb⟩ := hrel.core d
    rw [hcore, State.core_modCore_ne _ _ _ _ hd, hb]

theorem State.endTask_keeps (s : State) (t : Task) (ph : TaskPhase) (kd det ad : Nat) :
    (s.endTask t ph kd det ad).cx = s.cx ∧ ∀ d, (s.endTask t ph kd det ad).core d = s.core d := by
  have hpool : (s.leftPool t).cx = s.cx ∧ ∀ d, (s.leftPool t).core d = s.core d := by
    unfold State.leftPool State.leavePool
    split
    · dsimp only
      split <;> exact ⟨rfl, fun _ => rfl⟩
    · exact ⟨rfl, fun _ => rfl⟩
  rw [State.endTask_eq]
  exact hpool

theorem State.task?_modTask_some {s : State} {p i : Nat} {g : Task} {f : Task → Task} (h : s.task? p i = some g) (hf : KeepsKey f) :
    (s.modTask p i f).task? p i = some (f g) := by
  rw [State.task?_modTask _ _ _ _ hf, h]
  rfl

theorem State.task?_endTask (s : State) (t : Task) (ph : TaskPhase) (kd det ad : Nat) {g : Task} (h : s.task? t.part t.id = some g) :
    ∃ g', (s.endTask t ph kd det ad).task? t.part t.id = some g' ∧ g'.phase = ph ∧ g'.kind = kd := by
  have hpool : ∃ g', (s.leftPool t).task? t.part t.id = some g' := by
    unfold State.leftPool State.leavePool
    split
    · dsimp only
      refine ⟨_, State.task?_modTask_some (g := g) ?_ ?_⟩
      · split <;> exact h
      · exact fun _ => ⟨rfl, rfl⟩
    · exact ⟨g, h⟩
  obtain ⟨g', hg'⟩ := hpool
  rw [State.endTask_eq]
  exact ⟨_, State.task?_modTask_some hg' (Task.endedAs_keepsKey _ _ _ _ _), rfl, rfl⟩

section
variable {s : State} {g : Task}

theorem execInstanceComplete_waits (h : s.cxCore.instanceDone = false) : exec .instanceComplete s = .next s := by
  refine (show exec .instanceComplete s = execInstanceComplete s from rfl).trans ?_
  rw [execInstanceComplete, ← State.cxCore, h]
  rfl

/-- The end of a member, and with the last of a gang that of its task (R50). -/
theorem execInstanceComplete_left (h : s.cxCore.instanceDone = true) (hg : s.taskOf s.cx.core = some g) : exec .instanceComplete s =
    .next (if (!g.cores.all (fun d => ((s.instanceLeft s.cx.core).core d).finished)) = true then s.instanceLeft s.cx.core
      else ((((s.instanceLeft s.cx.core).noteCounts g (g.cores.map (s.instanceLeft s.cx.core).core)).freeGang g.cores).endTask g .complete 0 0 0)) := by
  have hrel := State.Releases.releaseCore s s.cx.core
  obtain ⟨b, l, hb⟩ := hrel.core s.cx.core
  have htask : ((s.releaseCore s.cx.core).modCore s.cx.core CoreSt.finish).taskOf s.cx.core = some g := by
    rw [← hg]
    refine State.taskOf_congr hrel.tasks ?_ ?_ ?_ <;> rw [State.core_modCore_self, hb] <;> rfl
  refine (show exec .instanceComplete s = execInstanceComplete s from rfl).trans ?_
  rw [execInstanceComplete, ← State.cxCore, h]
  simp only [Bool.not_true, Bool.false_eq_true, if_false, htask]
  rw [← apply_ite Host.Outcome.next]
  rfl

theorem instanceLeft_all : g.cores.all (fun d => ((s.instanceLeft s.cx.core).core d).finished) = true ↔
    ∀ d ∈ g.cores, d ≠ s.cx.core → (s.core d).finished = true := by
  obtain ⟨-, -, -, -, ⟨l, hown⟩, hother⟩ := s.instanceLeft_facts s.cx.core
  rw [List.all_eq_true]
  refine ⟨fun h d hd hne => by rw [← hother d hne]; exact h d hd, fun h d hd => ?_⟩
  by_cases hne : d = s.cx.core
  · rw [hne, hown]
    rfl
  · rw [hother d hne]
    exact h d hd hne

theorem execInstanceComplete_leaves (h : s.cxCore.instanceDone = true) (hg : s.taskOf s.cx.core = some g)
    (hmore : ¬(∀ d ∈ g.cores, d ≠ s.cx.core → (s.core d).finished = true)) :
    ∃ t, exec .instanceComplete s = .next t ∧ t.cxCore.finished = true ∧ t.cxCore.stash = [] ∧ t.holdsLic s.cx.core = false ∧
      t.mem = (s.settle s.cx.core).mem ∧ t.cxCore.ebuf = [] ∧ t.tasks = s.tasks ∧ t.cxCore.li = Vector.replicate 4 [] ∧
      (∀ q ∈ t.cxCore.lo.toList, q.rows = []) := by
  obtain ⟨hcx, htasks, hmem, hlic, ⟨l, hown⟩, -⟩ := s.instanceLeft_facts s.cx.core
  have hall : (!g.cores.all (fun d => ((s.instanceLeft s.cx.core).core d).finished)) = true := by
    rw [Bool.not_eq_true', ← Bool.not_eq_true, instanceLeft_all]
    exact hmore
  have hk : (s.instanceLeft s.cx.core).cxCore = { s.core s.cx.core with ebuf := [], stash := l }.finish := by rw [State.cxCore, hcx, hown]
  refine ⟨s.instanceLeft s.cx.core, (execInstanceComplete_left h hg).trans (congrArg _ (if_pos hall)), ?_, ?_, hlic, hmem, ?_, htasks, ?_, fun q hq => ?_⟩
  · rw [hk]
    rfl
  · rw [hk]
    rfl
  · rw [hk]
    rfl
  · rw [hk]
    rfl
  · rw [hk, CoreSt.finish, Vector.toList_map] at hq
    obtain ⟨q', -, rfl⟩ := List.mem_map.mp hq
    rfl

theorem execInstanceComplete_ends (h : s.cxCore.instanceDone = true) (hg : s.taskOf s.cx.core = some g)
    (hlast : ∀ d ∈ g.cores, d ≠ s.cx.core → (s.core d).finished = true) (hc : s.cx.core ∈ g.cores) :
    ∃ t g', exec .instanceComplete s = .next t ∧ t.task? g.part g.id = some g' ∧ g'.phase = .complete ∧ g'.kind = 0 ∧ t.cxCore.resident = false := by
  obtain ⟨hcx, htasks, -⟩ := s.instanceLeft_facts s.cx.core
  generalize hu : (s.instanceLeft s.cx.core).noteCounts g (g.cores.map (s.instanceLeft s.cx.core).core) = u
  have hfree := State.Frees.freeGang u g.cores
  have hnoted : u.task? g.part g.id = some { g with iter := (finalCounts (g.cores.map (s.instanceLeft s.cx.core).core)).1,
                                                     sat := (finalCounts (g.cores.map (s.instanceLeft s.cx.core).core)).2 } := by
    rw [← hu]
    refine State.task?_modTask_some (g := g) ((State.task?_congr htasks _ _).trans (State.task?_of_taskOf hg)) ?_
    exact fun _ => ⟨rfl, rfl⟩
  obtain ⟨g', hg', hphase, hkind⟩ := State.task?_endTask (u.freeGang g.cores) g .complete 0 0 0
    ((State.task?_congr hfree.tasks _ _).trans hnoted)
  have hall := instanceLeft_all.mpr hlast
  obtain ⟨hend, hcores⟩ := State.endTask_keeps (u.freeGang g.cores) g .complete 0 0 0
  refine ⟨(u.freeGang g.cores).endTask g .complete 0 0 0, g', (execInstanceComplete_left h hg).trans ?_, hg', hphase, hkind, ?_⟩
  · rw [if_neg (by simp [hall]), hu]
  · have hucx : u.cx = s.cx := by rw [← hu]; exact hcx
    rw [State.cxCore, hend, hfree.cx, hucx, hcores]
    exact u.freeGang_core g.cores _ hc

end

/-- Settles O46: BAR and its arrival, then each step that a turn takes at a boundary. -/
theorem barriersAndBoundaries : Obligations.BarriersAndBoundaries := by
  intro s cnt slot coord
  refine ⟨fun h hc => ⟨execBar_misplaced hc, fun hp => ?bar⟩, execBarArrival_early, fun w p c hall hperf hw hp hd => ?arrival,
    execSkippedWordsWalk_walks s, rfl,
    fun c h => ?ill, fun c src h => ?num, fun c hr h0 he => ?window, execInstanceComplete_waits,
    fun g h hg _ hmore => execInstanceComplete_leaves h hg hmore,
    fun g h hg hlast hc => execInstanceComplete_ends h hg hlast hc⟩
  case bar =>
    refine ⟨_, execBar_stands hc hp, ?_, rfl, rfl, fun c hc => State.core_modCore_ne _ _ _ _ hc⟩
    rw [State.cxStrand_modCxStrand]
  case arrival =>
    obtain ⟨hrefused, hagain, harrives⟩ := barArrival_clauses hall hperf (CoreSt.barAt_of_decode hw hp hd)
    refine ⟨hrefused, hagain, fun h b hc hg hb hrec => ?_⟩
    obtain ⟨hthere, hfirst, hcounted⟩ := harrives h b hc hg hb hrec
    refine ⟨hthere, hfirst, fun hr ha hu => ?_⟩
    obtain ⟨hdiffers, hmore, hlast⟩ := hcounted hr ha hu
    refine ⟨hdiffers, fun hlt he => ⟨_, hmore hlt he, ?_, fun d y => s.arrivedAt_strand _ _ _ d y, rfl⟩, fun hle he => ?_⟩
    · rw [s.arrivedAt_slot, ← hb, BarSlot.arrived_more hlt]
    · have facts := s.released_all h slot (cnt.toNat + 1) (b.ranks.filterMap (s.coreOfRank s.cx.core) ++ [s.cx.core])
      refine ⟨_, hlast hle he, ?_, (facts h).2.1, fun d hd => (facts d).2.2.1 ?_, fun d hdh hdc hdr => (facts d).2.2.2 ?_ hdh⟩
      · rw [(facts h).1, ← hb, BarSlot.arrived_last hle]
      · rw [List.mem_append, List.mem_filterMap, List.mem_singleton]
        exact hd.symm
      · rw [List.mem_append, List.mem_filterMap, List.mem_singleton]
        rintro (⟨r, hr, hrd⟩ | hdc')
        · exact hdr r hr hrd
        · exact hdc hdc'
  case ill =>
    obtain ⟨⟨hill, -⟩, hout, htask⟩ := raiseTrap_due (s := s) (t := .m) (cls := 0) (cause := c.code) (code := 0) rfl
    exact ⟨_, execIllAtNextBoundary_raises h, hill.trans h, hout, htask⟩
  case num =>
    obtain ⟨⟨-, hnev⟩, hout, htask⟩ := raiseTrap_due (s := s) (t := s.cx.strand) (cls := 1) (cause := 0) (code := c + 16 * src) rfl
    exact ⟨_, execNumTrap_raises h, hnev, hout, htask⟩
  case window =>
    refine ⟨_, execNevWindowEnd_ends hr h0 he, ?_⟩
    rw [State.core_setCore_self]
    exact ⟨rfl, rfl, rfl, rfl, rfl, rfl⟩

end Sys2Proof.Machine
end
